-- ==== Sys2Proof/Word.lean ====
section
/-!
DEFINITION. Word types of the block.  Registers are 32 bits (R8), slots of host-memory structures 64 bits (R15),
exposure numbers 72 bits (R26), ledger registers 108 bits (R189), sample words 36 bits (R128).
-/

namespace Sys2Proof

/-- A BAR0 register value (R8). -/
abbrev Word := BitVec 32

/-- A 64-bit slot of a structure in host memory (R15). -/
abbrev Slot64 := BitVec 64

/-- A byte of host memory or FRAM. -/
abbrev Byte := BitVec 8

/-- An exposure number (R26). -/
abbrev ExpNo := BitVec 72

/-- A ledger, withheld or quantity register (R189, R235). -/
abbrev Ledger := BitVec 108

/-- A sample word (R128). -/
abbrev SampleWord := BitVec 36

/-- Division rounding half away from zero, the rounding of R112, R132, R144 and R185; the divisor is positive. -/
def roundDiv (a : Int) (b : Nat) : Int :=
  if a < 0 then -((2 * (-a) + b) / (2 * b)) else (2 * a + b) / (2 * b)

/-- Limits a value to a range. -/
def clampInt (lo hi x : Int) : Int := if x < lo then lo else if hi < x then hi else x

end Sys2Proof
end

