-- ==== Sys2Proof/Syntax.lean ====
section
/-!
DEFINITION. The commands the block takes: one constructor of `Instr` per row of spec/opcode_table.json, with the operands
the row needs, and the plain data those operands are made of.  A register write carries the port and the value written,
a host command its header (source, TAG, deadline) and its argument slots as R391 lays them out; an event of the hardware
carries what the outside world alone can supply (samples, supply crossings, received frames, host memory read by DMA).
An operand with a value of its own may be left out: a read is then 32 bits wide, a frame follows no damaged one, the
carrier detector sees energy over a silent line, a marker names neither SYNC nor snapshot, and a boundary brings nothing
from outside.
-/

namespace Sys2Proof

/-- A port through which software reaches BAR0 (R8): PCI Express or HSPI. -/
inductive Port where
  | pcie
  | hspi
  deriving DecidableEq, Repr

/-- Where a command comes from (R391, R258): descriptor `idx` of the CMD ring, the mailbox, or a CMD record of a
configuration image, which gives no completion (R394). -/
inductive CmdSrc where
  | ring (idx : BitVec 32)
  | mailbox (owner : Port)
  | image
  deriving DecidableEq, Repr

/-- The part of a command descriptor every command has (R391): its source, TAG, DLV and DEADLINE. -/
structure CmdHdr where
  src : CmdSrc
  tag : BitVec 32
  dlv : Bool
  deadline : BitVec 64
  deriving DecidableEq, Repr

/-- Cause of a DMA fault (R382, R412 event 0x0B01). -/
inductive DmaCause where
  | unsupported
  | completerAbort
  | poisoned
  | timeout
  deriving DecidableEq, Repr

/-- What a read of host memory by the device answers: the data, or a DMA fault with its cause and address (R382). -/
inductive Fetch (α : Type) where
  | ok (data : α)
  | fault (cause : DmaCause) (addr : BitVec 64)
  deriving DecidableEq, Repr

/-- A 64-byte descriptor of a host ring as eight little-endian slots (R14, R391, R401, R402). -/
structure Desc8 where
  d0 : BitVec 64
  d1 : BitVec 64
  d2 : BitVec 64
  d3 : BitVec 64
  d4 : BitVec 64
  d5 : BitVec 64
  d6 : BitVec 64
  d7 : BitVec 64
  deriving DecidableEq, Repr

/-- The host-written part of a buffer descriptor of a device ring (R397): ADDR, SIZE[31:0], COOKIE. -/
structure BufDesc where
  addr : BitVec 64
  size : BitVec 32
  cookie : BitVec 32
  deriving DecidableEq, Repr

/-- Buffer descriptors fetched for one device ring, from the first index the device does not hold yet. -/
structure Posted where
  ring : Nat
  descs : List (Fetch BufDesc)
  deriving DecidableEq, Repr

/-- What takes the PCI Express function down (R381, R405): PE_PERST_N low, a hot reset, or a link-down condition. -/
inductive LinkLoss where
  | perst
  | hotReset
  | linkDown
  deriving DecidableEq, Repr

/-- What ends STANDBY (R86, PWR_WAKE): the alarm, the periodic wake, or a TARGET write through HSPI with the
register value written. -/
inductive WakeCause where
  | alarm
  | periodic
  | target (v : BitVec 32)
  deriving DecidableEq, Repr

/-- What a power fail is recognised on (R87): PFAIL_N low for 64 HFREF cycles, or a power-fail monitor of R71. -/
inductive PfSource where
  | pin
  | vddio
  | vddc
  | vdda
  deriving DecidableEq, Repr

/-- The supply monitors of R71. -/
inductive Monitor where
  | pfVddio
  | pfVddc
  | pfVdda
  | ovVddc
  | ovVdda
  | ovVddio
  | bank (k : Nat) (v33 : Bool)
  | vldUv
  | vldOv
  deriving DecidableEq, Repr

/-- What one started channel brings to the exposure that ends: the bits sampled from MDATn in order (R94). -/
structure ChannelIn where
  ch : Nat
  stream : List Bool
  deriving DecidableEq, Repr

/-- What the link tells of the pairing registers of the device that PAIR_CTL.PARTNER names (R166): EN, SIDE, PARTNER, MPMASK and
the wiring of its points MP0 on. -/
structure PairPartner where
  en : Bool
  secondary : Bool
  partner : Nat
  mpmask : BitVec 32
  wiring : List Nat
  deriving DecidableEq, Repr

/-- What an exposure that ends takes in from outside (R24, R25): the channels' streams, pulse inputs whose second counter
disagrees (input, its count) (R236), words of the sample buffer changed by an upset (channel, sample index, bits inverted)
(R130), the SECDED errors its words hold (channel, sample index, two bits wrong) (R420), relative phase trims received from
the pairing primary (channel, D_pair) (R170), and the partner's pairing registers (R166). -/
structure BoundaryIn where
  chans : List ChannelIn
  pin2 : List (Nat × Nat)
  flips : List (Nat × Nat × BitVec 36)
  ecc : List (Nat × Nat × Bool)
  dPair : List (Nat × Int)
  partner : Option PairPartner
  deriving DecidableEq, Repr

/-- Nothing comes from outside at a boundary. -/
def BoundaryIn.empty : BoundaryIn :=
  { chans := [], pin2 := [], flips := [], ecc := [], dPair := [], partner := none }

/-- A hardware fault in one engine's computation of one exposure (R34, R414): what it adds to a channel's sum of squares
and to an element's active-power sum (point, element), and
the decisions of the trip logic at which its two lanes disagree (R417): reverse power of a point (true) or overcurrent of a
channel (false).  The lists are empty when the hardware is sound. -/
structure EngineUpset where
  ss : List (Nat × Int)
  p : List (Nat × Nat × Int)
  lanes : List (Bool × Nat)
  deriving DecidableEq, Repr

/-- What the fast converter samples at one FCLK edge (R267), in nanovolts: the ball's voltage (AIN0 − AIN1 for input 0), the supply
or reference that the sub-input names, or the die temperature in 10⁻⁹ °C (log 132). -/
abbrev Conv := Int

/-- One segment of a transmission: none when its CRC-32C does not match even where it was decoded; else its 8-byte header and 512 bytes of data (R293). -/
abbrev RxSeg := Option (BitVec 64 × List (BitVec 8))

/-- One symbol as received, in its 20 µs FFT window (R299, R309): whether a conversion carries OVR, the energies of its 128-sample
blocks, the received point divided by its hard decision for each carrier (carrier, real, imaginary in 2^-20), and the mean squared
decision error. -/
structure SymIn where
  ovr : Bool
  blocks : List Nat
  quots : List (Nat × Int × Int)
  err : Nat
  deriving DecidableEq, Repr

/-- A received transmission (R289): the 256 frame-control bits as decoded, the timestamps of its first preamble sample and of the end
of its last symbol, its two frame-control symbols and its payload symbols (one not listed is sound), the channel estimate of the
preamble, the design noise of the map in use in the units of `err` (R309), the segments it carries, whether the carriers that are
not erased meet the SNR of R295, the codewords that the decoder does not decode where R301 does not bind it to, and the keys the key
table holds for the contexts that are allocated, in their order (R323). -/
structure RxIn where
  fc : BitVec 256
  tsFirst : BitVec 64
  tsEnd : BitVec 64
  fcSyms : List SymIn
  syms : List SymIn
  est : List (Nat × Int × Int)
  noise : Nat
  segs : List RxSeg
  snrMet : Bool
  undecoded : List Nat
  keys : List (Fetch (BitVec 128))
  deriving DecidableEq, Repr

/-- What the receiver measures on a sounding frame (R305): SNR of each carrier 40 to 1720 in 0.5 dB, the impulse erasure
rate of each carrier in 1/1000, and the channel impulse response length at -30 dB in samples. -/
structure SoundIn where
  snr : List Int
  erasure : List Nat
  cir : Nat
  deriving DecidableEq, Repr

/-- The queues protected by SECDED (R420). -/
inductive EccQueue where
  | event
  | completion
  | record
  deriving DecidableEq, Repr

/-- The memories protected by SECDED (R420), in the order of their INDEX: of the contact-sheet buffer, the sample. -/
inductive EccMem where
  | sampleBuffer (ch : Nat) (sample : Nat)
  | filterBank
  | corrTable
  | config
  | ledger
  | engine
  | queue (q : EccQueue)
  | neighbour
  | sheet (sample : Nat)
  deriving DecidableEq, Repr

/-- A memory error found by the read of a scan pass (R416, R420): the memory, and whether two bits are wrong. -/
structure EccIn where
  mem : EccMem
  double : Bool
  deriving DecidableEq, Repr

/-- Upstream or downstream Tozar Link port (R432). -/
inductive TzPort where
  | up
  | down
  deriving DecidableEq, Repr

/-- Cause of a port loss (R434, R449). -/
inductive TzLoss where
  | codes
  | comma
  | frames
  deriving DecidableEq, Repr

/-- A slave's resolution frame (R440): position, exposure, for each running point whether it was fixed and its 40
increments; the events it forwards, as 16-word records. -/
structure ResFrame where
  /-- Receptions of the frame before this one that failed their CRC, at most 3 (R433). -/
  bad : Nat
  pos : Nat
  expno : BitVec 72
  points : List (Nat × Bool × List Nat)
  events : List (List (BitVec 32))
  /-- A cascade snapshot record of that device, if it travels with the frame (R441): its slots. -/
  record : Option (List (BitVec 64))
  deriving DecidableEq, Repr

/-- A boundary marker with its frame (R439): the number and start of the exposure that begins, for a SYNC of the sender the HFREF
cycles since its last boundary (R25), and the snapshots taken there in the whole cascade (R441): mask, automatic, latent. -/
structure Marker where
  expno : BitVec 72
  ts : BitVec 64
  sync : Option Nat
  snaps : List (BitVec 32 × Bool × Bool)
  deriving DecidableEq, Repr

/-- A mirror frame (R445). -/
structure MirFrame where
  /-- Receptions of the frame before this one that failed their CRC, at most 3 (R433). -/
  bad : Nat
  expno : BitVec 72
  ts : BitVec 64
  handover : Bool
  safe : Bool
  /-- Point, fixed (40 increments) or discarded (10 withheld totals). -/
  points : List (Nat × Bool × List Nat)
  /-- Releases applied: point, quantity, amount. -/
  releases : List (Nat × Nat × Nat)
  counts : List Nat
  sum36 : BitVec 36
  deriving DecidableEq, Repr

/-- A command or event of the block.  One constructor per row of the table of operations and events. -/
inductive Instr where
  /-- NOP (R396): Command that does nothing and completes DONE at taking. -/
  | nop (h : CmdHdr)
  /-- MP_START (R176): Command that starts the named metering points at the next exposure boundary after checking their definitions. -/
  | mpStart (h : CmdHdr) (a0 : BitVec 64)
  /-- MP_STOP (R176): Command that stops the named metering points at the next exposure boundary. -/
  | mpStop (h : CmdHdr) (a0 : BitVec 64)
  /-- COEF_LOAD (R145): Command that loads a compensation-filter coefficient bank from host memory, judged against the filter state. -/
  | coefLoad (h : CmdHdr) (a0 a1 : BitVec 64)
  /-- COEF_LOAD_CORR (R159): COEF_LOAD with bank CORR, which loads a channel's correction table to take effect at the next boundary. -/
  | coefLoadCorr (h : CmdHdr) (a0 a1 : BitVec 64)
  /-- COEF_SWAP (R146): Command that exchanges the active and inactive coefficient banks, at once or at a boundary with a cross-fade. -/
  | coefSwap (h : CmdHdr) (a0 : BitVec 64)
  /-- FILT_START (R149): Command that starts a stopped compensation filter at the next exposure boundary. -/
  | filtStart (h : CmdHdr) (a0 : BitVec 64)
  /-- FILT_STOP (R149): Command that stops a compensation filter at the next exposure boundary. -/
  | filtStop (h : CmdHdr) (a0 : BitVec 64)
  /-- SYNC (R137): SYNC command that requests a sync edge 128 MCLK periods after recognition. -/
  | sync (h : CmdHdr)
  /-- SNAPSHOT (R196): Command that requests a ledger record at the next boundary, latent or fixed. -/
  | snapshot (h : CmdHdr) (a0 a1 a2 : BitVec 64)
  /-- SNAPSHOT_AUTO (R198): SNAPSHOT with the AUTO flag, which starts, replaces or stops automatic snapshots. -/
  | snapshotAuto (h : CmdHdr) (a0 a1 a2 : BitVec 64)
  /-- CAL_WINDOW (R162): Command that starts a calibration window of N exposures on a metering point. -/
  | calWindow (h : CmdHdr) (a0 a1 a2 a3 : BitVec 64)
  /-- WITHHELD_RELEASE (R193): Command that releases withheld energy into the total ledger registers at the next exposure. -/
  | withheldRelease (h : CmdHdr) (a0 a1 a2 : BitVec 64)
  /-- RTC_CAPTURE (R346): Command that latches the time at the next tick edge and returns it. -/
  | rtcCapture (h : CmdHdr)
  /-- RTC_SET (R342): Command that loads the staging set and commits it at the next tick edge. -/
  | rtcSet (h : CmdHdr) (a0 a1 a2 : BitVec 64)
  /-- RTC_ADJUST_STEP (R344): RTC_ADJUST selecting a step, which adds a signed step to the time at the next tick edge. -/
  | rtcAdjustStep (h : CmdHdr) (a0 a1 a2 : BitVec 64)
  /-- RTC_ADJUST_SLEW (R345): RTC_ADJUST selecting a slew, which sets a slew rate and duration from the next tick edge. -/
  | rtcAdjustSlew (h : CmdHdr) (a0 a1 a2 : BitVec 64)
  /-- FCV_CAL (R276): Command that takes the fast converter for 2.56 ms of self-calibration. -/
  | fcvCal (h : CmdHdr)
  /-- FCV_SEQ (R275): Command that starts a sequence run and writes its result block to host memory. -/
  | fcvSeq (h : CmdHdr) (a0 a1 : BitVec 64)
  /-- CVU_SCAN (R370): Command that runs a check-value scan over a range in one space with an optional reference comparison. -/
  | cvuScan (h : CmdHdr) (a0 a1 a2 : BitVec 64)
  /-- FN_REINIT (R429): Command that reinitialises one named function at a boundary or at once. -/
  | fnReinit (h : CmdHdr) (a0 : BitVec 64)
  /-- FN_REINIT_SAFETY (R430): FN_REINIT with target SAFETY, which clears strike histories and reruns the start-up diagnostics. -/
  | fnReinitSafety (h : CmdHdr)
  /-- FN_REINIT_TZL (R443): FN_REINIT with target TZL, which retrains both ports and rejoins islanded devices at a cascade start. -/
  | fnReinitTzl (h : CmdHdr)
  /-- PWR_CYCLE (R357): Command that takes a proof and then holds system power off through PWRON. -/
  | pwrCycle (h : CmdHdr) (a0 : BitVec 64)
  /-- PROOF_NOW (R251): Command that requests a proof of KIND 0x01 at the next boundary. -/
  | proofNow (h : CmdHdr)
  /-- SEAL (R262): Command that seals the device and writes the identity. -/
  | seal (h : CmdHdr)
  /-- UNSEAL (R263): Command that increments AUDIT, writes identity and journal, and unseals when SEAL_N is low. -/
  | unseal (h : CmdHdr)
  /-- COMMAND_DEADLINE_EXPIRY (R39): Expiry of a waiting command's deadline, completing it with DEADLINE. -/
  | commandDeadlineExpiry (src : CmdSrc)
  /-- PLC_TX (R401): PLC_TX descriptor taken: the payload is read and a MAC frame is formed for transmission. -/
  | plcTx (d : Desc8) (payload : Fetch (List (BitVec 8))) (key : Fetch (BitVec 128))
  /-- DIR_ADD (R326): NET operation that adds a directory entry in the hashed table. -/
  | dirAdd (d : Desc8) (buf : Fetch (List (BitVec 8)))
  /-- DIR_SET (R402): NET operation that changes selected fields of a directory entry. -/
  | dirSet (d : Desc8) (buf : Fetch (List (BitVec 8)))
  /-- DIR_REMOVE (R326): NET operation that frees a directory entry and relinks its chain. -/
  | dirRemove (d : Desc8)
  /-- DIR_READ (R402): NET operation that writes the current directory entry to a buffer. -/
  | dirRead (d : Desc8)
  /-- CTX_READ (R402): NET operation that writes a neighbour context to a buffer. -/
  | ctxRead (d : Desc8)
  /-- CTX_WRITE (R402): NET operation that writes a neighbour context image, optionally its tone maps. -/
  | ctxWrite (d : Desc8) (buf : Fetch (List (BitVec 8)))
  /-- CTX_WRITE_REKEY (R312): CTX_WRITE with ARG[1] set, which reloads the key and resets the frame counters. -/
  | ctxWriteRekey (d : Desc8) (buf : Fetch (List (BitVec 8))) (key : Fetch (BitVec 128))
  /-- CTX_FREE (R402): NET operation that frees a neighbour context. -/
  | ctxFree (d : Desc8)
  /-- RENEG (R305): NET operation that starts a tone-map negotiation as initiator. -/
  | reneg (d : Desc8)
  /-- ROUTE_SET (R403): NET operation that sends a route-set frame to a repeater. -/
  | routeSet (d : Desc8) (buf : Fetch (List (BitVec 8)))
  /-- DB_KICK (R387): Write to DB_KICK that starts a doorbell read within 1 µs. -/
  | dbKick (p : Port) (v : BitVec 32)
  /-- DOORBELL_READ_DONE (R387): Completion of a doorbell-page read, updating P of every enabled ring. -/
  | doorbellReadDone (page : Fetch (List (BitVec 32))) (cmds : List (Fetch Desc8)) (posted : List Posted)
  /-- MBX_GO (R408): Write of MBX_CTL.GO that copies and takes the mailbox command. -/
  | mbxGo (p : Port) (v : BitVec 32)
  /-- MBX_EVTPOP (R411): Write that removes the event shown in the mailbox event window. -/
  | mbxEvtpop (p : Port) (v : BitVec 32)
  /-- TZL_EVPOP (R440): Write that removes the forwarded event shown in the TZL event window. -/
  | tzlEvpop (p : Port) (v : BitVec 32)
  /-- SOFTRST (R453): Keyed write of GLB_CTL.SOFTRST that starts the device reset of PD1 to PD9. -/
  | softrst (p : Port) (v : BitVec 32)
  /-- TARGET_METER (R86): PWR_CTL.TARGET write of METER, switching PD6 to PD8 off from RUN. -/
  | targetMeter (p : Port) (v : BitVec 32)
  /-- TARGET_RUN (R86): PWR_CTL.TARGET write of RUN, switching PD6 to PD8 on from METER. -/
  | targetRun (p : Port) (v : BitVec 32)
  /-- TARGET_STANDBY (R86): PWR_CTL.TARGET write of STANDBY, stopping metering with a standby proof and switching PD2 to PD9 off. -/
  | targetStandby (p : Port) (v : BitVec 32)
  /-- STANDBY_WAKE (R86): Wake from STANDBY by an enabled wake source or an HSPI TARGET write, followed by start-up and autostart. -/
  | standbyWake (cause : WakeCause)
  /-- RTC_CTL_COMMIT (R342): Write of RTC_CTL.COMMIT that requests a commit of the staging set. -/
  | rtcCtlCommit (p : Port) (v : BitVec 32)
  /-- COMMIT_TAKES_EFFECT (R342): At the tick edge after a commit request, the staged time is loaded or refused. -/
  | commitTakesEffect
  /-- RTC_CTL_STEP (R344): Write of RTC_CTL.STEP that requests a step from the step registers. -/
  | rtcCtlStep (p : Port) (v : BitVec 32)
  /-- STEP_TAKES_EFFECT (R344): At the tick edge after a step request, the step is added to the time or refused. -/
  | stepTakesEffect
  /-- RTC_CTL_CAPTURE (R346): Write of RTC_CTL.CAPTURE that requests a time capture. -/
  | rtcCtlCapture (p : Port) (v : BitVec 32)
  /-- CAPTURE_LATCH (R346): At the tick edge after a capture request, SEC and TICK are latched and CAPVALID set. -/
  | captureLatch
  /-- TICK_EDGE (R337): Advance of TICK by 0, 1 or 2 under the correction accumulator, with SEC carry. -/
  | tickEdge
  /-- RTC_SLEW (R345): Write of RTC_SLEW that sets the slew rate from the next tick edge. -/
  | rtcSlew (p : Port) (v : BitVec 32)
  /-- SLEW_END (R345): Expiry of the slew duration, returning the rate to 0. -/
  | slewEnd
  /-- ALMCTL_ARM (R352): Write of RTC_ALMCTL.ARM that arms the alarm. -/
  | almctlArm (p : Port) (v : BitVec 32)
  /-- ALMCTL_DISARM (R352): Write of RTC_ALMCTL.DISARM that disarms the alarm. -/
  | almctlDisarm (p : Port) (v : BitVec 32)
  /-- ALARM_FIRES (R353): The alarm fires at the first tick edge at or after its value, setting FIRED and possibly ending STANDBY or releasing PWRON. -/
  | alarmFires
  /-- PERIODIC_WAKE (R354): A periodic wake at each multiple of N × 128 ticks, setting WAKE and possibly ending STANDBY. -/
  | periodicWake
  /-- TEMPERATURE_MEASUREMENT (R348): Measurement of the backup-domain temperature every INTERVAL seconds and derivation of the correction. -/
  | temperatureMeasurement (t : BitVec 16)
  /-- TCCFG_WRITE (R348): Write of RTC_TCCFG that starts compensation or restarts the measurement period. -/
  | tccfgWrite (p : Port) (v : BitVec 32)
  /-- TCHG_WRITE (R359): Write of RTC_TCHG that enables the trickle charger with the key or clears EN without it. -/
  | tchgWrite (p : Port) (v : BitVec 32)
  /-- BKMODE_CHANGE (R356): Write that changes RTC_BKCFG.BKMODE, clearing power-controller state and releasing PWRON. -/
  | bkmodeChange (p : Port) (v : BitVec 32)
  /-- RTC_RAM_READ (R355): Read of a retention RAM word, which flags and logs a parity error. -/
  | rtcRamRead (p : Port) (w : Nat) (flips : BitVec 36) (width : Nat := 32)
  /-- RC_REGISTER_READ (R9): Read of an RC register that returns its value and then clears it. -/
  | rcRegisterRead (p : Port) (off : BitVec 16) (width : Nat := 32)
  /-- LOWEST_WORD_READ (R12): Read of the lowest word of a wide quantity that latches its upper words for that port. -/
  | lowestWordRead (p : Port) (off : BitVec 16) (width : Nat := 32)
  /-- LOWEST_WORD_WRITE (R12): Write of the lowest word of a wide quantity that makes the staged value take effect. -/
  | lowestWordWrite (p : Port) (off : BitVec 16) (v : BitVec 32)
  /-- REGISTER_WRITE (R9): Write to a register without a row of its own, under its access type, seal and ASBUSY rules. -/
  | registerWrite (p : Port) (off : BitVec 16) (width : Nat) (v : BitVec 32)
  /-- LDG_FADDR_WRITE (R244): Write of LDG_FADDR that starts a FRAM port read of that word. -/
  | ldgFaddrWrite (p : Port) (v : BitVec 32)
  /-- LDG_FDATA_READ (R244): Read of LDG_FDATA that returns the word and starts reading the next. -/
  | ldgFdataRead (p : Port) (width : Nat := 32)
  /-- LDG_FDATA_WRITE (R244): Write of LDG_FDATA that queues a FRAM word or discards it with DENY. -/
  | ldgFdataWrite (p : Port) (v : BitVec 32)
  /-- FRAM_PORT_ACCESS_DONE (R244): Completion of a queued FRAM port read or write once the ledger writer leaves the FRAM. -/
  | framPortAccessDone
  /-- URGENT_CONVERSION (R272): Write of FCV_URG.GO that takes the idle converter for one slot or drops the request. -/
  | urgentConversion (p : Port) (v : BitVec 32)
  /-- URGENT_CONVERSION_DONE (R272): Completion of an urgent conversion into FCV_URGRES, with what the converter sampled for it. -/
  | urgentConversionDone (convs : List Conv)
  /-- LOAD (R277): Write of FCV_CALCTL.LOAD requesting application of the stage-correction factors. -/
  | load (p : Port) (v : BitVec 32)
  /-- LOAD_APPLIED (R277): Application of the factors at the first FCLK edge without reception or capture, clearing UNCAL. -/
  | loadApplied
  /-- CS_ARM (R279): Write of FCV_CSCTL.ARM = 1 that starts the armed fill of the contact-sheet buffer. -/
  | csArm (p : Port) (v : BitVec 32)
  /-- CS_DISARM (R279): Write of FCV_CSCTL.ARM = 0 that ends the armed state. -/
  | csDisarm (p : Port) (v : BitVec 32)
  /-- FORCE (R280): Write of FCV_CSCTL.FORCE that triggers the capture now. -/
  | force (p : Port) (v : BitVec 32)
  /-- CAPTURE_TRIGGER (R280): Trigger of an armed capture by a selected event or a level crossing: the conversions that the armed
  fill and its capture took up to it, since those given before. -/
  | captureTrigger (convs : List Conv)
  /-- POST_TRIGGER_COMPLETE (R281): The POST samples have been taken and the record is held on chip. -/
  | postTriggerComplete (convs : List Conv)
  /-- FCAP_RECORD_WRITE (R281): Write of the held contact-sheet record to the next FCAP descriptor, with optional re-arm. -/
  | fcapRecordWrite
  /-- REMOTE_READ (R441): Write of TZL_RADDR.RD that starts a read of a slave register. -/
  | remoteRead (p : Port) (v : BitVec 32)
  /-- REMOTE_WRITE (R441): Write of TZL_RDATA that starts a write of a slave register. -/
  | remoteWrite (p : Port) (v : BitVec 32)
  /-- REMOTE_ACCESS_DONE (R441): Completion of a remote access with RDY or ERR. -/
  | remoteAccessDone (data : Option (BitVec 32))
  /-- HANDOVER (R447): Write of TZL_MIRCTL.HANDOVER that makes the active device set HANDOVER in its mirror frames. -/
  | handover (p : Port) (v : BitVec 32)
  /-- SUSPEND (R374): Write of CVU_CTL.SUSPEND that stops the host scan with ABORTED and its running value. -/
  | suspend (p : Port) (u : Nat) (v : BitVec 32)
  /-- REFFLIP (R375): Write of CVU_REFFLIP.GO that inverts stored bits of a reference entry for testing. -/
  | refflip (p : Port) (v : BitVec 32)
  /-- REFERENCE_ENTRY_WRITE (R375): Write of CVU_REFDATA_LO that stores a reference entry with new SECDED check bits. -/
  | referenceEntryWrite (p : Port) (v : BitVec 32)
  /-- ACK (R230): Write of PIO_TRACK that acknowledges a latched trip. -/
  | ack (p : Port) (v : BitVec 32)
  /-- HOST_TRIP (R229): Write of PIO_TRHOST that trips or untrips outputs at once. -/
  | hostTrip (p : Port) (v : BitVec 32)
  /-- TRIP_DISABLE (R229): Write of 0 to PIO_TRCFGn.EN that ends a trip, latch and minimum time. -/
  | tripDisable (p : Port) (n : Nat) (v : BitVec 32)
  /-- INIT (R325): Write of NET_DIRCTL.INIT that zeroes the staged directory table. -/
  | init (p : Port) (v : BitVec 32)
  /-- REHASH (R328): Write of NET_DIRCTL.REHASH that starts copying into the staged table. -/
  | rehash (p : Port) (v : BitVec 32)
  /-- ABORT (R328): Write of NET_DIRCTL.ABORT that abandons the rehash. -/
  | abort (p : Port) (v : BitVec 32)
  /-- REHASH_BUCKET_COPY (R328): Copy of one old bucket into the new table, and takeover after the last. -/
  | rehashBucketCopy
  /-- RING_ENABLE (R386): Write of HIF_RCFGr.EN = 1 that sets C to 0 and starts the ring. -/
  | ringEnable (p : Port) (r : Nat) (v : BitVec 32)
  /-- RING_DISABLE (R386): Write of HIF_RCFGr.EN = 0 that stops the ring after the descriptor in progress. -/
  | ringDisable (p : Port) (r : Nat) (v : BitVec 32)
  /-- IRQEN_WRITE (R454): Write of GLB_IRQEN, where enabling a bit already at 1 counts as a rise. -/
  | irqenWrite (p : Port) (v : BitVec 32)
  /-- CALFRC_WRITE (R123): Write of MFE_BANKk.CALFRC or CALLVL that drives CALSELk at once. -/
  | calfrcWrite (p : Port) (k : Nat) (v : BitVec 32)
  /-- HSPI_READ_FRAME (R406): HSPI frame with instruction 0x0B that returns a status byte and consecutive registers. -/
  | hspiReadFrame (instr : BitVec 8) (addr : BitVec 16) (n : Nat)
  /-- HSPI_WRITE_FRAME (R406): HSPI frame with instruction 0x02 that writes consecutive registers. -/
  | hspiWriteFrame (instr : BitVec 8) (addr : BitVec 16) (words : List (BitVec 32))
  /-- EXPOSURE_BOUNDARY (R24): An exposure boundary every 32,768 HFREF cycles, closing one exposure and starting the next. -/
  | exposureBoundary (b : BoundaryIn)
  /-- DEVELOPMENT_DONE (R29): The developer finishes an exposure and publishes it as latent if no earlier exposure is latent. -/
  | developmentDone (u : EngineUpset)
  /-- FIXER_COMPARISON (R34): The fixer completes its recomputation and compares sums, fixing agreeing points and starting replays. -/
  | fixerComparison (u : EngineUpset)
  /-- REPLAY_DONE (R35): Completion of a developer replay, fixing or discarding the exposure for disagreeing points. -/
  | replayDone (u : EngineUpset)
  /-- LATENT_DEADLINE (R30): Expiry of a latent deadline, discarding an unfixed exposure for the point. -/
  | latentDeadline
  /-- SYNC_PIN (R137): Rising edge on the SYNC ball held 4 HFREF cycles, recognised as a SYNC request. -/
  | syncPin
  /-- SYNC_EDGE (R139): The sync edge clears filter states and ends the exposure in progress. -/
  | syncEdge (b : BoundaryIn)
  /-- STREAM_LOSS (R107): Declaration of stream loss after 64 MCLK periods without a transition. -/
  | streamLoss (ch : Nat)
  /-- BRACKET_SWITCH (R114): Firing of the high-gain member switches the merged channel to the low-gain member. -/
  | bracketSwitch (m : Nat) (sample : Nat)
  /-- BRACKET_RETURN (R115): The count of 64 small low-gain samples returns the selection to the high-gain member. -/
  | bracketReturn (m : Nat) (sample : Nat)
  /-- ZERO_CROSSING (R204): Acceptance of a rising or falling crossing of VCH0, with frequency, half-cycle RMS and window boundaries. -/
  | zeroCrossing (g : Nat) (rising : Bool)
  /-- FREQUENCY_RANGE_TIMEOUT (R204): No crossing within 1/45 s: the cycle is invalid, the window abandoned and an event started. -/
  | frequencyRangeTimeout (g : Nat)
  /-- MAC_FREE_RUN (R43): No VG0 rising crossing for 50 ms makes the powerline MAC free-run. -/
  | macFreeRun
  /-- WINDOW_WRITE (R210): Writing of a window's harmonic results once its exposures are resolved. -/
  | windowWrite (g : Nat)
  /-- HALF_CYCLE_DECISION (R214): A U½ value acted on for sag, swell and interruption once its exposures are resolved. -/
  | halfCycleDecision (g : Nat)
  /-- EVENT_RECORD_WRITE (R219): Write of a waiting event record into the next EVT descriptor. -/
  | eventRecordWrite
  /-- CF_SLOT (R224): Start of a pulse slot, choosing k pulses from acc. -/
  | cfSlot (n : Nat)
  /-- TRIP_READBACK (R231): Millisecond readback of each enabled TRIP ball against its drive. -/
  | tripReadback (levels : BitVec 8)
  /-- MINTRIP_EXPIRY (R230): Expiry of a TRIP output's minimum trip time. -/
  | mintripExpiry (n : Nat)
  /-- MOMENTARY_SOURCE_EXPIRY (R228): End of the 10 ms activity of a momentary trip source. -/
  | momentarySourceExpiry (code : BitVec 16) (index : BitVec 8)
  /-- PIN_CHANGE_ACCEPTED (R233): A pulse-input level change accepted after its debounce time and counted. -/
  | pinChangeAccepted (j : Nat) (level : Bool) (at_ : Nat) (both : Bool)
  /-- MISSING_PULSE (R238): No counting edge for TIMEOUT × 20 ms starts a missing-pulse event. -/
  | missingPulse (j : Nat)
  /-- PROOF_WRITE_START (R248): Start of a periodic, command or standby proof once the covered exposure is resolved. -/
  | proofWriteStart
  /-- PROOF_WRITE_DONE (R249): The proof's trailer is written, completing it or starting the readback. -/
  | proofWriteDone
  /-- PROOF_READBACK_DONE (R249): Readback comparison of a proof, retried once and faulted on a second failure. -/
  | proofReadbackDone (ok : Bool)
  /-- SEAL_N (R262): Debounced high level on SEAL_N that seals an unsealed device. -/
  | sealN (high : Bool)
  /-- JOURNAL_WRITE (R260): Write of a queued journal entry to the FRAM ring. -/
  | journalWrite
  /-- SNAPSHOT_COPY (R196): Copy of the ledger registers for a snapshot once the covered exposure is resolved. -/
  | snapshotCopy
  /-- LEDGER_RECORD_WRITE (R199): Write of a ready ledger record to the next LDG descriptor, or drop of an automatic one. -/
  | ledgerRecordWrite
  /-- COMPLETION_WRITE (R393): Write of a waiting completion into the next CPL descriptor. -/
  | completionWrite
  /-- INTERRUPT_MODERATION_TIMEOUT (R390): MODTIME expiry that signals a ring's vector. -/
  | interruptModerationTimeout (r : Nat)
  /-- CAL_WINDOW_END (R163): The last exposure of a calibration window is resolved and its record written. -/
  | calWindowEnd (point : Nat)
  /-- FCV_CAL_DONE (R276): End of self-calibration, storing the factors or reporting a fault. -/
  | fcvCalDone (temp : BitVec 16) (factors : List (BitVec 24)) (bad : Option Nat)
  /-- SEQUENCE_RUN (R273): Start of a due sequence run once no higher owner holds the converter. -/
  | sequenceRun (s : Nat)
  /-- SEQUENCE_RUN_END (R275): End of a sequence run, writing results and any result block. -/
  | sequenceRunEnd (convs : List Conv)
  /-- CARRIER_DETECTION (R308): The carrier detector requests reception and takes the fast converter. -/
  | carrierDetection (energy : Nat := 1) (noise : Nat := 0)
  /-- SCHEDULED_RECEIVE (R308): The MAC requests reception 20 µs ahead of a scheduled receive. -/
  | scheduledReceive
  /-- RECEPTION_RELEASE (R44): Reception releases the converter, starting any delayed capture and resuming other owners. -/
  | receptionRelease
  /-- TRANSMISSION_RECEIVED (R289): A received transmission taken whole, checked by frame control and decoded into segments. -/
  | transmissionReceived (r : RxIn)
  /-- BEACON (R319): Received beacon with timing, allocation list and time. -/
  | beacon (r : RxIn)
  /-- SACK (R309): Received selective acknowledgement marking failed segments. -/
  | sack (r : RxIn)
  /-- SOUNDING (R305): Received sounding frame used to compute per-carrier loadings. -/
  | sounding (r : RxIn) (m : SoundIn)
  /-- TONE_MAP_REPORT (R305): Received tone-map report that advances a negotiation. -/
  | toneMapReport (r : RxIn)
  /-- ASSOCIATION_REQUEST (R316): Received association request looked up in the directory by the coordinator. -/
  | associationRequest (r : RxIn)
  /-- ASSOCIATION_RESPONSE (R316): Received association response that sets the station's address and ASSOC. -/
  | associationResponse (r : RxIn)
  /-- ROUTE_SET_FRAME (R403): Received route-set frame whose entries a repeater stores in its directory. -/
  | routeSetFrame (r : RxIn)
  /-- MAC_FRAME_COMPLETE (R310): All segments of a MAC frame are present and its tag is verified. -/
  | macFrameComplete
  /-- PLC_RX_RECORD_WRITE (R400): Write of a waiting received MAC frame into the next PLC_RX descriptor. -/
  | plcRxRecordWrite
  /-- BEACON_PERIOD_START (R318): Start of a beacon period and transmission of the coordinator's beacon. -/
  | beaconPeriodStart
  /-- TRANSMISSION_START (R289): Start of a transmission in an allocation or after contention. -/
  | transmissionStart (backoff : Nat)
  /-- TRANSMISSION_END (R285): End of the last symbol of a transmission; the driver is released 2 µs later. -/
  | transmissionEnd (clipped : Nat) (limitUs : Option Nat)
  /-- SACK_TRANSMIT (R309): Start of a SACK 60 µs after the end of a received transmission. -/
  | sackTransmit
  /-- BACKOFF_EXPIRY (R320): End of a contention backoff, starting a transmission if it ends before CPEND. -/
  | backoffExpiry
  /-- SACK_TIMEOUT (R334): Expiry of a SACK wait, counting segments failed and scheduling retransmission. -/
  | sackTimeout
  /-- BEACON_MISSED (R317): No beacon by the predicted start plus 2 ms; eight in a row disassociate the station. -/
  | beaconMissed
  /-- NODE_LOST (R317): Nothing heard from a node for LOSTTO beacon periods sets its entry LOST. -/
  | nodeLost (nodeid : BitVec 64)
  /-- NEGOTIATION_STEP_TIMEOUT (R305): A negotiation step not completed in time fails the attempt. -/
  | negotiationStepTimeout (index : Nat)
  /-- REFRESH_INTERVAL (R306): Tone maps older than REFINT start a renegotiation. -/
  | refreshInterval (index : Nat)
  /-- LINE_DRIVER_OVERTEMP (R285): The line-driver die passes 150 °C and the driver is switched off. -/
  | lineDriverOvertemp
  /-- LINE_DRIVER_COOLED (R285): The line-driver die cools to 130 °C and transmission is allowed again. -/
  | lineDriverCooled
  /-- DIRECTORY_WRITEBACK (R329): Write-back of changed cached directory fields at least once per second. -/
  | directoryWriteback
  /-- DIRECTORY_LOOKUP_MISS (R329): Completion of a directory lookup from host memory after a cache miss. -/
  | directoryLookupMiss (served : Fetch Unit) (key : Fetch (BitVec 128))
  /-- POWER_FAIL (R87): Recognition of a power fail from PFAIL_N or a monitor, freezing the ledger and starting the emergency proof. -/
  | powerFail (src : PfSource)
  /-- EMERGENCY_PROOF_COMPLETE (R87): Check value written, bookkeeping set complete, domains switched off and PFHOLD entered. -/
  | emergencyProofComplete
  /-- POWER_FAIL_RECOVERY (R87): Supplies in range for 10 ms in PFHOLD make a power-fail recovery reset. -/
  | powerFailRecovery
  /-- SUPPLY_MONITOR_CROSSING (R71): A filtered crossing of a supply monitor threshold, setting its flag and acting. -/
  | supplyMonitorCrossing (m : Monitor) (beyond : Bool)
  /-- OVERVOLTAGE_REPEAT (R71): Each further 1 ms beyond an overvoltage threshold counts a strike. -/
  | overvoltageRepeat (m : Monitor)
  /-- VBKUP_LOW (R351): VBKUP below the retention threshold while on VDDIO sets VBLOW. -/
  | vbkupLow (below : Bool)
  /-- POWER_ON (R78): VDDIO below its reset threshold resets PD1 to PD9 and moves PD0 to VBKUP. -/
  | powerOn
  /-- VDDC_VDDA_RESET (R81): A VDDC or VDDA reset crossing resets PD2 to PD9 while PD1 keeps running. -/
  | vddcVddaReset
  /-- RESET_N (R78): RESET_N low for 1 µs or more resets PD1 to PD9. -/
  | resetN
  /-- BACKUP_DOMAIN_RESET (R361): Reset of PD0, clearing the clock, retention RAM and bookkeeping. -/
  | backupDomainReset (firstPower : Bool)
  /-- TRST_N (R78): TRST_N low resets the JTAG TAP controller. -/
  | trstN
  /-- PE_PERST_N (R405): PE_PERST_N, hot reset or link down resets the HIF block and settles taken commands. -/
  | pePerstN (cause : LinkLoss)
  /-- BUS_MASTER_ENABLE (R381): Return to D0 with Bus Master Enable, resuming DMA at the next doorbell read. -/
  | busMasterEnable
  /-- RESET_RELEASE (R82): Release of a reset reaching PD1, sampling straps and starting source selection. -/
  | resetRelease (mstr autostart : Bool)
  /-- HFREF_SOURCE_SELECTED (R73): End of the 100 µs REFIN count, choosing REFIN or the crystal. -/
  | hfrefSourceSelected (edges : Nat)
  /-- HFREF_GOOD (R74): Four measurements within ±2 % declare HFREF good. -/
  | hfrefGood
  /-- HFREF_RETRY (R74): HFREF not good within 10 ms stops start-up and retries every 100 ms. -/
  | hfrefRetry
  /-- PLL_LOCK (R75): The PLL locks, providing FCLK and the filter clock. -/
  | pllLock
  /-- MEMORY_INITIALISED (R82): Every on-chip memory has been written with zero data and valid ECC. -/
  | memoryInitialised
  /-- STARTUP_DIAGNOSTICS (R426): End of the start-up diagnostics, driving FAULT_N or entering the safe state. -/
  | startupDiagnostics (failed : Option (Nat × BitVec 64))
  /-- RESTORE (R255): Both proof slots read and the newest valid proof restored. -/
  | restore
  /-- AUTOSTART_IMAGE_READ (R259): A configuration image is read, checked and applied record by record, or rejected. -/
  | autostartImageRead
  /-- INTERNAL_SYNC (R82): Autostart's internal SYNC begins the first exposure of the run. -/
  | internalSync
  /-- LFCLK_CHECK (R77): LFOK changes with the LFCLK measurement, switching tick substitution. -/
  | lfclkCheck (ok : Bool)
  /-- OSCILLATOR_STOP (R350): An LFCLK stop longer than 4 ms sets OSF. -/
  | oscillatorStop
  /-- PWRON_LOW (R357): 1 ms after PWR_CYCLE completes, PWRON is driven low and OFFEND set. -/
  | pwronLow
  /-- OFFEND (R357): At OFFEND PWRON is released and system power returns. -/
  | offend
  /-- VOID (R358): Supplies still present at OFFEND make the power cycle void. -/
  | void
  /-- PORT_TRAINED (R434): A Tozar Link port holds alignment for 1,024 characters and is trained. -/
  | portTrained (port : TzPort)
  /-- PORT_LOSS (R434): A trained port declares loss and retraining restarts. -/
  | portLoss (port : TzPort) (cause : TzLoss)
  /-- ENUMERATION_FRAME (R435): An enumeration frame assigns the device its cascade position. -/
  | enumerationFrame (pos : Nat) (ndev : Nat) (bad : Nat := 0)
  /-- CASCADE_START (R437): The master's first start after enumeration numbers every device's first exposure. -/
  | cascadeStart (first : BitVec 72)
  /-- ECHO_FRAME (R438): An echo frame measures the slave's one-way upstream delay. -/
  | echoFrame (delay : BitVec 16) (bad : Nat := 0)
  /-- BOUNDARY_MARKER (R439): A boundary marker and its frame give a slave the master's boundary, exposure number and time. -/
  | boundaryMarker (b : BoundaryIn) (expno : BitVec 72) (ts : BitVec 64) (sync : Option Nat := none)
      (snaps : List (BitVec 32 × Bool × Bool) := [])
  /-- RESOLUTION_FRAME (R440): A slave's resolution frame and forwarded events reach the master. -/
  | resolutionFrame (f : ResFrame)
  /-- CASCADE_RECORD_MISSING (R441): A slave's cascade snapshot record not arrived within 5 ms is left out and logged. -/
  | cascadeRecordMissing (pos : Nat)
  /-- MIRROR_FRAME (R445): The standby receives a mirror frame and adds the active device's increments. -/
  | mirrorFrame (f : MirFrame)
  /-- MIRROR_FRAME_DEADLINE (R447): Expiry of a mirror frame's deadline, arming takeover at the next boundary. -/
  | mirrorFrameDeadline
  /-- TAKEOVER (R447): At the boundary after its trigger, the standby adds missing increments and drives its outputs. -/
  | takeover (b : BoundaryIn := .empty)
  /-- K28_3 (R447): An active device receiving K28.3 releases its outputs and becomes standby. -/
  | k283
  /-- KAV_VECTOR (R418): A known-answer vector run through the developer after publication. -/
  | kavVector (ok : Bool)
  /-- CLOCK_CHECK (R419): Millisecond cross-check of FCLK, filter clock and HFREF. -/
  | clockCheck (fclkOk filtOk hfOk : Bool)
  /-- SCAN_PASS_DONE (R416): End of a monitor scan pass of a segment against its reference entry. -/
  | scanPassDone (entry : Nat) (upset : BitVec 36) (stable : Bool) (ecc : List EccIn)
  /-- WATCHDOG_EXPIRY (R427): The internal watchdog is not restarted within TIMEOUT and the device resets itself. -/
  | watchdogExpiry
  /-- CVU_FIRST_PASS_DONE (R376): End of a scan's first pass, reading the reference and reaching a verdict or starting a rescan. -/
  | cvuFirstPassDone (u : Nat)
  /-- CVU_RESCAN_DONE (R376): End of a rescan, deciding UNSTABLE or STABLE_MISMATCH. -/
  | cvuRescanDone (u : Nat)
  /-- ASSOCIATION_RESPONSE_TIMEOUT (R316): A station's association-response deadline expires and it retries in the next contention period. -/
  | associationResponseTimeout
  /-- PLC_TX_DEADLINE_EXPIRY (R334): The deadline of a PLC_TX descriptor, including the wait for a response to RESPREQ, expires and the descriptor completes with DEADLINE. -/
  | plcTxDeadlineExpiry (idx : BitVec 32)
  /-- MIRROR_SIDE_TIMEOUT (R444): Side 0 not trained within 100 ms of side 1's READY makes side 1 the active device of a mirrored pair. -/
  | mirrorSideTimeout
  /-- FN_REINIT_TZL_TIMEOUT (R443): FN_REINIT TZL completes with FAULT when the rejoin boundary has not come within 10 ms. -/
  | fnReinitTzlTimeout (lowest : Nat)
  /-- DIRECTORY_INIT_DONE (R325): The device finishes zeroing the staged directory table, links the free list and sets DIRRDY. -/
  | directoryInitDone
  /-- IDENTITY_WRITE_DONE (R262): An identity write to the FRAM completes, letting SEAL complete with DONE and UNSEAL continue to its journal entry. -/
  | identityWriteDone
  /-- CF_PULSE_EDGE (R224): A CF pulse rises or falls at its scheduled HFREF edge within a slot, updating HIGH and PIO_CFCNTn. -/
  | cfPulseEdge (n : Nat)
  /-- PCIE_LINK_UP (R405): PCI Express link training completes, setting LINKUP, SPEED and WIDTH and ending the link-down event. -/
  | pcieLinkUp (speed width : Nat)
  /-- BUS_MASTER_DISABLE (R381): The host moves the function to D3hot or clears Bus Master Enable, and the device stops issuing DMA and MSI-X messages. -/
  | busMasterDisable (d3hot : Bool) (bme : Bool)
  /-- DOMAIN_SWITCH_COMPLETE (R86): Power domains switched on or off by a state change reach their final state, PDON updates and TRANS ends. -/
  | domainSwitchComplete
  /-- DMA_READ_DONE (R382): A device DMA read of host memory completes with data or ends as a DMA fault. -/
  | dmaReadDone (id : Nat) (data : Fetch (List (BitVec 64)))
  deriving DecidableEq, Repr

end Sys2Proof
end

