-- ==== Sys2Proof/Decode.lean ====
section
/-!
DEFINITION. Decoding of table words.  No row of the table of operations and events has bits or fields, so no word spells
a command.
-/

namespace Sys2Proof

/-- The command a word spells by the table's bits: none, since the table gives no row any bits. -/
def decodeTableWord (_nbits _w : Nat) : Option Instr := none

end Sys2Proof
end

