-- ==== Sys2Proof/Config.lean ====
section
/-!
DEFINITION. What the manual leaves open: values set in manufacture and values it states nowhere, each an opaque constant
that no proof can see into.
-/

namespace Sys2Proof

/-- Coefficients of the half-band stages H1 to H6 (R124), newest input first, in units of 2^-frac. -/
structure HalfBand where
  frac : Nat
  taps : List (List Int)
  deriving DecidableEq, Repr, Inhabited

namespace Config

/-- Serial number, set in manufacture; "unique to each device and never 0" (R452).  Free value, log 5. -/
opaque serial : BitVec 64

/-- The device's own EUI-64, set in manufacture (NET_EUI).  Free value, log 5. -/
opaque eui : BitVec 64

/-- Factory temperature curve of the backup domain, point by point (R349).  Free value, log 5. -/
opaque factoryTc : Nat → BitVec 16

/-- What a read of a reference entry finds when more than two of its stored bits are inverted (R375, R377): the value and
0 no error, 1 single-bit error, 2 double-bit error.  The manual states no check-bit code.  Free value, log 6. -/
opaque secdedMany : BitVec 36 → BitVec 43 → BitVec 36 × Fin 3

/-- The half-band coefficients, "fixed in the device and cannot be read or changed" (R124).  Free value, log 120. -/
opaque halfBandRaw : HalfBand

/-- Coefficients of the all-pass networks H_V (false) and H_I (true), by output rate and section, in SQ2.34: "fixed in the
device for each output rate and cannot be read" (R182).  Free value, log 121. -/
opaque allPassRaw : Bool → Nat → Nat → Int

/-- The delay estimate of the tracking loop for an exposure in which the low-gain values are all equal, so that R118 divides by
0; indexed by the counter of free values.  Free value, log 16. -/
opaque flatDelay : Nat → Int

/-- Coefficients of the window engine's linear-phase low-pass (R207) by output rate, centre tap first, in units of 2^-40; they are
stated nowhere.  Free value, log 17. -/
opaque lowPassRaw : Nat → List Int

/-- Units a scan has fed when it is stopped before the end of a pass: the manual states no instants (R369, R374); indexed by the counter
of free values.  Free value, log 136. -/
opaque unitsFed : Nat → Nat

/-- Deviation of a computed magnitude, in UQ2.34, and of a computed angle, in 2^-36 turn, from the exact transform, which R207
only bounds; indexed by the counter of free values and the bin.  Free value, log 18. -/
opaque dftMag : Nat → Nat → Int
opaque dftAng : Nat → Nat → Int

/-- Angle of a component below 2^-20 of full scale: "not specified" (R207).  Free value, log 18. -/
opaque dftSmall : Nat → Nat → BitVec 36

/-- Mismatch ratio of R171 in event 0x0404 when S_A is 0 and S_B is not; indexed by S_B.  Free value, log 21. -/
opaque ratioNone : Nat → BitVec 64

/-- P1 of FN_REINIT when no exposure has ended since the reset of PD5, "the number of the last exposure that ended" (R429); indexed
by the counter of free values.  Free value, log 30. -/
opaque noExposure : Nat → BitVec 72

end Config

end Sys2Proof
end

