-- ==== Sys2Proof/Machine/State.lean ====
section
/-!
DEFINITION. The state of the block as plain data: every register (`regs`), every buffer, queue, counter, mode and ball the
spec gives it, block by block in the order of the spec's chapters, the queue of waiting commands, and the state after
reset.
-/

namespace Sys2Proof.Machine

/-- What a taken command waits for (R396, R405). -/
inductive Wait where
  | mpStart (mask : BitVec 32)
  | mpStop (mask : BitVec 32)
  | coefDma (ch bank t : Nat)
  | corrDma (ch : Nat)
  | corrBoundary (ch : Nat)
  | swap (ch : Nat)
  | filtStart (ch : Nat)
  | filtStop (ch : Nat)
  | sync
  | snapshot
  | calWindow (point : Nat)
  | release (point : Nat) (qmask : BitVec 10) (amount : BitVec 108) (due : Option (BitVec 72))
  | rtcCapture
  | rtcSet
  | rtcStep
  | fcvCal
  | fcvSeq
  | cvu (u : Nat)
  | reinit (target : BitVec 8)
  | reinitSafety
  | reinitTzl
  | pwrCycle (offtime : BitVec 24)
  | proofNow
  | seal
  | unseal
  /-- The outcome came after the deadline; expiry is awaited (R38, R39). -/
  | late
  deriving DecidableEq, Repr

/-- A command taken and not completed (R392).  `muted`: no completion is written for it (R405, R472). -/
structure Taken where
  op : BitVec 8
  hdr : CmdHdr
  wait : Wait
  muted : Bool
  deriving DecidableEq, Repr

/-- A filtered sample y (R144) or corrected sample z (R151) in SQ2.34 with its flags (R128, R153). -/
structure Smp where
  v : Int
  settle : Bool
  ovr : Bool
  hg : Bool
  frz : Bool
  loss : Bool
  deriving DecidableEq, Repr

/-- One half-band stage of a channel (R124): its newest inputs, newest first, and whether an input waits for its partner. -/
structure HbStage where
  hist : List Int
  odd : Bool
  deriving DecidableEq, Repr

/-- One channel of the front end and decimation chain beside its registers (R97 to R142). -/
structure ChState where
  /-- The channel is started, and the ROLE in effect (R98). -/
  started : Bool
  role : BitVec 3
  /-- The channel, not started, waits for its bank's start-up exposure (R93); `role` is then the one it will start with. -/
  held : Bool
  /-- Stream loss is declared (R107), and was declared in the exposure in progress (R108). -/
  lost : Bool
  lostNow : Bool
  /-- The declaration came from a bank fault (R107, R109). -/
  byBank : Bool
  /-- The last exposure closed had a run of 64 identical bits or failed the density test: no recovery after it (R109). -/
  runSeen : Bool
  /-- The last sampled bits since the last zero-state restart, newest first, at most 125 (R101). -/
  bits : List Bool
  /-- Half-band stages H1 on since the last zero-state restart (R124, R139). -/
  hb : List HbStage
  /-- The two samples in the alignment delay: value and OVR, newest first (R124). -/
  delay : List (Int × Bool)
  /-- Output samples that still carry SETTLE (R141) and OVR (R104). -/
  settle : Nat
  ovr : Nat
  /-- A sinc output produced since the last output sample overranged (R104), and one fired (R114). -/
  ovrPend : Bool
  firePend : Bool
  /-- DC-block estimate E in 2^-36 output LSB (R132) and samples left in the freeze after a bracket switch (R136). -/
  dcE : Int
  frz : Nat
  /-- Stored sample values of the compensation filter's history, newest first, at most 64 (R144), and samples since its
  last clearing (R146). -/
  hist : List Int
  histLen : Nat
  /-- The seven newest filter outputs, newest first: the history of the correction stage (R152). -/
  ys : List Smp
  /-- Coefficients of banks A and B (R144). -/
  bankA : List Int
  bankB : List Int
  /-- Cross-fade in progress: 2^K and the samples already faded, and the exposure holding the last faded sample once it
  is known (R147). -/
  fade : Option (Nat × Nat)
  fadeLast : Option Nat
  /-- Samples left that carry SETTLE after FILT_START while no exposure ran (R149). -/
  filtSettle : Nat
  /-- Correction table in use and the loaded table that waits for its boundary (R158, R159). -/
  corr : List Int
  corrNext : Option (List Int)
  /-- Last exposure developed with the outgoing table, while that table is retained (R159). -/
  corrHeld : Option Nat
  deriving DecidableEq, Repr

/-- One bracketed pair beside its registers (R111 to R122). -/
structure BrkState where
  /-- The pair runs as a pair. -/
  on : Bool
  /-- The newest merged sample came from the high-gain member (R113). -/
  sel : Bool
  /-- Switches of the exposure in progress that were announced: merged-sample index from which on the high-gain member is
  selected (true) or the low-gain member (false), oldest first. -/
  timeline : List (Nat × Bool)
  /-- Consecutive small low-gain samples (R115). -/
  count : Nat
  /-- Last high-gain and low-gain half-band outputs, value and OVR, newest first (R112). -/
  hOld : List (Int × Bool)
  lOld : List (Int × Bool)
  /-- The high-gain member fired in the exposure in progress (R117). -/
  fired : Bool
  /-- Switches to the low-gain member and returns in the proof interval in progress (R122). -/
  toLg : Nat
  toHg : Nat
  /-- High-gain samples that still settle after its recovery (R121). -/
  hSettle : Nat
  deriving DecidableEq, Repr

/-- One slot of the sample buffer: a closed exposure with everything its development reads (R28). -/
structure Slot where
  expno : BitVec 72
  ts : BitVec 64
  /-- HFREF time of its start and end, and the timestamp of its start. -/
  startAt : Nat
  endAt : Nat
  startTs : BitVec 64
  short : Bool
  /-- 36-bit sample words by channel, oldest first (R128). -/
  words : List (List (BitVec 36))
  roles : List (BitVec 3)
  /-- Settings in effect while the exposure ran. -/
  eff : List (Nat × BitVec 32)
  /-- Metering points that ran in it. -/
  running : BitVec 32
  /-- Words whose parity the first read finds wrong (R130), and SECDED errors it finds (R420): channel, sample, double. -/
  parBad : Nat
  ecc : List (Nat × Nat × Bool)
  /-- μ of each channel in it (R154), and the newest per-cycle frequency of each voltage group at its end (R170, R183). -/
  mu : List (Nat × Int)
  freq : List Nat
  /-- Under pairing (R167): c, and whether this device's and the partner's members are away. -/
  pairC : Option Nat
  awayOwn : Bool
  awayOther : Bool
  deriving DecidableEq, Repr

/-- What an engine computes for one channel over one exposure (R179): SS_c and N_c. -/
structure ChanSum where
  ch : Nat
  ss : Nat
  n : Nat
  deriving DecidableEq, Repr

/-- What an engine computes for one element of one point over one exposure (R179 to R181). -/
structure ElemSum where
  vch : Nat
  ich : Nat
  p : Int
  n : Nat
  q : Int
  a1 : Int
  sv : Nat
  si : Nat
  settle : Nat
  loss : Nat
  ovr : Nat
  deriving DecidableEq, Repr

/-- One running point in one development: its elements, its 40 increments (R186, R187), and creep (R161). -/
structure PointDev where
  point : Nat
  elems : List ElemSum
  incs : List Nat
  creep : Bool
  deriving DecidableEq, Repr

/-- Result of one development or replay of an exposure. -/
structure DevResult where
  chans : List ChanSum
  points : List PointDev
  deriving DecidableEq, Repr

/-- How a point's exposure is resolved (R34, R35). -/
inductive Verdict where
  | fixed
  | fixedByReplay
  | discarded
  deriving DecidableEq, Repr

/-- An issued exposure not yet resolved for every point (R28 to R35). -/
structure Expo where
  slot : Slot
  /-- Its latent deadline (R30). -/
  deadline : BitVec 64
  /-- What sound hardware computes from the slot (R179 to R187): original, recomputation and replay alike (R184). -/
  sound : DevResult
  /-- The developer's result, once the development is done (R29). -/
  dev : Option DevResult
  /-- The corrected samples of the newest development: channel, first value oldest (R151, R399). -/
  corrected : List (Nat × List Smp)
  /-- The fixer's sums, once its recomputation is done (R34). -/
  fix : Option DevResult
  /-- A replay of the disagreeing points and channels is wanted (R35). -/
  replaying : Bool
  /-- The replay's result when it completed (R35). -/
  replay : Option DevResult
  /-- Points for which the exposure is latent (R29), was compared (R34), is resolved, was fixed. -/
  latent : BitVec 32
  judged : BitVec 32
  resolved : BitVec 32
  fixed : BitVec 32
  /-- Channels no running point uses that still wait for confirmation, and channels not confirmed (R201). -/
  openCh : List Nat
  unconf : List Nat
  /-- The exposure has advanced the disagreement strike counter (R35), and SAF_SSEXP (R424). -/
  struck : Bool
  ssCounted : Bool
  /-- The live view of it was written (R200), and the channels of both engines' results were compared (R34). -/
  viewed : Bool
  compared : Bool
  /-- How points were resolved: point, fixed, its 40 increments or 10 withheld totals (R440, R445). -/
  outcome : List (Nat × Bool × List Nat)
  /-- Points resolved, with their registers before it: an emergency proof that excludes the exposure takes these (R252). -/
  before : List (Nat × List (Nat × BitVec 108))
  /-- Paired points whose own increments are decided and which wait for the partner's (R169). -/
  pairWait : List (Nat × Verdict × List Nat)
  deriving DecidableEq, Repr

/-- Recursive network state of one side of one element (R182 to R184): its channel, eight all-pass sections (last input, last
output) and two resonator sections (last two inputs, last two outputs). -/
structure NetState where
  ch : Nat
  ap : List (Int × Int)
  rs : List (Int × Int × Int × Int)
  deriving DecidableEq, Repr

/-- A calibration window in progress (R162 to R164). -/
structure CalWin where
  src : CmdSrc
  point : Nat
  first : BitVec 72
  count : Nat
  addr : BitVec 64
  last : BitVec 72
  tsFirst : BitVec 64
  tsLast : BitVec 64
  nexp : Nat
  ndisc : Nat
  naway : Nat
  ncreep : Nat
  flags : BitVec 4
  svv : List Nat
  sii : List Nat
  svi : List Int
  svq : List Int
  nsamp : List Nat
  muMin : List Int
  muMax : List Int
  tot : List Nat
  /-- The window has taken its last exposure; the record is to be written. -/
  ended : Bool
  deriving DecidableEq, Repr

/-- Sums of one pairing cycle for one element (R170): P and Q of both members, exposures in which both were present. -/
structure PairCyc where
  point : Nat
  elem : Nat
  pa : Int
  qa : Int
  pb : Int
  qb : Int
  n : Nat
  deriving DecidableEq, Repr

/-- Precision pairing beside the PAIR registers (R166 to R172). -/
structure PairState where
  /-- Trim t in effect and the trim to take effect at the members' return, by channel (R168). -/
  trim : List (Nat × Int)
  trimNext : List (Nat × Int)
  /-- Amplitude A and the running sums C and S, by channel (R167). -/
  amp : List (Nat × Int)
  csum : List (Nat × Int)
  ssum : List (Nat × Int)
  /-- Channels with an estimation sample carrying OVR, LOSS or SETTLE in this window, and whether CAPBASE was set before it
  (R168). -/
  bad : List Nat
  capture : Bool
  /-- D_pair in effect and the next value, by channel (R170). -/
  dPair : List (Nat × Int)
  dPairNext : List (Nat × Int)
  /-- Remainder bit r of each of the 40 registers of each paired point (R169): the slots whose bit is 1. -/
  rem : List Nat
  /-- Secondary increments received and not yet used: exposure, point, 40 values (R47, R169). -/
  recvd : List (BitVec 72 × Nat × List Nat)
  /-- Per-cycle sums by point and element: P_A, Q_A, P_B, Q_B, exposures; and S_A, S_B by point (R170, R171). -/
  cyc : List PairCyc
  app : List (Nat × Nat × Nat)
  /-- Sum and count of the newest frequency of each group over the cycle's exposures (R170). -/
  fsum : List (Nat × Nat × Nat)
  deriving DecidableEq, Repr

/-- A ledger record ready to be written (R195). -/
structure LedgerRecord where
  kind : BitVec 8
  expno : BitVec 72
  ts : BitVec 64
  flags : BitVec 64
  mpmask : BitVec 32
  seq : BitVec 32
  audit : BitVec 32
  /-- Register slots 50 p + s of the named points that are not 0. -/
  regs : List (Nat × BitVec 108)
  pinq : List (BitVec 108)
  deriving DecidableEq, Repr

/-- A snapshot taken and not yet copied (R196 to R198). -/
structure SnapReq where
  /-- The command, or none for an automatic snapshot. -/
  src : Option CmdSrc
  /-- Taken for the master of the cascade: its record goes there (R441). -/
  up : Bool
  mask : BitVec 32
  latent : Bool
  auto : Bool
  /-- The exposure number the record will carry, once its boundary has passed. -/
  expno : Option (BitVec 72)
  ts : BitVec 64
  pinq : List (BitVec 108)
  /-- Points whose registers were copied before a later exposure changed them, and those registers. -/
  frozen : BitVec 32
  kept : List (Nat × BitVec 108)
  deriving DecidableEq, Repr

/-- A record waiting for an LDG descriptor (R199). -/
structure LdgWait where
  src : Option CmdSrc
  auto : Bool
  record : LedgerRecord
  deriving DecidableEq, Repr

/-- Developer, fixer and ledger state beside the registers (R175 to R200). -/
structure LdgState where
  /-- Points running in the exposure in progress, and start and stop requests for the next boundary (R176). -/
  running : BitVec 32
  startReq : BitVec 32
  stopReq : BitVec 32
  /-- Channels that count for a running point as LOSS because they stopped or lost their role: channel masks by point (R177). -/
  chErrLogged : List (Nat × Nat)
  /-- Registers of R189 at 50 p + s, those that are not 0. -/
  regs : List (Nat × BitVec 108)
  /-- Release audit counter (R193). -/
  audit : BitVec 32
  /-- Exposures left with NETSET by channel (R184). -/
  netset : List (Nat × Nat)
  /-- Network states (R182 to R184) as at the end of the newest exposure, at 8 p + 2 e for the voltage of element e of point
  p, one more for its current. -/
  nets : List (Nat × NetState)
  /-- Magnitude index by channel (R154). -/
  mu : List (Nat × Int)
  cals : List CalWin
  pair : PairState
  snaps : List SnapReq
  autoSnap : Option (Nat × BitVec 32)
  snapSeq : BitVec 32
  ldgQ : List LdgWait
  /-- Automatic snapshots were dropped since the previous record (R199). -/
  dropped : Bool
  deriving DecidableEq, Repr

/-- EDGE of an event record (R219). -/
inductive EvEdge where
  | momentary
  | start
  | stop
  deriving DecidableEq, Repr

/-- An event decided by the device (R219 to R221). -/
structure Event where
  code : BitVec 16
  index : BitVec 8
  edge : EvEdge
  /-- Event sequence, given when the event is queued. -/
  seq : BitVec 64
  expno : BitVec 72
  ts : BitVec 64
  p0 : BitVec 64
  p1 : BitVec 64
  p2 : BitVec 64
  deriving DecidableEq, Repr

/-- A corrected sample on the window engine's time base (R202): instant in 2^-16 HFREF cycle, value, flags. -/
structure WSample where
  at_ : Nat
  z : Int
  settle : Bool
  loss : Bool
  ovr : Bool
  expno : BitVec 72
  deriving DecidableEq, Repr

/-- A U-half value of a crossing that is not yet acted on (R212, R214): the crossing, the one a cycle before it, and the
exposure that holds the recognising sample. -/
structure UHalf where
  at_ : Nat
  from_ : Option Nat
  ts : BitVec 64
  exp : BitVec 72
  deriving DecidableEq, Repr

/-- A synchronous window in progress or complete (R206). -/
structure Window where
  start : Nat
  tsStart : BitVec 64
  stop : Nat
  tsStop : BitVec 64
  fcyc : List Nat
  short : Bool
  /-- Lowest and highest U-half of each voltage channel in it. -/
  ext : List (Option (Nat × Nat))
  flagged : Bool
  seq : BitVec 64
  deriving DecidableEq, Repr

/-- An active sag, swell or interruption (R213, R214): start instant, extreme value and its channel. -/
structure PqActive where
  ts : BitVec 64
  extreme : Nat
  ch : Nat
  deriving DecidableEq, Repr

/-- Window engine and power-quality state of one voltage group (R203 to R215). -/
structure GroupState where
  lastRise : Option Nat
  lastFall : Option Nat
  /-- Instants of the last recognising samples, rising and falling (R203). -/
  seenRise : Nat
  seenFall : Nat
  /-- Newest per-cycle frequency, UQ8.24, and the instant it was measured (R205). -/
  fcyc : Nat
  fcycAt : Option Nat
  win : Option Window
  done : List Window
  winSeq : BitVec 64
  uhalf : List UHalf
  /-- Newest valid U-half by voltage channel (R213). -/
  newest : List (Option Nat)
  sag : Option PqActive
  swell : Option PqActive
  intr : Option PqActive
  /-- Start of the frequency-range event (R204). -/
  frange : Option (BitVec 64)
  deriving DecidableEq, Repr

/-- A pick-up state of R216 or R217: timer, whether picked up, the completing exposure, the highest value. -/
structure Pickup where
  timer : Nat
  picked : Bool
  since : BitVec 72
  high : Nat
  deriving DecidableEq, Repr

/-- Window engine and event logic beside the EVT registers (R201 to R221). -/
structure EvtState where
  /-- Events decided in the command being executed, and those waiting on chip, oldest first (R219, R220). -/
  now : List Event
  queue : List Event
  seq : BitVec 64
  /-- The events queued last and the HFREF time of their decision (R220). -/
  last : List Event
  lastAt : Nat
  /-- The next record written carries DROPPED. -/
  dropPend : Bool
  /-- Newest exposure resolved since the reset of PD5, or the EXPNO restored (R219). -/
  newest : BitVec 72
  groups : List GroupState
  /-- Corrected samples kept by the window engine, by channel, oldest first. -/
  samples : List (Nat × List WSample)
  /-- Exposures discarded or not confirmed, by channel (R201). -/
  unconf : List (BitVec 72 × Nat)
  rp : List Pickup
  oc : List Pickup
  /-- Sources between their start and end (R221): CODE, INDEX. -/
  active : List (BitVec 16 × BitVec 8)
  /-- Momentary sources still active, with the HFREF time at which they end (R228). -/
  pulses : List (BitVec 16 × BitVec 8 × Nat)
  /-- Stream-loss declarations whose exposure is not resolved yet: channel, cause, exposure, timestamp (R221). -/
  lossWait : List (Nat × BitVec 64 × BitVec 72 × BitVec 64)
  /-- Dropped-record mark of the HRM ring (R211). -/
  hrmDropped : Bool
  /-- The powerline MAC free-runs since the mark (R43). -/
  macFree : Bool
  /-- Last measured mains period of VG0 in ns (R43). -/
  mainsNs : Option Nat
  deriving DecidableEq, Repr

/-- One calibration-pulse output beside its registers (R222 to R227). -/
structure CfState where
  acc : Int
  /-- First exposure whose amounts enter acc: the one that began at the start (R222). -/
  first : Nat
  /-- End of the slot in progress, HFREF time. -/
  slotEnd : Nat
  /-- Pulses of the slot not yet risen: rising time and high time. -/
  sched : List (Nat × Nat)
  /-- The pulse that is high: its fall and its high time. -/
  high : Option (Nat × Nat)
  lastRise : Option Nat
  /-- The output is stopping: a pulse high at the boundary completes first (R222). -/
  stopping : Bool
  /-- Published latent increments of exposures not yet resolved (R223). -/
  pub : List (BitVec 72 × Nat)
  /-- Slots due: start in HFREF time (R224). -/
  due : List Nat
  /-- Level driven on the ball; none: released. -/
  ball : Option Bool
  deriving DecidableEq, Repr

/-- One TRIP output beside its registers (R228 to R232). -/
structure TripState where
  tripped : Bool
  /-- Held by LATCH once no source is active. -/
  acked : Bool
  /-- End of the minimum trip time, HFREF time. -/
  minUntil : Option Nat
  /-- The first drive decision has been made (R54, R229). -/
  driven : Bool
  changedAt : Nat
  mismatch : Nat
  deriving DecidableEq, Repr

/-- One pulse input beside its registers (R233 to R239). -/
structure PinState where
  level : Bool
  /-- Counts of the exposure in progress. -/
  count : Nat
  /-- Counting edges of the exposure: number, first and last edge time. -/
  edges : Nat
  first : Nat
  last : Nat
  /-- The two newest counting edges since the start, newest first. -/
  newest : List Nat
  startedAt : Nat
  missing : Option (BitVec 64)
  /-- Counts accepted in it whose edge times lie in exposures that had ended (R235). -/
  late : Nat
  /-- Edge time of the last accepted change of level (R233). -/
  changedAt : Option Nat
  deriving DecidableEq, Repr

structure PioState where
  cf : List CfState
  trip : List TripState
  pin : List PinState
  /-- Quantity registers of R235. -/
  pinq : List (BitVec 108)
  /-- Instant of the last reading of the TRIP balls (R231). -/
  readAt : Option Nat
  deriving DecidableEq, Repr

/-- What the ledger writer is doing (R246 to R252). -/
inductive ProofPhase where
  | idle
  | writing
  | readback
  deriving DecidableEq, Repr

/-- A proof being written, or due and waiting for its covered exposure (R246 to R252). -/
structure ProofJob where
  kind : BitVec 8
  expno : BitVec 72
  ts : BitVec 64
  pinq : List (BitVec 108)
  /-- PROOF_NOW commands the proof serves (R251), PWR_CYCLE commands (R357). -/
  cmds : List CmdSrc
  cycle : Option CmdSrc
  /-- Points whose registers were copied before a later exposure changed them, and those registers. -/
  frozen : BitVec 32
  kept : List (Nat × BitVec 108)
  deriving DecidableEq, Repr

/-- A journal entry waiting to be written (R260). -/
structure JournalEntry where
  jkind : BitVec 16
  ts : BitVec 64
  expno : BitVec 72
  p0 : BitVec 64
  p1 : BitVec 64
  p2 : BitVec 64
  deriving DecidableEq, Repr

/-- What an identity write in progress belongs to (R262, R263). -/
inductive IdentityJob where
  | seal (src : Option CmdSrc) (cause : BitVec 64)
  | unseal (src : CmdSrc)
  | fresh
  deriving DecidableEq, Repr

/-- An access queued at the FRAM port (R244). -/
inductive PortAccess where
  | read (addr : Nat)
  | write (addr : Nat) (v : BitVec 32)
  deriving DecidableEq, Repr

/-- Ledger writer, FRAM and seal beside the LDG registers (R241 to R265). -/
structure PrfState where
  /-- The ledger FRAM (R241, R243): bytes that are not 0, by address. -/
  fram : List Host.Cell
  phase : ProofPhase
  job : Option ProofJob
  record : Option LedgerRecord
  attempt : Nat
  /-- Sequence of the next proof (R246). -/
  nextSeq : BitVec 32
  /-- Proofs due that wait for their covered exposure or for the writer. -/
  due : List ProofJob
  /-- PROOF_NOW and PWR_CYCLE commands that wait for their boundary (R251, R357). -/
  nowReq : List CmdSrc
  cycleReq : Option CmdSrc
  journal : List JournalEntry
  jseq : BitVec 32
  /-- Index of the next journal entry. -/
  jpos : Nat
  /-- Identity GEN of the current identity, and identity writes in progress and waiting, first first (R245). -/
  gen : BitVec 64
  idJobs : List IdentityJob
  /-- SEAL_N debounced high (R262). -/
  sealN : Bool
  port : List PortAccess
  portData : BitVec 32
  /-- Metering has started since the restore (R256). -/
  started : Bool
  /-- EXPNO, TS and sequence of the proof restored, if any (R255). -/
  restored : Option (BitVec 72 × BitVec 64 × BitVec 32)
  /-- Image slots autostart has rejected (R259), and the status with which the newest record of an image ended, which is
  written nowhere (R394). -/
  imagesTried : List Nat
  imageStatus : Nat
  /-- The ledger writer has accessed the FRAM since reset: LQ balls driven (R54). -/
  lqDriven : Bool
  deriving DecidableEq, Repr

/-- Where a contact-sheet capture stands (R279 to R281). -/
inductive CsPhase where
  | off
  | armed
  | post
  | held
  deriving DecidableEq, Repr

/-- The trigger of the capture in progress or of the record held (R280, R282). -/
structure CsTrig where
  seq : BitVec 64
  expno : BitVec 72
  ts : BitVec 64
  code : BitVec 16
  index : BitVec 8
  source : BitVec 2
  evseq : BitVec 64
  delayed : Bool
  /-- FCLK time of the trigger, and PRE as it stood then. -/
  at_ : Nat
  pre : Nat
  deriving DecidableEq, Repr

/-- A sample of the contact-sheet buffer (R278): its word, whether a conversion of it carried UNCAL, the timestamp, FINE and FCLK
time of its first sampling edge, and whether a gap ends at it (R279). -/
structure CsSample where
  word : BitVec 16
  uncal : Bool
  ts : BitVec 64
  fine : Nat
  at_ : Nat
  gap : Bool
  deriving DecidableEq, Repr

/-- Conversions summed so far (R274, R278): their number, their sum, the flags any of them carries, and the FCLK time of the first. -/
structure ConvSum where
  n : Nat
  sum : Int
  ovr : Bool
  settle : Bool
  uncal : Bool
  at_ : Nat
  deriving DecidableEq, Repr

/-- The slot being converted (R274): its settings as it began, the SETTLE conversions still to discard, and the sum. -/
structure SlotRun where
  avg : Nat
  skip : Bool
  pga : Nat
  sub : Nat
  input : Nat
  drop : Nat
  acc : ConvSum
  deriving DecidableEq, Repr

/-- A decided event that an enabled trigger slot selects (R280): slot, CODE, INDEX, EVSEQ. -/
structure TrigPend where
  slot : Nat
  code : BitVec 16
  index : BitVec 8
  evseq : BitVec 64
  deriving DecidableEq, Repr

/-- A sequence run due or in progress (R273, R275). -/
structure SeqRun where
  s : Nat
  cmd : Option (CmdSrc × BitVec 64)
  started : Bool
  tsFirst : BitVec 64
  seq : BitVec 64
  /-- Slots of the run, and those completed. -/
  nslot : Nat
  idx : Nat
  deriving DecidableEq, Repr

/-- Fast-converter state beside the FCV registers (R266 to R283). -/
structure FcvState where
  cal : Option CmdSrc
  /-- FCLK time at which self-calibration took the converter. -/
  calAt : Nat
  /-- Reception is requested by the baseband and holds the converter unless self-calibration does (R269). -/
  reception : Bool
  urgent : Bool
  run : Option SeqRun
  /-- Runs due that wait, in ascending sequence number (R270). -/
  due : List SeqRun
  runSeq : List (BitVec 64)
  /-- The slot of the run or of the urgent conversion in progress. -/
  slot : Option SlotRun
  /-- Input, sub-input and gain of the newest sampling edge, unless the next one is a multiplexer change in any case (R267, R269). -/
  mux : Option (Nat × Nat × Nat)
  /-- Conversions that still carry SETTLE after a multiplexer change, and after the last OVR conversion (R268). -/
  muxLeft : Nat
  ovrLeft : Nat
  /-- FCLK time (25 to an HFREF cycle) of the owner's next sampling edge. -/
  next : Nat
  cs : CsPhase
  /-- Selected events of the command in progress (R280). -/
  trigQ : List TrigPend
  trig : Option CsTrig
  /-- The capture has held the converter since it was armed, so that losing it opens a gap; a gap is open (R279). -/
  fill : Bool
  gap : Bool
  /-- The sample in progress, the pre-trigger samples in the buffer and the post-trigger samples, oldest first (R278 to R281). -/
  part : Option ConvSum
  ring : List CsSample
  post : List CsSample
  csSeq : BitVec 64
  /-- A held record was discarded since the previous record (R282). -/
  discarded : Bool
  deriving DecidableEq, Repr

/-- A tone map of one mains slot (R304). -/
structure ToneMap where
  mapId : BitVec 6
  rate : BitVec 2
  gi : BitVec 2
  valid : Bool
  bits : BitVec 64
  tsNeg : BitVec 64
  segs : BitVec 32
  failed : BitVec 32
  /-- Loading codes of carriers 40, 41, ... (R295), without trailing zeros kept away. -/
  load : List (BitVec 4)
  deriving DecidableEq, Repr

/-- A negotiation in progress with a neighbour (R305). -/
structure Negotiation where
  initiator : Bool
  attempt : Nat
  /-- Timestamps of the first sounding and of the completion of the previous step. -/
  t0 : BitVec 64
  tPrev : BitVec 64
  /-- Soundings sent and received, by slot. -/
  sent : BitVec 4
  heard : BitVec 4
  /-- The first sounding has been sent; HFREF time at which the half-cycle of the soundings sent began. -/
  begun : Bool
  half : Option Nat
  /-- The responder's report was sent. -/
  reported : Bool
  /-- Measured on the soundings received: SNR by slot and carrier in 0.5 dB, worst impulse erasure rate by carrier in 1/1000,
  longest impulse response in samples. -/
  snr : List (Nat × List Int)
  erasure : List Nat
  cir : Nat
  /-- Loadings of the other end's report, by slot. -/
  other : List (List (BitVec 4))
  final : List ToneMap
  deriving DecidableEq, Repr

/-- One neighbour context (R322). -/
structure NeighCtx where
  valid : Bool
  eui : BitVec 64
  laddr : BitVec 24
  gen : BitVec 8
  keyOk : Bool
  key : BitVec 128
  txCtr : BitVec 32
  rxCtr : BitVec 32
  keyIdx : BitVec 16
  heard : BitVec 64
  mapAge : BitVec 64
  /-- Outcome of the last 256 segments sent and received, newest first: true when failed (R330, R306). -/
  sentHist : List Bool
  rxHist : List Bool
  sent : BitVec 32
  metric : BitVec 32
  maps : List ToneMap
  /-- The transmit counter is exhausted (R311). -/
  exhausted : Bool
  /-- SEC of the last security event (R311). -/
  secAt : Option Nat
  /-- Consecutive expired SACK waits (R334). -/
  expired : Nat
  neg : Option Negotiation
  negFails : Nat
  negHold : BitVec 64
  deriving DecidableEq, Repr

/-- A directory entry (R324). -/
structure DirEntry where
  node : BitVec 64
  laddr : BitVec 24
  state : BitVec 3
  hops : BitVec 3
  keyIdx : BitVec 16
  nh : BitVec 64
  heard : BitVec 64
  sent : BitVec 32
  recvd : BitVec 32
  failed : BitVec 32
  retx : BitVec 32
  cookie : BitVec 64
  deriving DecidableEq, Repr

/-- A directory table: geometry, seed, occupied slots (4 b + slot), occupied overflow entries, overflow chain of each bucket,
and the free list: entries freed by removals, newest first, then those from `fresh` on (R324, R325). -/
structure DirTable where
  tbase : BitVec 64
  tovf : BitVec 64
  bkt : Nat
  ovfn : Nat
  seed : BitVec 128
  slots : List (Nat × DirEntry)
  ovf : List (Nat × DirEntry)
  chains : List (Nat × List Nat)
  freed : List Nat
  fresh : Nat
  deriving DecidableEq, Repr

/-- A MAC frame queued for transmission or waiting for its response (R310, R332 to R334). -/
structure MacTx where
  id : Nat
  /-- PLC_TX or NET descriptor it completes: ring and index. -/
  desc : Option (Nat × BitVec 32)
  deadline : Option (BitVec 64)
  final : BitVec 24
  node : BitVec 64
  bcast : Bool
  mtype : BitVec 8
  prot : Bool
  resp : Bool
  respReq : Bool
  rseq : BitVec 16
  orig : BitVec 24
  hopLim : BitVec 3
  /-- Bytes after the 16-byte header, in clear. -/
  body : List (BitVec 8)
  seq : BitVec 16
  /-- Neighbour it is queued for, with the frame as protected for that link, once a transmission carried it. -/
  link : Option Nat
  frame : List (BitVec 8)
  /-- Segments still to be delivered, each with the times it was sent; transmissions of the frame made. -/
  todo : List (Nat × Nat)
  txs : Nat
  /-- Delivered; waits for the response of R334. -/
  waitResp : Bool
  queuedAt : BitVec 64
  deriving DecidableEq, Repr

/-- A transmission the device puts on the line (R289): its frame control, the HFREF time of its first preamble sample, the
attenuations of R286, the preamble's points (R290), the frame-control and payload symbols with each coded bit's carrier and
bit plane (R292, R294 to R298), the carriers and bits of the further safelight copies in each symbol (R296), and a sounding's points. -/
structure AirFrame where
  fc : BitVec 256
  at_ : Nat
  psdLo : Nat
  psdHi : Nat
  preamble : List (List (Nat × Nat))
  fcSyms : List (List (Nat × Nat × Bool))
  fcCopies : List (List (Nat × Bool))
  syms : List (List (Nat × Nat × Bool))
  copies : List (List (Nat × Bool))
  points : List (List (Nat × Nat))
  /-- HFREF time at which the line driver went off in the middle of it (R53, R71, R285). -/
  cutAt : Option Nat
  deriving DecidableEq, Repr

/-- The transmission in progress or whose SACK is awaited (R309, R334). -/
structure TxNow where
  nb : Option Nat
  fsn : BitVec 16
  ftype : Nat
  nseg : Nat
  ackReq : Bool
  mapped : Bool
  /-- MAC frame and segment index of each segment. -/
  segs : List (Nat × Nat)
  /-- Slot of a sounding. -/
  slot : Nat
  ended : Bool
  /-- The line driver went off before its end. -/
  cut : Bool
  deadline : BitVec 64
  deriving DecidableEq, Repr

/-- A received transmission whose SACK is due (R309): failed segments, MAPINV with the cause of event 0x0803. -/
structure SackDue where
  laddr : BitVec 24
  fsn : BitVec 16
  failed : List Nat
  mapInv : Option Nat
  nb : Nat
  /-- HFREF time at which the SACK starts: 60 µs after the end of the last symbol. -/
  at_ : Nat
  deriving DecidableEq, Repr

/-- The receiver's tracking of the channel through a transmission (R309): the estimate of each carrier (in 2^-20), the decision error
of the symbol before where it was not erased, symbols still updated by 1/2, and channel steps declared. -/
structure Track where
  est : List (Nat × Int × Int)
  prev : Option Nat
  fast : Nat
  steps : Nat
  deriving DecidableEq, Repr

/-- A MAC frame being put together from segments of one neighbour (R293, R310). -/
structure Assembly where
  nb : Nat
  seq : BitVec 16
  count : Nat
  parts : List (Nat × List (BitVec 8))
  safelight : Bool
  ts : BitVec 64
  deriving DecidableEq, Repr

/-- A received MAC frame that waits for a PLC_RX descriptor (R400). -/
structure PlcRxRecord where
  mtype : BitVec 8
  slots : List (BitVec 64)
  frame : List (BitVec 8)
  ts : BitVec 64
  deriving DecidableEq, Repr

/-- Powerline state beside the PLC and NET registers (R284 to R335). -/
structure PlcState where
  ctxs : List NeighCtx
  dir : Option DirTable
  /-- Second table of a rehash, and entries copied so far (R328). -/
  newDir : Option DirTable
  copied : Nat
  /-- The table an INIT in progress sets up (R325). -/
  initBusy : Option DirTable
  /-- Node IDs cached on chip, newest used first, with whether changed fields wait to be written back (R329). -/
  cache : List (BitVec 64 × Bool)
  /-- PLC_TX frames whose directory lookup goes to host memory. -/
  lookWait : List MacTx
  queue : List MacTx
  /-- Identity of the next frame queued; 0 is that of frames not queued yet. -/
  nextId : Nat
  macSeq : BitVec 16
  fsn : BitVec 16
  tx : Option TxNow
  sackDue : Option SackDue
  /-- HFREF time at which this device last started a SACK (R320). -/
  sackAt : Option Nat
  /-- Tracking of the transmission received last (R309). -/
  track : Track
  asm : List Assembly
  ready : List Assembly
  rxQ : List PlcRxRecord
  /-- Transmissions put on the line, oldest first. -/
  out : List AirFrame
  overTemp : Bool
  /-- The event of a VLD out of range is active (R313). -/
  refusedVld : Bool
  cw : Nat
  backoff : Option Nat
  /-- Earliest HFREF time of the next transmission after an expired SACK wait (R334). -/
  txAfter : Nat
  /-- Start and length of the beacon period, sequence, end of contention, allocation list (R318, R319). -/
  bStart : Option Nat
  bpLen : Nat
  bSeq : BitVec 8
  cpEnd : BitVec 8
  alloc : List (BitVec 64)
  /-- SEC of the last NETID-conflict event (R314). -/
  conflictAt : Option Nat
  /-- Station: MAC sequence of the association request sent, and the response deadline once it is on the line (R316). -/
  assocReq : Option (BitVec 16)
  assocDeadline : Option (BitVec 64)
  /-- Consecutive beacons with Δ below 10 µs, at most 8 (R321). -/
  lockRun : Nat
  deriving DecidableEq, Repr

/-- Clock and backup-domain state beside the RTC registers (R336 to R361). -/
structure RtcState where
  /-- SEC, TICK and the correction accumulator (R336, R337). -/
  sec : Nat
  tick : Nat
  acc : Int
  /-- Temperature correction in effect, and the one that enters C at the next tick edge (R348). -/
  tcorr : Int
  tcorrNext : Option Int
  /-- Ticks until the next temperature measurement (R348). -/
  tcDue : Nat
  /-- Slew rate in effect; the rate and duration in s that wait for the next tick edge; ticks left of the duration in effect (R345). -/
  slew : Int
  slewNext : Option (Int × Nat)
  slewDur : Option Nat
  /-- A commit requested by RTC_CTL.COMMIT waits for its edge (R342); one requested by RTC_SET is that taken command. -/
  commit : Bool
  /-- A step that waits for its edge: seconds and ticks (R344); it was asked for by a write of RTC_CTL.STEP. -/
  step : Option (Int × Nat)
  stepReg : Bool
  /-- A capture requested by RTC_CTL.CAPTURE waits for its edge (R346). -/
  capture : Bool
  /-- Tick edges since the alarm was armed, at most 2 (R352). -/
  armAge : Nat
  /-- A commit or step took effect at the last tick edge: the time, in ticks, the clock would have shown (R352). -/
  jumped : Option Nat
  /-- Ticks counted for the periodic wake with ALIGN = 0, and a wake that is due (R354). -/
  perCount : Nat
  perDue : Bool
  /-- The alarm event waits for PD5 (R353): SKIPPED. -/
  deferred : Option Bool
  /-- Retention bytes with a wrong parity bit (R355). -/
  badParity : List Nat
  /-- Bookkeeping written since the last backup-domain reset (R253). -/
  bkValid : Bool
  /-- VBKUP is below the retention threshold (R351). -/
  vbLow : Bool
  /-- PD0 is supplied from VBKUP (R360). -/
  onBattery : Bool
  /-- PWRON driven low (R56); a PWR_CYCLE that completed waits 1 ms: its OFFTIME, and the HFREF time of completion (R357). -/
  pwronLow : Bool
  cycle : Option (BitVec 24)
  cycleAt : Nat
  /-- OFFTIME of the cycle in progress, and the HFREF time t1 at which it drove PWRON low (R357, R358). -/
  offtime : BitVec 24
  lowAt : Option Nat
  /-- VDDIO fell below its reset threshold while system power was held off: the cycle is not void (R358). -/
  supplyFell : Bool
  deriving DecidableEq, Repr

/-- Arguments of a scan (R366, R370). -/
structure ScanArgs where
  alg : Nat
  space : Nat
  region : Nat
  start : Nat
  len : Nat
  refIdx : Option Nat
  part : Bool
  cont : Option (BitVec 36)
  deriving DecidableEq, Repr

/-- A scan on one unit (R370 to R376). -/
structure Scan where
  src : CmdSrc
  args : ScanArgs
  /-- Host-memory bytes read for the pass in progress (R366). -/
  data : Option (List (BitVec 8))
  /-- Units fed in the first pass and its value, once the rescan runs; REFCOR of the reference read (R376). -/
  first : Option (Nat × BitVec 36)
  ref : BitVec 36
  refCor : Bool
  /-- Waits for the ledger writer to release the unit (R372). -/
  waiting : Bool
  deriving DecidableEq, Repr

/-- A reference entry (R375): the value written last, and the stored bits inverted since, data bits [35:0] below the seven
check bits. -/
structure RefEntry where
  value : BitVec 36
  flips : BitVec 43
  deriving DecidableEq, Repr

/-- Check-value units beside the CVU registers (R363 to R379). -/
structure CvuState where
  scans : List (Option Scan)
  /-- Reference entries 0 to 63 (R375); 56 to 63 are the safety monitor's (R416). -/
  refs : List RefEntry
  deriving DecidableEq, Repr

/-- A write the device makes to host memory, or an MSI-X message, in the order in which PCI Express carries them
(R389). -/
inductive HostWrite where
  /-- Ascending 64-bit little-endian slots from `addr` (R14, R15, R382). -/
  | mem (addr : BitVec 64) (slots : List (BitVec 64))
  /-- One 32-bit word: a CIDX or RSTAT of the status page (R388). -/
  | word (addr : BitVec 64) (v : BitVec 32)
  /-- Bytes from `addr`. -/
  | bytes (addr : BitVec 64) (data : List (BitVec 8))
  /-- Zeros over a range (R325). -/
  | zero (addr : BitVec 64) (len : Nat)
  /-- An MSI-X message for a vector (R390). -/
  | msix (vec : BitVec 5)
  deriving DecidableEq, Repr

/-- A completion whose outcome is determined (R393). -/
structure Completion where
  op : BitVec 8
  status : BitVec 8
  mailbox : Bool
  tag : BitVec 32
  cmdIdx : BitVec 32
  ts : BitVec 64
  p0 : BitVec 64
  p1 : BitVec 64
  p2 : BitVec 64
  expno : BitVec 72
  deriving DecidableEq, Repr

/-- State of one ring beside its registers (R385 to R390). -/
structure RingAux where
  /-- Returns counted since the last message (R390). -/
  irqCount : Nat
  /-- HFREF time of the first return not yet signalled (R390). -/
  irqSince : Option Nat
  /-- A record of this ring was dropped since the previous writeback (R397). -/
  dropped : Bool
  /-- Records dropped since EN was set, modulo 2^16 (R388 RSTAT). -/
  dropCnt : BitVec 16
  /-- Buffer descriptors from index C on that the device holds (R385). -/
  posted : List BufDesc
  /-- Descriptors of a host ring above C taken, by index, with whether each has completed (R401). -/
  open_ : List (BitVec 32 × Bool)
  deriving DecidableEq, Repr

/-- What a DMA read of host memory in flight serves (R382). -/
inductive DmaUse where
  | coef (src : CmdSrc)
  | corr (src : CmdSrc)
  | cvu (src : CmdSrc)
  deriving DecidableEq, Repr

/-- A sample-block buffer being filled on an SMP ring (R399). -/
structure SmpFill where
  used : Nat
  blocks : Nat
  expno : BitVec 72
  ts : BitVec 64
  deriving DecidableEq, Repr

/-- One SMP stream beside its registers (R399). -/
structure SmpState where
  fill : SmpFill
  /-- Blocks dropped immediately before the next one. -/
  droppedBefore : Nat
  deriving DecidableEq, Repr

/-- Host-interface state beside the registers (R380 to R411). -/
structure HifState where
  rings : List RingAux
  /-- A doorbell read is in flight (R387). -/
  dbInFlight : Bool
  /-- A kick arrived while a read was in flight: one further read follows (R387). -/
  dbAgain : Bool
  /-- CMD descriptors fetched and not yet taken (R392). -/
  fetched : List (BitVec 32 × Desc8)
  /-- Completions waiting on chip, in order of determination (R393). -/
  cplQ : List Completion
  /-- Boundary writes since DBEN was set (R388 HB). -/
  hb : BitVec 32
  /-- The link went down and has not come up again (event 0x0B03, R405, R412). -/
  linkLost : Bool
  /-- DMA and MSI-X are stopped until the next doorbell read after D0 and Bus Master Enable (R381). -/
  dmaStopped : Bool
  /-- DMA reads in flight by number (R382). -/
  dmaReads : List (Nat × DmaUse)
  dmaNext : Nat
  smp : List SmpState
  /-- Live-view SEQ (R200). -/
  lvSeq : BitVec 64
  /-- Writes to host memory and MSI-X messages made so far, oldest first (R389). -/
  out : List HostWrite
  /-- The last value a register read returned to each port: PCI Express, then the bytes of the last HSPI frame. -/
  pcieRead : BitVec 32
  hspiOut : List (BitVec 8)
  /-- The upper-word latch of each port (R12): lowest word's offset and the latched upper words. -/
  latchPcie : List (Nat × BitVec 32)
  latchHspi : List (Nat × BitVec 32)
  /-- The staged upper words of each port and of autostart (R12). -/
  stagePcie : List (Nat × BitVec 32)
  stageHspi : List (Nat × BitVec 32)
  stageImage : List (Nat × BitVec 32)
  deriving DecidableEq, Repr

/-- FN_REINIT SAFETY in progress (R430): whether the diagnostics have begun, boundaries passed since, the vectors and clock checks
passed. -/
structure SafReinit where
  begun : Bool
  boundaries : Nat
  vectorsOk : Bool
  clocksOk : Bool
  deriving DecidableEq, Repr

/-- Safety-monitor state beside the SAF registers (R413 to R430). -/
structure SafState where
  /-- Stored strike timestamps of each diagnostic, bits [59:0], newest first (R421). -/
  strikes : List (List Nat)
  /-- Segments whose last pass failed, and segments with a pass due that has not completed (R416). -/
  failedSeg : List Nat
  dueSeg : List Nat
  /-- The vector slot of the present exposure has run or been displaced; the vector that must run again (R418). -/
  kavDone : Bool
  kavAgain : Option Nat
  /-- Watchdog: HFREF time of the last restart (R427). -/
  wdtAt : Nat
  /-- A watchdog reset's event waits for start-up: TIMEOUT (R427). -/
  wdtEvent : Option (BitVec 16)
  /-- HFREF time of the last clock cross-check (R419). -/
  clkAt : Nat
  reinit : Option SafReinit
  /-- SEC of the last ECC-corrected event and corrections since, by memory (R420). -/
  eccSec : List (Option Nat × Nat)
  /-- Decisions of the trip logic in the command being executed at which its lanes disagree (R417). -/
  laneBad : List (Bool × Nat)
  /-- FAULT_N is driven high (R57). -/
  faultN : Bool
  deriving DecidableEq, Repr

/-- A frame or character this device sends on the Tozar Link, as far as its content is stated (R433 to R447). -/
inductive TzOut where
  | enumeration (pos : Nat) (highest : BitVec 72)
  | boundary (m : Marker)
  | resolution (f : ResFrame)
  | mirror (f : MirFrame)
  | phase (trims : List (Nat × Int))
  | remote (pos : Nat) (off : BitVec 16) (write : Option (BitVec 32))
  | k283
  deriving DecidableEq, Repr

/-- A cascade-wide snapshot whose slaves' records are awaited (R441): its command if any, its exposure, the payload of its
completion, the positions not written yet in ascending order, and records that have arrived. -/
structure CasWait where
  src : Option CmdSrc
  expno : BitVec 72
  p0 : Nat
  p1 : Nat
  p2 : Nat
  left : List Nat
  got : List (Nat × List (BitVec 64))
  /-- HFREF time at which its own record was written. -/
  at_ : Nat
  deriving DecidableEq, Repr

/-- Tozar Link state beside the TZL registers (R432 to R448). -/
structure TzlState where
  /-- MODE and MIRSIDE in effect since the last reset of PD9, FN_REINIT TZL or end of autostart. -/
  mode : BitVec 2
  side : Bool
  /-- Upstream and downstream port lost since it was last trained (event 0x0C01). -/
  upLost : Bool
  dnLost : Bool
  /-- Enumerated in a cascade (R435), or the roles of a mirrored pair decided (R444). -/
  enumerated : Bool
  /-- Slave: metering waits for the cascade start (R436); the master's time at a boundary and the HFREF time there (R42, R439). -/
  waiting : Bool
  masterTs : Option (BitVec 64 × Nat)
  timeSet : Bool
  /-- Number of the first exposure after a cascade start that has not come yet (R437). -/
  jump : Option (BitVec 72)
  /-- Islanded, or rejoining: the exposure in progress ends as a short exposure at the next boundary (R442). -/
  cut : Bool
  /-- Forwarded events with their position, oldest first (R440). -/
  events : List (Nat × List (BitVec 32))
  /-- Remote access in progress: a write, position, offset, value (R441). -/
  remote : Option (Bool × Nat × BitVec 16 × BitVec 32)
  cascade : List CasWait
  /-- Slaves' records that arrived before the master's own record was written: position, slots (R441). -/
  early : List (Nat × List (BitVec 64))
  /-- The partner is a DV1224, as its newest mirror frame shows: MP0 to MP11 and PIN0 to PIN7 only are mirrored (R448). -/
  small : Bool
  /-- Standby: takeover is armed with its cause; exposure of the newest mirror frame (R447). -/
  takeover : Option (BitVec 64)
  mirLast : Option (BitVec 72)
  /-- Own fixed increments of exposures whose mirror frame has not arrived: exposure, point, 40 values (R447). -/
  own : List (BitVec 72 × Nat × List Nat)
  /-- What mirror frames gave for points this device has not resolved itself: exposure, point, fixed, values (R445). -/
  mirGot : List (BitVec 72 × Nat × Bool × List Nat)
  /-- Exposures ended whose mirror frame is not sent or received yet: SUM36 of region 0x00 at their boundary, end timestamp. -/
  sums : List (BitVec 72 × BitVec 36 × BitVec 64)
  /-- Active: releases applied and pulse counts of exposures whose mirror frame is not sent yet (R445). -/
  relNow : List (Nat × Nat × Nat)
  countsNow : List (BitVec 72 × List Nat)
  /-- Slave: events not yet forwarded (R440). -/
  fwd : List Event
  /-- HFREF time at which FN_REINIT TZL was taken (R443). -/
  reinitAt : Nat
  out : List TzOut
  deriving DecidableEq, Repr

/-- Where start-up stands (R82): in reset, then the rows of the start-up table one after another. -/
inductive Phase where
  /-- PD1 (or PD2 to PD9, R81) is held in reset. -/
  | inReset
  /-- REFIN counting (R73). -/
  | sourceSelect
  /-- HFREF is being measured (R74). -/
  | hfWait
  /-- HFREF was not good within 10 ms; source selection is retried every 100 ms (R74). -/
  | hfRetry
  /-- The PLL is locking (R75). -/
  | pllWait
  /-- Every on-chip memory is being written. -/
  | memInit
  /-- The start-up diagnostics run (R426). -/
  | diag
  /-- Both proof slots are read (R255). -/
  | restoring
  /-- Autostart reads and applies a configuration image (R259). -/
  | image
  /-- The configuration is applied; autostart's internal SYNC is awaited (R82). -/
  | internalSync
  /-- Start-up has ended. -/
  | done
  /-- STANDBY: PD0 and PD1 only (R85). -/
  | standby
  /-- BACKUP: PD0 only (R85). -/
  | backup
  deriving DecidableEq, Repr

/-- A change of device state of R86 in progress. -/
inductive Change where
  | none
  | toMeter
  | toRun
  /-- RUN or METER to STANDBY: metering is to stop at the next boundary, or has stopped and the standby proof is
  awaited. -/
  | toStandby
  deriving DecidableEq, Repr

/-- Power, reset and start-up state beside the registers of the PWR block (R68 to R90). -/
structure PwrState where
  phase : Phase
  change : Change
  /-- A wake from STANDBY is in progress (R86), up to the end of its autostart, which runs whatever the strap. -/
  wake : Bool
  /-- The latest TARGET written during TRANS, to be taken up when it ends (R86). -/
  want : Option (BitVec 2)
  /-- HFREF time of the last READY (R82, R444). -/
  readyAt : Nat
  /-- The change to STANDBY in progress stopped metering, and owes a standby proof (R86, R89). -/
  stopRan : Bool
  /-- VDDC or VDDA has fallen below its reset threshold in STANDBY and has not been back for 1 ms (R69, R70). -/
  coreLow : Bool
  /-- The start-up in progress follows a reset of PD2 to PD9 alone (R81). -/
  pd1Kept : Bool
  /-- PWR_RSTCAUSE bits to set at the release of the reset in progress (R90). -/
  cause : BitVec 7
  /-- Monitors beyond their threshold now, by the bits of PWR_MON (R71); bit 0 stays 0. -/
  monNow : BitVec 9
  /-- HFREF time of the last overvoltage strike of VDDC, VDDA and VDDIO (R71). -/
  ovAt : List Nat
  /-- Banks in bank fault now (R71). -/
  bankFault : BitVec 12
  /-- VDDIO_Mk level at the bank ball: in the 3.3 V window (R71). -/
  bank33 : BitVec 12
  /-- A power-fail sequence was recognised and has not ended in a reset (R87). -/
  pfRunning : Bool
  /-- The JTAG TAP controller is in its reset state (R78). -/
  tapReset : Bool
  deriving DecidableEq, Repr

/-- Time bases and the exposure in progress (R17, R24 to R28, R137). -/
structure ExpState where
  /-- HFREF cycles since power-up, and the count at the last tick edge (R17). -/
  now : Nat
  edgeAt : Nat
  /-- HFREF cycle of the latest LFCLK edge, a tick edge or a suppressed one (R337) -/
  lfAt : Nat
  /-- Exposures are being formed. -/
  running : Bool
  /-- Number, start and start timestamp of the exposure in progress. -/
  cur : BitVec 72
  startAt : Nat
  startTs : BitVec 64
  /-- Number of the first exposure of the next run (R26). -/
  next : BitVec 72
  /-- Highest exposure issued since the reset of PD5 that has ended, with its end timestamp (R196). -/
  lastEnded : Option (BitVec 72 × BitVec 64)
  /-- Highest exposure resolved for every running point, with its end timestamp (R252). -/
  lastResolved : Option (BitVec 72 × BitVec 64)
  /-- HFREF time of the recognised sync edge (R137), and its source code for FLT_STAT.LASTSRC. -/
  syncAt : Option Nat
  syncSrc : BitVec 3
  /-- Exposures issued and not resolved for every point, oldest first (R28). -/
  pipe : List Expo
  chans : List ChState
  brk : List BrkState
  /-- CALSEL balls: level driven, or none when released (R123). -/
  calsel : List (Option Bool)
  /-- Settings as they were at the last exposure boundary: the registers whose value differs from reset. -/
  eff : List (Nat × BitVec 32)
  deriving DecidableEq, Repr

/-- The machine. -/
structure State where
  /-- Commands that wait, first in, first out. -/
  pending : List Instr
  /-- BAR0 registers: the offsets whose stored value differs from the reset value (R450). -/
  regs : List (Nat × BitVec 32)
  taken : List Taken
  exp : ExpState
  ldg : LdgState
  evt : EvtState
  pio : PioState
  prf : PrfState
  fcv : FcvState
  plc : PlcState
  rtc : RtcState
  cvu : CvuState
  hif : HifState
  saf : SafState
  tzl : TzlState
  pwr : PwrState
  /-- Counter of free values used so far (the model's own field, not the spec's). -/
  free : Nat
  deriving DecidableEq, Repr

/-- Why a command faults.  The spec gives every command of the table an effect in every state, so no meaning faults; the
one constructor stands for a command that reaches a unit the spec says does not exist (raised by nothing: safe). -/
inductive Fault where
  /-- Raised by no meaning of this model: safe. -/
  | absentUnit
  deriving DecidableEq, Repr

/-- Why a command is refused. -/
inductive Refusal where
  /-- A command without a meaning yet, by its mnemonic; raised by the dispatch alone: safe. -/
  | notModelled (mnemonic : String)
  deriving DecidableEq, Repr

/-- A channel after reset: not started (R98), with the table of R158 flat. -/
def ChState.reset : ChState :=
  { started := false, role := 0, held := false, lost := false, lostNow := false, byBank := false, runSeen := false,
    bits := [], hb := [], delay := [], settle := 0, ovr := 0, ovrPend := false, firePend := false, dcE := 0, frz := 0, hist := [], histLen := 0, ys := [], bankA := [],
    bankB := [], fade := none, fadeLast := none, filtSettle := 0, corr := [], corrNext := none, corrHeld := none }

/-- A bracketed pair after reset (R113). -/
def BrkState.reset : BrkState :=
  { on := false, sel := true, timeline := [], count := 0, hOld := [], lOld := [], fired := false, toLg := 0, toHg := 0, hSettle := 0 }

/-- The exposure state after reset: no exposure runs, the first one is numbered 0 (R26). -/
def ExpState.reset : ExpState :=
  { now := 0, edgeAt := 0, lfAt := 0, running := false, cur := 0, startAt := 0, startTs := 0, next := 0,
    lastEnded := none, lastResolved := none, syncAt := none, syncSrc := 0, pipe := [], chans := List.replicate 96 ChState.reset,
    brk := List.replicate 48 BrkState.reset, calsel := List.replicate 12 none, eff := [] }

/-- Pairing after reset: it does not run (R166). -/
def PairState.reset : PairState :=
  { trim := [], trimNext := [], amp := [], csum := [], ssum := [], bad := [], capture := false, dPair := [], dPairNext := [],
    rem := [], recvd := [], cyc := [], app := [], fsum := [] }

/-- Ledger state after reset: every register 0 (R190). -/
def LdgState.reset : LdgState :=
  { running := 0, startReq := 0, stopReq := 0, chErrLogged := [], regs := [], audit := 0, netset := [], nets := [],
    mu := [], cals := [], pair := PairState.reset, snaps := [], autoSnap := none, snapSeq := 0,
    ldgQ := [], dropped := false }

/-- A voltage group after reset (R214, R218). -/
def GroupState.reset : GroupState :=
  { lastRise := none, lastFall := none, seenRise := 0, seenFall := 0, fcyc := 0, fcycAt := none, win := none, done := [], winSeq := 0, uhalf := [],
    newest := [none, none, none], sag := none, swell := none, intr := none, frange := none }

/-- A pick-up state after reset (R218). -/
def Pickup.reset : Pickup := { timer := 0, picked := false, since := 0, high := 0 }

/-- Window engine and event logic after reset (R219). -/
def EvtState.reset : EvtState :=
  { now := [], queue := [], seq := 0, last := [], lastAt := 0, dropPend := false, newest := 0, groups := List.replicate 8 GroupState.reset,
    samples := [], unconf := [], rp := List.replicate 32 Pickup.reset, oc := List.replicate 96 Pickup.reset, active := [],
    pulses := [], lossWait := [], hrmDropped := false, macFree := false, mainsNs := none }

/-- A calibration-pulse output after reset: stopped, its ball released (R53, R226). -/
def CfState.reset : CfState :=
  { acc := 0, first := 0, slotEnd := 0, sched := [], high := none, lastRise := none, stopping := false, pub := [], due := [],
    ball := none }

/-- A TRIP output after reset: released (R53, R232). -/
def TripState.reset : TripState :=
  { tripped := false, acked := false, minUntil := none, driven := false, changedAt := 0, mismatch := 0 }

/-- A pulse input after reset. -/
def PinState.reset : PinState :=
  { level := false, count := 0, edges := 0, first := 0, last := 0, newest := [], startedAt := 0, missing := none,
    late := 0, changedAt := none }

/-- Pulse and trip interfaces after reset. -/
def PioState.reset : PioState :=
  { cf := List.replicate 16 CfState.reset, trip := List.replicate 8 TripState.reset,
    pin := List.replicate 16 PinState.reset, pinq := List.replicate 16 0, readAt := none }

/-- Ledger writer and FRAM after reset: an empty FRAM (R243). -/
def PrfState.reset : PrfState :=
  { fram := [], phase := .idle, job := none, record := none, attempt := 0, nextSeq := 0, due := [], nowReq := [], cycleReq := none,
    journal := [], jseq := 0, jpos := 0, gen := 0, idJobs := [], sealN := false, port := [], portData := 0,
    started := false, restored := none, imagesTried := [], imageStatus := 0, lqDriven := false }

/-- The fast converter after reset: idle (FCV_STAT.OWNER 7). -/
def FcvState.reset : FcvState :=
  { cal := none, calAt := 0, reception := false, urgent := false, run := none, due := [], runSeq := [0, 0, 0, 0], slot := none,
    mux := none, muxLeft := 0, ovrLeft := 0, next := 0, cs := .off, trigQ := [], trig := none, fill := false, gap := false,
    part := none, ring := [], post := [], csSeq := 0, discarded := false }

/-- A neighbour context after reset: free (R322). -/
def NeighCtx.reset : NeighCtx :=
  { valid := false, eui := 0, laddr := 0, gen := 0, keyOk := false, key := 0, txCtr := 0, rxCtr := 0, keyIdx := 0,
    heard := 0, mapAge := 0, sentHist := [], rxHist := [], sent := 0, metric := 0, maps := [], exhausted := false,
    secAt := none, expired := 0, neg := none, negFails := 0, negHold := 0 }

/-- The powerline after reset (R320: CW starts at 16). -/
def PlcState.reset : PlcState :=
  { ctxs := List.replicate 256 NeighCtx.reset, dir := none, newDir := none, copied := 0, initBusy := none, cache := [],
    lookWait := [], queue := [], nextId := 1, macSeq := 0, fsn := 0, tx := none, sackDue := none,
    sackAt := none, track := { est := [], prev := none, fast := 0, steps := 0 }, asm := [], ready := [],
    rxQ := [], out := [], overTemp := false, refusedVld := false, cw := 16, backoff := none, txAfter := 0,
    bStart := none, bpLen := 0, bSeq := 0, cpEnd := 0, alloc := [], conflictAt := none, assocReq := none,
    assocDeadline := none, lockRun := 0 }

/-- The backup domain after a backup-domain reset (R361). -/
def RtcState.reset : RtcState :=
  { sec := 0, tick := 0, acc := 0, tcorr := 0, tcorrNext := none, tcDue := 0, slew := 0, slewNext := none,
    slewDur := none, commit := false, step := none, stepReg := false, capture := false, armAge := 0, jumped := none, perCount := 0,
    perDue := false, deferred := none, badParity := [], bkValid := false, vbLow := false, onBattery := false,
    pwronLow := false, cycle := none, cycleAt := 0, offtime := 0, lowAt := none, supplyFell := false }

/-- Check-value units after reset: idle, references 0 with valid check bits (R375). -/
def CvuState.reset : CvuState :=
  { scans := [none, none, none, none], refs := List.replicate 64 { value := 0, flips := 0 } }

/-- A ring after reset: not running (R385). -/
def RingAux.reset : RingAux :=
  { irqCount := 0, irqSince := none, dropped := false, dropCnt := 0, posted := [], open_ := [] }

/-- The host interface after reset (R405). -/
def HifState.reset : HifState :=
  { rings := List.replicate 16 RingAux.reset, dbInFlight := false, dbAgain := false, fetched := [], cplQ := [], hb := 0,
    linkLost := false, dmaStopped := false, dmaReads := [], dmaNext := 0,
    smp := List.replicate 4 { fill := { used := 0, blocks := 0, expno := 0, ts := 0 }, droppedBefore := 0 },
    lvSeq := 0, out := [], pcieRead := 0, hspiOut := [], latchPcie := [], latchHspi := [], stagePcie := [],
    stageHspi := [], stageImage := [] }

/-- The safety monitor after reset: no strike, FAULT_N released (R57). -/
def SafState.reset : SafState :=
  { strikes := List.replicate 14 [], failedSeg := [], dueSeg := [], kavDone := false, kavAgain := none, wdtAt := 0,
    wdtEvent := none, clkAt := 0, reinit := none, eccSec := List.replicate 9 (none, 0),
    laneBad := [], faultN := false }

/-- The Tozar Link after reset: off, no port trained (R434). -/
def TzlState.reset : TzlState :=
  { mode := 0, side := false, upLost := false, dnLost := false, enumerated := false, waiting := false, masterTs := none,
    reinitAt := 0, timeSet := false, jump := none, cut := false, events := [], remote := none, cascade := [], early := [], small := false, takeover := none,
    mirLast := none, own := [], mirGot := [], sums := [], relNow := [], countsNow := [], fwd := [], out := [] }

/-- Power and start-up state right after reset: PD1 is held in reset until RESET_RELEASE (R82). -/
def PwrState.reset : PwrState :=
  { phase := .inReset, change := .none, wake := false, want := none, readyAt := 0, stopRan := false, coreLow := false, pd1Kept := false, cause := 2, monNow := 0, ovAt := [0, 0, 0],
    bankFault := 0,
    bank33 := 0, pfRunning := false, tapReset := true }

/-- The machine right after reset: every register at its reset value (no entry in `regs`), every block at its reset
state, nothing pending. -/
def State.reset : State :=
  { pending := [], regs := [], taken := [], exp := ExpState.reset, ldg := LdgState.reset, evt := EvtState.reset,
    pio := PioState.reset, prf := PrfState.reset, fcv := FcvState.reset, plc := PlcState.reset, rtc := RtcState.reset,
    cvu := CvuState.reset, hif := HifState.reset, saf := SafState.reset, tzl := TzlState.reset, pwr := PwrState.reset,
    free := 0 }


end Sys2Proof.Machine
end

