-- ==== Sys2Proof/Machine/RegMap.lean ====
section
/-!
DEFINITION. The register map (R450 and the register tables of every chapter): offsets and fields by the manual's names,
and the table of rows by which an offset gives its fields, their access types (R9), the values a write may store, what the
seal locks (R261), the power domain, and the reset value (R13).
-/

namespace Sys2Proof.Machine

/-- Access type of a field (R9). -/
inductive Access where
  | rw
  | ro
  | wo
  | w1c
  | w1s
  | rc
  deriving DecidableEq, Repr

/-- Which written values a field takes; any other leaves it unchanged. -/
inductive FieldCheck where
  | any
  | range (lo hi : Nat)
  | except (v : Nat)
  /-- Two's complement, magnitude at most `m`. -/
  | srange (m : Nat)
  deriving DecidableEq, Repr

/-- One field of a register row. -/
structure FieldRow where
  lsb : Nat
  width : Nat
  acc : Access
  check : FieldCheck
  /-- Writes are ignored while the device is sealed. -/
  locked : Bool
  deriving DecidableEq, Repr

/-- One row of the register map: registers at `base + stride * i + stride2 * j`. -/
structure RegRow where
  base : Nat
  stride : Nat
  count : Nat
  stride2 : Nat
  count2 : Nat
  domain : Nat
  reset : Nat
  fields : List FieldRow
  deriving DecidableEq, Repr

/-- A field of one register: offset, lowest bit, width (R4). -/
structure Fld where
  off : Nat
  lsb : Nat
  width : Nat
  deriving DecidableEq, Repr

/-- Offset of PWR_CTL (03). -/
def PWR_CTL : Nat := 0x0400
def PWR_CTL_PFRST : Fld := ⟨PWR_CTL, 5, 1⟩
def PWR_CTL_INTMON : Fld := ⟨PWR_CTL, 4, 1⟩
def PWR_CTL_MCLKLP : Fld := ⟨PWR_CTL, 3, 1⟩
def PWR_CTL_TARGET : Fld := ⟨PWR_CTL, 0, 2⟩
/-- Offset of PWR_STAT (03). -/
def PWR_STAT : Nat := 0x0404
def PWR_STAT_PDON : Fld := ⟨PWR_STAT, 18, 10⟩
def PWR_STAT_ASBUSY : Fld := ⟨PWR_STAT, 17, 1⟩
def PWR_STAT_PFAIL : Fld := ⟨PWR_STAT, 16, 1⟩
def PWR_STAT_PLLLOCK : Fld := ⟨PWR_STAT, 15, 1⟩
def PWR_STAT_LFSUB : Fld := ⟨PWR_STAT, 14, 1⟩
def PWR_STAT_LFOK : Fld := ⟨PWR_STAT, 13, 1⟩
def PWR_STAT_HFOK : Fld := ⟨PWR_STAT, 12, 1⟩
def PWR_STAT_HFSRC : Fld := ⟨PWR_STAT, 11, 1⟩
def PWR_STAT_STATE : Fld := ⟨PWR_STAT, 8, 3⟩
/-- Offset of PWR_MON (03). -/
def PWR_MON : Nat := 0x0408
def PWR_MON_VLD_OV : Fld := ⟨PWR_MON, 8, 1⟩
def PWR_MON_VLD_UV : Fld := ⟨PWR_MON, 7, 1⟩
def PWR_MON_OV_VDDIO : Fld := ⟨PWR_MON, 6, 1⟩
def PWR_MON_OV_VDDA : Fld := ⟨PWR_MON, 5, 1⟩
def PWR_MON_OV_VDDC : Fld := ⟨PWR_MON, 4, 1⟩
def PWR_MON_PF_VDDA : Fld := ⟨PWR_MON, 3, 1⟩
def PWR_MON_PF_VDDC : Fld := ⟨PWR_MON, 2, 1⟩
def PWR_MON_PF_VDDIO : Fld := ⟨PWR_MON, 1, 1⟩
def PWR_MON_PF_PIN : Fld := ⟨PWR_MON, 0, 1⟩
/-- Offset of PWR_BANK (03). -/
def PWR_BANK : Nat := 0x040C
def PWR_BANK_BANK33 : Fld := ⟨PWR_BANK, 16, 12⟩
def PWR_BANK_BANKFLT : Fld := ⟨PWR_BANK, 0, 12⟩
/-- Offset of PWR_RSTCAUSE (03). -/
def PWR_RSTCAUSE : Nat := 0x0410
def PWR_RSTCAUSE_PFREC : Fld := ⟨PWR_RSTCAUSE, 6, 1⟩
def PWR_RSTCAUSE_PWRCYC : Fld := ⟨PWR_RSTCAUSE, 5, 1⟩
def PWR_RSTCAUSE_WDT : Fld := ⟨PWR_RSTCAUSE, 4, 1⟩
def PWR_RSTCAUSE_SOFT : Fld := ⟨PWR_RSTCAUSE, 3, 1⟩
def PWR_RSTCAUSE_RESETN : Fld := ⟨PWR_RSTCAUSE, 2, 1⟩
def PWR_RSTCAUSE_POR : Fld := ⟨PWR_RSTCAUSE, 1, 1⟩
def PWR_RSTCAUSE_BKPOR : Fld := ⟨PWR_RSTCAUSE, 0, 1⟩
/-- Offset of PWR_WAKE (03). -/
def PWR_WAKE : Nat := 0x0414
def PWR_WAKE_PERIODIC : Fld := ⟨PWR_WAKE, 1, 1⟩
def PWR_WAKE_ALARM : Fld := ⟨PWR_WAKE, 0, 1⟩
/-- Offset of MFE_STAT (04). -/
def MFE_STAT : Nat := 0x1000
def MFE_STAT_ERRCH : Fld := ⟨MFE_STAT, 8, 7⟩
def MFE_STAT_ROLEERR : Fld := ⟨MFE_STAT, 0, 1⟩
/-- Offset of MFE_LOSS (04). -/
def MFE_LOSS (i : Nat) : Nat := 0x1010 + 0x4 * i
def MFE_LOSS_LOSS (i : Nat) : Fld := ⟨(MFE_LOSS i), 0, 32⟩
/-- Offset of MFE_OVR (04). -/
def MFE_OVR (i : Nat) : Nat := 0x1020 + 0x4 * i
def MFE_OVR_OVR (i : Nat) : Fld := ⟨(MFE_OVR i), 0, 32⟩
/-- Offset of MFE_LOSSNOW (04). -/
def MFE_LOSSNOW (i : Nat) : Nat := 0x1030 + 0x4 * i
def MFE_LOSSNOW_LOSSNOW (i : Nat) : Fld := ⟨(MFE_LOSSNOW i), 0, 32⟩
/-- Offset of MFE_BANK (04). -/
def MFE_BANK (i : Nat) : Nat := 0x1040 + 0x4 * i
def MFE_BANK_HOLD (i : Nat) : Fld := ⟨(MFE_BANK i), 10, 1⟩
def MFE_BANK_MCLKON (i : Nat) : Fld := ⟨(MFE_BANK i), 9, 1⟩
def MFE_BANK_CALST (i : Nat) : Fld := ⟨(MFE_BANK i), 8, 1⟩
def MFE_BANK_CALLVL (i : Nat) : Fld := ⟨(MFE_BANK i), 5, 1⟩
def MFE_BANK_CALFRC (i : Nat) : Fld := ⟨(MFE_BANK i), 4, 1⟩
def MFE_BANK_PHASE (i : Nat) : Fld := ⟨(MFE_BANK i), 0, 4⟩
/-- Offset of MFE_CH (04). -/
def MFE_CH (i : Nat) : Nat := 0x1080 + 0x4 * i
def MFE_CH_INV (i : Nat) : Fld := ⟨(MFE_CH i), 10, 1⟩
def MFE_CH_OVRTH (i : Nat) : Fld := ⟨(MFE_CH i), 4, 6⟩
def MFE_CH_EN (i : Nat) : Fld := ⟨(MFE_CH i), 3, 1⟩
def MFE_CH_ROLE (i : Nat) : Fld := ⟨(MFE_CH i), 0, 3⟩
/-- Offset of MFE_BRKCFG (04). -/
def MFE_BRKCFG (i : Nat) : Nat := 0x1200 + 0x20 * i
def MFE_BRKCFG_CHATLIM (i : Nat) : Fld := ⟨(MFE_BRKCFG i), 24, 8⟩
def MFE_BRKCFG_TRKHOLD (i : Nat) : Fld := ⟨(MFE_BRKCFG i), 16, 1⟩
def MFE_BRKCFG_TAU (i : Nat) : Fld := ⟨(MFE_BRKCFG i), 0, 16⟩
/-- Offset of MFE_BRKNOM (04). -/
def MFE_BRKNOM (i : Nat) : Nat := 0x1204 + 0x20 * i
def MFE_BRKNOM_NOMRATIO (i : Nat) : Fld := ⟨(MFE_BRKNOM i), 0, 32⟩
/-- Offset of MFE_BRKNDL (04). -/
def MFE_BRKNDL (i : Nat) : Nat := 0x1208 + 0x20 * i
def MFE_BRKNDL_NOMDELAY (i : Nat) : Fld := ⟨(MFE_BRKNDL i), 0, 25⟩
/-- Offset of MFE_BRKRAT (04). -/
def MFE_BRKRAT (i : Nat) : Nat := 0x120C + 0x20 * i
def MFE_BRKRAT_RATIO (i : Nat) : Fld := ⟨(MFE_BRKRAT i), 0, 32⟩
/-- Offset of MFE_BRKDLY (04). -/
def MFE_BRKDLY (i : Nat) : Nat := 0x1210 + 0x20 * i
def MFE_BRKDLY_DELAY (i : Nat) : Fld := ⟨(MFE_BRKDLY i), 0, 25⟩
/-- Offset of MFE_BRKSW (04). -/
def MFE_BRKSW (i : Nat) : Nat := 0x1214 + 0x20 * i
def MFE_BRKSW_TOHG (i : Nat) : Fld := ⟨(MFE_BRKSW i), 16, 16⟩
def MFE_BRKSW_TOLG (i : Nat) : Fld := ⟨(MFE_BRKSW i), 0, 16⟩
/-- Offset of MFE_BRKLGT (04). -/
def MFE_BRKLGT (i : Nat) : Nat := 0x1218 + 0x20 * i
def MFE_BRKLGT_LGEXP (i : Nat) : Fld := ⟨(MFE_BRKLGT i), 0, 32⟩
/-- Offset of MFE_BRKST (04). -/
def MFE_BRKST (i : Nat) : Nat := 0x121C + 0x20 * i
def MFE_BRKST_HGLOSS (i : Nat) : Fld := ⟨(MFE_BRKST i), 3, 1⟩
def MFE_BRKST_TRKACT (i : Nat) : Fld := ⟨(MFE_BRKST i), 2, 1⟩
def MFE_BRKST_TRKLIM (i : Nat) : Fld := ⟨(MFE_BRKST i), 1, 1⟩
def MFE_BRKST_SEL (i : Nat) : Fld := ⟨(MFE_BRKST i), 0, 1⟩
/-- Offset of FLT_CTL (05). -/
def FLT_CTL : Nat := 0x1800
def FLT_CTL_SYNCPIN : Fld := ⟨FLT_CTL, 4, 1⟩
def FLT_CTL_GRAIN : Fld := ⟨FLT_CTL, 0, 2⟩
/-- Offset of FLT_STAT (05). -/
def FLT_STAT : Nat := 0x1804
def FLT_STAT_LASTSRC : Fld := ⟨FLT_STAT, 4, 3⟩
def FLT_STAT_GRAINPEND : Fld := ⟨FLT_STAT, 3, 1⟩
def FLT_STAT_SYNCPEND : Fld := ⟨FLT_STAT, 2, 1⟩
def FLT_STAT_GRAINNOW : Fld := ⟨FLT_STAT, 0, 2⟩
/-- Offset of FLT_SYNCCNT (05). -/
def FLT_SYNCCNT : Nat := 0x1808
def FLT_SYNCCNT_SYNCCNT : Fld := ⟨FLT_SYNCCNT, 0, 32⟩
/-- Offset of FLT_PARERR (05). -/
def FLT_PARERR : Nat := 0x180C
def FLT_PARERR_PARERR : Fld := ⟨FLT_PARERR, 0, 32⟩
/-- Offset of FLT_SYNCTS_LO (05). -/
def FLT_SYNCTS_LO : Nat := 0x1810
def FLT_SYNCTS_LO_TSLO : Fld := ⟨FLT_SYNCTS_LO, 0, 32⟩
/-- Offset of FLT_SYNCTS_HI (05). -/
def FLT_SYNCTS_HI : Nat := 0x1814
def FLT_SYNCTS_HI_TSHI : Fld := ⟨FLT_SYNCTS_HI, 0, 32⟩
/-- Offset of FLT_CH (05). -/
def FLT_CH (i : Nat) : Nat := 0x1900 + 0x4 * i
def FLT_CH_TAPSB (i : Nat) : Fld := ⟨(FLT_CH i), 25, 7⟩
def FLT_CH_TAPSA (i : Nat) : Fld := ⟨(FLT_CH i), 18, 7⟩
def FLT_CH_FADING (i : Nat) : Fld := ⟨(FLT_CH i), 17, 1⟩
def FLT_CH_ACTB (i : Nat) : Fld := ⟨(FLT_CH i), 16, 1⟩
def FLT_CH_FRUN (i : Nat) : Fld := ⟨(FLT_CH i), 15, 1⟩
def FLT_CH_FADEK (i : Nat) : Fld := ⟨(FLT_CH i), 8, 4⟩
def FLT_CH_FRZNOW (i : Nat) : Fld := ⟨(FLT_CH i), 7, 1⟩
def FLT_CH_ALIGN (i : Nat) : Fld := ⟨(FLT_CH i), 6, 1⟩
def FLT_CH_FREEZE (i : Nat) : Fld := ⟨(FLT_CH i), 5, 1⟩
def FLT_CH_DCTAU (i : Nat) : Fld := ⟨(FLT_CH i), 2, 2⟩
def FLT_CH_DCEN (i : Nat) : Fld := ⟨(FLT_CH i), 1, 1⟩
/-- Offset of FLT_SWREF (05). -/
def FLT_SWREF (i : Nat) : Nat := 0x1B00 + 0x4 * i
def FLT_SWREF_SWREF (i : Nat) : Fld := ⟨(FLT_SWREF i), 0, 16⟩
/-- Offset of FLT_DCEST (05). -/
def FLT_DCEST (i : Nat) : Nat := 0x1C80 + 0x4 * i
def FLT_DCEST_DCEST (i : Nat) : Fld := ⟨(FLT_DCEST i), 0, 32⟩
/-- Offset of FLT_DCSEED (05). -/
def FLT_DCSEED (i : Nat) : Nat := 0x1E00 + 0x4 * i
def FLT_DCSEED_DCSEED (i : Nat) : Fld := ⟨(FLT_DCSEED i), 0, 32⟩
/-- Offset of PAIR_CTL (06). -/
def PAIR_CTL : Nat := 0x1F80
def PAIR_CTL_PARTNER : Fld := ⟨PAIR_CTL, 8, 3⟩
def PAIR_CTL_PHHOLD : Fld := ⟨PAIR_CTL, 3, 1⟩
def PAIR_CTL_CAPBASE : Fld := ⟨PAIR_CTL, 2, 1⟩
def PAIR_CTL_SIDE : Fld := ⟨PAIR_CTL, 1, 1⟩
def PAIR_CTL_EN : Fld := ⟨PAIR_CTL, 0, 1⟩
/-- Offset of PAIR_BANKS (06). -/
def PAIR_BANKS : Nat := 0x1F84
def PAIR_BANKS_BANKS : Fld := ⟨PAIR_BANKS, 0, 12⟩
/-- Offset of PAIR_MPMASK (06). -/
def PAIR_MPMASK : Nat := 0x1F88
def PAIR_MPMASK_MPMASK : Fld := ⟨PAIR_MPMASK, 0, 32⟩
/-- Offset of PAIR_MMTH (06). -/
def PAIR_MMTH : Nat := 0x1F8C
def PAIR_MMTH_MMTH : Fld := ⟨PAIR_MMTH, 0, 16⟩
/-- Offset of PAIR_STAT (06). -/
def PAIR_STAT : Nat := 0x1F90
def PAIR_STAT_PHLIM : Fld := ⟨PAIR_STAT, 6, 1⟩
def PAIR_STAT_GAP : Fld := ⟨PAIR_STAT, 5, 1⟩
def PAIR_STAT_MISMATCH : Fld := ⟨PAIR_STAT, 4, 1⟩
def PAIR_STAT_REFFLT : Fld := ⟨PAIR_STAT, 3, 1⟩
def PAIR_STAT_CFGERR : Fld := ⟨PAIR_STAT, 2, 1⟩
def PAIR_STAT_AWAY : Fld := ⟨PAIR_STAT, 1, 1⟩
def PAIR_STAT_RUN : Fld := ⟨PAIR_STAT, 0, 1⟩
/-- Offset of PAIR_GAPCNT (06). -/
def PAIR_GAPCNT : Nat := 0x1F94
def PAIR_GAPCNT_GAPCNT : Fld := ⟨PAIR_GAPCNT, 0, 32⟩
/-- Offset of PAIR_SEL (06). -/
def PAIR_SEL : Nat := 0x1F98
def PAIR_SEL_CH : Fld := ⟨PAIR_SEL, 0, 7⟩
/-- Offset of PAIR_AMP_LO (06). -/
def PAIR_AMP_LO : Nat := 0x1F9C
def PAIR_AMP_LO_AMP : Fld := ⟨PAIR_AMP_LO, 0, 32⟩
/-- Offset of PAIR_AMP_HI (06). -/
def PAIR_AMP_HI : Nat := 0x1FA0
def PAIR_AMP_HI_AMP : Fld := ⟨PAIR_AMP_HI, 0, 4⟩
/-- Offset of PAIR_BASE_LO (06). -/
def PAIR_BASE_LO : Nat := 0x1FA4
def PAIR_BASE_LO_BASE : Fld := ⟨PAIR_BASE_LO, 0, 32⟩
/-- Offset of PAIR_BASE_HI (06). -/
def PAIR_BASE_HI : Nat := 0x1FA8
def PAIR_BASE_HI_BASE : Fld := ⟨PAIR_BASE_HI, 0, 4⟩
/-- Offset of PAIR_TRIM_LO (06). -/
def PAIR_TRIM_LO : Nat := 0x1FAC
def PAIR_TRIM_LO_TRIM : Fld := ⟨PAIR_TRIM_LO, 0, 32⟩
/-- Offset of PAIR_TRIM_HI (06). -/
def PAIR_TRIM_HI : Nat := 0x1FB0
def PAIR_TRIM_HI_TRIM : Fld := ⟨PAIR_TRIM_HI, 0, 4⟩
/-- Offset of PAIR_PHD (06). -/
def PAIR_PHD : Nat := 0x1FB4
def PAIR_PHD_PHD : Fld := ⟨PAIR_PHD, 0, 25⟩
/-- Offset of PAIR_CYC (06). -/
def PAIR_CYC : Nat := 0x1FB8
def PAIR_CYC_SKIP : Fld := ⟨PAIR_CYC, 16, 4⟩
def PAIR_CYC_CYC : Fld := ⟨PAIR_CYC, 0, 13⟩
/-- Offset of MET_CFG (07). -/
def MET_CFG (i : Nat) : Nat := 0x2000 + 0x40 * i
def MET_CFG_SVEC (i : Nat) : Fld := ⟨(MET_CFG i), 12, 1⟩
def MET_CFG_VSEL (i : Nat) : Fld := ⟨(MET_CFG i), 8, 2⟩
def MET_CFG_VG (i : Nat) : Fld := ⟨(MET_CFG i), 4, 3⟩
def MET_CFG_WIRING (i : Nat) : Fld := ⟨(MET_CFG i), 0, 3⟩
/-- Offset of MET_CUR (07). -/
def MET_CUR (i : Nat) : Nat := 0x2004 + 0x40 * i
def MET_CUR_ICHN (i : Nat) : Fld := ⟨(MET_CUR i), 24, 7⟩
def MET_CUR_ICH2 (i : Nat) : Fld := ⟨(MET_CUR i), 16, 7⟩
def MET_CUR_ICH1 (i : Nat) : Fld := ⟨(MET_CUR i), 8, 7⟩
def MET_CUR_ICH0 (i : Nat) : Fld := ⟨(MET_CUR i), 0, 7⟩
/-- Offset of MET_CREEP (07). -/
def MET_CREEP (i : Nat) : Nat := 0x2008 + 0x40 * i
def MET_CREEP_CREEP (i : Nat) : Fld := ⟨(MET_CREEP i), 0, 32⟩
/-- Offset of MET_VFS (07). -/
def MET_VFS (i : Nat) : Nat := 0x200C + 0x40 * i
def MET_VFS_VFS (i : Nat) : Fld := ⟨(MET_VFS i), 0, 32⟩
/-- Offset of MET_IFS (07). -/
def MET_IFS (i : Nat) : Nat := 0x2010 + 0x40 * i
def MET_IFS_IFS (i : Nat) : Fld := ⟨(MET_IFS i), 0, 32⟩
/-- Offset of MET_STAT (07). -/
def MET_STAT (i : Nat) : Nat := 0x2014 + 0x40 * i
def MET_STAT_DEFERR (i : Nat) : Fld := ⟨(MET_STAT i), 6, 1⟩
def MET_STAT_WHELD (i : Nat) : Fld := ⟨(MET_STAT i), 5, 1⟩
def MET_STAT_CREEPNOW (i : Nat) : Fld := ⟨(MET_STAT i), 4, 1⟩
def MET_STAT_NETSET (i : Nat) : Fld := ⟨(MET_STAT i), 3, 1⟩
def MET_STAT_CHERR (i : Nat) : Fld := ⟨(MET_STAT i), 2, 1⟩
def MET_STAT_LATENT (i : Nat) : Fld := ⟨(MET_STAT i), 1, 1⟩
def MET_STAT_RUN (i : Nat) : Fld := ⟨(MET_STAT i), 0, 1⟩
/-- Offset of MET_REPLAY (07). -/
def MET_REPLAY (i : Nat) : Nat := 0x2018 + 0x40 * i
def MET_REPLAY_REPLAY (i : Nat) : Fld := ⟨(MET_REPLAY i), 0, 32⟩
/-- Offset of MET_DISC (07). -/
def MET_DISC (i : Nat) : Nat := 0x201C + 0x40 * i
def MET_DISC_DISC (i : Nat) : Fld := ⟨(MET_DISC i), 0, 32⟩
/-- Offset of MET_SETTLE (07). -/
def MET_SETTLE (i : Nat) : Nat := 0x2020 + 0x40 * i
def MET_SETTLE_SETTLE (i : Nat) : Fld := ⟨(MET_SETTLE i), 0, 32⟩
/-- Offset of MET_LOSS (07). -/
def MET_LOSS (i : Nat) : Nat := 0x2024 + 0x40 * i
def MET_LOSS_LOSS (i : Nat) : Fld := ⟨(MET_LOSS i), 0, 32⟩
/-- Offset of MET_OVR (07). -/
def MET_OVR (i : Nat) : Nat := 0x2028 + 0x40 * i
def MET_OVR_OVR (i : Nat) : Fld := ⟨(MET_OVR i), 0, 32⟩
/-- Offset of MET_CREEPCNT (07). -/
def MET_CREEPCNT (i : Nat) : Nat := 0x202C + 0x40 * i
def MET_CREEPCNT_CREEPCNT (i : Nat) : Fld := ⟨(MET_CREEPCNT i), 0, 32⟩
/-- Offset of VGDEF (07). -/
def VGDEF (i : Nat) : Nat := 0x1FC0 + 0x4 * i
def VGDEF_NV (i : Nat) : Fld := ⟨(VGDEF i), 24, 2⟩
def VGDEF_VCH2 (i : Nat) : Fld := ⟨(VGDEF i), 16, 7⟩
def VGDEF_VCH1 (i : Nat) : Fld := ⟨(VGDEF i), 8, 7⟩
def VGDEF_VCH0 (i : Nat) : Fld := ⟨(VGDEF i), 0, 7⟩
/-- Offset of EVT_VGCFG (08). -/
def EVT_VGCFG (i : Nat) : Nat := 0x2800 + 0x4 * i
def EVT_VGCFG_THDMAX (i : Nat) : Fld := ⟨(EVT_VGCFG i), 4, 6⟩
def EVT_VGCFG_THDSEL (i : Nat) : Fld := ⟨(EVT_VGCFG i), 3, 1⟩
def EVT_VGCFG_RESYNC (i : Nat) : Fld := ⟨(EVT_VGCFG i), 2, 1⟩
def EVT_VGCFG_WINEN (i : Nat) : Fld := ⟨(EVT_VGCFG i), 1, 1⟩
def EVT_VGCFG_NOM (i : Nat) : Fld := ⟨(EVT_VGCFG i), 0, 1⟩
/-- Offset of EVT_UDIN (08). -/
def EVT_UDIN (i : Nat) : Nat := 0x2820 + 0x4 * i
def EVT_UDIN_UDIN (i : Nat) : Fld := ⟨(EVT_UDIN i), 0, 32⟩
/-- Offset of EVT_PQTH (08). -/
def EVT_PQTH (i : Nat) : Nat := 0x2840 + 0x4 * i
def EVT_PQTH_SWELL (i : Nat) : Fld := ⟨(EVT_PQTH i), 16, 12⟩
def EVT_PQTH_SAG (i : Nat) : Fld := ⟨(EVT_PQTH i), 0, 12⟩
/-- Offset of EVT_PQTHB (08). -/
def EVT_PQTHB (i : Nat) : Nat := 0x2860 + 0x4 * i
def EVT_PQTHB_HYST (i : Nat) : Fld := ⟨(EVT_PQTHB i), 16, 8⟩
def EVT_PQTHB_INT (i : Nat) : Fld := ⟨(EVT_PQTHB i), 0, 12⟩
/-- Offset of EVT_VGSTAT (08). -/
def EVT_VGSTAT (i : Nat) : Nat := 0x2880 + 0x4 * i
def EVT_VGSTAT_PSEQ (i : Nat) : Fld := ⟨(EVT_VGSTAT i), 5, 2⟩
def EVT_VGSTAT_FRANGE (i : Nat) : Fld := ⟨(EVT_VGSTAT i), 4, 1⟩
def EVT_VGSTAT_INTACT (i : Nat) : Fld := ⟨(EVT_VGSTAT i), 3, 1⟩
def EVT_VGSTAT_SWLACT (i : Nat) : Fld := ⟨(EVT_VGSTAT i), 2, 1⟩
def EVT_VGSTAT_SAGACT (i : Nat) : Fld := ⟨(EVT_VGSTAT i), 1, 1⟩
def EVT_VGSTAT_LOCK (i : Nat) : Fld := ⟨(EVT_VGSTAT i), 0, 1⟩
/-- Offset of EVT_FREQ (08). -/
def EVT_FREQ (i : Nat) : Nat := 0x28A0 + 0x4 * i
def EVT_FREQ_FWIN (i : Nat) : Fld := ⟨(EVT_FREQ i), 0, 32⟩
/-- Offset of EVT_RPCFG (08). -/
def EVT_RPCFG (i : Nat) : Nat := 0x2900 + 0x8 * i
def EVT_RPCFG_EN (i : Nat) : Fld := ⟨(EVT_RPCFG i), 31, 1⟩
def EVT_RPCFG_DELAY (i : Nat) : Fld := ⟨(EVT_RPCFG i), 16, 15⟩
def EVT_RPCFG_HYST (i : Nat) : Fld := ⟨(EVT_RPCFG i), 0, 7⟩
/-- Offset of EVT_RPTH (08). -/
def EVT_RPTH (i : Nat) : Nat := 0x2904 + 0x8 * i
def EVT_RPTH_RPTH (i : Nat) : Fld := ⟨(EVT_RPTH i), 0, 32⟩
/-- Offset of EVT_OCCFG (08). -/
def EVT_OCCFG (i : Nat) : Nat := 0x2A00 + 0x4 * i
def EVT_OCCFG_EN (i : Nat) : Fld := ⟨(EVT_OCCFG i), 31, 1⟩
def EVT_OCCFG_OVRPU (i : Nat) : Fld := ⟨(EVT_OCCFG i), 30, 1⟩
def EVT_OCCFG_DELAY (i : Nat) : Fld := ⟨(EVT_OCCFG i), 15, 15⟩
def EVT_OCCFG_HYST (i : Nat) : Fld := ⟨(EVT_OCCFG i), 0, 7⟩
/-- Offset of EVT_OCTH (08). -/
def EVT_OCTH (i : Nat) : Nat := 0x2B80 + 0x4 * i
def EVT_OCTH_OCTH (i : Nat) : Fld := ⟨(EVT_OCTH i), 0, 32⟩
/-- Offset of EVT_IL (08). -/
def EVT_IL (i : Nat) : Nat := 0x2D00 + 0x4 * i
def EVT_IL_IL (i : Nat) : Fld := ⟨(EVT_IL i), 0, 32⟩
/-- Offset of EVT_HRMEN (08). -/
def EVT_HRMEN (i : Nat) : Nat := 0x2E80 + 0x4 * i
def EVT_HRMEN_HRMEN (i : Nat) : Fld := ⟨(EVT_HRMEN i), 0, 32⟩
/-- Offset of EVT_STAT (08). -/
def EVT_STAT : Nat := 0x2E90
def EVT_STAT_UNCONFCNT : Fld := ⟨EVT_STAT, 16, 16⟩
def EVT_STAT_QFILL : Fld := ⟨EVT_STAT, 0, 9⟩
/-- Offset of EVT_DROPCNT (08). -/
def EVT_DROPCNT : Nat := 0x2E94
def EVT_DROPCNT_DROPCNT : Fld := ⟨EVT_DROPCNT, 0, 32⟩
/-- Offset of EVT_HRMDROP (08). -/
def EVT_HRMDROP : Nat := 0x2E98
def EVT_HRMDROP_HRMDROP : Fld := ⟨EVT_HRMDROP, 0, 32⟩
/-- Offset of EVT_WINABT (08). -/
def EVT_WINABT : Nat := 0x2E9C
def EVT_WINABT_WINABT : Fld := ⟨EVT_WINABT, 0, 32⟩
/-- Offset of EVT_RPNOW (08). -/
def EVT_RPNOW : Nat := 0x2EA0
def EVT_RPNOW_RPNOW : Fld := ⟨EVT_RPNOW, 0, 32⟩
/-- Offset of EVT_OCNOW (08). -/
def EVT_OCNOW (i : Nat) : Nat := 0x2EA4 + 0x4 * i
def EVT_OCNOW_OCNOW (i : Nat) : Fld := ⟨(EVT_OCNOW i), 0, 32⟩
/-- Offset of PIO_CFCFG (09). -/
def PIO_CFCFG (i : Nat) : Nat := 0x3000 + 0x20 * i
def PIO_CFCFG_EN (i : Nat) : Fld := ⟨(PIO_CFCFG i), 31, 1⟩
def PIO_CFCFG_LATPULSE (i : Nat) : Fld := ⟨(PIO_CFCFG i), 30, 1⟩
def PIO_CFCFG_WMODE (i : Nat) : Fld := ⟨(PIO_CFCFG i), 29, 1⟩
def PIO_CFCFG_WIDTH (i : Nat) : Fld := ⟨(PIO_CFCFG i), 20, 8⟩
def PIO_CFCFG_SLOT (i : Nat) : Fld := ⟨(PIO_CFCFG i), 8, 6⟩
def PIO_CFCFG_MP (i : Nat) : Fld := ⟨(PIO_CFCFG i), 0, 5⟩
/-- Offset of PIO_CFK0 (09). -/
def PIO_CFK0 (i : Nat) : Nat := 0x3004 + 0x20 * i
def PIO_CFK0_K (i : Nat) : Fld := ⟨(PIO_CFK0 i), 0, 32⟩
/-- Offset of PIO_CFK1 (09). -/
def PIO_CFK1 (i : Nat) : Nat := 0x3008 + 0x20 * i
def PIO_CFK1_K (i : Nat) : Fld := ⟨(PIO_CFK1 i), 0, 32⟩
/-- Offset of PIO_CFK2 (09). -/
def PIO_CFK2 (i : Nat) : Nat := 0x300C + 0x20 * i
def PIO_CFK2_K (i : Nat) : Fld := ⟨(PIO_CFK2 i), 0, 8⟩
/-- Offset of PIO_CFSTAT (09). -/
def PIO_CFSTAT (i : Nat) : Nat := 0x3010 + 0x20 * i
def PIO_CFSTAT_HIGH (i : Nat) : Fld := ⟨(PIO_CFSTAT i), 3, 1⟩
def PIO_CFSTAT_BACKLOG (i : Nat) : Fld := ⟨(PIO_CFSTAT i), 2, 1⟩
def PIO_CFSTAT_DEBT (i : Nat) : Fld := ⟨(PIO_CFSTAT i), 1, 1⟩
def PIO_CFSTAT_RUN (i : Nat) : Fld := ⟨(PIO_CFSTAT i), 0, 1⟩
/-- Offset of PIO_CFCNT (09). -/
def PIO_CFCNT (i : Nat) : Nat := 0x3014 + 0x20 * i
def PIO_CFCNT_CFCNT (i : Nat) : Fld := ⟨(PIO_CFCNT i), 0, 32⟩
/-- Offset of PIO_TRCFG (09). -/
def PIO_TRCFG (i : Nat) : Nat := 0x3200 + 0x20 * i
def PIO_TRCFG_EN (i : Nat) : Fld := ⟨(PIO_TRCFG i), 31, 1⟩
def PIO_TRCFG_MODE (i : Nat) : Fld := ⟨(PIO_TRCFG i), 30, 1⟩
def PIO_TRCFG_LATCH (i : Nat) : Fld := ⟨(PIO_TRCFG i), 29, 1⟩
def PIO_TRCFG_RBEN (i : Nat) : Fld := ⟨(PIO_TRCFG i), 28, 1⟩
def PIO_TRCFG_MINTRIP (i : Nat) : Fld := ⟨(PIO_TRCFG i), 8, 8⟩
/-- Offset of PIO_TRSRC (09). -/
def PIO_TRSRC (i j : Nat) : Nat := 0x3204 + 0x20 * i + 4 * j
def PIO_TRSRC_SEN (i j : Nat) : Fld := ⟨(PIO_TRSRC i j), 31, 1⟩
def PIO_TRSRC_ANYIDX (i j : Nat) : Fld := ⟨(PIO_TRSRC i j), 30, 1⟩
def PIO_TRSRC_INDEX (i j : Nat) : Fld := ⟨(PIO_TRSRC i j), 16, 8⟩
def PIO_TRSRC_CODE (i j : Nat) : Fld := ⟨(PIO_TRSRC i j), 0, 16⟩
/-- Offset of PIO_TRSTAT (09). -/
def PIO_TRSTAT (i : Nat) : Nat := 0x3214 + 0x20 * i
def PIO_TRSTAT_LATCHED (i : Nat) : Fld := ⟨(PIO_TRSTAT i), 4, 1⟩
def PIO_TRSTAT_RBFLT (i : Nat) : Fld := ⟨(PIO_TRSTAT i), 3, 1⟩
def PIO_TRSTAT_PINLVL (i : Nat) : Fld := ⟨(PIO_TRSTAT i), 2, 1⟩
def PIO_TRSTAT_DRIVE (i : Nat) : Fld := ⟨(PIO_TRSTAT i), 1, 1⟩
def PIO_TRSTAT_TRIPPED (i : Nat) : Fld := ⟨(PIO_TRSTAT i), 0, 1⟩
/-- Offset of PIO_TRCNT (09). -/
def PIO_TRCNT (i : Nat) : Nat := 0x3218 + 0x20 * i
def PIO_TRCNT_TRCNT (i : Nat) : Fld := ⟨(PIO_TRCNT i), 0, 32⟩
/-- Offset of PIO_TRHOST (09). -/
def PIO_TRHOST : Nat := 0x3300
def PIO_TRHOST_HOST : Fld := ⟨PIO_TRHOST, 0, 8⟩
/-- Offset of PIO_TRACK (09). -/
def PIO_TRACK : Nat := 0x3304
def PIO_TRACK_ACK : Fld := ⟨PIO_TRACK, 0, 8⟩
/-- Offset of PIO_PINCFG (09). -/
def PIO_PINCFG (i : Nat) : Nat := 0x3400 + 0x20 * i
def PIO_PINCFG_EN (i : Nat) : Fld := ⟨(PIO_PINCFG i), 31, 1⟩
def PIO_PINCFG_EDGE (i : Nat) : Fld := ⟨(PIO_PINCFG i), 30, 1⟩
def PIO_PINCFG_QUAD (i : Nat) : Fld := ⟨(PIO_PINCFG i), 29, 1⟩
def PIO_PINCFG_DEB (i : Nat) : Fld := ⟨(PIO_PINCFG i), 0, 14⟩
/-- Offset of PIO_PINK_LO (09). -/
def PIO_PINK_LO (i : Nat) : Nat := 0x3404 + 0x20 * i
def PIO_PINK_LO_K (i : Nat) : Fld := ⟨(PIO_PINK_LO i), 0, 32⟩
/-- Offset of PIO_PINK_HI (09). -/
def PIO_PINK_HI (i : Nat) : Nat := 0x3408 + 0x20 * i
def PIO_PINK_HI_K (i : Nat) : Fld := ⟨(PIO_PINK_HI i), 0, 4⟩
/-- Offset of PIO_PINWD (09). -/
def PIO_PINWD (i : Nat) : Nat := 0x340C + 0x20 * i
def PIO_PINWD_TIMEOUT (i : Nat) : Fld := ⟨(PIO_PINWD i), 0, 16⟩
/-- Offset of PIO_PINFRQ (09). -/
def PIO_PINFRQ (i : Nat) : Nat := 0x3410 + 0x20 * i
def PIO_PINFRQ_FRQ (i : Nat) : Fld := ⟨(PIO_PINFRQ i), 0, 32⟩
/-- Offset of PIO_PINSTAT (09). -/
def PIO_PINSTAT (i : Nat) : Nat := 0x3414 + 0x20 * i
def PIO_PINSTAT_DIFF (i : Nat) : Fld := ⟨(PIO_PINSTAT i), 4, 1⟩
def PIO_PINSTAT_QERR (i : Nat) : Fld := ⟨(PIO_PINSTAT i), 3, 1⟩
def PIO_PINSTAT_MISSING (i : Nat) : Fld := ⟨(PIO_PINSTAT i), 2, 1⟩
def PIO_PINSTAT_LEVEL (i : Nat) : Fld := ⟨(PIO_PINSTAT i), 1, 1⟩
def PIO_PINSTAT_RUN (i : Nat) : Fld := ⟨(PIO_PINSTAT i), 0, 1⟩
/-- Offset of PIO_PINCNT (09). -/
def PIO_PINCNT (i : Nat) : Nat := 0x3418 + 0x20 * i
def PIO_PINCNT_PINCNT (i : Nat) : Fld := ⟨(PIO_PINCNT i), 0, 32⟩
/-- Offset of PIO_PINDIF (09). -/
def PIO_PINDIF (i : Nat) : Nat := 0x341C + 0x20 * i
def PIO_PINDIF_PINDIF (i : Nat) : Fld := ⟨(PIO_PINDIF i), 0, 32⟩
/-- Offset of LDG_CTL (10). -/
def LDG_CTL : Nat := 0x3800
def LDG_CTL_CVU : Fld := ⟨LDG_CTL, 22, 2⟩
def LDG_CTL_LQCLK : Fld := ⟨LDG_CTL, 20, 2⟩
def LDG_CTL_VERIFY : Fld := ⟨LDG_CTL, 16, 1⟩
def LDG_CTL_PINT : Fld := ⟨LDG_CTL, 0, 16⟩
/-- Offset of LDG_SPIOP (10). -/
def LDG_SPIOP : Nat := 0x3804
def LDG_SPIOP_DUMMY : Fld := ⟨LDG_SPIOP, 24, 4⟩
def LDG_SPIOP_QRD : Fld := ⟨LDG_SPIOP, 16, 8⟩
def LDG_SPIOP_QWR : Fld := ⟨LDG_SPIOP, 8, 8⟩
def LDG_SPIOP_WREN : Fld := ⟨LDG_SPIOP, 0, 8⟩
/-- Offset of LDG_STAT (10). -/
def LDG_STAT : Nat := 0x3808
def LDG_STAT_IDFLT : Fld := ⟨LDG_STAT, 5, 1⟩
def LDG_STAT_SEALN : Fld := ⟨LDG_STAT, 4, 1⟩
def LDG_STAT_SEALED : Fld := ⟨LDG_STAT, 3, 1⟩
def LDG_STAT_EPRUN : Fld := ⟨LDG_STAT, 2, 1⟩
def LDG_STAT_BUSY : Fld := ⟨LDG_STAT, 1, 1⟩
/-- Offset of LDG_SEQ (10). -/
def LDG_SEQ : Nat := 0x380C
def LDG_SEQ_SEQ : Fld := ⟨LDG_SEQ, 0, 32⟩
/-- Offset of LDG_LASTEXP_LO (10). -/
def LDG_LASTEXP_LO : Nat := 0x3810
def LDG_LASTEXP_LO_LASTEXP : Fld := ⟨LDG_LASTEXP_LO, 0, 32⟩
/-- Offset of LDG_LASTEXP_MID (10). -/
def LDG_LASTEXP_MID : Nat := 0x3814
def LDG_LASTEXP_MID_LASTEXP : Fld := ⟨LDG_LASTEXP_MID, 0, 32⟩
/-- Offset of LDG_LASTEXP_HI (10). -/
def LDG_LASTEXP_HI : Nat := 0x3818
def LDG_LASTEXP_HI_LASTEXP : Fld := ⟨LDG_LASTEXP_HI, 0, 8⟩
/-- Offset of LDG_AUDIT_LO (10). -/
def LDG_AUDIT_LO : Nat := 0x381C
def LDG_AUDIT_LO_AUDIT : Fld := ⟨LDG_AUDIT_LO, 0, 32⟩
/-- Offset of LDG_AUDIT_HI (10). -/
def LDG_AUDIT_HI : Nat := 0x3820
def LDG_AUDIT_HI_AUDIT : Fld := ⟨LDG_AUDIT_HI, 0, 4⟩
/-- Offset of LDG_RSTAT (10). -/
def LDG_RSTAT : Nat := 0x3824
def LDG_RSTAT_NUMJUMP : Fld := ⟨LDG_RSTAT, 12, 1⟩
def LDG_RSTAT_ACCT : Fld := ⟨LDG_RSTAT, 11, 1⟩
def LDG_RSTAT_RST : Fld := ⟨LDG_RSTAT, 0, 11⟩
/-- Offset of LDG_RLOST (10). -/
def LDG_RLOST : Nat := 0x3828
def LDG_RLOST_RLOST : Fld := ⟨LDG_RLOST, 0, 32⟩
/-- Offset of LDG_RGAP_LO (10). -/
def LDG_RGAP_LO : Nat := 0x382C
def LDG_RGAP_LO_RGAP : Fld := ⟨LDG_RGAP_LO, 0, 32⟩
/-- Offset of LDG_RGAP_HI (10). -/
def LDG_RGAP_HI : Nat := 0x3830
def LDG_RGAP_HI_RGAP : Fld := ⟨LDG_RGAP_HI, 0, 28⟩
/-- Offset of LDG_RSTOP_LO (10). -/
def LDG_RSTOP_LO : Nat := 0x3834
def LDG_RSTOP_LO_RSTOP : Fld := ⟨LDG_RSTOP_LO, 0, 32⟩
/-- Offset of LDG_RSTOP_HI (10). -/
def LDG_RSTOP_HI : Nat := 0x3838
def LDG_RSTOP_HI_RSTOP : Fld := ⟨LDG_RSTOP_HI, 0, 32⟩
/-- Offset of LDG_PFAULT (10). -/
def LDG_PFAULT : Nat := 0x383C
def LDG_PFAULT_PFAULT : Fld := ⟨LDG_PFAULT, 0, 32⟩
/-- Offset of LDG_FADDR (10). -/
def LDG_FADDR : Nat := 0x3840
def LDG_FADDR_ADDR : Fld := ⟨LDG_FADDR, 2, 16⟩
/-- Offset of LDG_FDATA (10). -/
def LDG_FDATA : Nat := 0x3844
def LDG_FDATA_DATA : Fld := ⟨LDG_FDATA, 0, 32⟩
/-- Offset of LDG_FSTAT (10). -/
def LDG_FSTAT : Nat := 0x3848
def LDG_FSTAT_EARLY : Fld := ⟨LDG_FSTAT, 3, 1⟩
def LDG_FSTAT_DENY : Fld := ⟨LDG_FSTAT, 2, 1⟩
def LDG_FSTAT_WFULL : Fld := ⟨LDG_FSTAT, 1, 1⟩
def LDG_FSTAT_RDY : Fld := ⟨LDG_FSTAT, 0, 1⟩
/-- Offset of FCV_STAT (11). -/
def FCV_STAT : Nat := 0x4000
def FCV_STAT_HELD : Fld := ⟨FCV_STAT, 7, 1⟩
def FCV_STAT_CAPT : Fld := ⟨FCV_STAT, 6, 1⟩
def FCV_STAT_ARMED : Fld := ⟨FCV_STAT, 5, 1⟩
def FCV_STAT_CALRUN : Fld := ⟨FCV_STAT, 4, 1⟩
def FCV_STAT_UNCAL : Fld := ⟨FCV_STAT, 3, 1⟩
def FCV_STAT_OWNER : Fld := ⟨FCV_STAT, 0, 3⟩
/-- Offset of FCV_URG (11). -/
def FCV_URG : Nat := 0x4004
def FCV_URG_GO : Fld := ⟨FCV_URG, 31, 1⟩
def FCV_URG_AVG : Fld := ⟨FCV_URG, 13, 4⟩
def FCV_URG_SKIP : Fld := ⟨FCV_URG, 12, 1⟩
def FCV_URG_PGA : Fld := ⟨FCV_URG, 9, 3⟩
def FCV_URG_SUB : Fld := ⟨FCV_URG, 6, 3⟩
def FCV_URG_INPUT : Fld := ⟨FCV_URG, 0, 3⟩
/-- Offset of FCV_URGRES (11). -/
def FCV_URGRES : Nat := 0x4008
def FCV_URGRES_RES : Fld := ⟨FCV_URGRES, 0, 32⟩
/-- Offset of FCV_URGDROP (11). -/
def FCV_URGDROP : Nat := 0x400C
def FCV_URGDROP_URGDROP : Fld := ⟨FCV_URGDROP, 0, 32⟩
/-- Offset of FCV_CALCTL (11). -/
def FCV_CALCTL : Nat := 0x4010
def FCV_CALCTL_LOAD : Fld := ⟨FCV_CALCTL, 0, 1⟩
/-- Offset of FCV_CALTEMP (11). -/
def FCV_CALTEMP : Nat := 0x4014
def FCV_CALTEMP_CALTEMP : Fld := ⟨FCV_CALTEMP, 0, 16⟩
/-- Offset of FCV_CALF (11). -/
def FCV_CALF (i : Nat) : Nat := 0x4040 + 0x4 * i
def FCV_CALF_CALF (i : Nat) : Fld := ⟨(FCV_CALF i), 0, 24⟩
/-- Offset of FCV_SEQCFG (11). -/
def FCV_SEQCFG (i : Nat) : Nat := 0x4100 + 0x4 * i
def FCV_SEQCFG_PER (i : Nat) : Fld := ⟨(FCV_SEQCFG i), 16, 16⟩
def FCV_SEQCFG_NSLOT (i : Nat) : Fld := ⟨(FCV_SEQCFG i), 0, 5⟩
/-- Offset of FCV_SEQSKIP (11). -/
def FCV_SEQSKIP (i : Nat) : Nat := 0x4110 + 0x4 * i
def FCV_SEQSKIP_SKIP (i : Nat) : Fld := ⟨(FCV_SEQSKIP i), 0, 32⟩
/-- Offset of FCV_SLOT (11). -/
def FCV_SLOT (i j : Nat) : Nat := 0x4200 + 0x40 * i + 4 * j
def FCV_SLOT_AVG (i j : Nat) : Fld := ⟨(FCV_SLOT i j), 10, 4⟩
def FCV_SLOT_SKIP (i j : Nat) : Fld := ⟨(FCV_SLOT i j), 9, 1⟩
def FCV_SLOT_PGA (i j : Nat) : Fld := ⟨(FCV_SLOT i j), 6, 3⟩
def FCV_SLOT_SUB (i j : Nat) : Fld := ⟨(FCV_SLOT i j), 3, 3⟩
def FCV_SLOT_INPUT (i j : Nat) : Fld := ⟨(FCV_SLOT i j), 0, 3⟩
/-- Offset of FCV_RES (11). -/
def FCV_RES (i j : Nat) : Nat := 0x4300 + 0x40 * i + 4 * j
def FCV_RES_RES (i j : Nat) : Fld := ⟨(FCV_RES i j), 0, 32⟩
/-- Offset of FCV_CSCTL (11). -/
def FCV_CSCTL : Nat := 0x4400
def FCV_CSCTL_FORCE : Fld := ⟨FCV_CSCTL, 31, 1⟩
def FCV_CSCTL_ARM : Fld := ⟨FCV_CSCTL, 30, 1⟩
def FCV_CSCTL_AUTO : Fld := ⟨FCV_CSCTL, 29, 1⟩
def FCV_CSCTL_DEC : Fld := ⟨FCV_CSCTL, 13, 4⟩
def FCV_CSCTL_PGA : Fld := ⟨FCV_CSCTL, 9, 3⟩
def FCV_CSCTL_SUB : Fld := ⟨FCV_CSCTL, 6, 3⟩
def FCV_CSCTL_INPUT : Fld := ⟨FCV_CSCTL, 0, 3⟩
/-- Offset of FCV_CSPRE (11). -/
def FCV_CSPRE : Nat := 0x4404
def FCV_CSPRE_PRE : Fld := ⟨FCV_CSPRE, 0, 16⟩
/-- Offset of FCV_CSLVL (11). -/
def FCV_CSLVL : Nat := 0x4408
def FCV_CSLVL_LEN : Fld := ⟨FCV_CSLVL, 17, 1⟩
def FCV_CSLVL_SLOPE : Fld := ⟨FCV_CSLVL, 16, 1⟩
def FCV_CSLVL_LEVEL : Fld := ⟨FCV_CSLVL, 0, 14⟩
/-- Offset of FCV_CSTRG (11). -/
def FCV_CSTRG (i : Nat) : Nat := 0x4410 + 0x4 * i
def FCV_CSTRG_SEN (i : Nat) : Fld := ⟨(FCV_CSTRG i), 31, 1⟩
def FCV_CSTRG_ANYIDX (i : Nat) : Fld := ⟨(FCV_CSTRG i), 30, 1⟩
def FCV_CSTRG_INDEX (i : Nat) : Fld := ⟨(FCV_CSTRG i), 16, 8⟩
def FCV_CSTRG_CODE (i : Nat) : Fld := ⟨(FCV_CSTRG i), 0, 16⟩
/-- Offset of FCV_CSMISS (11). -/
def FCV_CSMISS : Nat := 0x4420
def FCV_CSMISS_CSMISS : Fld := ⟨FCV_CSMISS, 0, 32⟩
/-- Offset of PLC_CTL (12). -/
def PLC_CTL : Nat := 0x4800
def PLC_CTL_NETID : Fld := ⟨PLC_CTL, 8, 8⟩
def PLC_CTL_MINSPAN : Fld := ⟨PLC_CTL, 4, 2⟩
def PLC_CTL_SLREP : Fld := ⟨PLC_CTL, 2, 2⟩
def PLC_CTL_RXEN : Fld := ⟨PLC_CTL, 1, 1⟩
def PLC_CTL_TXEN : Fld := ⟨PLC_CTL, 0, 1⟩
/-- Offset of PLC_PSD (12). -/
def PLC_PSD : Nat := 0x4804
def PLC_PSD_PSDHI : Fld := ⟨PLC_PSD, 8, 8⟩
def PLC_PSD_PSDLO : Fld := ⟨PLC_PSD, 0, 8⟩
/-- Offset of PLC_LINKCFG (12). -/
def PLC_LINKCFG : Nat := 0x4808
def PLC_LINKCFG_MARGIN : Fld := ⟨PLC_LINKCFG, 24, 6⟩
def PLC_LINKCFG_SERTH : Fld := ⟨PLC_LINKCFG, 16, 7⟩
def PLC_LINKCFG_REFINT : Fld := ⟨PLC_LINKCFG, 0, 10⟩
/-- Offset of PLC_RXCFG (12). -/
def PLC_RXCFG : Nat := 0x480C
def PLC_RXCFG_IMPEN : Fld := ⟨PLC_RXCFG, 16, 1⟩
def PLC_RXCFG_CDTH : Fld := ⟨PLC_RXCFG, 8, 8⟩
def PLC_RXCFG_IMPTH : Fld := ⟨PLC_RXCFG, 0, 6⟩
/-- Offset of PLC_STAT (12). -/
def PLC_STAT : Nat := 0x4810
def PLC_STAT_MASKERR : Fld := ⟨PLC_STAT, 6, 1⟩
def PLC_STAT_CLIP : Fld := ⟨PLC_STAT, 5, 1⟩
def PLC_STAT_ILIM : Fld := ⟨PLC_STAT, 4, 1⟩
def PLC_STAT_VLDOK : Fld := ⟨PLC_STAT, 3, 1⟩
def PLC_STAT_CD : Fld := ⟨PLC_STAT, 2, 1⟩
def PLC_STAT_RXBUSY : Fld := ⟨PLC_STAT, 1, 1⟩
def PLC_STAT_TXBUSY : Fld := ⟨PLC_STAT, 0, 1⟩
/-- Offset of PLC_MASK (12). -/
def PLC_MASK (i : Nat) : Nat := 0x4820 + 0x4 * i
def PLC_MASK_MASK (i : Nat) : Fld := ⟨(PLC_MASK i), 0, 32⟩
/-- Offset of PLC_TXCNT (12). -/
def PLC_TXCNT : Nat := 0x4900
def PLC_TXCNT_TXCNT : Fld := ⟨PLC_TXCNT, 0, 32⟩
/-- Offset of PLC_RXCNT (12). -/
def PLC_RXCNT : Nat := 0x4904
def PLC_RXCNT_RXCNT : Fld := ⟨PLC_RXCNT, 0, 32⟩
/-- Offset of PLC_FCERR (12). -/
def PLC_FCERR : Nat := 0x4908
def PLC_FCERR_FCERR : Fld := ⟨PLC_FCERR, 0, 32⟩
/-- Offset of PLC_SEGERR (12). -/
def PLC_SEGERR : Nat := 0x490C
def PLC_SEGERR_SEGERR : Fld := ⟨PLC_SEGERR, 0, 32⟩
/-- Offset of PLC_ERASYM (12). -/
def PLC_ERASYM : Nat := 0x4910
def PLC_ERASYM_ERASYM : Fld := ⟨PLC_ERASYM, 0, 32⟩
/-- Offset of PLC_RXMISS (12). -/
def PLC_RXMISS : Nat := 0x4914
def PLC_RXMISS_RXMISS : Fld := ⟨PLC_RXMISS, 0, 32⟩
/-- Offset of PLC_CLIPCNT (12). -/
def PLC_CLIPCNT : Nat := 0x4918
def PLC_CLIPCNT_CLIPCNT : Fld := ⟨PLC_CLIPCNT, 0, 32⟩
/-- Offset of PLC_SECERR (12). -/
def PLC_SECERR : Nat := 0x491C
def PLC_SECERR_REPLAY : Fld := ⟨PLC_SECERR, 16, 16⟩
def PLC_SECERR_TAGFAIL : Fld := ⟨PLC_SECERR, 0, 16⟩
/-- Offset of NET_CTL (13). -/
def NET_CTL : Nat := 0x5000
def NET_CTL_LOSTTO : Fld := ⟨NET_CTL, 16, 12⟩
def NET_CTL_CPLEN : Fld := ⟨NET_CTL, 8, 8⟩
def NET_CTL_TDEN : Fld := ⟨NET_CTL, 3, 1⟩
def NET_CTL_RPT : Fld := ⟨NET_CTL, 2, 1⟩
def NET_CTL_ROLE : Fld := ⟨NET_CTL, 1, 1⟩
def NET_CTL_EN : Fld := ⟨NET_CTL, 0, 1⟩
/-- Offset of NET_STAT (13). -/
def NET_STAT : Nat := 0x5004
def NET_STAT_MISSED : Fld := ⟨NET_STAT, 8, 4⟩
def NET_STAT_DIRUNR : Fld := ⟨NET_STAT, 5, 1⟩
def NET_STAT_TDLOCK : Fld := ⟨NET_STAT, 4, 1⟩
def NET_STAT_PRESS : Fld := ⟨NET_STAT, 3, 1⟩
def NET_STAT_REHASH : Fld := ⟨NET_STAT, 2, 1⟩
def NET_STAT_DIRRDY : Fld := ⟨NET_STAT, 1, 1⟩
def NET_STAT_ASSOC : Fld := ⟨NET_STAT, 0, 1⟩
/-- Offset of NET_LADDR (13). -/
def NET_LADDR : Nat := 0x5008
def NET_LADDR_LADDR : Fld := ⟨NET_LADDR, 0, 24⟩
/-- Offset of NET_EUI_LO (13). -/
def NET_EUI_LO : Nat := 0x500C
def NET_EUI_LO_EUI : Fld := ⟨NET_EUI_LO, 0, 32⟩
/-- Offset of NET_EUI_HI (13). -/
def NET_EUI_HI : Nat := 0x5010
def NET_EUI_HI_EUI : Fld := ⟨NET_EUI_HI, 0, 32⟩
/-- Offset of NET_TBASE_LO (13). -/
def NET_TBASE_LO : Nat := 0x5014
def NET_TBASE_LO_TBASE : Fld := ⟨NET_TBASE_LO, 8, 24⟩
/-- Offset of NET_TBASE_HI (13). -/
def NET_TBASE_HI : Nat := 0x5018
def NET_TBASE_HI_TBASE : Fld := ⟨NET_TBASE_HI, 0, 32⟩
/-- Offset of NET_TOVF_LO (13). -/
def NET_TOVF_LO : Nat := 0x501C
def NET_TOVF_LO_TOVF : Fld := ⟨NET_TOVF_LO, 6, 26⟩
/-- Offset of NET_TOVF_HI (13). -/
def NET_TOVF_HI : Nat := 0x5020
def NET_TOVF_HI_TOVF : Fld := ⟨NET_TOVF_HI, 0, 32⟩
/-- Offset of NET_TGEOM (13). -/
def NET_TGEOM : Nat := 0x5024
def NET_TGEOM_OVFN : Fld := ⟨NET_TGEOM, 8, 24⟩
def NET_TGEOM_BKT : Fld := ⟨NET_TGEOM, 0, 4⟩
/-- Offset of NET_SEED (13). -/
def NET_SEED (i : Nat) : Nat := 0x5028 + 0x4 * i
def NET_SEED_SEED (i : Nat) : Fld := ⟨(NET_SEED i), 0, 32⟩
/-- Offset of NET_DIRCTL (13). -/
def NET_DIRCTL : Nat := 0x5038
def NET_DIRCTL_ABORT : Fld := ⟨NET_DIRCTL, 2, 1⟩
def NET_DIRCTL_REHASH : Fld := ⟨NET_DIRCTL, 1, 1⟩
def NET_DIRCTL_INIT : Fld := ⟨NET_DIRCTL, 0, 1⟩
/-- Offset of NET_DIRINFO (13). -/
def NET_DIRINFO : Nat := 0x503C
def NET_DIRINFO_MAXCHAIN : Fld := ⟨NET_DIRINFO, 24, 8⟩
def NET_DIRINFO_NODES : Fld := ⟨NET_DIRINFO, 0, 18⟩
/-- Offset of NET_RHCUR (13). -/
def NET_RHCUR : Nat := 0x5040
def NET_RHCUR_RHCUR : Fld := ⟨NET_RHCUR, 0, 17⟩
/-- Offset of NET_KEYBASE_LO (13). -/
def NET_KEYBASE_LO : Nat := 0x5044
def NET_KEYBASE_LO_KEYBASE : Fld := ⟨NET_KEYBASE_LO, 4, 28⟩
/-- Offset of NET_KEYBASE_HI (13). -/
def NET_KEYBASE_HI : Nat := 0x5048
def NET_KEYBASE_HI_KEYBASE : Fld := ⟨NET_KEYBASE_HI, 0, 32⟩
/-- Offset of NET_RETRY (13). -/
def NET_RETRY : Nat := 0x504C
def NET_RETRY_ACKWAIT : Fld := ⟨NET_RETRY, 8, 16⟩
def NET_RETRY_MAXTX : Fld := ⟨NET_RETRY, 0, 4⟩
/-- Offset of NET_TDCFG (13). -/
def NET_TDCFG : Nat := 0x5050
def NET_TDCFG_STEPTH : Fld := ⟨NET_TDCFG, 0, 16⟩
/-- Offset of NET_TDOFF (13). -/
def NET_TDOFF : Nat := 0x5054
def NET_TDOFF_TDOFF : Fld := ⟨NET_TDOFF, 0, 32⟩
/-- Offset of NET_ACKTO (13). -/
def NET_ACKTO : Nat := 0x5060
def NET_ACKTO_COUNT : Fld := ⟨NET_ACKTO, 0, 32⟩
/-- Offset of NET_NOROUTE (13). -/
def NET_NOROUTE : Nat := 0x5064
def NET_NOROUTE_COUNT : Fld := ⟨NET_NOROUTE, 0, 32⟩
/-- Offset of NET_HOPDROP (13). -/
def NET_HOPDROP : Nat := 0x5068
def NET_HOPDROP_COUNT : Fld := ⟨NET_HOPDROP, 0, 32⟩
/-- Offset of NET_CTXFULL (13). -/
def NET_CTXFULL : Nat := 0x506C
def NET_CTXFULL_COUNT : Fld := ⟨NET_CTXFULL, 0, 32⟩
/-- Offset of NET_LOOKMISS (13). -/
def NET_LOOKMISS : Nat := 0x5070
def NET_LOOKMISS_COUNT : Fld := ⟨NET_LOOKMISS, 0, 32⟩
/-- Offset of RTC_CTL (14). -/
def RTC_CTL : Nat := 0x5800
def RTC_CTL_STEP : Fld := ⟨RTC_CTL, 2, 1⟩
def RTC_CTL_CAPTURE : Fld := ⟨RTC_CTL, 1, 1⟩
def RTC_CTL_COMMIT : Fld := ⟨RTC_CTL, 0, 1⟩
/-- Offset of RTC_STAT (14). -/
def RTC_STAT : Nat := 0x5804
def RTC_STAT_STEPPEND : Fld := ⟨RTC_STAT, 10, 1⟩
def RTC_STAT_SECSAT : Fld := ⟨RTC_STAT, 9, 1⟩
def RTC_STAT_RAMPERR : Fld := ⟨RTC_STAT, 8, 1⟩
def RTC_STAT_CHGON : Fld := ⟨RTC_STAT, 7, 1⟩
def RTC_STAT_VBLOW : Fld := ⟨RTC_STAT, 6, 1⟩
def RTC_STAT_CALOVF : Fld := ⟨RTC_STAT, 5, 1⟩
def RTC_STAT_WERR : Fld := ⟨RTC_STAT, 4, 1⟩
def RTC_STAT_CAPVALID : Fld := ⟨RTC_STAT, 3, 1⟩
def RTC_STAT_COMMITPEND : Fld := ⟨RTC_STAT, 2, 1⟩
def RTC_STAT_STOPSUB : Fld := ⟨RTC_STAT, 1, 1⟩
def RTC_STAT_OSF : Fld := ⟨RTC_STAT, 0, 1⟩
/-- Offset of RTC_SEC_LO (14). -/
def RTC_SEC_LO : Nat := 0x5808
def RTC_SEC_LO_SEC : Fld := ⟨RTC_SEC_LO, 0, 32⟩
/-- Offset of RTC_SEC_HI (14). -/
def RTC_SEC_HI : Nat := 0x580C
def RTC_SEC_HI_SEC : Fld := ⟨RTC_SEC_HI, 0, 4⟩
/-- Offset of RTC_FRAC (14). -/
def RTC_FRAC : Nat := 0x5810
def RTC_FRAC_TICK : Fld := ⟨RTC_FRAC, 0, 15⟩
/-- Offset of RTC_CAPSEC_LO (14). -/
def RTC_CAPSEC_LO : Nat := 0x5814
def RTC_CAPSEC_LO_CAP : Fld := ⟨RTC_CAPSEC_LO, 0, 32⟩
/-- Offset of RTC_CAPSEC_HI (14). -/
def RTC_CAPSEC_HI : Nat := 0x5818
def RTC_CAPSEC_HI_CAP : Fld := ⟨RTC_CAPSEC_HI, 0, 4⟩
/-- Offset of RTC_CAPFRAC (14). -/
def RTC_CAPFRAC : Nat := 0x581C
def RTC_CAPFRAC_CAP : Fld := ⟨RTC_CAPFRAC, 0, 15⟩
/-- Offset of RTC_CAL0 (14). -/
def RTC_CAL0 : Nat := 0x5820
def RTC_CAL0_WDAY : Fld := ⟨RTC_CAL0, 24, 3⟩
def RTC_CAL0_HOUR : Fld := ⟨RTC_CAL0, 16, 5⟩
def RTC_CAL0_MIN : Fld := ⟨RTC_CAL0, 8, 6⟩
def RTC_CAL0_SEC : Fld := ⟨RTC_CAL0, 0, 6⟩
/-- Offset of RTC_CAL1 (14). -/
def RTC_CAL1 : Nat := 0x5824
def RTC_CAL1_YEAR : Fld := ⟨RTC_CAL1, 16, 9⟩
def RTC_CAL1_MONTH : Fld := ⟨RTC_CAL1, 8, 4⟩
def RTC_CAL1_DAY : Fld := ⟨RTC_CAL1, 0, 5⟩
/-- Offset of RTC_STGSEC_LO (14). -/
def RTC_STGSEC_LO : Nat := 0x5828
def RTC_STGSEC_LO_STGSEC : Fld := ⟨RTC_STGSEC_LO, 0, 32⟩
/-- Offset of RTC_STGSEC_HI (14). -/
def RTC_STGSEC_HI : Nat := 0x582C
def RTC_STGSEC_HI_STGSEC : Fld := ⟨RTC_STGSEC_HI, 0, 4⟩
/-- Offset of RTC_STGFRAC (14). -/
def RTC_STGFRAC : Nat := 0x5830
def RTC_STGFRAC_FMT : Fld := ⟨RTC_STGFRAC, 31, 1⟩
def RTC_STGFRAC_TICK : Fld := ⟨RTC_STGFRAC, 0, 15⟩
/-- Offset of RTC_STGCAL0 (14). -/
def RTC_STGCAL0 : Nat := 0x5834
def RTC_STGCAL0_HOUR : Fld := ⟨RTC_STGCAL0, 16, 5⟩
def RTC_STGCAL0_MIN : Fld := ⟨RTC_STGCAL0, 8, 6⟩
def RTC_STGCAL0_SEC : Fld := ⟨RTC_STGCAL0, 0, 6⟩
/-- Offset of RTC_STGCAL1 (14). -/
def RTC_STGCAL1 : Nat := 0x5838
def RTC_STGCAL1_YEAR : Fld := ⟨RTC_STGCAL1, 16, 9⟩
def RTC_STGCAL1_MONTH : Fld := ⟨RTC_STGCAL1, 8, 4⟩
def RTC_STGCAL1_DAY : Fld := ⟨RTC_STGCAL1, 0, 5⟩
/-- Offset of RTC_STEPSEC_LO (14). -/
def RTC_STEPSEC_LO : Nat := 0x583C
def RTC_STEPSEC_LO_STEP : Fld := ⟨RTC_STEPSEC_LO, 0, 32⟩
/-- Offset of RTC_STEPSEC_HI (14). -/
def RTC_STEPSEC_HI : Nat := 0x5840
def RTC_STEPSEC_HI_STEP : Fld := ⟨RTC_STEPSEC_HI, 0, 5⟩
/-- Offset of RTC_STEPTICK (14). -/
def RTC_STEPTICK : Nat := 0x5844
def RTC_STEPTICK_STEP : Fld := ⟨RTC_STEPTICK, 0, 15⟩
/-- Offset of RTC_SLEW (14). -/
def RTC_SLEW : Nat := 0x5848
def RTC_SLEW_RATE : Fld := ⟨RTC_SLEW, 0, 17⟩
/-- Offset of RTC_SLEWDUR (14). -/
def RTC_SLEWDUR : Nat := 0x584C
def RTC_SLEWDUR_DUR : Fld := ⟨RTC_SLEWDUR, 0, 16⟩
/-- Offset of RTC_ALMSEC_LO (14). -/
def RTC_ALMSEC_LO : Nat := 0x5850
def RTC_ALMSEC_LO_ALM : Fld := ⟨RTC_ALMSEC_LO, 0, 32⟩
/-- Offset of RTC_ALMSEC_HI (14). -/
def RTC_ALMSEC_HI : Nat := 0x5854
def RTC_ALMSEC_HI_ALM : Fld := ⟨RTC_ALMSEC_HI, 0, 4⟩
/-- Offset of RTC_ALMFRAC (14). -/
def RTC_ALMFRAC : Nat := 0x5858
def RTC_ALMFRAC_ALM : Fld := ⟨RTC_ALMFRAC, 0, 15⟩
/-- Offset of RTC_ALMCTL (14). -/
def RTC_ALMCTL : Nat := 0x585C
def RTC_ALMCTL_SKIPPED : Fld := ⟨RTC_ALMCTL, 4, 1⟩
def RTC_ALMCTL_FIRED : Fld := ⟨RTC_ALMCTL, 3, 1⟩
def RTC_ALMCTL_ARMED : Fld := ⟨RTC_ALMCTL, 2, 1⟩
def RTC_ALMCTL_DISARM : Fld := ⟨RTC_ALMCTL, 1, 1⟩
def RTC_ALMCTL_ARM : Fld := ⟨RTC_ALMCTL, 0, 1⟩
/-- Offset of RTC_PER (14). -/
def RTC_PER : Nat := 0x5860
def RTC_PER_ALIGN : Fld := ⟨RTC_PER, 25, 1⟩
def RTC_PER_EN : Fld := ⟨RTC_PER, 24, 1⟩
def RTC_PER_N : Fld := ⟨RTC_PER, 0, 24⟩
/-- Offset of RTC_PERSTAT (14). -/
def RTC_PERSTAT : Nat := 0x5864
def RTC_PERSTAT_WAKE : Fld := ⟨RTC_PERSTAT, 0, 1⟩
/-- Offset of RTC_TCCFG (14). -/
def RTC_TCCFG : Nat := 0x5868
def RTC_TCCFG_TCEN : Fld := ⟨RTC_TCCFG, 16, 1⟩
def RTC_TCCFG_INTERVAL : Fld := ⟨RTC_TCCFG, 0, 9⟩
/-- Offset of RTC_TCOFF (14). -/
def RTC_TCOFF : Nat := 0x586C
def RTC_TCOFF_TCOFF : Fld := ⟨RTC_TCOFF, 0, 16⟩
/-- Offset of RTC_TCTEMP (14). -/
def RTC_TCTEMP : Nat := 0x5870
def RTC_TCTEMP_TEMP : Fld := ⟨RTC_TCTEMP, 0, 16⟩
/-- Offset of RTC_TCCORR (14). -/
def RTC_TCCORR : Nat := 0x5874
def RTC_TCCORR_C : Fld := ⟨RTC_TCCORR, 0, 18⟩
/-- Offset of RTC_TC (14). -/
def RTC_TC (i : Nat) : Nat := 0x5880 + 0x4 * i
def RTC_TC_TC (i : Nat) : Fld := ⟨(RTC_TC i), 0, 16⟩
/-- Offset of RTC_BKCFG (14). -/
def RTC_BKCFG : Nat := 0x5904
def RTC_BKCFG_BKMODE : Fld := ⟨RTC_BKCFG, 0, 1⟩
/-- Offset of RTC_PWRCTL (14). -/
def RTC_PWRCTL : Nat := 0x5908
def RTC_PWRCTL_VOID : Fld := ⟨RTC_PWRCTL, 4, 1⟩
def RTC_PWRCTL_CYC : Fld := ⟨RTC_PWRCTL, 3, 1⟩
def RTC_PWRCTL_OFF : Fld := ⟨RTC_PWRCTL, 2, 1⟩
def RTC_PWRCTL_PERON : Fld := ⟨RTC_PWRCTL, 1, 1⟩
def RTC_PWRCTL_ALMON : Fld := ⟨RTC_PWRCTL, 0, 1⟩
/-- Offset of RTC_TCHG (14). -/
def RTC_TCHG : Nat := 0x5910
def RTC_TCHG_KEY : Fld := ⟨RTC_TCHG, 24, 8⟩
def RTC_TCHG_DIODE : Fld := ⟨RTC_TCHG, 4, 1⟩
def RTC_TCHG_RSEL : Fld := ⟨RTC_TCHG, 2, 2⟩
def RTC_TCHG_TERM : Fld := ⟨RTC_TCHG, 1, 1⟩
def RTC_TCHG_EN : Fld := ⟨RTC_TCHG, 0, 1⟩
/-- Offset of RTC_RAM (14). -/
def RTC_RAM (i : Nat) : Nat := 0x5920 + 0x4 * i
def RTC_RAM_DATA (i : Nat) : Fld := ⟨(RTC_RAM i), 0, 32⟩
/-- Offset of RTC_RAMERR (14). -/
def RTC_RAMERR : Nat := 0x5980
def RTC_RAMERR_ERR : Fld := ⟨RTC_RAMERR, 0, 24⟩
/-- Offset of CVU_CTL (15). -/
def CVU_CTL (i : Nat) : Nat := 0x6000 + 0x40 * i
def CVU_CTL_SUSPEND (i : Nat) : Fld := ⟨(CVU_CTL i), 0, 1⟩
/-- Offset of CVU_STAT (15). -/
def CVU_STAT (i : Nat) : Nat := 0x6004 + 0x40 * i
def CVU_STAT_VERDICT (i : Nat) : Fld := ⟨(CVU_STAT i), 4, 3⟩
def CVU_STAT_SAFE (i : Nat) : Fld := ⟨(CVU_STAT i), 3, 1⟩
def CVU_STAT_HELD (i : Nat) : Fld := ⟨(CVU_STAT i), 2, 1⟩
def CVU_STAT_RESCAN (i : Nat) : Fld := ⟨(CVU_STAT i), 1, 1⟩
def CVU_STAT_BUSY (i : Nat) : Fld := ⟨(CVU_STAT i), 0, 1⟩
/-- Offset of CVU_RUN_LO (15). -/
def CVU_RUN_LO (i : Nat) : Nat := 0x6008 + 0x40 * i
def CVU_RUN_LO_RUN (i : Nat) : Fld := ⟨(CVU_RUN_LO i), 0, 32⟩
/-- Offset of CVU_RUN_HI (15). -/
def CVU_RUN_HI (i : Nat) : Nat := 0x600C + 0x40 * i
def CVU_RUN_HI_RUN (i : Nat) : Fld := ⟨(CVU_RUN_HI i), 0, 4⟩
/-- Offset of CVU_POS (15). -/
def CVU_POS (i : Nat) : Nat := 0x6010 + 0x40 * i
def CVU_POS_POS (i : Nat) : Fld := ⟨(CVU_POS i), 0, 32⟩
/-- Offset of CVU_CFG (15). -/
def CVU_CFG (i : Nat) : Nat := 0x6014 + 0x40 * i
def CVU_CFG_REFOUT (i : Nat) : Fld := ⟨(CVU_CFG i), 7, 1⟩
def CVU_CFG_REFIN (i : Nat) : Fld := ⟨(CVU_CFG i), 6, 1⟩
def CVU_CFG_WIDTH (i : Nat) : Fld := ⟨(CVU_CFG i), 0, 6⟩
/-- Offset of CVU_POLY (15). -/
def CVU_POLY (i : Nat) : Nat := 0x6018 + 0x40 * i
def CVU_POLY_VALUE (i : Nat) : Fld := ⟨(CVU_POLY i), 0, 32⟩
/-- Offset of CVU_INIT (15). -/
def CVU_INIT (i : Nat) : Nat := 0x601C + 0x40 * i
def CVU_INIT_VALUE (i : Nat) : Fld := ⟨(CVU_INIT i), 0, 32⟩
/-- Offset of CVU_XOR (15). -/
def CVU_XOR (i : Nat) : Nat := 0x6020 + 0x40 * i
def CVU_XOR_VALUE (i : Nat) : Fld := ⟨(CVU_XOR i), 0, 32⟩
/-- Offset of CVU_CNT (15). -/
def CVU_CNT (i : Nat) : Nat := 0x6024 + 0x40 * i
def CVU_CNT_MISM (i : Nat) : Fld := ⟨(CVU_CNT i), 16, 16⟩
def CVU_CNT_REFCOR (i : Nat) : Fld := ⟨(CVU_CNT i), 0, 16⟩
/-- Offset of CVU_REFSEL (15). -/
def CVU_REFSEL : Nat := 0x6400
def CVU_REFSEL_IDX : Fld := ⟨CVU_REFSEL, 0, 6⟩
/-- Offset of CVU_REFDATA_LO (15). -/
def CVU_REFDATA_LO : Nat := 0x6404
def CVU_REFDATA_LO_REF : Fld := ⟨CVU_REFDATA_LO, 0, 32⟩
/-- Offset of CVU_REFDATA_HI (15). -/
def CVU_REFDATA_HI : Nat := 0x6408
def CVU_REFDATA_HI_REF : Fld := ⟨CVU_REFDATA_HI, 0, 4⟩
/-- Offset of CVU_REFSTAT (15). -/
def CVU_REFSTAT : Nat := 0x640C
def CVU_REFSTAT_DBE : Fld := ⟨CVU_REFSTAT, 1, 1⟩
def CVU_REFSTAT_SBE : Fld := ⟨CVU_REFSTAT, 0, 1⟩
/-- Offset of CVU_REFFLIP (15). -/
def CVU_REFFLIP : Nat := 0x6410
def CVU_REFFLIP_GO : Fld := ⟨CVU_REFFLIP, 31, 1⟩
def CVU_REFFLIP_BITB : Fld := ⟨CVU_REFFLIP, 8, 6⟩
def CVU_REFFLIP_BITA : Fld := ⟨CVU_REFFLIP, 0, 6⟩
/-- Offset of HIF_RBASE_LO (16). -/
def HIF_RBASE_LO (i : Nat) : Nat := 0x0800 + 0x40 * i
def HIF_RBASE_LO_RBASE (i : Nat) : Fld := ⟨(HIF_RBASE_LO i), 6, 26⟩
/-- Offset of HIF_RBASE_HI (16). -/
def HIF_RBASE_HI (i : Nat) : Nat := 0x0804 + 0x40 * i
def HIF_RBASE_HI_RBASE (i : Nat) : Fld := ⟨(HIF_RBASE_HI i), 0, 32⟩
/-- Offset of HIF_RCFG (16). -/
def HIF_RCFG (i : Nat) : Nat := 0x0808 + 0x40 * i
def HIF_RCFG_EN (i : Nat) : Fld := ⟨(HIF_RCFG i), 31, 1⟩
def HIF_RCFG_IEN (i : Nat) : Fld := ⟨(HIF_RCFG i), 30, 1⟩
def HIF_RCFG_VEC (i : Nat) : Fld := ⟨(HIF_RCFG i), 24, 5⟩
def HIF_RCFG_MODCNT (i : Nat) : Fld := ⟨(HIF_RCFG i), 16, 8⟩
def HIF_RCFG_LOG2SIZE (i : Nat) : Fld := ⟨(HIF_RCFG i), 0, 5⟩
/-- Offset of HIF_RMOD (16). -/
def HIF_RMOD (i : Nat) : Nat := 0x080C + 0x40 * i
def HIF_RMOD_MODTIME (i : Nat) : Fld := ⟨(HIF_RMOD i), 0, 16⟩
/-- Offset of HIF_RCIDX (16). -/
def HIF_RCIDX (i : Nat) : Nat := 0x0810 + 0x40 * i
def HIF_RCIDX_CIDX (i : Nat) : Fld := ⟨(HIF_RCIDX i), 0, 32⟩
/-- Offset of HIF_RPIDX (16). -/
def HIF_RPIDX (i : Nat) : Nat := 0x0814 + 0x40 * i
def HIF_RPIDX_PIDX (i : Nat) : Fld := ⟨(HIF_RPIDX i), 0, 32⟩
/-- Offset of HIF_RSTAT (16). -/
def HIF_RSTAT (i : Nat) : Nat := 0x0818 + 0x40 * i
def HIF_RSTAT_SHORT (i : Nat) : Fld := ⟨(HIF_RSTAT i), 16, 16⟩
def HIF_RSTAT_RERR (i : Nat) : Fld := ⟨(HIF_RSTAT i), 1, 1⟩
def HIF_RSTAT_RUN (i : Nat) : Fld := ⟨(HIF_RSTAT i), 0, 1⟩
/-- Offset of HIF_RDROP (16). -/
def HIF_RDROP (i : Nat) : Nat := 0x081C + 0x40 * i
def HIF_RDROP_DROP (i : Nat) : Fld := ⟨(HIF_RDROP i), 0, 32⟩
/-- Offset of HIF_SMPCH (16). -/
def HIF_SMPCH (i j : Nat) : Nat := 0x0920 + 0x40 * i + 4 * j
def HIF_SMPCH_CH (i j : Nat) : Fld := ⟨(HIF_SMPCH i j), 0, 32⟩
/-- Offset of HIF_SMPCFG (16). -/
def HIF_SMPCFG (i : Nat) : Nat := 0x092C + 0x40 * i
def HIF_SMPCFG_BPB (i : Nat) : Fld := ⟨(HIF_SMPCFG i), 8, 8⟩
def HIF_SMPCFG_SRC (i : Nat) : Fld := ⟨(HIF_SMPCFG i), 0, 1⟩
/-- Offset of HIF_CTL (16). -/
def HIF_CTL : Nat := 0x0C00
def HIF_CTL_GVEN : Fld := ⟨HIF_CTL, 13, 1⟩
def HIF_CTL_GVEC : Fld := ⟨HIF_CTL, 8, 5⟩
def HIF_CTL_LVEN : Fld := ⟨HIF_CTL, 1, 1⟩
def HIF_CTL_DBEN : Fld := ⟨HIF_CTL, 0, 1⟩
/-- Offset of HIF_STAT (16). -/
def HIF_STAT : Nat := 0x0C04
def HIF_STAT_DSTATE : Fld := ⟨HIF_STAT, 8, 2⟩
def HIF_STAT_SPEED : Fld := ⟨HIF_STAT, 6, 2⟩
def HIF_STAT_WIDTH : Fld := ⟨HIF_STAT, 4, 2⟩
def HIF_STAT_CPLLOST : Fld := ⟨HIF_STAT, 3, 1⟩
def HIF_STAT_DMAERR : Fld := ⟨HIF_STAT, 2, 1⟩
def HIF_STAT_BME : Fld := ⟨HIF_STAT, 1, 1⟩
def HIF_STAT_LINKUP : Fld := ⟨HIF_STAT, 0, 1⟩
/-- Offset of HIF_DBBASE_LO (16). -/
def HIF_DBBASE_LO : Nat := 0x0C08
def HIF_DBBASE_LO_BASE : Fld := ⟨HIF_DBBASE_LO, 12, 20⟩
/-- Offset of HIF_DBBASE_HI (16). -/
def HIF_DBBASE_HI : Nat := 0x0C0C
def HIF_DBBASE_HI_BASE : Fld := ⟨HIF_DBBASE_HI, 0, 32⟩
/-- Offset of HIF_STBASE_LO (16). -/
def HIF_STBASE_LO : Nat := 0x0C10
def HIF_STBASE_LO_BASE : Fld := ⟨HIF_STBASE_LO, 12, 20⟩
/-- Offset of HIF_STBASE_HI (16). -/
def HIF_STBASE_HI : Nat := 0x0C14
def HIF_STBASE_HI_BASE : Fld := ⟨HIF_STBASE_HI, 0, 32⟩
/-- Offset of HIF_LVBASE_LO (16). -/
def HIF_LVBASE_LO : Nat := 0x0C18
def HIF_LVBASE_LO_BASE : Fld := ⟨HIF_LVBASE_LO, 6, 26⟩
/-- Offset of HIF_LVBASE_HI (16). -/
def HIF_LVBASE_HI : Nat := 0x0C1C
def HIF_LVBASE_HI_BASE : Fld := ⟨HIF_LVBASE_HI, 0, 32⟩
/-- Offset of HIF_INFL (16). -/
def HIF_INFL : Nat := 0x0C20
def HIF_INFL_CPLWAIT : Fld := ⟨HIF_INFL, 16, 7⟩
def HIF_INFL_TAKEN : Fld := ⟨HIF_INFL, 0, 7⟩
/-- Offset of HIF_DMAERR (16). -/
def HIF_DMAERR : Nat := 0x0C24
def HIF_DMAERR_DMAERR : Fld := ⟨HIF_DMAERR, 0, 32⟩
/-- Offset of DB_KICK (16). -/
def DB_KICK : Nat := 0xF000
def DB_KICK_KICK : Fld := ⟨DB_KICK, 0, 32⟩
/-- Offset of MBX_CTL (16). -/
def MBX_CTL : Nat := 0xF004
def MBX_CTL_EVIRQ : Fld := ⟨MBX_CTL, 2, 1⟩
def MBX_CTL_IRQEN : Fld := ⟨MBX_CTL, 1, 1⟩
def MBX_CTL_GO : Fld := ⟨MBX_CTL, 0, 1⟩
/-- Offset of MBX_STAT (16). -/
def MBX_STAT : Nat := 0xF008
def MBX_STAT_OVERRUN : Fld := ⟨MBX_STAT, 4, 1⟩
def MBX_STAT_OWNER : Fld := ⟨MBX_STAT, 2, 2⟩
def MBX_STAT_DONE : Fld := ⟨MBX_STAT, 1, 1⟩
def MBX_STAT_BUSY : Fld := ⟨MBX_STAT, 0, 1⟩
/-- Offset of MBX_IRQPEND (16). -/
def MBX_IRQPEND : Nat := 0xF00C
def MBX_IRQPEND_VEC : Fld := ⟨MBX_IRQPEND, 0, 32⟩
/-- Offset of MBX_IRQEN (16). -/
def MBX_IRQEN : Nat := 0xF010
def MBX_IRQEN_VEC : Fld := ⟨MBX_IRQEN, 0, 32⟩
/-- Offset of MBX_EVTSTAT (16). -/
def MBX_EVTSTAT : Nat := 0xF014
def MBX_EVTSTAT_VALID : Fld := ⟨MBX_EVTSTAT, 16, 1⟩
def MBX_EVTSTAT_WAIT : Fld := ⟨MBX_EVTSTAT, 0, 9⟩
/-- Offset of MBX_EVTPOP (16). -/
def MBX_EVTPOP : Nat := 0xF018
def MBX_EVTPOP_POP : Fld := ⟨MBX_EVTPOP, 0, 32⟩
/-- Offset of MBX_CMD (16). -/
def MBX_CMD (i : Nat) : Nat := 0xF040 + 0x4 * i
def MBX_CMD_DATA (i : Nat) : Fld := ⟨(MBX_CMD i), 0, 32⟩
/-- Offset of MBX_CPL (16). -/
def MBX_CPL (i : Nat) : Nat := 0xF080 + 0x4 * i
def MBX_CPL_DATA (i : Nat) : Fld := ⟨(MBX_CPL i), 0, 32⟩
/-- Offset of MBX_EVT (16). -/
def MBX_EVT (i : Nat) : Nat := 0xF0C0 + 0x4 * i
def MBX_EVT_DATA (i : Nat) : Fld := ⟨(MBX_EVT i), 0, 32⟩
/-- Offset of MBX_DATA (16). -/
def MBX_DATA (i : Nat) : Nat := 0xF800 + 0x4 * i
def MBX_DATA_DATA (i : Nat) : Fld := ⟨(MBX_DATA i), 0, 32⟩
/-- Offset of SAF_CTL (17). -/
def SAF_CTL : Nat := 0x6800
def SAF_CTL_WDTEN : Fld := ⟨SAF_CTL, 2, 1⟩
def SAF_CTL_LOCK : Fld := ⟨SAF_CTL, 1, 1⟩
def SAF_CTL_EN : Fld := ⟨SAF_CTL, 0, 1⟩
/-- Offset of SAF_STAT (17). -/
def SAF_STAT : Nat := 0x6804
def SAF_STAT_CAUSE : Fld := ⟨SAF_STAT, 8, 5⟩
def SAF_STAT_REINIT : Fld := ⟨SAF_STAT, 3, 1⟩
def SAF_STAT_STARTFAIL : Fld := ⟨SAF_STAT, 2, 1⟩
def SAF_STAT_SAFE : Fld := ⟨SAF_STAT, 1, 1⟩
def SAF_STAT_RUN : Fld := ⟨SAF_STAT, 0, 1⟩
/-- Offset of SAF_LASTING (17). -/
def SAF_LASTING : Nat := 0x6808
def SAF_LASTING_LASTING : Fld := ⟨SAF_LASTING, 0, 14⟩
/-- Offset of SAF_WDT (17). -/
def SAF_WDT : Nat := 0x680C
def SAF_WDT_TIMEOUT : Fld := ⟨SAF_WDT, 0, 16⟩
/-- Offset of SAF_SCAN (17). -/
def SAF_SCAN : Nat := 0x6810
def SAF_SCAN_SCANPER : Fld := ⟨SAF_SCAN, 0, 5⟩
/-- Offset of SAF_ECCSBE (17). -/
def SAF_ECCSBE : Nat := 0x6814
def SAF_ECCSBE_COUNT : Fld := ⟨SAF_ECCSBE, 0, 32⟩
/-- Offset of SAF_ECCDBE (17). -/
def SAF_ECCDBE : Nat := 0x6818
def SAF_ECCDBE_COUNT : Fld := ⟨SAF_ECCDBE, 0, 32⟩
/-- Offset of SAF_SSEXP (17). -/
def SAF_SSEXP : Nat := 0x681C
def SAF_SSEXP_SSEXP : Fld := ⟨SAF_SSEXP, 0, 32⟩
/-- Offset of SAF_KAV (17). -/
def SAF_KAV : Nat := 0x6820
def SAF_KAV_FAILS : Fld := ⟨SAF_KAV, 16, 16⟩
def SAF_KAV_NEXT : Fld := ⟨SAF_KAV, 0, 5⟩
/-- Offset of SAF_REINIT (17). -/
def SAF_REINIT : Nat := 0x6824
def SAF_REINIT_STATUS : Fld := ⟨SAF_REINIT, 8, 8⟩
def SAF_REINIT_TARGET : Fld := ⟨SAF_REINIT, 0, 8⟩
/-- Offset of SAF_DIAGCFG (17). -/
def SAF_DIAGCFG (i : Nat) : Nat := 0x6840 + 0x4 * i
def SAF_DIAGCFG_SAFEACT (i : Nat) : Fld := ⟨(SAF_DIAGCFG i), 31, 1⟩
def SAF_DIAGCFG_THRESH (i : Nat) : Fld := ⟨(SAF_DIAGCFG i), 16, 4⟩
def SAF_DIAGCFG_WINDOW (i : Nat) : Fld := ⟨(SAF_DIAGCFG i), 0, 16⟩
/-- Offset of SAF_STRK (17). -/
def SAF_STRK (i : Nat) : Nat := 0x6880 + 0x4 * i
def SAF_STRK_STRK (i : Nat) : Fld := ⟨(SAF_STRK i), 0, 32⟩
/-- Offset of TZL_CTL (18). -/
def TZL_CTL : Nat := 0x7000
def TZL_CTL_CASREC : Fld := ⟨TZL_CTL, 4, 1⟩
def TZL_CTL_MIRSIDE : Fld := ⟨TZL_CTL, 3, 1⟩
def TZL_CTL_MODE : Fld := ⟨TZL_CTL, 0, 2⟩
/-- Offset of TZL_STAT (18). -/
def TZL_STAT : Nat := 0x7004
def TZL_STAT_DUAL : Fld := ⟨TZL_STAT, 11, 1⟩
def TZL_STAT_ACTIVE : Fld := ⟨TZL_STAT, 10, 1⟩
def TZL_STAT_ISLAND : Fld := ⟨TZL_STAT, 9, 1⟩
def TZL_STAT_DNTRN : Fld := ⟨TZL_STAT, 8, 1⟩
def TZL_STAT_UPTRN : Fld := ⟨TZL_STAT, 7, 1⟩
def TZL_STAT_NDEV : Fld := ⟨TZL_STAT, 3, 4⟩
def TZL_STAT_POS : Fld := ⟨TZL_STAT, 0, 3⟩
/-- Offset of TZL_DELAY (18). -/
def TZL_DELAY : Nat := 0x7008
def TZL_DELAY_DELAY : Fld := ⟨TZL_DELAY, 0, 16⟩
/-- Offset of TZL_RADDR (18). -/
def TZL_RADDR : Nat := 0x700C
def TZL_RADDR_RD : Fld := ⟨TZL_RADDR, 31, 1⟩
def TZL_RADDR_POS : Fld := ⟨TZL_RADDR, 16, 3⟩
def TZL_RADDR_OFFSET : Fld := ⟨TZL_RADDR, 2, 14⟩
/-- Offset of TZL_RDATA (18). -/
def TZL_RDATA : Nat := 0x7010
def TZL_RDATA_DATA : Fld := ⟨TZL_RDATA, 0, 32⟩
/-- Offset of TZL_RSTAT (18). -/
def TZL_RSTAT : Nat := 0x7014
def TZL_RSTAT_ERR : Fld := ⟨TZL_RSTAT, 2, 1⟩
def TZL_RSTAT_RDY : Fld := ⟨TZL_RSTAT, 1, 1⟩
def TZL_RSTAT_BUSY : Fld := ⟨TZL_RSTAT, 0, 1⟩
/-- Offset of TZL_CRCERR (18). -/
def TZL_CRCERR : Nat := 0x7018
def TZL_CRCERR_CRCERR : Fld := ⟨TZL_CRCERR, 0, 32⟩
/-- Offset of TZL_MIRDIF (18). -/
def TZL_MIRDIF : Nat := 0x701C
def TZL_MIRDIF_MIRDIF : Fld := ⟨TZL_MIRDIF, 0, 32⟩
/-- Offset of TZL_EVSTAT (18). -/
def TZL_EVSTAT : Nat := 0x7020
def TZL_EVSTAT_DROP : Fld := ⟨TZL_EVSTAT, 24, 8⟩
def TZL_EVSTAT_POS : Fld := ⟨TZL_EVSTAT, 17, 3⟩
def TZL_EVSTAT_VALID : Fld := ⟨TZL_EVSTAT, 16, 1⟩
def TZL_EVSTAT_WAIT : Fld := ⟨TZL_EVSTAT, 0, 9⟩
/-- Offset of TZL_EVPOP (18). -/
def TZL_EVPOP : Nat := 0x7024
def TZL_EVPOP_POP : Fld := ⟨TZL_EVPOP, 0, 32⟩
/-- Offset of TZL_MIRCTL (18). -/
def TZL_MIRCTL : Nat := 0x7028
def TZL_MIRCTL_HANDOVER : Fld := ⟨TZL_MIRCTL, 0, 1⟩
/-- Offset of TZL_EVT (18). -/
def TZL_EVT (i : Nat) : Nat := 0x7040 + 0x4 * i
def TZL_EVT_DATA (i : Nat) : Fld := ⟨(TZL_EVT i), 0, 32⟩
/-- Offset of GLB_ID (19). -/
def GLB_ID : Nat := 0x0000
def GLB_ID_ID : Fld := ⟨GLB_ID, 0, 32⟩
/-- Offset of GLB_REV (19). -/
def GLB_REV : Nat := 0x0004
def GLB_REV_MAJOR : Fld := ⟨GLB_REV, 4, 4⟩
def GLB_REV_MINOR : Fld := ⟨GLB_REV, 0, 4⟩
/-- Offset of GLB_SERIAL_LO (19). -/
def GLB_SERIAL_LO : Nat := 0x0008
def GLB_SERIAL_LO_SERIAL : Fld := ⟨GLB_SERIAL_LO, 0, 32⟩
/-- Offset of GLB_SERIAL_HI (19). -/
def GLB_SERIAL_HI : Nat := 0x000C
def GLB_SERIAL_HI_SERIAL : Fld := ⟨GLB_SERIAL_HI, 0, 32⟩
/-- Offset of GLB_STAT (19). -/
def GLB_STAT : Nat := 0x0010
def GLB_STAT_READY : Fld := ⟨GLB_STAT, 0, 1⟩
/-- Offset of GLB_STRAP (19). -/
def GLB_STRAP : Nat := 0x0014
def GLB_STRAP_AUTOSTART : Fld := ⟨GLB_STRAP, 1, 1⟩
def GLB_STRAP_MSTR : Fld := ⟨GLB_STRAP, 0, 1⟩
/-- Offset of GLB_CTL (19). -/
def GLB_CTL : Nat := 0x0018
def GLB_CTL_KEY : Fld := ⟨GLB_CTL, 24, 8⟩
def GLB_CTL_SOFTRST : Fld := ⟨GLB_CTL, 0, 1⟩
/-- Offset of GLB_IRQSUM (19). -/
def GLB_IRQSUM : Nat := 0x001C
def GLB_IRQSUM_SUM : Fld := ⟨GLB_IRQSUM, 0, 13⟩
/-- Offset of GLB_IRQEN (19). -/
def GLB_IRQEN : Nat := 0x0020
def GLB_IRQEN_EN : Fld := ⟨GLB_IRQEN, 0, 13⟩
/-- Offset of MSIX_ALO (16). -/
def MSIX_ALO (i : Nat) : Nat := 0xE000 + 0x10 * i
def MSIX_ALO_ADDR (i : Nat) : Fld := ⟨(MSIX_ALO i), 2, 30⟩
/-- Offset of MSIX_AHI (16). -/
def MSIX_AHI (i : Nat) : Nat := 0xE004 + 0x10 * i
def MSIX_AHI_ADDR (i : Nat) : Fld := ⟨(MSIX_AHI i), 0, 32⟩
/-- Offset of MSIX_DATA (16). -/
def MSIX_DATA (i : Nat) : Nat := 0xE008 + 0x10 * i
def MSIX_DATA_DATA (i : Nat) : Fld := ⟨(MSIX_DATA i), 0, 32⟩
/-- Offset of MSIX_CTL (16). -/
def MSIX_CTL (i : Nat) : Nat := 0xE00C + 0x10 * i
def MSIX_CTL_MASK (i : Nat) : Fld := ⟨(MSIX_CTL i), 0, 1⟩
/-- Offset of MSIX_PBA (16). -/
def MSIX_PBA : Nat := 0xE800
def MSIX_PBA_PEND : Fld := ⟨MSIX_PBA, 0, 32⟩

/-- Rows of offsets 0x0000 to 0x07FF. -/
def rows00 : List RegRow :=
  [ ⟨0x0400, 0x4, 1, 0, 1, 1, 0x31,
      [⟨5, 1, .rw, .any, false⟩, ⟨4, 1, .rw, .any, true⟩, ⟨3, 1, .rw, .any, true⟩, ⟨0, 2, .rw, .range 0 2, false⟩]⟩,
    ⟨0x0404, 0x4, 1, 0, 1, 1, 0xc0300,
      [⟨18, 10, .ro, .any, false⟩, ⟨17, 1, .ro, .any, false⟩, ⟨16, 1, .ro, .any, false⟩, ⟨15, 1, .ro, .any, false⟩, ⟨14, 1, .ro, .any, false⟩, ⟨13, 1, .ro, .any, false⟩, ⟨12, 1, .ro, .any, false⟩, ⟨11, 1, .ro, .any, false⟩, ⟨8, 3, .ro, .any, false⟩]⟩,
    ⟨0x0408, 0x4, 1, 0, 1, 1, 0x0,
      [⟨8, 1, .w1c, .any, false⟩, ⟨7, 1, .w1c, .any, false⟩, ⟨6, 1, .w1c, .any, false⟩, ⟨5, 1, .w1c, .any, false⟩, ⟨4, 1, .w1c, .any, false⟩, ⟨3, 1, .w1c, .any, false⟩, ⟨2, 1, .w1c, .any, false⟩, ⟨1, 1, .w1c, .any, false⟩, ⟨0, 1, .w1c, .any, false⟩]⟩,
    ⟨0x040C, 0x4, 1, 0, 1, 1, 0x0,
      [⟨16, 12, .ro, .any, false⟩, ⟨0, 12, .w1c, .any, false⟩]⟩,
    ⟨0x0410, 0x4, 1, 0, 1, 0, 0x1,
      [⟨6, 1, .w1c, .any, false⟩, ⟨5, 1, .w1c, .any, false⟩, ⟨4, 1, .w1c, .any, false⟩, ⟨3, 1, .w1c, .any, false⟩, ⟨2, 1, .w1c, .any, false⟩, ⟨1, 1, .w1c, .any, false⟩, ⟨0, 1, .w1c, .any, false⟩]⟩,
    ⟨0x0414, 0x4, 1, 0, 1, 1, 0x1,
      [⟨1, 1, .rw, .any, false⟩, ⟨0, 1, .rw, .any, false⟩]⟩,
    ⟨0x0000, 0x4, 1, 0, 1, 1, 0x55464836,
      [⟨0, 32, .ro, .any, false⟩]⟩,
    ⟨0x0004, 0x4, 1, 0, 1, 1, 0x11,
      [⟨4, 4, .ro, .any, false⟩, ⟨0, 4, .ro, .any, false⟩]⟩,
    ⟨0x0008, 0x4, 1, 0, 1, 1, 0x0,
      [⟨0, 32, .ro, .any, false⟩]⟩,
    ⟨0x000C, 0x4, 1, 0, 1, 1, 0x0,
      [⟨0, 32, .ro, .any, false⟩]⟩,
    ⟨0x0010, 0x4, 1, 0, 1, 1, 0x0,
      [⟨0, 1, .ro, .any, false⟩]⟩,
    ⟨0x0014, 0x4, 1, 0, 1, 1, 0x0,
      [⟨1, 1, .ro, .any, false⟩, ⟨0, 1, .ro, .any, false⟩]⟩,
    ⟨0x0018, 0x4, 1, 0, 1, 1, 0x0,
      [⟨24, 8, .wo, .any, false⟩, ⟨0, 1, .w1s, .any, false⟩]⟩,
    ⟨0x001C, 0x4, 1, 0, 1, 1, 0x0,
      [⟨0, 13, .ro, .any, false⟩]⟩,
    ⟨0x0020, 0x4, 1, 0, 1, 1, 0x0,
      [⟨0, 13, .rw, .any, false⟩]⟩ ]

/-- Rows of offsets 0x0800 to 0x0FFF. -/
def rows01 : List RegRow :=
  [ ⟨0x0800, 0x40, 16, 0, 1, 9, 0x0,
      [⟨6, 26, .rw, .any, false⟩]⟩,
    ⟨0x0804, 0x40, 16, 0, 1, 9, 0x0,
      [⟨0, 32, .rw, .any, false⟩]⟩,
    ⟨0x0808, 0x40, 16, 0, 1, 9, 0x10004,
      [⟨31, 1, .rw, .any, false⟩, ⟨30, 1, .rw, .any, false⟩, ⟨24, 5, .rw, .any, false⟩, ⟨16, 8, .rw, .any, false⟩, ⟨0, 5, .rw, .range 4 16, false⟩]⟩,
    ⟨0x080C, 0x40, 16, 0, 1, 9, 0x0,
      [⟨0, 16, .rw, .any, false⟩]⟩,
    ⟨0x0810, 0x40, 16, 0, 1, 9, 0x0,
      [⟨0, 32, .ro, .any, false⟩]⟩,
    ⟨0x0814, 0x40, 16, 0, 1, 9, 0x0,
      [⟨0, 32, .ro, .any, false⟩]⟩,
    ⟨0x0818, 0x40, 16, 0, 1, 9, 0x0,
      [⟨16, 16, .ro, .any, false⟩, ⟨1, 1, .w1c, .any, false⟩, ⟨0, 1, .ro, .any, false⟩]⟩,
    ⟨0x081C, 0x40, 16, 0, 1, 9, 0x0,
      [⟨0, 32, .rc, .any, false⟩]⟩,
    ⟨0x0920, 0x40, 4, 4, 3, 9, 0x0,
      [⟨0, 32, .rw, .any, false⟩]⟩,
    ⟨0x092C, 0x40, 4, 0, 1, 9, 0x100,
      [⟨8, 8, .rw, .range 1 255, false⟩, ⟨0, 1, .rw, .any, false⟩]⟩,
    ⟨0x0C00, 0x4, 1, 0, 1, 9, 0x0,
      [⟨13, 1, .rw, .any, false⟩, ⟨8, 5, .rw, .any, false⟩, ⟨1, 1, .rw, .any, false⟩, ⟨0, 1, .rw, .any, false⟩]⟩,
    ⟨0x0C04, 0x4, 1, 0, 1, 9, 0x8,
      [⟨8, 2, .ro, .any, false⟩, ⟨6, 2, .ro, .any, false⟩, ⟨4, 2, .ro, .any, false⟩, ⟨3, 1, .w1c, .any, false⟩, ⟨2, 1, .w1c, .any, false⟩, ⟨1, 1, .ro, .any, false⟩, ⟨0, 1, .ro, .any, false⟩]⟩,
    ⟨0x0C08, 0x4, 1, 0, 1, 9, 0x0,
      [⟨12, 20, .rw, .any, false⟩]⟩,
    ⟨0x0C0C, 0x4, 1, 0, 1, 9, 0x0,
      [⟨0, 32, .rw, .any, false⟩]⟩,
    ⟨0x0C10, 0x4, 1, 0, 1, 9, 0x0,
      [⟨12, 20, .rw, .any, false⟩]⟩,
    ⟨0x0C14, 0x4, 1, 0, 1, 9, 0x0,
      [⟨0, 32, .rw, .any, false⟩]⟩,
    ⟨0x0C18, 0x4, 1, 0, 1, 9, 0x0,
      [⟨6, 26, .rw, .any, false⟩]⟩,
    ⟨0x0C1C, 0x4, 1, 0, 1, 9, 0x0,
      [⟨0, 32, .rw, .any, false⟩]⟩,
    ⟨0x0C20, 0x4, 1, 0, 1, 9, 0x0,
      [⟨16, 7, .ro, .any, false⟩, ⟨0, 7, .ro, .any, false⟩]⟩,
    ⟨0x0C24, 0x4, 1, 0, 1, 9, 0x0,
      [⟨0, 32, .rc, .any, false⟩]⟩ ]

/-- Rows of offsets 0x1000 to 0x17FF. -/
def rows02 : List RegRow :=
  [ ⟨0x1000, 0x4, 1, 0, 1, 2, 0x0,
      [⟨8, 7, .ro, .any, false⟩, ⟨0, 1, .w1c, .any, false⟩]⟩,
    ⟨0x1010, 0x4, 3, 0, 1, 2, 0x0,
      [⟨0, 32, .w1c, .any, false⟩]⟩,
    ⟨0x1020, 0x4, 3, 0, 1, 2, 0x0,
      [⟨0, 32, .w1c, .any, false⟩]⟩,
    ⟨0x1030, 0x4, 3, 0, 1, 2, 0x0,
      [⟨0, 32, .ro, .any, false⟩]⟩,
    ⟨0x1040, 0x4, 12, 0, 1, 2, 0x8,
      [⟨10, 1, .ro, .any, false⟩, ⟨9, 1, .ro, .any, false⟩, ⟨8, 1, .ro, .any, false⟩, ⟨5, 1, .rw, .any, true⟩, ⟨4, 1, .rw, .any, true⟩, ⟨0, 4, .rw, .any, true⟩]⟩,
    ⟨0x1080, 0x4, 96, 0, 1, 2, 0x370,
      [⟨10, 1, .rw, .any, true⟩, ⟨4, 6, .rw, .any, true⟩, ⟨3, 1, .rw, .any, true⟩, ⟨0, 3, .rw, .range 0 6, true⟩]⟩,
    ⟨0x1200, 0x20, 48, 0, 1, 2, 0x1388,
      [⟨24, 8, .rw, .any, false⟩, ⟨16, 1, .rw, .any, true⟩, ⟨0, 16, .rw, .range 500 65535, true⟩]⟩,
    ⟨0x1204, 0x20, 48, 0, 1, 2, 0x40000000,
      [⟨0, 32, .rw, .range 0x10000000 0x80000000, true⟩]⟩,
    ⟨0x1208, 0x20, 48, 0, 1, 2, 0x0,
      [⟨0, 25, .rw, .srange 4194304, true⟩]⟩,
    ⟨0x120C, 0x20, 48, 0, 1, 2, 0x40000000,
      [⟨0, 32, .ro, .any, false⟩]⟩,
    ⟨0x1210, 0x20, 48, 0, 1, 2, 0x0,
      [⟨0, 25, .ro, .any, false⟩]⟩,
    ⟨0x1214, 0x20, 48, 0, 1, 2, 0x0,
      [⟨16, 16, .rc, .any, false⟩, ⟨0, 16, .rc, .any, false⟩]⟩,
    ⟨0x1218, 0x20, 48, 0, 1, 2, 0x0,
      [⟨0, 32, .rc, .any, false⟩]⟩,
    ⟨0x121C, 0x20, 48, 0, 1, 2, 0x1,
      [⟨3, 1, .ro, .any, false⟩, ⟨2, 1, .ro, .any, false⟩, ⟨1, 1, .w1c, .any, false⟩, ⟨0, 1, .ro, .any, false⟩]⟩ ]

/-- Rows of offsets 0x1800 to 0x1FFF. -/
def rows03 : List RegRow :=
  [ ⟨0x1800, 0x4, 1, 0, 1, 3, 0x12,
      [⟨4, 1, .rw, .any, false⟩, ⟨0, 2, .rw, .any, true⟩]⟩,
    ⟨0x1804, 0x4, 1, 0, 1, 3, 0x2,
      [⟨4, 3, .ro, .any, false⟩, ⟨3, 1, .ro, .any, false⟩, ⟨2, 1, .ro, .any, false⟩, ⟨0, 2, .ro, .any, false⟩]⟩,
    ⟨0x1808, 0x4, 1, 0, 1, 3, 0x0,
      [⟨0, 32, .rc, .any, false⟩]⟩,
    ⟨0x180C, 0x4, 1, 0, 1, 3, 0x0,
      [⟨0, 32, .rc, .any, false⟩]⟩,
    ⟨0x1810, 0x4, 1, 0, 1, 3, 0x0,
      [⟨0, 32, .ro, .any, false⟩]⟩,
    ⟨0x1814, 0x4, 1, 0, 1, 3, 0x0,
      [⟨0, 32, .ro, .any, false⟩]⟩,
    ⟨0x1900, 0x4, 96, 0, 1, 3, 0x84a,
      [⟨25, 7, .ro, .any, false⟩, ⟨18, 7, .ro, .any, false⟩, ⟨17, 1, .ro, .any, false⟩, ⟨16, 1, .ro, .any, false⟩, ⟨15, 1, .ro, .any, false⟩, ⟨8, 4, .rw, .range 4 10, true⟩, ⟨7, 1, .ro, .any, false⟩, ⟨6, 1, .rw, .any, true⟩, ⟨5, 1, .rw, .any, true⟩, ⟨2, 2, .rw, .any, true⟩, ⟨1, 1, .rw, .any, true⟩]⟩,
    ⟨0x1B00, 0x4, 96, 0, 1, 3, 0x0,
      [⟨0, 16, .rc, .any, false⟩]⟩,
    ⟨0x1C80, 0x4, 96, 0, 1, 3, 0x0,
      [⟨0, 32, .ro, .any, false⟩]⟩,
    ⟨0x1E00, 0x4, 96, 0, 1, 3, 0x0,
      [⟨0, 32, .rw, .any, true⟩]⟩,
    ⟨0x1F80, 0x4, 1, 0, 1, 3, 0x0,
      [⟨8, 3, .rw, .any, true⟩, ⟨3, 1, .rw, .any, true⟩, ⟨2, 1, .w1s, .any, true⟩, ⟨1, 1, .rw, .any, true⟩, ⟨0, 1, .rw, .any, true⟩]⟩,
    ⟨0x1F84, 0x4, 1, 0, 1, 3, 0x0,
      [⟨0, 12, .rw, .any, true⟩]⟩,
    ⟨0x1F88, 0x4, 1, 0, 1, 3, 0x0,
      [⟨0, 32, .rw, .any, true⟩]⟩,
    ⟨0x1F8C, 0x4, 1, 0, 1, 3, 0xc8,
      [⟨0, 16, .rw, .any, true⟩]⟩,
    ⟨0x1F90, 0x4, 1, 0, 1, 3, 0x0,
      [⟨6, 1, .w1c, .any, false⟩, ⟨5, 1, .w1c, .any, false⟩, ⟨4, 1, .w1c, .any, false⟩, ⟨3, 1, .w1c, .any, false⟩, ⟨2, 1, .w1c, .any, false⟩, ⟨1, 1, .ro, .any, false⟩, ⟨0, 1, .ro, .any, false⟩]⟩,
    ⟨0x1F94, 0x4, 1, 0, 1, 3, 0x0,
      [⟨0, 32, .rc, .any, false⟩]⟩,
    ⟨0x1F98, 0x4, 1, 0, 1, 3, 0x0,
      [⟨0, 7, .rw, .any, false⟩]⟩,
    ⟨0x1F9C, 0x4, 1, 0, 1, 3, 0x0,
      [⟨0, 32, .ro, .any, false⟩]⟩,
    ⟨0x1FA0, 0x4, 1, 0, 1, 3, 0x0,
      [⟨0, 4, .ro, .any, false⟩]⟩,
    ⟨0x1FA4, 0x4, 1, 0, 1, 3, 0x0,
      [⟨0, 32, .ro, .any, false⟩]⟩,
    ⟨0x1FA8, 0x4, 1, 0, 1, 3, 0x0,
      [⟨0, 4, .ro, .any, false⟩]⟩,
    ⟨0x1FAC, 0x4, 1, 0, 1, 3, 0x0,
      [⟨0, 32, .ro, .any, false⟩]⟩,
    ⟨0x1FB0, 0x4, 1, 0, 1, 3, 0x0,
      [⟨0, 4, .ro, .any, false⟩]⟩,
    ⟨0x1FB4, 0x4, 1, 0, 1, 3, 0x0,
      [⟨0, 25, .ro, .any, false⟩]⟩,
    ⟨0x1FB8, 0x4, 1, 0, 1, 3, 0x0,
      [⟨16, 4, .ro, .any, false⟩, ⟨0, 13, .ro, .any, false⟩]⟩,
    ⟨0x1FC0, 0x4, 8, 0, 1, 3, 0x0,
      [⟨24, 2, .rw, .any, true⟩, ⟨16, 7, .rw, .any, true⟩, ⟨8, 7, .rw, .any, true⟩, ⟨0, 7, .rw, .any, true⟩]⟩ ]

/-- Rows of offsets 0x2000 to 0x27FF. -/
def rows04 : List RegRow :=
  [ ⟨0x2000, 0x40, 32, 0, 1, 4, 0x0,
      [⟨12, 1, .rw, .any, true⟩, ⟨8, 2, .rw, .any, true⟩, ⟨4, 3, .rw, .any, true⟩, ⟨0, 3, .rw, .range 0 3, true⟩]⟩,
    ⟨0x2004, 0x40, 32, 0, 1, 4, 0x0,
      [⟨24, 7, .rw, .any, true⟩, ⟨16, 7, .rw, .any, true⟩, ⟨8, 7, .rw, .any, true⟩, ⟨0, 7, .rw, .any, true⟩]⟩,
    ⟨0x2008, 0x40, 32, 0, 1, 4, 0x0,
      [⟨0, 32, .rw, .any, true⟩]⟩,
    ⟨0x200C, 0x40, 32, 0, 1, 4, 0x0,
      [⟨0, 32, .rw, .any, true⟩]⟩,
    ⟨0x2010, 0x40, 32, 0, 1, 4, 0x0,
      [⟨0, 32, .rw, .any, true⟩]⟩,
    ⟨0x2014, 0x40, 32, 0, 1, 4, 0x0,
      [⟨6, 1, .w1c, .any, false⟩, ⟨5, 1, .ro, .any, false⟩, ⟨4, 1, .ro, .any, false⟩, ⟨3, 1, .ro, .any, false⟩, ⟨2, 1, .w1c, .any, false⟩, ⟨1, 1, .ro, .any, false⟩, ⟨0, 1, .ro, .any, false⟩]⟩,
    ⟨0x2018, 0x40, 32, 0, 1, 4, 0x0,
      [⟨0, 32, .rc, .any, false⟩]⟩,
    ⟨0x201C, 0x40, 32, 0, 1, 4, 0x0,
      [⟨0, 32, .rc, .any, false⟩]⟩,
    ⟨0x2020, 0x40, 32, 0, 1, 4, 0x0,
      [⟨0, 32, .rc, .any, false⟩]⟩,
    ⟨0x2024, 0x40, 32, 0, 1, 4, 0x0,
      [⟨0, 32, .rc, .any, false⟩]⟩,
    ⟨0x2028, 0x40, 32, 0, 1, 4, 0x0,
      [⟨0, 32, .rc, .any, false⟩]⟩,
    ⟨0x202C, 0x40, 32, 0, 1, 4, 0x0,
      [⟨0, 32, .rc, .any, false⟩]⟩ ]

/-- Rows of offsets 0x2800 to 0x2FFF. -/
def rows05 : List RegRow :=
  [ ⟨0x2800, 0x4, 8, 0, 1, 5, 0x282,
      [⟨4, 6, .rw, .range 2 63, false⟩, ⟨3, 1, .rw, .any, false⟩, ⟨2, 1, .rw, .any, false⟩, ⟨1, 1, .rw, .any, false⟩, ⟨0, 1, .rw, .any, true⟩]⟩,
    ⟨0x2820, 0x4, 8, 0, 1, 5, 0x0,
      [⟨0, 32, .rw, .any, false⟩]⟩,
    ⟨0x2840, 0x4, 8, 0, 1, 5, 0x44c0384,
      [⟨16, 12, .rw, .any, false⟩, ⟨0, 12, .rw, .any, false⟩]⟩,
    ⟨0x2860, 0x4, 8, 0, 1, 5, 0x140032,
      [⟨16, 8, .rw, .any, false⟩, ⟨0, 12, .rw, .any, false⟩]⟩,
    ⟨0x2880, 0x4, 8, 0, 1, 5, 0x0,
      [⟨5, 2, .ro, .any, false⟩, ⟨4, 1, .ro, .any, false⟩, ⟨3, 1, .ro, .any, false⟩, ⟨2, 1, .ro, .any, false⟩, ⟨1, 1, .ro, .any, false⟩, ⟨0, 1, .ro, .any, false⟩]⟩,
    ⟨0x28A0, 0x4, 8, 0, 1, 5, 0x0,
      [⟨0, 32, .ro, .any, false⟩]⟩,
    ⟨0x2900, 0x8, 32, 0, 1, 5, 0x1f4000a,
      [⟨31, 1, .rw, .any, false⟩, ⟨16, 15, .rw, .range 50 30000, false⟩, ⟨0, 7, .rw, .range 0 50, false⟩]⟩,
    ⟨0x2904, 0x8, 32, 0, 1, 5, 0x0,
      [⟨0, 32, .rw, .any, false⟩]⟩,
    ⟨0x2A00, 0x4, 96, 0, 1, 5, 0x5,
      [⟨31, 1, .rw, .any, false⟩, ⟨30, 1, .rw, .any, false⟩, ⟨15, 15, .rw, .range 0 30000, false⟩, ⟨0, 7, .rw, .range 0 50, false⟩]⟩,
    ⟨0x2B80, 0x4, 96, 0, 1, 5, 0x0,
      [⟨0, 32, .rw, .any, false⟩]⟩,
    ⟨0x2D00, 0x4, 96, 0, 1, 5, 0x0,
      [⟨0, 32, .rw, .any, false⟩]⟩,
    ⟨0x2E80, 0x4, 3, 0, 1, 5, 0x0,
      [⟨0, 32, .rw, .any, false⟩]⟩,
    ⟨0x2E90, 0x4, 1, 0, 1, 5, 0x0,
      [⟨16, 16, .rc, .any, false⟩, ⟨0, 9, .ro, .any, false⟩]⟩,
    ⟨0x2E94, 0x4, 1, 0, 1, 5, 0x0,
      [⟨0, 32, .rc, .any, false⟩]⟩,
    ⟨0x2E98, 0x4, 1, 0, 1, 5, 0x0,
      [⟨0, 32, .rc, .any, false⟩]⟩,
    ⟨0x2E9C, 0x4, 1, 0, 1, 5, 0x0,
      [⟨0, 32, .rc, .any, false⟩]⟩,
    ⟨0x2EA0, 0x4, 1, 0, 1, 5, 0x0,
      [⟨0, 32, .ro, .any, false⟩]⟩,
    ⟨0x2EA4, 0x4, 3, 0, 1, 5, 0x0,
      [⟨0, 32, .ro, .any, false⟩]⟩ ]

/-- Rows of offsets 0x3000 to 0x37FF. -/
def rows06 : List RegRow :=
  [ ⟨0x3000, 0x20, 16, 0, 1, 5, 0x25001e00,
      [⟨31, 1, .rw, .any, true⟩, ⟨30, 1, .rw, .any, true⟩, ⟨29, 1, .rw, .any, true⟩, ⟨20, 8, .rw, .range 10 250, true⟩, ⟨8, 6, .rw, .range 0 39, true⟩, ⟨0, 5, .rw, .any, true⟩]⟩,
    ⟨0x3004, 0x20, 16, 0, 1, 5, 0x0,
      [⟨0, 32, .rw, .any, true⟩]⟩,
    ⟨0x3008, 0x20, 16, 0, 1, 5, 0x0,
      [⟨0, 32, .rw, .any, true⟩]⟩,
    ⟨0x300C, 0x20, 16, 0, 1, 5, 0x0,
      [⟨0, 8, .rw, .any, true⟩]⟩,
    ⟨0x3010, 0x20, 16, 0, 1, 5, 0x0,
      [⟨3, 1, .ro, .any, false⟩, ⟨2, 1, .ro, .any, false⟩, ⟨1, 1, .ro, .any, false⟩, ⟨0, 1, .ro, .any, false⟩]⟩,
    ⟨0x3014, 0x20, 16, 0, 1, 5, 0x0,
      [⟨0, 32, .ro, .any, false⟩]⟩,
    ⟨0x3200, 0x20, 8, 0, 1, 5, 0x10000000,
      [⟨31, 1, .rw, .any, false⟩, ⟨30, 1, .rw, .any, false⟩, ⟨29, 1, .rw, .any, false⟩, ⟨28, 1, .rw, .any, false⟩, ⟨8, 8, .rw, .any, false⟩]⟩,
    ⟨0x3204, 0x20, 8, 4, 4, 5, 0x0,
      [⟨31, 1, .rw, .any, false⟩, ⟨30, 1, .rw, .any, false⟩, ⟨16, 8, .rw, .any, false⟩, ⟨0, 16, .rw, .any, false⟩]⟩,
    ⟨0x3214, 0x20, 8, 0, 1, 5, 0x0,
      [⟨4, 1, .ro, .any, false⟩, ⟨3, 1, .w1c, .any, false⟩, ⟨2, 1, .ro, .any, false⟩, ⟨1, 1, .ro, .any, false⟩, ⟨0, 1, .ro, .any, false⟩]⟩,
    ⟨0x3218, 0x20, 8, 0, 1, 5, 0x0,
      [⟨0, 32, .rc, .any, false⟩]⟩,
    ⟨0x3300, 0x4, 1, 0, 1, 5, 0x0,
      [⟨0, 8, .rw, .any, false⟩]⟩,
    ⟨0x3304, 0x4, 1, 0, 1, 5, 0x0,
      [⟨0, 8, .wo, .any, false⟩]⟩,
    ⟨0x3400, 0x20, 16, 0, 1, 5, 0x64,
      [⟨31, 1, .rw, .any, true⟩, ⟨30, 1, .rw, .any, true⟩, ⟨29, 1, .rw, .any, true⟩, ⟨0, 14, .rw, .range 1 10000, true⟩]⟩,
    ⟨0x3404, 0x20, 16, 0, 1, 5, 0x1000000,
      [⟨0, 32, .rw, .any, true⟩]⟩,
    ⟨0x3408, 0x20, 16, 0, 1, 5, 0x0,
      [⟨0, 4, .rw, .any, true⟩]⟩,
    ⟨0x340C, 0x20, 16, 0, 1, 5, 0x0,
      [⟨0, 16, .rw, .any, false⟩]⟩,
    ⟨0x3410, 0x20, 16, 0, 1, 5, 0x0,
      [⟨0, 32, .ro, .any, false⟩]⟩,
    ⟨0x3414, 0x20, 16, 0, 1, 5, 0x0,
      [⟨4, 1, .w1c, .any, false⟩, ⟨3, 1, .w1c, .any, false⟩, ⟨2, 1, .ro, .any, false⟩, ⟨1, 1, .ro, .any, false⟩, ⟨0, 1, .ro, .any, false⟩]⟩,
    ⟨0x3418, 0x20, 16, 0, 1, 5, 0x0,
      [⟨0, 32, .ro, .any, false⟩]⟩,
    ⟨0x341C, 0x20, 16, 0, 1, 5, 0x0,
      [⟨0, 32, .rc, .any, false⟩]⟩ ]

/-- Rows of offsets 0x3800 to 0x3FFF. -/
def rows07 : List RegRow :=
  [ ⟨0x3800, 0x4, 1, 0, 1, 5, 0x8101f4,
      [⟨22, 2, .rw, .range 0 2, true⟩, ⟨20, 2, .rw, .any, true⟩, ⟨16, 1, .rw, .any, true⟩, ⟨0, 16, .rw, .range 50 60000, true⟩]⟩,
    ⟨0x3804, 0x4, 1, 0, 1, 5, 0x86b3206,
      [⟨24, 4, .rw, .any, true⟩, ⟨16, 8, .rw, .any, true⟩, ⟨8, 8, .rw, .any, true⟩, ⟨0, 8, .rw, .any, true⟩]⟩,
    ⟨0x3808, 0x4, 1, 0, 1, 5, 0x8,
      [⟨5, 1, .w1c, .any, false⟩, ⟨4, 1, .ro, .any, false⟩, ⟨3, 1, .ro, .any, false⟩, ⟨2, 1, .ro, .any, false⟩, ⟨1, 1, .ro, .any, false⟩]⟩,
    ⟨0x380C, 0x4, 1, 0, 1, 5, 0x0,
      [⟨0, 32, .ro, .any, false⟩]⟩,
    ⟨0x3810, 0x4, 1, 0, 1, 5, 0x0,
      [⟨0, 32, .ro, .any, false⟩]⟩,
    ⟨0x3814, 0x4, 1, 0, 1, 5, 0x0,
      [⟨0, 32, .ro, .any, false⟩]⟩,
    ⟨0x3818, 0x4, 1, 0, 1, 5, 0x0,
      [⟨0, 8, .ro, .any, false⟩]⟩,
    ⟨0x381C, 0x4, 1, 0, 1, 5, 0x0,
      [⟨0, 32, .ro, .any, false⟩]⟩,
    ⟨0x3820, 0x4, 1, 0, 1, 5, 0x0,
      [⟨0, 4, .ro, .any, false⟩]⟩,
    ⟨0x3824, 0x4, 1, 0, 1, 5, 0x0,
      [⟨12, 1, .ro, .any, false⟩, ⟨11, 1, .ro, .any, false⟩, ⟨0, 11, .ro, .any, false⟩]⟩,
    ⟨0x3828, 0x4, 1, 0, 1, 5, 0x0,
      [⟨0, 32, .ro, .any, false⟩]⟩,
    ⟨0x382C, 0x4, 1, 0, 1, 5, 0x0,
      [⟨0, 32, .ro, .any, false⟩]⟩,
    ⟨0x3830, 0x4, 1, 0, 1, 5, 0x0,
      [⟨0, 28, .ro, .any, false⟩]⟩,
    ⟨0x3834, 0x4, 1, 0, 1, 5, 0x0,
      [⟨0, 32, .ro, .any, false⟩]⟩,
    ⟨0x3838, 0x4, 1, 0, 1, 5, 0x0,
      [⟨0, 32, .ro, .any, false⟩]⟩,
    ⟨0x383C, 0x4, 1, 0, 1, 5, 0x0,
      [⟨0, 32, .rc, .any, false⟩]⟩,
    ⟨0x3840, 0x4, 1, 0, 1, 5, 0x0,
      [⟨2, 16, .rw, .any, false⟩]⟩,
    ⟨0x3844, 0x4, 1, 0, 1, 5, 0x0,
      [⟨0, 32, .rw, .any, false⟩]⟩,
    ⟨0x3848, 0x4, 1, 0, 1, 5, 0x0,
      [⟨3, 1, .w1c, .any, false⟩, ⟨2, 1, .w1c, .any, false⟩, ⟨1, 1, .ro, .any, false⟩, ⟨0, 1, .ro, .any, false⟩]⟩ ]

/-- Rows of offsets 0x4000 to 0x47FF. -/
def rows08 : List RegRow :=
  [ ⟨0x4000, 0x4, 1, 0, 1, 6, 0xf,
      [⟨7, 1, .ro, .any, false⟩, ⟨6, 1, .ro, .any, false⟩, ⟨5, 1, .ro, .any, false⟩, ⟨4, 1, .ro, .any, false⟩, ⟨3, 1, .ro, .any, false⟩, ⟨0, 3, .ro, .any, false⟩]⟩,
    ⟨0x4004, 0x4, 1, 0, 1, 6, 0x1001,
      [⟨31, 1, .w1s, .any, false⟩, ⟨13, 4, .rw, .range 0 10, false⟩, ⟨12, 1, .rw, .any, false⟩, ⟨9, 3, .rw, .any, false⟩, ⟨6, 3, .rw, .any, false⟩, ⟨0, 3, .rw, .except 5, false⟩]⟩,
    ⟨0x4008, 0x4, 1, 0, 1, 6, 0x0,
      [⟨0, 32, .ro, .any, false⟩]⟩,
    ⟨0x400C, 0x4, 1, 0, 1, 6, 0x0,
      [⟨0, 32, .rc, .any, false⟩]⟩,
    ⟨0x4010, 0x4, 1, 0, 1, 6, 0x0,
      [⟨0, 1, .w1s, .any, false⟩]⟩,
    ⟨0x4014, 0x4, 1, 0, 1, 6, 0x0,
      [⟨0, 16, .ro, .any, false⟩]⟩,
    ⟨0x4040, 0x4, 24, 0, 1, 6, 0x0,
      [⟨0, 24, .rw, .any, false⟩]⟩,
    ⟨0x4100, 0x4, 4, 0, 1, 6, 0x1,
      [⟨16, 16, .rw, .any, false⟩, ⟨0, 5, .rw, .range 1 16, false⟩]⟩,
    ⟨0x4110, 0x4, 4, 0, 1, 6, 0x0,
      [⟨0, 32, .rc, .any, false⟩]⟩,
    ⟨0x4200, 0x40, 4, 4, 16, 6, 0x206,
      [⟨10, 4, .rw, .range 0 10, false⟩, ⟨9, 1, .rw, .any, false⟩, ⟨6, 3, .rw, .any, false⟩, ⟨3, 3, .rw, .any, false⟩, ⟨0, 3, .rw, .except 5, false⟩]⟩,
    ⟨0x4300, 0x40, 4, 4, 16, 6, 0x0,
      [⟨0, 32, .ro, .any, false⟩]⟩,
    ⟨0x4400, 0x4, 1, 0, 1, 6, 0x1,
      [⟨31, 1, .w1s, .any, false⟩, ⟨30, 1, .rw, .any, false⟩, ⟨29, 1, .rw, .any, false⟩, ⟨13, 4, .rw, .range 0 12, false⟩, ⟨9, 3, .rw, .any, false⟩, ⟨6, 3, .rw, .any, false⟩, ⟨0, 3, .rw, .except 5, false⟩]⟩,
    ⟨0x4404, 0x4, 1, 0, 1, 6, 0x8000,
      [⟨0, 16, .rw, .any, false⟩]⟩,
    ⟨0x4408, 0x4, 1, 0, 1, 6, 0x0,
      [⟨17, 1, .rw, .any, false⟩, ⟨16, 1, .rw, .any, false⟩, ⟨0, 14, .rw, .any, false⟩]⟩,
    ⟨0x4410, 0x4, 4, 0, 1, 6, 0x0,
      [⟨31, 1, .rw, .any, false⟩, ⟨30, 1, .rw, .any, false⟩, ⟨16, 8, .rw, .any, false⟩, ⟨0, 16, .rw, .any, false⟩]⟩,
    ⟨0x4420, 0x4, 1, 0, 1, 6, 0x0,
      [⟨0, 32, .rc, .any, false⟩]⟩ ]

/-- Rows of offsets 0x4800 to 0x4FFF. -/
def rows09 : List RegRow :=
  [ ⟨0x4800, 0x4, 1, 0, 1, 7, 0x10,
      [⟨8, 8, .rw, .any, false⟩, ⟨4, 2, .rw, .any, false⟩, ⟨2, 2, .rw, .range 0 1, false⟩, ⟨1, 1, .rw, .any, false⟩, ⟨0, 1, .rw, .any, false⟩]⟩,
    ⟨0x4804, 0x4, 1, 0, 1, 7, 0x3c00,
      [⟨8, 8, .rw, .any, false⟩, ⟨0, 8, .rw, .any, false⟩]⟩,
    ⟨0x4808, 0x4, 1, 0, 1, 7, 0xc0a001e,
      [⟨24, 6, .rw, .any, false⟩, ⟨16, 7, .rw, .range 1 50, false⟩, ⟨0, 10, .rw, .range 5 600, false⟩]⟩,
    ⟨0x480C, 0x4, 1, 0, 1, 7, 0x1100c,
      [⟨16, 1, .rw, .any, false⟩, ⟨8, 8, .rw, .any, false⟩, ⟨0, 6, .rw, .any, false⟩]⟩,
    ⟨0x4810, 0x4, 1, 0, 1, 7, 0x40,
      [⟨6, 1, .ro, .any, false⟩, ⟨5, 1, .w1c, .any, false⟩, ⟨4, 1, .w1c, .any, false⟩, ⟨3, 1, .ro, .any, false⟩, ⟨2, 1, .ro, .any, false⟩, ⟨1, 1, .ro, .any, false⟩, ⟨0, 1, .ro, .any, false⟩]⟩,
    ⟨0x4820, 0x4, 53, 0, 1, 7, 0x0,
      [⟨0, 32, .rw, .any, false⟩]⟩,
    ⟨0x4900, 0x4, 1, 0, 1, 7, 0x0,
      [⟨0, 32, .rc, .any, false⟩]⟩,
    ⟨0x4904, 0x4, 1, 0, 1, 7, 0x0,
      [⟨0, 32, .rc, .any, false⟩]⟩,
    ⟨0x4908, 0x4, 1, 0, 1, 7, 0x0,
      [⟨0, 32, .rc, .any, false⟩]⟩,
    ⟨0x490C, 0x4, 1, 0, 1, 7, 0x0,
      [⟨0, 32, .rc, .any, false⟩]⟩,
    ⟨0x4910, 0x4, 1, 0, 1, 7, 0x0,
      [⟨0, 32, .rc, .any, false⟩]⟩,
    ⟨0x4914, 0x4, 1, 0, 1, 7, 0x0,
      [⟨0, 32, .rc, .any, false⟩]⟩,
    ⟨0x4918, 0x4, 1, 0, 1, 7, 0x0,
      [⟨0, 32, .rc, .any, false⟩]⟩,
    ⟨0x491C, 0x4, 1, 0, 1, 7, 0x0,
      [⟨16, 16, .rc, .any, false⟩, ⟨0, 16, .rc, .any, false⟩]⟩ ]

/-- Rows of offsets 0x5000 to 0x57FF. -/
def rows10 : List RegRow :=
  [ ⟨0x5000, 0x4, 1, 0, 1, 7, 0x2ee1e00,
      [⟨16, 12, .rw, .range 25 4095, false⟩, ⟨8, 8, .rw, .range 10 80, false⟩, ⟨3, 1, .rw, .any, false⟩, ⟨2, 1, .rw, .any, false⟩, ⟨1, 1, .rw, .any, false⟩, ⟨0, 1, .rw, .any, false⟩]⟩,
    ⟨0x5004, 0x4, 1, 0, 1, 7, 0x0,
      [⟨8, 4, .ro, .any, false⟩, ⟨5, 1, .ro, .any, false⟩, ⟨4, 1, .ro, .any, false⟩, ⟨3, 1, .w1c, .any, false⟩, ⟨2, 1, .ro, .any, false⟩, ⟨1, 1, .ro, .any, false⟩, ⟨0, 1, .ro, .any, false⟩]⟩,
    ⟨0x5008, 0x4, 1, 0, 1, 7, 0x0,
      [⟨0, 24, .ro, .any, false⟩]⟩,
    ⟨0x500C, 0x4, 1, 0, 1, 7, 0x0,
      [⟨0, 32, .ro, .any, false⟩]⟩,
    ⟨0x5010, 0x4, 1, 0, 1, 7, 0x0,
      [⟨0, 32, .ro, .any, false⟩]⟩,
    ⟨0x5014, 0x4, 1, 0, 1, 7, 0x0,
      [⟨8, 24, .rw, .any, false⟩]⟩,
    ⟨0x5018, 0x4, 1, 0, 1, 7, 0x0,
      [⟨0, 32, .rw, .any, false⟩]⟩,
    ⟨0x501C, 0x4, 1, 0, 1, 7, 0x0,
      [⟨6, 26, .rw, .any, false⟩]⟩,
    ⟨0x5020, 0x4, 1, 0, 1, 7, 0x0,
      [⟨0, 32, .rw, .any, false⟩]⟩,
    ⟨0x5024, 0x4, 1, 0, 1, 7, 0xf,
      [⟨8, 24, .rw, .any, false⟩, ⟨0, 4, .rw, .range 13 16, false⟩]⟩,
    ⟨0x5028, 0x4, 4, 0, 1, 7, 0x0,
      [⟨0, 32, .wo, .any, false⟩]⟩,
    ⟨0x5038, 0x4, 1, 0, 1, 7, 0x0,
      [⟨2, 1, .w1s, .any, false⟩, ⟨1, 1, .w1s, .any, false⟩, ⟨0, 1, .w1s, .any, false⟩]⟩,
    ⟨0x503C, 0x4, 1, 0, 1, 7, 0x0,
      [⟨24, 8, .ro, .any, false⟩, ⟨0, 18, .ro, .any, false⟩]⟩,
    ⟨0x5040, 0x4, 1, 0, 1, 7, 0x0,
      [⟨0, 17, .ro, .any, false⟩]⟩,
    ⟨0x5044, 0x4, 1, 0, 1, 7, 0x0,
      [⟨4, 28, .rw, .any, false⟩]⟩,
    ⟨0x5048, 0x4, 1, 0, 1, 7, 0x0,
      [⟨0, 32, .rw, .any, false⟩]⟩,
    ⟨0x504C, 0x4, 1, 0, 1, 7, 0x12c04,
      [⟨8, 16, .rw, .range 300 2000, false⟩, ⟨0, 4, .rw, .range 1 8, false⟩]⟩,
    ⟨0x5050, 0x4, 1, 0, 1, 7, 0xa,
      [⟨0, 16, .rw, .range 1 60000, false⟩]⟩,
    ⟨0x5054, 0x4, 1, 0, 1, 7, 0x0,
      [⟨0, 32, .ro, .any, false⟩]⟩,
    ⟨0x5060, 0x4, 1, 0, 1, 7, 0x0,
      [⟨0, 32, .rc, .any, false⟩]⟩,
    ⟨0x5064, 0x4, 1, 0, 1, 7, 0x0,
      [⟨0, 32, .rc, .any, false⟩]⟩,
    ⟨0x5068, 0x4, 1, 0, 1, 7, 0x0,
      [⟨0, 32, .rc, .any, false⟩]⟩,
    ⟨0x506C, 0x4, 1, 0, 1, 7, 0x0,
      [⟨0, 32, .rc, .any, false⟩]⟩,
    ⟨0x5070, 0x4, 1, 0, 1, 7, 0x0,
      [⟨0, 32, .rc, .any, false⟩]⟩ ]

/-- Rows of offsets 0x5800 to 0x5FFF. -/
def rows11 : List RegRow :=
  [ ⟨0x5800, 0x4, 1, 0, 1, 0, 0x0,
      [⟨2, 1, .w1s, .any, false⟩, ⟨1, 1, .w1s, .any, false⟩, ⟨0, 1, .w1s, .any, false⟩]⟩,
    ⟨0x5804, 0x4, 1, 0, 1, 0, 0x1,
      [⟨10, 1, .ro, .any, false⟩, ⟨9, 1, .ro, .any, false⟩, ⟨8, 1, .w1c, .any, false⟩, ⟨7, 1, .ro, .any, false⟩, ⟨6, 1, .ro, .any, false⟩, ⟨5, 1, .ro, .any, false⟩, ⟨4, 1, .w1c, .any, false⟩, ⟨3, 1, .ro, .any, false⟩, ⟨2, 1, .ro, .any, false⟩, ⟨1, 1, .w1c, .any, false⟩, ⟨0, 1, .ro, .any, false⟩]⟩,
    ⟨0x5808, 0x4, 1, 0, 1, 0, 0x0,
      [⟨0, 32, .ro, .any, false⟩]⟩,
    ⟨0x580C, 0x4, 1, 0, 1, 0, 0x0,
      [⟨0, 4, .ro, .any, false⟩]⟩,
    ⟨0x5810, 0x4, 1, 0, 1, 0, 0x0,
      [⟨0, 15, .ro, .any, false⟩]⟩,
    ⟨0x5814, 0x4, 1, 0, 1, 5, 0x0,
      [⟨0, 32, .ro, .any, false⟩]⟩,
    ⟨0x5818, 0x4, 1, 0, 1, 5, 0x0,
      [⟨0, 4, .ro, .any, false⟩]⟩,
    ⟨0x581C, 0x4, 1, 0, 1, 5, 0x0,
      [⟨0, 15, .ro, .any, false⟩]⟩,
    ⟨0x5820, 0x4, 1, 0, 1, 0, 0x6000000,
      [⟨24, 3, .ro, .any, false⟩, ⟨16, 5, .ro, .any, false⟩, ⟨8, 6, .ro, .any, false⟩, ⟨0, 6, .ro, .any, false⟩]⟩,
    ⟨0x5824, 0x4, 1, 0, 1, 0, 0x101,
      [⟨16, 9, .ro, .any, false⟩, ⟨8, 4, .ro, .any, false⟩, ⟨0, 5, .ro, .any, false⟩]⟩,
    ⟨0x5828, 0x4, 1, 0, 1, 0, 0x0,
      [⟨0, 32, .rw, .any, false⟩]⟩,
    ⟨0x582C, 0x4, 1, 0, 1, 0, 0x0,
      [⟨0, 4, .rw, .any, false⟩]⟩,
    ⟨0x5830, 0x4, 1, 0, 1, 0, 0x0,
      [⟨31, 1, .rw, .any, false⟩, ⟨0, 15, .rw, .any, false⟩]⟩,
    ⟨0x5834, 0x4, 1, 0, 1, 0, 0x0,
      [⟨16, 5, .rw, .any, false⟩, ⟨8, 6, .rw, .any, false⟩, ⟨0, 6, .rw, .any, false⟩]⟩,
    ⟨0x5838, 0x4, 1, 0, 1, 0, 0x101,
      [⟨16, 9, .rw, .any, false⟩, ⟨8, 4, .rw, .any, false⟩, ⟨0, 5, .rw, .any, false⟩]⟩,
    ⟨0x583C, 0x4, 1, 0, 1, 0, 0x0,
      [⟨0, 32, .rw, .any, false⟩]⟩,
    ⟨0x5840, 0x4, 1, 0, 1, 0, 0x0,
      [⟨0, 5, .rw, .any, false⟩]⟩,
    ⟨0x5844, 0x4, 1, 0, 1, 0, 0x0,
      [⟨0, 15, .rw, .any, false⟩]⟩,
    ⟨0x5848, 0x4, 1, 0, 1, 0, 0x0,
      [⟨0, 17, .rw, .srange 50000, false⟩]⟩,
    ⟨0x584C, 0x4, 1, 0, 1, 0, 0x0,
      [⟨0, 16, .rw, .any, false⟩]⟩,
    ⟨0x5850, 0x4, 1, 0, 1, 0, 0x0,
      [⟨0, 32, .rw, .any, false⟩]⟩,
    ⟨0x5854, 0x4, 1, 0, 1, 0, 0x0,
      [⟨0, 4, .rw, .any, false⟩]⟩,
    ⟨0x5858, 0x4, 1, 0, 1, 0, 0x0,
      [⟨0, 15, .rw, .any, false⟩]⟩,
    ⟨0x585C, 0x4, 1, 0, 1, 0, 0x0,
      [⟨4, 1, .w1c, .any, false⟩, ⟨3, 1, .w1c, .any, false⟩, ⟨2, 1, .ro, .any, false⟩, ⟨1, 1, .w1s, .any, false⟩, ⟨0, 1, .w1s, .any, false⟩]⟩,
    ⟨0x5860, 0x4, 1, 0, 1, 0, 0x100,
      [⟨25, 1, .rw, .any, false⟩, ⟨24, 1, .rw, .any, false⟩, ⟨0, 24, .rw, .range 1 16777215, false⟩]⟩,
    ⟨0x5864, 0x4, 1, 0, 1, 0, 0x0,
      [⟨0, 1, .w1c, .any, false⟩]⟩,
    ⟨0x5868, 0x4, 1, 0, 1, 0, 0x10010,
      [⟨16, 1, .rw, .any, false⟩, ⟨0, 9, .rw, .range 1 256, false⟩]⟩,
    ⟨0x586C, 0x4, 1, 0, 1, 0, 0x0,
      [⟨0, 16, .rw, .any, false⟩]⟩,
    ⟨0x5870, 0x4, 1, 0, 1, 0, 0x0,
      [⟨0, 16, .ro, .any, false⟩]⟩,
    ⟨0x5874, 0x4, 1, 0, 1, 0, 0x0,
      [⟨0, 18, .ro, .any, false⟩]⟩,
    ⟨0x5880, 0x4, 33, 0, 1, 0, 0x0,
      [⟨0, 16, .rw, .any, false⟩]⟩,
    ⟨0x5904, 0x4, 1, 0, 1, 0, 0x0,
      [⟨0, 1, .rw, .any, false⟩]⟩,
    ⟨0x5908, 0x4, 1, 0, 1, 0, 0x1,
      [⟨4, 1, .w1c, .any, false⟩, ⟨3, 1, .ro, .any, false⟩, ⟨2, 1, .ro, .any, false⟩, ⟨1, 1, .rw, .any, false⟩, ⟨0, 1, .rw, .any, false⟩]⟩,
    ⟨0x5910, 0x4, 1, 0, 1, 0, 0x8,
      [⟨24, 8, .wo, .any, false⟩, ⟨4, 1, .rw, .any, false⟩, ⟨2, 2, .rw, .range 0 2, false⟩, ⟨1, 1, .rw, .any, false⟩, ⟨0, 1, .rw, .any, false⟩]⟩,
    ⟨0x5920, 0x4, 24, 0, 1, 0, 0x0,
      [⟨0, 32, .rw, .any, false⟩]⟩,
    ⟨0x5980, 0x4, 1, 0, 1, 0, 0x0,
      [⟨0, 24, .w1c, .any, false⟩]⟩ ]

/-- Rows of offsets 0x6000 to 0x67FF. -/
def rows12 : List RegRow :=
  [ ⟨0x6000, 0x40, 4, 0, 1, 5, 0x0,
      [⟨0, 1, .w1s, .any, false⟩]⟩,
    ⟨0x6004, 0x40, 4, 0, 1, 5, 0x0,
      [⟨4, 3, .ro, .any, false⟩, ⟨3, 1, .ro, .any, false⟩, ⟨2, 1, .ro, .any, false⟩, ⟨1, 1, .ro, .any, false⟩, ⟨0, 1, .ro, .any, false⟩]⟩,
    ⟨0x6008, 0x40, 4, 0, 1, 5, 0x0,
      [⟨0, 32, .rw, .any, false⟩]⟩,
    ⟨0x600C, 0x40, 4, 0, 1, 5, 0x0,
      [⟨0, 4, .rw, .any, false⟩]⟩,
    ⟨0x6010, 0x40, 4, 0, 1, 5, 0x0,
      [⟨0, 32, .ro, .any, false⟩]⟩,
    ⟨0x6014, 0x40, 4, 0, 1, 5, 0xe0,
      [⟨7, 1, .rw, .any, false⟩, ⟨6, 1, .rw, .any, false⟩, ⟨0, 6, .rw, .range 1 32, false⟩]⟩,
    ⟨0x6018, 0x40, 4, 0, 1, 5, 0x4c11db7,
      [⟨0, 32, .rw, .any, false⟩]⟩,
    ⟨0x601C, 0x40, 4, 0, 1, 5, 0xffffffff,
      [⟨0, 32, .rw, .any, false⟩]⟩,
    ⟨0x6020, 0x40, 4, 0, 1, 5, 0xffffffff,
      [⟨0, 32, .rw, .any, false⟩]⟩,
    ⟨0x6024, 0x40, 4, 0, 1, 5, 0x0,
      [⟨16, 16, .rc, .any, false⟩, ⟨0, 16, .rc, .any, false⟩]⟩,
    ⟨0x6400, 0x4, 1, 0, 1, 5, 0x0,
      [⟨0, 6, .rw, .any, false⟩]⟩,
    ⟨0x6404, 0x4, 1, 0, 1, 5, 0x0,
      [⟨0, 32, .rw, .any, false⟩]⟩,
    ⟨0x6408, 0x4, 1, 0, 1, 5, 0x0,
      [⟨0, 4, .rw, .any, false⟩]⟩,
    ⟨0x640C, 0x4, 1, 0, 1, 5, 0x0,
      [⟨1, 1, .ro, .any, false⟩, ⟨0, 1, .ro, .any, false⟩]⟩,
    ⟨0x6410, 0x4, 1, 0, 1, 5, 0x3f3f,
      [⟨31, 1, .w1s, .any, false⟩, ⟨8, 6, .rw, .any, false⟩, ⟨0, 6, .rw, .any, false⟩]⟩ ]

/-- Rows of offsets 0x6800 to 0x6FFF. -/
def rows13 : List RegRow :=
  [ ⟨0x6800, 0x4, 1, 0, 1, 5, 0x5,
      [⟨2, 1, .rw, .any, false⟩, ⟨1, 1, .rw, .any, false⟩, ⟨0, 1, .rw, .any, false⟩]⟩,
    ⟨0x6804, 0x4, 1, 0, 1, 5, 0x0,
      [⟨8, 5, .ro, .any, false⟩, ⟨3, 1, .ro, .any, false⟩, ⟨2, 1, .ro, .any, false⟩, ⟨1, 1, .ro, .any, false⟩, ⟨0, 1, .ro, .any, false⟩]⟩,
    ⟨0x6808, 0x4, 1, 0, 1, 5, 0x0,
      [⟨0, 14, .ro, .any, false⟩]⟩,
    ⟨0x680C, 0x4, 1, 0, 1, 5, 0x64,
      [⟨0, 16, .rw, .range 20 1000, false⟩]⟩,
    ⟨0x6810, 0x4, 1, 0, 1, 5, 0x1,
      [⟨0, 5, .rw, .range 1 25, false⟩]⟩,
    ⟨0x6814, 0x4, 1, 0, 1, 5, 0x0,
      [⟨0, 32, .rc, .any, false⟩]⟩,
    ⟨0x6818, 0x4, 1, 0, 1, 5, 0x0,
      [⟨0, 32, .rc, .any, false⟩]⟩,
    ⟨0x681C, 0x4, 1, 0, 1, 5, 0x0,
      [⟨0, 32, .ro, .any, false⟩]⟩,
    ⟨0x6820, 0x4, 1, 0, 1, 5, 0x0,
      [⟨16, 16, .rc, .any, false⟩, ⟨0, 5, .ro, .any, false⟩]⟩,
    ⟨0x6824, 0x4, 1, 0, 1, 5, 0x0,
      [⟨8, 8, .ro, .any, false⟩, ⟨0, 8, .ro, .any, false⟩]⟩,
    ⟨0x6840, 0x4, 14, 0, 1, 5, 0x800303e8,
      [⟨31, 1, .rw, .any, false⟩, ⟨16, 4, .rw, .range 1 15, false⟩, ⟨0, 16, .rw, .range 10 60000, false⟩]⟩,
    ⟨0x6880, 0x4, 14, 0, 1, 5, 0x0,
      [⟨0, 32, .rc, .any, false⟩]⟩ ]

/-- Rows of offsets 0x7000 to 0x77FF. -/
def rows14 : List RegRow :=
  [ ⟨0x7000, 0x4, 1, 0, 1, 9, 0x0,
      [⟨4, 1, .rw, .any, false⟩, ⟨3, 1, .rw, .any, true⟩, ⟨0, 2, .rw, .range 0 2, true⟩]⟩,
    ⟨0x7004, 0x4, 1, 0, 1, 9, 0x0,
      [⟨11, 1, .w1c, .any, false⟩, ⟨10, 1, .ro, .any, false⟩, ⟨9, 1, .ro, .any, false⟩, ⟨8, 1, .ro, .any, false⟩, ⟨7, 1, .ro, .any, false⟩, ⟨3, 4, .ro, .any, false⟩, ⟨0, 3, .ro, .any, false⟩]⟩,
    ⟨0x7008, 0x4, 1, 0, 1, 9, 0x0,
      [⟨0, 16, .ro, .any, false⟩]⟩,
    ⟨0x700C, 0x4, 1, 0, 1, 9, 0x10000,
      [⟨31, 1, .w1s, .any, false⟩, ⟨16, 3, .rw, .any, false⟩, ⟨2, 14, .rw, .any, false⟩]⟩,
    ⟨0x7010, 0x4, 1, 0, 1, 9, 0x0,
      [⟨0, 32, .rw, .any, false⟩]⟩,
    ⟨0x7014, 0x4, 1, 0, 1, 9, 0x0,
      [⟨2, 1, .w1c, .any, false⟩, ⟨1, 1, .ro, .any, false⟩, ⟨0, 1, .ro, .any, false⟩]⟩,
    ⟨0x7018, 0x4, 1, 0, 1, 9, 0x0,
      [⟨0, 32, .rc, .any, false⟩]⟩,
    ⟨0x701C, 0x4, 1, 0, 1, 9, 0x0,
      [⟨0, 32, .rc, .any, false⟩]⟩,
    ⟨0x7020, 0x4, 1, 0, 1, 9, 0x0,
      [⟨24, 8, .rc, .any, false⟩, ⟨17, 3, .ro, .any, false⟩, ⟨16, 1, .ro, .any, false⟩, ⟨0, 9, .ro, .any, false⟩]⟩,
    ⟨0x7024, 0x4, 1, 0, 1, 9, 0x0,
      [⟨0, 32, .wo, .any, false⟩]⟩,
    ⟨0x7028, 0x4, 1, 0, 1, 9, 0x0,
      [⟨0, 1, .w1s, .any, false⟩]⟩,
    ⟨0x7040, 0x4, 16, 0, 1, 9, 0x0,
      [⟨0, 32, .ro, .any, false⟩]⟩ ]

/-- Rows of offsets 0xE000 to 0xE7FF. -/
def rows28 : List RegRow :=
  [ ⟨0xE000, 0x10, 32, 0, 1, 9, 0x0,
      [⟨2, 30, .rw, .any, false⟩]⟩,
    ⟨0xE004, 0x10, 32, 0, 1, 9, 0x0,
      [⟨0, 32, .rw, .any, false⟩]⟩,
    ⟨0xE008, 0x10, 32, 0, 1, 9, 0x0,
      [⟨0, 32, .rw, .any, false⟩]⟩,
    ⟨0xE00C, 0x10, 32, 0, 1, 9, 0x1,
      [⟨0, 1, .rw, .any, false⟩]⟩ ]

/-- Rows of offsets 0xE800 to 0xEFFF. -/
def rows29 : List RegRow :=
  [ ⟨0xE800, 0x4, 1, 0, 1, 9, 0x0,
      [⟨0, 32, .ro, .any, false⟩]⟩ ]

/-- Rows of offsets 0xF000 to 0xF7FF. -/
def rows30 : List RegRow :=
  [ ⟨0xF000, 0x4, 1, 0, 1, 1, 0x0,
      [⟨0, 32, .wo, .any, false⟩]⟩,
    ⟨0xF004, 0x4, 1, 0, 1, 1, 0x0,
      [⟨2, 1, .rw, .any, false⟩, ⟨1, 1, .rw, .any, false⟩, ⟨0, 1, .w1s, .any, false⟩]⟩,
    ⟨0xF008, 0x4, 1, 0, 1, 1, 0x0,
      [⟨4, 1, .w1c, .any, false⟩, ⟨2, 2, .ro, .any, false⟩, ⟨1, 1, .w1c, .any, false⟩, ⟨0, 1, .ro, .any, false⟩]⟩,
    ⟨0xF00C, 0x4, 1, 0, 1, 1, 0x0,
      [⟨0, 32, .w1c, .any, false⟩]⟩,
    ⟨0xF010, 0x4, 1, 0, 1, 1, 0x0,
      [⟨0, 32, .rw, .any, false⟩]⟩,
    ⟨0xF014, 0x4, 1, 0, 1, 1, 0x0,
      [⟨16, 1, .ro, .any, false⟩, ⟨0, 9, .ro, .any, false⟩]⟩,
    ⟨0xF018, 0x4, 1, 0, 1, 1, 0x0,
      [⟨0, 32, .wo, .any, false⟩]⟩,
    ⟨0xF040, 0x4, 16, 0, 1, 1, 0x0,
      [⟨0, 32, .rw, .any, false⟩]⟩,
    ⟨0xF080, 0x4, 16, 0, 1, 1, 0x0,
      [⟨0, 32, .ro, .any, false⟩]⟩,
    ⟨0xF0C0, 0x4, 16, 0, 1, 1, 0x0,
      [⟨0, 32, .ro, .any, false⟩]⟩ ]

/-- Rows of offsets 0xF800 to 0xFFFF. -/
def rows31 : List RegRow :=
  [ ⟨0xF800, 0x4, 512, 0, 1, 1, 0x0,
      [⟨0, 32, .rw, .any, false⟩]⟩ ]

/-- Rows of the 2 KiB block that holds an offset. -/
def regRows (off : Nat) : List RegRow :=
  match off / 2048 with
  | 0 => rows00
  | 1 => rows01
  | 2 => rows02
  | 3 => rows03
  | 4 => rows04
  | 5 => rows05
  | 6 => rows06
  | 7 => rows07
  | 8 => rows08
  | 9 => rows09
  | 10 => rows10
  | 11 => rows11
  | 12 => rows12
  | 13 => rows13
  | 14 => rows14
  | 28 => rows28
  | 29 => rows29
  | 30 => rows30
  | 31 => rows31
  | _ => []

/-- Whether a row holds an offset. -/
def RegRow.holds (r : RegRow) (off : Nat) : Bool :=
  if off < r.base then false
  else if r.count2 ≤ 1 then (off - r.base) % r.stride == 0 && (off - r.base) / r.stride < r.count
  else
    let q := (off - r.base) / r.stride
    let m := (off - r.base) % r.stride
    q < r.count && m % r.stride2 == 0 && m / r.stride2 < r.count2

/-- The row of an offset; none: a reserved offset (R450, R10). -/
def regRow (off : Nat) : Option RegRow := (regRows off).find? (fun r => r.holds off)

end Sys2Proof.Machine
end

