-- ==== Sys2Proof/Machine/Regs.lean ====
section
/-!
DEFINITION. Sparse stores and the named operations on registers: reading and writing a register and a field, saturating
counters, the settings taken at an exposure boundary, and the reset of a power domain (R9, R10, R13, R450).
-/

namespace Sys2Proof.Machine

/-- The entry of a store at a key. -/
def storeFind {α : Type} : List (Nat × α) → Nat → Option α
  | [], _ => none
  | (a, x) :: t, k => if a = k then some x else storeFind t k

/-- A store without the entries at a key. -/
def storeErase {α : Type} : List (Nat × α) → Nat → List (Nat × α)
  | [], _ => []
  | (a, x) :: t, k => if a = k then storeErase t k else (a, x) :: storeErase t k

/-- A store with the entry at a key set, keys kept rising. -/
def storeInsert {α : Type} : List (Nat × α) → Nat → α → List (Nat × α)
  | [], k, v => [(k, v)]
  | (a, x) :: t, k, v =>
    if a = k then (k, v) :: t else if k < a then (k, v) :: (a, x) :: t else (a, x) :: storeInsert t k v

/-- What a store reads as at a key: its entry, or the value `d` of an unlisted key. -/
def storeGet {α : Type} (d : α) (m : List (Nat × α)) (k : Nat) : α := (storeFind m k).getD d

/-- A write to a store whose unlisted keys read as `d`: writing that value removes the entry. -/
def storePut {α : Type} [DecidableEq α] (d : α) (m : List (Nat × α)) (k : Nat) (v : α) : List (Nat × α) :=
  if v = d then storeErase m k else storeInsert m k v

/-- Keys strictly rising, all above a bound. -/
def storeRising {α : Type} : Nat → List (Nat × α) → Bool
  | _, [] => true
  | b, (a, _) :: t => decide (b ≤ a) && storeRising (a + 1) t

/-- The canonical form of a store: keys strictly rising, no entry equal to what its key reads as unlisted. -/
def storeWf {α : Type} [DecidableEq α] (d : Nat → α) (m : List (Nat × α)) : Bool :=
  storeRising 0 m && m.all (fun e => decide (e.2 ≠ d e.1))

/-- The canonical store with the same contents, entry by entry. -/
def storeCanon {α : Type} [DecidableEq α] (d : Nat → α) : List (Nat × α) → List (Nat × α)
  | [] => []
  | (a, x) :: t => storePut (d a) (storeCanon d t) a x

/-- The carriers masked after reset, by first and last carrier (R288). -/
def maskedRanges : List (Nat × Nat) :=
  [(69, 81), (105, 109), (140, 146), (202, 203), (280, 287), (361, 364), (420, 429), (497, 500), (560, 594),
   (1000, 1080)]

/-- Reset value of PLC_MASKi: the default mask of R288; bits [31:17] of PLC_MASK52 read 1. -/
def defaultMask (i : Nat) : Nat :=
  (List.range 32).foldl (fun v b =>
    let k := 40 + 32 * i + b
    if 1720 < k || maskedRanges.any (fun r => r.1 ≤ k && k ≤ r.2) then v + 2 ^ b else v) 0

/-- Reset value of a register (R13): that of its row; values set in manufacture are open (log 5), PLC_MASK is R288's. -/
def regReset (off : Nat) : BitVec 32 :=
  if off = GLB_SERIAL_LO then Config.serial.truncate 32
  else if off = GLB_SERIAL_HI then (Config.serial >>> 32).truncate 32
  else if off = NET_EUI_LO then Config.eui.truncate 32
  else if off = NET_EUI_HI then (Config.eui >>> 32).truncate 32
  else if RTC_TC 0 ≤ off ∧ off ≤ RTC_TC 32 then (Config.factoryTc ((off - RTC_TC 0) / 4)).zeroExtend 32
  else if PLC_MASK 0 ≤ off ∧ off ≤ PLC_MASK 52 then BitVec.ofNat 32 (defaultMask ((off - PLC_MASK 0) / 4))
  else match regRow off with
    | some r => BitVec.ofNat 32 r.reset
    | none => 0

/-- The stored value of a register. -/
def State.rd (s : State) (off : Nat) : BitVec 32 :=
  match storeFind s.regs off with
  | some v => v
  | none => regReset off

/-- Stores a register's value. -/
def State.wr (s : State) (off : Nat) (v : BitVec 32) : State :=
  { s with regs := storePut (regReset off) s.regs off v }

/-- The bits of a field in a register's value. -/
def fieldOf (v : BitVec 32) (f : Fld) : Nat := v.toNat / 2 ^ f.lsb % 2 ^ f.width

/-- A register's value with the bits of a field replaced. -/
def withField (v : BitVec 32) (f : Fld) (x : Nat) : BitVec 32 :=
  BitVec.ofNat 32 (v.toNat - fieldOf v f * 2 ^ f.lsb + x % 2 ^ f.width * 2 ^ f.lsb)

/-- The value of a field (R4). -/
def State.get (s : State) (f : Fld) : Nat := fieldOf (s.rd f.off) f

/-- Sets a field. -/
def State.put (s : State) (f : Fld) (x : Nat) : State := s.wr f.off (withField (s.rd f.off) f x)

/-- Whether a one-bit field is 1. -/
def State.flag (s : State) (f : Fld) : Bool := s.get f != 0

/-- Sets a one-bit field. -/
def State.setFlag (s : State) (f : Fld) (b : Bool) : State := s.put f b.toNat

/-- Two's complement value of the low `w` bits of a number. -/
def signedOf (w n : Nat) : Int := if n < 2 ^ (w - 1) then (n : Int) else (n : Int) - 2 ^ w

/-- The low `w` bits of an integer in two's complement. -/
def unsignedOf (w : Nat) (x : Int) : Nat := (x % (2 ^ w : Int)).toNat

/-- The value of a signed field. -/
def State.getI (s : State) (f : Fld) : Int := signedOf f.width (s.get f)

/-- Sets a signed field. -/
def State.putI (s : State) (f : Fld) (x : Int) : State := s.put f (unsignedOf f.width x)

/-- Adds to a counter, which saturates at its maximum. -/
def State.bump (s : State) (f : Fld) (n : Nat) : State := s.put f (min (s.get f + n) (2 ^ f.width - 1))

/-- A field as it stood at the last exposure boundary (settings that take effect there). -/
def State.effGet (s : State) (f : Fld) : Nat :=
  fieldOf ((storeFind s.exp.eff f.off).getD (regReset f.off)) f

/-- The same from a saved copy of the settings. -/
def effOf (eff : List (Nat × BitVec 32)) (f : Fld) : Nat := fieldOf ((storeFind eff f.off).getD (regReset f.off)) f

/-- A quantity of several registers, least significant word at the lowest offset (R12). -/
def State.wide (s : State) : List Nat → Nat
  | [] => 0
  | o :: t => (s.rd o).toNat + 2 ^ 32 * s.wide t

/-- Stores a quantity in several registers, least significant word at the lowest offset (R12). -/
def State.putWide (s : State) : List Nat → Nat → State
  | [], _ => s
  | o :: t, n => (s.wr o (BitVec.ofNat 32 n)).putWide t (n / 2 ^ 32)

/-- Power domain of an offset (R450). -/
def regDomain (off : Nat) : Nat :=
  match regRow off with
  | some r => r.domain
  | none => 1

/-- A power domain is on and out of reset; PD0 always is (R70, R383). -/
def State.pdOn (s : State) (d : Nat) : Bool := d == 0 || s.get PWR_STAT_PDON / 2 ^ d % 2 == 1

/-- Switches a domain's bit of PWR_STAT.PDON. -/
def State.setPd (s : State) (d : Nat) (on : Bool) : State :=
  let p := s.get PWR_STAT_PDON
  let q := p - p / 2 ^ d % 2 * 2 ^ d
  s.put PWR_STAT_PDON (if on then q + 2 ^ d else q)

/-- Resets the registers of the domains a test names (R13). -/
def State.resetRegs (s : State) (p : Nat → Bool) : State :=
  { s with regs := s.regs.filter (fun e => !p (regDomain e.1)) }

/-- Applies a state change for each number below a bound, in ascending order. -/
def State.each (n : Nat) (f : Nat → State → State) (s : State) : State := (List.range n).foldl (fun s i => f i s) s

/-- Bit `i` of a number. -/
def bitAt (n i : Nat) : Bool := n / 2 ^ i % 2 == 1

/-- The numbers below `n` whose bit is set in a mask. -/
def bitsOf (n mask : Nat) : List Nat := (List.range n).filter (bitAt mask)

/-- An element of a list with position `i` changed. -/
def modifyAt {α : Type} (l : List α) (i : Nat) (f : α → α) : List α := l.modify i f

/-- Value of an association list; `d` when absent. -/
def assocGet {α : Type} (d : α) (l : List (Nat × α)) (k : Nat) : α :=
  match l.find? (fun e => e.1 == k) with
  | some e => e.2
  | none => d

/-- An association list with a key's value set. -/
def assocPut {α : Type} (l : List (Nat × α)) (k : Nat) (v : α) : List (Nat × α) := storeInsert l k v

/-- An association list without a key. -/
def assocDel {α : Type} (l : List (Nat × α)) (k : Nat) : List (Nat × α) := l.filter (fun e => e.1 != k)

end Sys2Proof.Machine
end

