-- ==== Sys2Proof/Machine/Ops.lean ====
section
/-!
DEFINITION. The operations every block shares: the timestamp, events, interrupts, writes to host memory, device rings,
command taking and completion, and `finish`, which ends every command.
-/

namespace Sys2Proof.Machine

/-! Time (R17 to R19, R37 to R39) -/

/-- HFREF cycles in a number of microseconds, rounded up. -/
def usCycles (us : Nat) : Nat := (us * 16384 + 999) / 1000

/-- HFREF cycles in a number of milliseconds. -/
def msCycles (ms : Nat) : Nat := ms * 16384

/-- Time reaches an instant, in HFREF cycles: a command that belongs to a later one moves to it (log 3). -/
def State.reach (s : State) (t : Nat) : State := { s with exp := { s.exp with now := max s.exp.now t } }

/-- HFREF runs (R17). -/
def State.hfOn (s : State) : Bool := s.flag PWR_STAT_HFOK

/-- The order of timestamps: bits [59:0] (R19). -/
def tsKey (t : BitVec 64) : Nat := t.toNat % 2 ^ 60

/-- The timestamp of a second count and fraction with its flags (R18). -/
def mkTs (coarse untrusted : Bool) (key : Nat) : BitVec 64 :=
  BitVec.ofNat 64 (key % 2 ^ 60 + untrusted.toNat * 2 ^ 60 + coarse.toNat * 2 ^ 61)

/-- Time of the real-time clock in units of 2^-24 s (R17). -/
def State.rtcKey (s : State) : Nat :=
  let c := min (s.exp.now - s.exp.edgeAt) 499
  s.rtc.sec * 2 ^ 24 + s.rtc.tick * 512 + (if s.hfOn then c * 512 / 500 else 0)

/-- The time `d` HFREF cycles after a timestamp, or before it where `d` is negative: ticks of 500 cycles, and cycles in them as R17
counts them (log 92). -/
def keyShift (key : Nat) (d : Int) : Nat :=
  let c := ((key / 512 * 500 + (key % 512 * 500 + 511) / 512 : Nat) + d).toNat
  c / 500 * 512 + c % 500 * 512 / 500

/-- The timestamp of this instant (R17, R18); a slave that has the master's time uses it (R42, R439). -/
def State.ts (s : State) : BitVec 64 :=
  match s.tzl.masterTs with
  | some (m, at_) =>
    mkTs (bitAt m.toNat 61) (bitAt m.toNat 60) (keyShift (tsKey m) ((s.exp.now - at_ : Nat) : Int))
  | none => mkTs (!s.hfOn) (s.flag RTC_STAT_OSF) s.rtcKey

/-- The clock has passed a deadline by more than 4 µs (R39): by at least 68 units of 2^-24 s. -/
def State.passed (s : State) (deadline : BitVec 64) : Bool := tsKey deadline + 68 ≤ tsKey s.ts

/-- A completion now would not have arrived (R38). -/
def State.lateFor (s : State) (deadline : BitVec 64) : Bool := tsKey deadline < tsKey s.ts

/-! Events (R219 to R221, R471) -/

/-- Codes marked T in the tables of events: sources a TRIP slot may select (R221, R228). -/
def tripCodes : List Nat :=
  [0x0101, 0x0201, 0x0202, 0x0301, 0x0302, 0x0303, 0x0304, 0x0305, 0x0601, 0x0A04]

/-- Codes marked C: events that may trigger a contact sheet (R221, R280). -/
def sheetCodes : List Nat := [0x0101, 0x0201, 0x0202, 0x0301, 0x0302, 0x0303, 0x0305]

/-- Follows the active state of trip sources (R221, R228): between start and end, or 10 ms for a momentary event.  A
stream loss acts only when the exposure of its declaration is resolved. -/
def State.trackSource (s : State) (code index : Nat) (edge : EvEdge) : State :=
  let key := (BitVec.ofNat 16 code, BitVec.ofNat 8 index)
  if !tripCodes.contains code then s
  else match edge with
    | .start =>
      if code = 0x0101 then s
      else { s with evt := { s.evt with active := (s.evt.active.filter (· ≠ key)) ++ [key] } }
    | .stop => { s with evt := { s.evt with active := s.evt.active.filter (· ≠ key) } }
    | .momentary =>
      let rest := s.evt.pulses.filter (fun p => !(p.1 == key.1 && p.2.1 == key.2))
      { s with evt := { s.evt with pulses := rest ++ [(key.1, key.2, s.exp.now + 163840)] } }

/-- Decides an event with its occurrence timestamp and EXPNO.  PD5 decides events; while it is off none is logged. -/
def State.eventX (s : State) (expno : BitVec 72) (ts : BitVec 64) (code index : Nat) (edge : EvEdge)
    (p0 p1 p2 : Nat) : State :=
  if s.pdOn 5 then
    let e : Event :=
      { code := BitVec.ofNat 16 code, index := BitVec.ofNat 8 index, edge := edge, seq := 0, expno := expno, ts := ts,
        p0 := BitVec.ofNat 64 p0, p1 := BitVec.ofNat 64 p1, p2 := BitVec.ofNat 64 p2 }
    let s := { s with evt := { s.evt with now := s.evt.now ++ [e] } }
    s.trackSource code index edge
  else s

/-- Decides an event with its occurrence timestamp. -/
def State.eventT (s : State) (ts : BitVec 64) (code index : Nat) (edge : EvEdge) (p0 p1 p2 : Nat) : State :=
  s.eventX s.evt.newest ts code index edge p0 p1 p2

/-- Decides an event that occurs at this instant. -/
def State.event (s : State) (code index : Nat) (edge : EvEdge) (p0 p1 p2 : Nat) : State :=
  s.eventT s.ts code index edge p0 p1 p2

/-- The order in which events of one instant are written: CODE, then INDEX (R220). -/
def Event.before (a b : Event) : Bool :=
  a.code.toNat < b.code.toNat || (a.code == b.code && a.index.toNat ≤ b.index.toNat)

/-- Inserts an event behind those that precede it or were decided earlier. -/
def insertEvent (e : Event) : List Event → List Event
  | [] => [e]
  | x :: t => if x.before e then x :: insertEvent e t else e :: x :: t

/-- Events of one instant in the order of R220; a start and its end are never reordered. -/
def sortEvents (l : List Event) : List Event := l.foldl (fun acc e => insertEvent e acc) []

/-- Gives events their sequence numbers (R219: +1 per decided event, dropped events included). -/
def numberEvents (n : BitVec 64) : List Event → List Event
  | [] => []
  | e :: t => { e with seq := n } :: numberEvents (n + 1) t

/-- At most this many events wait on chip (R219). -/
def eventRoom : Nat := 256

/-- The enabled trigger slot that selects an event at its start or as a momentary event (R280). -/
def State.sheetSlot (s : State) (e : Event) : Option Nat :=
  (List.range 4).find? (fun k =>
    s.pdOn 6 && decide (e.edge ≠ .stop) && s.flag (FCV_CSTRG_SEN k) && s.get (FCV_CSTRG_CODE k) == e.code.toNat &&
      (s.flag (FCV_CSTRG_ANYIDX k) || s.get (FCV_CSTRG_INDEX k) == e.index.toNat))

/-- The newest queued events that were decided at this instant, too: they take their place among those decided now (R220). -/
def State.sameInstant (s : State) : List Event :=
  let held := if s.exp.now = s.evt.lastAt ∧ s.evt.now ≠ [] then s.evt.last.filter (fun e => s.evt.queue.contains e) else []
  if held.head?.map Event.seq = some (s.evt.seq - BitVec.ofNat 64 held.length) then held else []

/-- Queues the events decided in this command: those beyond 256 are dropped and counted, and the next record written
carries DROPPED (R219, R220).  A cascade slave keeps them for its next resolution frame (R440). -/
def State.queueEvents (s : State) : State :=
  let held := s.sameInstant
  let sorted := sortEvents (held ++ s.evt.now)
  let fresh := numberEvents (s.evt.seq - BitVec.ofNat 64 held.length) sorted
  let pairs := sorted.zip fresh
  let renum (q : BitVec 64) : BitVec 64 := ((pairs.find? (fun (p : Event × Event) => held.contains p.1 && p.1.seq == q)).map (·.2.seq)).getD q
  let new := (pairs.filter (fun p => !held.contains p.1)).map (·.2)
  let all := s.evt.queue.take (s.evt.queue.length - held.length) ++ fresh
  let trig : List TrigPend := new.filterMap (fun (e : Event) => (s.sheetSlot e).map (fun k =>
    { slot := k, code := e.code, index := e.index, evseq := e.seq }))
  let old := s.fcv.trig.map (fun (t : CsTrig) => if t.source = 0 then { t with evseq := renum t.evseq } else t)
  let s := { s with fcv := { s.fcv with trigQ := trig, trig := old } }
  let slave := s.tzl.mode == 1 && s.get TZL_STAT_POS != 0 && s.flag TZL_STAT_UPTRN && !s.flag TZL_STAT_ISLAND
  let s := if slave then
      { s with tzl := { s.tzl with fwd := s.tzl.fwd.map (fun (e : Event) => { e with seq := renum e.seq }) ++ new } }
    else s
  let lost := all.length - eventRoom
  let s := { s with evt := { s.evt with now := [], queue := all.take eventRoom,
                                         last := if s.evt.now = [] then s.evt.last else fresh,
                                         lastAt := if s.evt.now = [] then s.evt.lastAt else s.exp.now,
                                         seq := s.evt.seq + BitVec.ofNat 64 s.evt.now.length,
                                         dropPend := s.evt.dropPend || lost != 0 } }
  if lost = 0 then s else s.bump EVT_DROPCNT_DROPCNT lost

/-! Owner of the fast converter, and triggers of a contact sheet (R269, R280) -/

/-- Changes the fast-converter state. -/
def State.modFcv (s : State) (f : FcvState → FcvState) : State := { s with fcv := f s.fcv }

/-- The owner of the converter, as FCV_STAT.OWNER names it (R269). -/
def State.fcvOwner (s : State) : Nat :=
  let f := s.fcv
  if f.cal.isSome then 0
  else if f.reception then 1
  else if f.run.any SeqRun.started then 3
  else if f.urgent then 5
  else if f.cs = .post then 2
  else if f.cs = .armed then 4
  else 7

/-- FCV_STAT follows the converter's state; CAPT from the first sampling edge of the post-trigger part on. -/
def State.fcvShow (s : State) : State :=
  let capt := s.fcv.cs == .post && (s.fcvOwner == 2 || s.fcv.post != [])
  let s := (s.put FCV_STAT_OWNER s.fcvOwner).setFlag FCV_STAT_CALRUN s.fcv.cal.isSome
  ((s.setFlag FCV_STAT_ARMED (decide (s.fcv.cs = .armed))).setFlag FCV_STAT_CAPT capt).setFlag FCV_STAT_HELD
    (decide (s.fcv.cs = .held))

/-- A trigger occurs (R280): it ends the armed state and starts a capture, or is missed (R281).  `at_` is its FCLK time. -/
def State.sheetTrigger (s : State) (slot source : Nat) (code : BitVec 16) (index : BitVec 8) (evseq : BitVec 64)
    (at_ : Nat) : State :=
  match s.fcv.cs with
  | .off => s
  | .armed =>
    let t : CsTrig :=
      { seq := s.fcv.csSeq, expno := s.evt.newest, ts := s.ts, code := code, index := index, source := BitVec.ofNat 2 source,
        evseq := evseq, delayed := decide (s.fcvOwner = 1 ∨ s.fcvOwner = 3), at_ := at_, pre := s.get FCV_CSPRE_PRE }
    (s.modFcv (fun f => { f with cs := .post, trig := some t, csSeq := f.csSeq + 1, post := [], muxLeft := 0, ovrLeft := 0 })).fcvShow
  | _ => (s.bump FCV_CSMISS_CSMISS 1).event 0x0702 slot .momentary code.toNat index.toNat 0

/-- The events a command decided trigger at their decision, each in its turn (R280, R281). -/
def State.sheetNow (s : State) : State :=
  s.fcv.trigQ.foldl (fun s x => s.sheetTrigger x.slot 0 x.code x.index x.evseq (25 * s.exp.now))
    (s.modFcv (fun f => { f with trigQ := [] }))

/-! Interrupts (R390, R454) -/

/-- Appends a write to host memory or a message (R389). -/
def State.emit (s : State) (w : HostWrite) : State := { s with hif := { s.hif with out := s.hif.out ++ [w] } }

/-- DMA and MSI-X messages may be issued (R381). -/
def State.dmaOn (s : State) : Bool :=
  s.pdOn 9 && s.flag HIF_STAT_LINKUP && s.flag HIF_STAT_BME && s.get HIF_STAT_DSTATE == 0 && !s.hif.dmaStopped

/-- Signals a vector: an MSI-X message, or the pending bit of a masked vector, and the bit of MBX_IRQPEND (R390). -/
def State.signal (s : State) (v : Nat) : State :=
  let s := s.wr MBX_IRQPEND (s.rd MBX_IRQPEND ||| BitVec.ofNat 32 (2 ^ v))
  if !s.dmaOn then s
  else if s.flag (MSIX_CTL_MASK v) then s.wr MSIX_PBA (s.rd MSIX_PBA ||| BitVec.ofNat 32 (2 ^ v))
  else s.emit (.msix (BitVec.ofNat 5 v))

/-- Row and flag bits by which a register takes part in GLB_IRQSUM (R454). -/
def irqFlags (off : Nat) : Option (Nat × Nat) :=
  if off = PWR_MON then some (0, 0x1FF)
  else if off = PWR_BANK then some (0, 0xFFF)
  else if off = MFE_STAT then some (1, 1)
  else if MFE_LOSS 0 ≤ off ∧ off ≤ MFE_LOSS 2 then some (1, 0xFFFFFFFF)
  else if MFE_OVR 0 ≤ off ∧ off ≤ MFE_OVR 2 then some (1, 0xFFFFFFFF)
  else if MFE_BRKST 0 ≤ off ∧ off ≤ MFE_BRKST 47 ∧ (off - MFE_BRKST 0) % 0x20 = 0 then some (1, 2)
  else if off = PAIR_STAT then some (2, 0x7C)
  else if MET_STAT 0 ≤ off ∧ off ≤ MET_STAT 31 ∧ (off - MET_STAT 0) % 0x40 = 0 then some (3, 0x44)
  else if PIO_TRSTAT 0 ≤ off ∧ off ≤ PIO_TRSTAT 7 ∧ (off - PIO_TRSTAT 0) % 0x20 = 0 then some (4, 8)
  else if PIO_PINSTAT 0 ≤ off ∧ off ≤ PIO_PINSTAT 15 ∧ (off - PIO_PINSTAT 0) % 0x20 = 0 then some (4, 0x18)
  else if off = LDG_STAT then some (5, 0x20)
  else if off = LDG_FSTAT then some (5, 0xC)
  else if off = PLC_STAT then some (6, 0x30)
  else if off = NET_STAT then some (7, 8)
  else if off = RTC_STAT then some (8, 0x112)
  else if off = RTC_ALMCTL then some (8, 0x18)
  else if off = RTC_PERSTAT then some (8, 1)
  else if off = RTC_PWRCTL then some (8, 0x10)
  else if off = RTC_RAMERR then some (8, 0xFFFFFF)
  else if HIF_RSTAT 0 ≤ off ∧ off ≤ HIF_RSTAT 15 ∧ (off - HIF_RSTAT 0) % 0x40 = 0 then some (9, 2)
  else if off = HIF_STAT then some (9, 0xC)
  else if off = TZL_STAT then some (10, 0x800)
  else if off = TZL_RSTAT then some (10, 4)
  else if off = SAF_STAT then some (11, 2)
  else if off = SAF_LASTING then some (11, 0x3FFF)
  else if off = MBX_STAT then some (12, 0x10)
  else none

/-- GLB_IRQSUM: the rows with a flag at 1 (R454).  HIF_STAT.CPLLOST is the one flag that is 1 after reset. -/
def State.irqSum (s : State) : Nat :=
  let base := if s.pdOn 9 ∧ (s.get HIF_STAT_CPLLOST = 1) then 2 ^ 9 else 0
  s.regs.foldl (fun acc e =>
    match irqFlags e.1 with
    | some (k, m) => if (e.2.toNat &&& m) != 0 then acc ||| 2 ^ k else acc
    | none => acc) base

/-- GLB_IRQSUM AND GLB_IRQEN. -/
def State.irqLive (s : State) : Nat := s.irqSum &&& s.get GLB_IRQEN_EN

/-- Signals GVEC for the bits of GLB_IRQSUM AND GLB_IRQEN that rose (R390, R454). -/
def State.signalRise (s : State) (before : Nat) : State :=
  let rose := s.irqLive - (s.irqLive &&& before)
  if rose = 0 then s
  else if s.flag HIF_CTL_GVEN then s.signal (s.get HIF_CTL_GVEC) else s

/-- Whether IRQ_N is driven low (R410). -/
def State.irqN (s : State) : Bool :=
  (s.rd MBX_IRQPEND &&& s.rd MBX_IRQEN) != 0
  || (s.flag MBX_STAT_DONE && s.flag MBX_CTL_IRQEN)
  || (!s.flag (HIF_RSTAT_RUN 2) && !s.evt.queue.isEmpty && s.flag MBX_CTL_EVIRQ)

/-! Trip outputs (R228 to R232) -/

/-- The device is in the safe state. -/
def State.inSafe (s : State) : Bool := s.flag SAF_STAT_SAFE

/-- The device is the standby of a mirrored pair (R444). -/
def State.mirStandby (s : State) : Bool := s.tzl.mode == 2 && !s.flag TZL_STAT_ACTIVE

/-- CF and TRIP balls stay released: the safe state, or the standby of a mirrored pair (R232, R446). -/
def State.outputsOff (s : State) : Bool := s.inSafe || s.mirStandby

/-- Changes the state of a TRIP output. -/
def State.modTrip (s : State) (n : Nat) (f : TripState → TripState) : State :=
  { s with pio := { s.pio with trip := s.pio.trip.modify n f } }

/-- State of a TRIP output. -/
def State.trip (s : State) (n : Nat) : TripState := s.pio.trip.getD n TripState.reset

/-- Drives a TRIP ball low, or releases it. -/
def State.tripBall (s : State) (n : Nat) (low : Bool) : State :=
  if s.flag (PIO_TRSTAT_DRIVE n) = low then s
  else (s.setFlag (PIO_TRSTAT_DRIVE n) low).modTrip n (fun t => { t with changedAt := s.exp.now })

/-- Whether an event source is picked up or active, or a momentary one within its 10 ms (R228). -/
def State.sourceActive (s : State) (code index : Nat) (any : Bool) : Bool :=
  s.evt.active.any (fun k => k.1.toNat == code && (any || k.2.toNat == index)) ||
  s.evt.pulses.any (fun k => k.1.toNat == code && (any || k.2.1.toNat == index))

/-- Source slots of an output that are active, one bit each (R228). -/
def State.tripSources (s : State) (n : Nat) : Nat :=
  (List.range 4).foldl (fun m i =>
    if s.flag (PIO_TRSRC_SEN n i) ∧
        s.sourceActive (s.get (PIO_TRSRC_CODE n i)) (s.get (PIO_TRSRC_INDEX n i)) (s.flag (PIO_TRSRC_ANYIDX n i))
    then m + 2 ^ i else m) 0

/-- The tripped condition of an output follows its sources, host bit, minimum time and latch (R228, R230). -/
def State.tripState (s : State) (n : Nat) : State :=
  if !s.flag (PIO_TRCFG_EN n) then s
  else
    let host := bitAt (s.get PIO_TRHOST_HOST) n
    let src := s.tripSources n
    let t := s.trip n
    if host || src != 0 then
      let s := (s.modTrip n (fun t => { t with acked := false })).setFlag (PIO_TRSTAT_LATCHED n) false
      if t.tripped then s
      else
        let until_ := s.exp.now + s.get (PIO_TRCFG_MINTRIP n) * 163840
        let s := s.modTrip n (fun t => { t with tripped := true, minUntil := some until_ })
        ((s.setFlag (PIO_TRSTAT_TRIPPED n) true).bump (PIO_TRCNT_TRCNT n) 1).event 0x0A03 n .start
          (host.toNat + 2 * src) 0 0
    else if !t.tripped then s
    else if (match t.minUntil with | some u => decide (s.exp.now < u) | none => false) then s
    else if s.flag (PIO_TRCFG_LATCH n) && !t.acked then s.setFlag (PIO_TRSTAT_LATCHED n) true
    else
      let s := s.modTrip n (fun t => { t with tripped := false, acked := false, minUntil := none })
      ((s.setFlag (PIO_TRSTAT_TRIPPED n) false).setFlag (PIO_TRSTAT_LATCHED n) false).event 0x0A03 n .stop 0 0 0

/-- The ball takes its level (R229); in the safe state it stays released (R232). -/
def State.tripDrive (s : State) (n : Nat) : State :=
  if !s.flag (PIO_TRCFG_EN n) then s.tripBall n false
  else if s.outputsOff then s
  else
    let s := s.modTrip n (fun t => { t with driven := true })
    s.tripBall n ((s.trip n).tripped != s.flag (PIO_TRCFG_MODE n))

/-- An output's sources are evaluated; a ball that has had its first drive follows (R229). -/
def State.tripFollow (s : State) (n : Nat) : State :=
  let s := s.tripState n
  if (s.trip n).driven then s.tripDrive n else s

/-- A decision of a trip source changes the tripped condition (R228, R230); a decision of R218 moves the balls at once, any other one
at the next evaluation (R229). -/
def State.tripNow (s : State) : State :=
  if s.evt.now.any (fun e => e.code == 0x0201 || e.code == 0x0202) then State.each 8 (fun n s => s.tripFollow n) s
  else if s.evt.now.any (fun e => tripCodes.contains e.code.toNat) then State.each 8 (fun n s => s.tripState n) s
  else s

/-- What ends every command: the events it decided act on the trip outputs, are queued and trigger a contact sheet, a rise of the interrupt summary over
the value `before` is signalled, and the register and FRAM stores take their canonical form. -/
def State.settle (s : State) (before : Nat) : State :=
  let t := s.tripNow.queueEvents.sheetNow.queueEvents.signalRise before
  { t with regs := storeCanon regReset t.regs,
           prf := { t.prf with fram := storeCanon (fun _ => (0 : BitVec 8)) t.prf.fram } }

/-- A command's effect, and what ends it. -/
def finish (f : State → State) (s : State) : Host.Outcome State Fault Refusal := .next ((f s).settle s.irqLive)

/-! DMA faults (R382) -/

/-- Number of a DMA-fault cause (R412). -/
def dmaCauseCode : DmaCause → Nat
  | .unsupported => 0
  | .completerAbort => 1
  | .poisoned => 2
  | .timeout => 3

/-- A DMA read of host memory ended in a fault (R382): flag, counter and event; `idx` is the INDEX of R412. -/
def State.dmaFault (s : State) (idx : Nat) (c : DmaCause) (addr : BitVec 64) : State :=
  ((s.setFlag HIF_STAT_DMAERR true).bump HIF_DMAERR_DMAERR 1).event 0x0B01 idx .momentary (dmaCauseCode c) addr.toNat 0

/-! Rings (R384 to R390, R397, R398) -/

/-- Auxiliary state of a ring. -/
def State.ring (s : State) (r : Nat) : RingAux := s.hif.rings.getD r RingAux.reset

/-- Changes a ring's auxiliary state. -/
def State.modRing (s : State) (r : Nat) (f : RingAux → RingAux) : State :=
  { s with hif := { s.hif with rings := s.hif.rings.modify r f } }

/-- A ring runs. -/
def State.ringRun (s : State) (r : Nat) : Bool := s.flag (HIF_RSTAT_RUN r)

/-- C and P of a ring (R385). -/
def State.ringC (s : State) (r : Nat) : BitVec 32 := s.rd (HIF_RCIDX r)
def State.ringP (s : State) (r : Nat) : BitVec 32 := s.rd (HIF_RPIDX r)

/-- Descriptors of a ring that the device owns: C to P - 1 (R385). -/
def State.ringOwned (s : State) (r : Nat) : Nat := (s.ringP r - s.ringC r).toNat

/-- Address of a ring's descriptor (R385). -/
def State.descAddr (s : State) (r : Nat) (i : BitVec 32) : BitVec 64 :=
  BitVec.ofNat 64 (s.wide [HIF_RBASE_LO r, HIF_RBASE_HI r] + 64 * (i.toNat % 2 ^ s.get (HIF_RCFG_LOG2SIZE r)))

/-- Address of a field of the status page (R388). -/
def State.statusAddr (s : State) (off : Nat) : BitVec 64 :=
  BitVec.ofNat 64 (s.wide [HIF_STBASE_LO, HIF_STBASE_HI] + off)

/-- Writes to host memory, while DMA is possible (R381). -/
def State.hostWrite (s : State) (w : HostWrite) : State := if s.dmaOn then s.emit w else s

/-- Writes RSTAT and then CIDX of a ring into the status page (R388). -/
def State.statusRing (s : State) (r : Nat) : State :=
  let st := s.get (HIF_RSTAT_RUN r) + 2 * s.get (HIF_RSTAT_RERR r) + 2 ^ 16 * (s.ring r).dropCnt.toNat
  (s.hostWrite (.word (s.statusAddr (0x40 * r + 4)) (BitVec.ofNat 32 st))).hostWrite
    (.word (s.statusAddr (0x40 * r)) (s.ringC r))

/-- Counts returned descriptors and signals the ring's vector by R390's conditions. -/
def State.moderate (s : State) (r n : Nat) : State :=
  if s.flag (HIF_RCFG_IEN r) then
    let cnt := (s.ring r).irqCount + n
    let modcnt := s.get (HIF_RCFG_MODCNT r)
    let modtime := s.get (HIF_RMOD_MODTIME r)
    if (modcnt != 0 && decide (modcnt ≤ cnt)) || (modcnt == 0 && modtime == 0) then
      (s.modRing r (fun a => { a with irqCount := 0, irqSince := none })).signal (s.get (HIF_RCFG_VEC r))
    else
      s.modRing r (fun a => { a with irqCount := cnt, irqSince := some (a.irqSince.getD s.exp.now) })
  else s

/-- Advances C of a ring by `n`, with the status page and the message after it (R385, R389, R390). -/
def State.returnDescs (s : State) (r n : Nat) : State :=
  ((s.wr (HIF_RCIDX r) (s.ringC r + BitVec.ofNat 32 n)).statusRing r).moderate r n

/-- The 16-byte slot of an exposure number as two 64-bit slots (R15). -/
def slot128 (n : Nat) : List (BitVec 64) := [BitVec.ofNat 64 n, BitVec.ofNat 64 (n / 2 ^ 64)]

/-- A signed value of up to 64 bits in its slot (R15). -/
def slotI (x : Int) : BitVec 64 := BitVec.ofInt 64 x

/-- A record dropped for want of a descriptor: counted, and the next writeback carries DROPPED (R397, R388). -/
def State.dropRecord (s : State) (r : Nat) : State :=
  (s.modRing r (fun a => { a with dropped := true, dropCnt := a.dropCnt + 1 })).bump (HIF_RDROP_DROP r) 1

/-- The writeback of a buffer descriptor from offset 0x10 on (R397). -/
def writeback (written wstat kind : Nat) (dropped : Bool) (expno : BitVec 72) (ts : BitVec 64) : List (BitVec 64) :=
  BitVec.ofNat 64 (written + wstat * 2 ^ 32 + kind * 2 ^ 40 + dropped.toNat * 2 ^ 48)
    :: slot128 expno.toNat ++ [ts, 0, 0]

/-- Returns the next buffer descriptor of a device ring with its writeback (R397). -/
def State.returnBuf (s : State) (r written wstat kind : Nat) (expno : BitVec 72) (ts : BitVec 64) : State :=
  let wb := writeback written wstat kind (s.ring r).dropped expno ts
  let s := s.hostWrite (.mem (s.descAddr r (s.ringC r) + 0x10) wb)
  let s := s.modRing r (fun a => { a with posted := a.posted.tail, dropped := false })
  s.returnDescs r 1

/-- Returns buffers that are smaller than a record SHORT, untouched, until one fits (R398).  Answers whether one fits. -/
def State.skipShort (s : State) (r need kind : Nat) (expno : BitVec 72) (ts : BitVec 64) : Nat → State × Bool
  | 0 => (s, false)
  | fuel + 1 =>
    if !s.ringRun r || !s.dmaOn then (s, false)
    else match (s.ring r).posted with
      | [] => (s, false)
      | b :: _ =>
        if b.size.toNat < need then
          ((s.returnBuf r 0 1 kind expno ts).bump (HIF_RSTAT_SHORT r) 1).skipShort r need kind expno ts fuel
        else (s, true)

/-- Writes one record into the next buffer of a device ring that holds it (R397, R398): the index used, or none while
no descriptor is free. -/
def State.deliver (s : State) (r size kind : Nat) (data : List (BitVec 64)) (expno : BitVec 72) (ts : BitVec 64) :
    State × Option (BitVec 32) :=
  let (s, ok) := s.skipShort r size kind expno ts ((s.ring r).posted.length + 1)
  if ok then
    match (s.ring r).posted with
    | b :: _ =>
      let i := s.ringC r
      ((s.hostWrite (.mem b.addr data)).returnBuf r (8 * data.length) 0 kind expno ts, some i)
    | [] => (s, none)
  else (s, none)

/-! Commands (R391 to R396, R405, R408) -/

/-- Status codes (R394). -/
def stDone : Nat := 0
def stRefused : Nat := 1
def stBadarg : Nat := 2
def stDeadline : Nat := 3
def stAborted : Nat := 4
def stFault : Nat := 5

/-- Whether a command's deadline is judged after its taking, by its opcode (Deadline column of R396). -/
def judgedLater (op : BitVec 8) : Bool :=
  [0x01, 0x02, 0x10, 0x11, 0x12, 0x13, 0x20, 0x21, 0x22, 0x23, 0x30, 0x31, 0x32, 0x41, 0x50].contains op.toNat

/-- The 16 words of a completion descriptor (R393). -/
def Completion.slots (c : Completion) : List (BitVec 64) :=
  [BitVec.ofNat 64 (c.op.toNat + c.status.toNat * 2 ^ 8 + c.mailbox.toNat * 2 ^ 16 + c.tag.toNat * 2 ^ 32),
   c.cmdIdx.zeroExtend 64, c.ts, c.p0, c.p1, c.p2] ++ slot128 c.expno.toNat

/-- Writes 64-bit slots into consecutive registers. -/
def State.putSlots (s : State) (off : Nat) : List (BitVec 64) → State
  | [] => s
  | x :: t => (((s.wr off (x.truncate 32)).wr (off + 4) ((x >>> 32).truncate 32)).putSlots (off + 8) t)

/-- Writes the completion of a command: to the queue of the CPL ring, into the mailbox; an image's command writes
none, and only autostart sees its status (R393, R394, R408). -/
def State.complete (s : State) (op : BitVec 8) (h : CmdHdr) (status p0 p1 p2 : Nat) : State :=
  let c (mb : Bool) (idx : BitVec 32) : Completion :=
    { op := op, status := BitVec.ofNat 8 status, mailbox := mb, tag := h.tag, cmdIdx := idx, ts := s.ts,
      p0 := BitVec.ofNat 64 p0, p1 := BitVec.ofNat 64 p1, p2 := BitVec.ofNat 64 p2, expno := s.evt.newest }
  match h.src with
  | .ring idx => { s with hif := { s.hif with cplQ := s.hif.cplQ ++ [c false idx] } }
  | .mailbox _ =>
    ((s.putSlots (MBX_CPL 0) (c true 0).slots).setFlag MBX_STAT_BUSY false).setFlag MBX_STAT_DONE true
  | .image => { s with prf := { s.prf with imageStatus := status } }

/-- Removes a taken command. -/
def State.untake (s : State) (t : Taken) : State := { s with taken := s.taken.erase t }

/-- Keeps a taken command whose effect waits. -/
def State.keep (s : State) (op : BitVec 8) (h : CmdHdr) (w : Wait) : State :=
  { s with taken := s.taken ++ [{ op := op, hdr := h, wait := w, muted := false }] }

/-- The outcome of a taken command is determined: it completes with a status and payload.  A completion that would come
after the deadline has not arrived (R38): the command then waits for the expiry to be declared (R39). -/
def State.done (s : State) (t : Taken) (status p0 p1 p2 : Nat) : State :=
  if t.muted then s.untake t
  else if t.hdr.dlv && judgedLater t.op && s.lateFor t.hdr.deadline then
    { s with taken := s.taken.replace t { t with wait := .late } }
  else (s.untake t).complete t.op t.hdr status p0 p1 p2

/-- Answers every taken command that waits for something, in the order in which they were taken. -/
def State.doneAll (s : State) (p : Taken → Bool) (status : Nat) (pay : Taken → Nat × Nat × Nat) : State :=
  (s.taken.filter p).foldl (fun s t => s.done t status (pay t).1 (pay t).2.1 (pay t).2.2) s

/-- Commands of the ring taken and not completed, those whose completion waits on chip among them: the limit of R392, which
leaves room for every completion (R393), and HIF_INFL.TAKEN. -/
def State.takenRing (s : State) : Nat :=
  (s.taken.filter (fun t => match t.hdr.src with | .ring _ => !t.muted | _ => false)).length + s.hif.cplQ.length

/-- READY (R82). -/
def State.ready (s : State) : Bool := s.flag GLB_STAT_READY

/-- Whether a command can be taken from its source now: the ring runs, has the descriptor next and fewer than 64 commands
are open (R392); the mailbox is idle (R408); image records are taken while autostart runs (R258). -/
def State.canTake (s : State) (h : CmdHdr) : Bool :=
  match h.src with
  | .ring idx => s.ready && s.ringRun 0 && decide (0 < s.ringOwned 0) && decide (s.ringC 0 = idx) && decide (s.takenRing < 64)
  | .mailbox _ => s.ready && !s.flag MBX_STAT_BUSY
  | .image => s.flag PWR_STAT_ASBUSY

/-- What taking a command does beside the command itself: C advances (R392), or the mailbox becomes busy (R408). -/
def State.accept (s : State) (h : CmdHdr) : State :=
  match h.src with
  | .ring idx =>
    let s := { s with hif := { s.hif with fetched := s.hif.fetched.filter (fun e => e.1 != idx) } }
    s.returnDescs 0 1
  | .mailbox o =>
    ((s.setFlag MBX_STAT_BUSY true).setFlag MBX_STAT_DONE false).put MBX_STAT_OWNER (if o = .hspi then 1 else 0)
  | .image => s

/-- Start-up has passed RESTORE and PD5 is on, so that commands find the blocks they act on. -/
def State.serving (s : State) : Bool :=
  s.pdOn 5 && (s.pwr.phase == .image || s.pwr.phase == .internalSync || s.pwr.phase == .done)

/-- Opcodes of R396 whose effect lies outside PD0, and those that act in every state in which they can be taken. -/
def coreOps : List Nat :=
  [0x01, 0x02, 0x10, 0x11, 0x12, 0x13, 0x20, 0x21, 0x22, 0x23, 0x30, 0x40, 0x41, 0x50, 0x60, 0x61, 0x70, 0x71, 0x72]

/-- Takes a command (R392, R395): with its deadline already expired it completes with DEADLINE and has no effect.  While the blocks
it acts on are off or start, as in STANDBY, in PFHOLD and during a wake, it is refused (log 32). -/
def State.take (s : State) (op : BitVec 8) (h : CmdHdr) (body : State → State) : State :=
  if s.canTake h then
    let s := s.accept h
    if h.dlv && s.passed h.deadline then s.complete op h stDeadline 0 0 0
    else if coreOps.contains op.toNat && !s.serving then s.complete op h stRefused 0 0 0
    else body s
  else s

/-- Metering may not be started, stopped or reconfigured while autostart runs, except by its image (R83). -/
def State.asBusyFor (s : State) (h : CmdHdr) : Bool := s.flag PWR_STAT_ASBUSY && decide (h.src ≠ .image)

end Sys2Proof.Machine
end

