-- ==== Sys2Proof/Machine/Access.lean ====
section
/-!
DEFINITION. How a register access acts on stored fields (R9 to R12): which written values a field takes, what the seal,
autostart and a unit's own state lock, and the staging of quantities wider than 32 bits.
-/

namespace Sys2Proof.Machine

/-- Who writes a register: a port (R8), or a record of a configuration image applied by autostart (R259). -/
inductive WriteBy where
  | port (p : Port)
  | image
  deriving DecidableEq, Repr

/-- Whether a field takes a written value. -/
def checkField (c : FieldCheck) (width x : Nat) : Bool :=
  match c with
  | .any => true
  | .range lo hi => decide (lo ≤ x) && decide (x ≤ hi)
  | .except v => x != v
  | .srange m => (signedOf width x).natAbs ≤ m

/-- One field of a written register (R9): RW takes the value, W1C clears by 1, every other type keeps what is stored; a locked
bit of a field stays as it is; an image's record acts on RW and WO fields only (R258). -/
def writeField (image sealedNow : Bool) (lock : Nat) (v : BitVec 32) (acc : Nat) (f : FieldRow) : Nat :=
  let old := acc / 2 ^ f.lsb % 2 ^ f.width
  let held := lock / 2 ^ f.lsb % 2 ^ f.width
  let y := v.toNat / 2 ^ f.lsb % 2 ^ f.width
  let x := y - (y &&& held) + (match f.acc with | .rw => old &&& held | _ => 0)
  if f.locked && sealedNow then acc
  else match f.acc with
    | .rw => if checkField f.check f.width x then acc - old * 2 ^ f.lsb + x * 2 ^ f.lsb else acc
    | .w1c => if image then acc else acc - (old &&& x) * 2 ^ f.lsb
    | _ => acc

/-- The device is sealed (R261). -/
def State.sealed (s : State) : Bool := s.flag LDG_STAT_SEALED

/-- Blocks whose registers ignore writes while autostart runs (R83, EVT and SAF blocks). -/
def asBusyBlock (off : Nat) : Bool := (0x1000 ≤ off && off < 0x4000) || (0x6800 ≤ off && off < 0x7000)

/-- Points that run in the exposure in progress. -/
def State.runMask (s : State) : Nat := s.ldg.running.toNat

/-- Bits of a register that take no write in the present state, beside the seal. -/
def State.lockMask (s : State) (off : Nat) : Nat :=
  let all := 0xFFFFFFFF
  if 0x0800 ≤ off ∧ off < 0x0C00 then
    let r := (off - 0x0800) / 0x40
    let o := (off - 0x0800) % 0x40
    let en := s.flag (HIF_RCFG_EN r)
    if o = 0 ∨ o = 4 then (if en then all else 0)
    else if o = 8 then (if en then 0x1F else 0) + (if 13 ≤ r then 0x80000000 else 0)
    else 0
  else if VGDEF 0 ≤ off ∧ off ≤ VGDEF 7 then
    let g := (off - VGDEF 0) / 4
    if (bitsOf 32 s.runMask).any (fun p => s.get (MET_CFG_VG p) == g) then all else 0
  else if MET_CFG 0 ≤ off ∧ off < MET_CFG 32 then
    if (off - MET_CFG 0) % 0x40 < 12 ∧ bitAt s.runMask ((off - MET_CFG 0) / 0x40) then all else 0
  else if PIO_CFCFG 0 ≤ off ∧ off < PIO_CFCFG 16 then
    let n := (off - PIO_CFCFG 0) / 0x20
    let o := (off - PIO_CFCFG 0) % 0x20
    if s.flag (PIO_CFCFG_EN n) then (if o = 0 then 0x40003F1F else all) else 0
  else if PIO_PINCFG 0 ≤ off ∧ off < PIO_PINCFG 16 then
    let j := (off - PIO_PINCFG 0) / 0x20
    let o := (off - PIO_PINCFG 0) % 0x20
    if s.flag (PIO_PINCFG_EN j) then (if o = 0 then 0x60003FFF else if o = 4 ∨ o = 8 then all else 0) else 0
  else if off = FCV_CSPRE then (if s.flag FCV_STAT_ARMED then all else 0)
  else if off = PLC_MASK 52 then 0xFFFE0000
  else if 0x5800 ≤ off ∧ off < 0x6000 then
    if off = RTC_BKCFG then (if s.flag RTC_PWRCTL_CYC then all else 0)
    else if RTC_RAM 0 ≤ off ∧ off < RTC_RAM 8 then all
    else if RTC_RAM 16 ≤ off ∧ off < RTC_RAM 24 then (if s.flag RTC_BKCFG_BKMODE then all else 0)
    else 0
  else if 0x6000 ≤ off ∧ off < 0x6100 then
    let u := (off - 0x6000) / 0x40
    if s.flag (CVU_STAT_BUSY u) ∨ (u = 3 ∧ s.flag SAF_CTL_EN) then all else 0
  else if 0x6400 ≤ off ∧ off < 0x6414 then
    if s.flag SAF_CTL_EN ∧ 56 ≤ s.get CVU_REFSEL_IDX ∧ off ≠ CVU_REFSEL then all else 0
  else if off = SAF_CTL ∨ off = SAF_WDT ∨ off = SAF_SCAN ∨ (SAF_DIAGCFG 0 ≤ off ∧ off ≤ SAF_DIAGCFG 13) then
    if s.flag SAF_CTL_LOCK then all else 0
  else if off = TZL_CTL then (if s.flag GLB_STRAP_MSTR then 0 else 0xB)
  else 0

/-- PD1 is on and out of reset. -/
def State.pd1On (s : State) : Bool := s.pwr.phase != .backup && (s.pwr.phase != .inReset || s.pwr.pd1Kept)

/-- Whether a write reaches a register at all: its domain and the ports' are on (R383), and autostart does not run for its block (R83). -/
def State.writable (s : State) (w : WriteBy) (off : Nat) : Bool :=
  s.pd1On && s.pdOn (regDomain off) &&
    (decide (w = .image) || !(s.flag PWR_STAT_ASBUSY && asBusyBlock off))

/-- The reference entry whose segment holds a register (R416). -/
def segmentOf (off : Nat) : Option Nat :=
  if 0x1000 ≤ off ∧ off < 0x1800 then some 56
  else if 0x1800 ≤ off ∧ off < 0x2000 then some 57
  else if 0x2000 ≤ off ∧ off < 0x2800 then some 58
  else if 0x2800 ≤ off ∧ off < 0x3000 then some 59
  else if 0x3000 ≤ off ∧ off < 0x4000 then some 60
  else if off = SAF_CTL ∨ off = SAF_WDT ∨ off = SAF_SCAN ∨ (SAF_DIAGCFG 0 ≤ off ∧ off ≤ SAF_DIAGCFG 13) then some 63
  else none

/-- Bits of the RW fields of a row: what a monitor scan feeds (R416). -/
def settingMask (r : RegRow) : Nat :=
  r.fields.foldl (fun m f => if f.acc = .rw then m + (2 ^ f.width - 1) * 2 ^ f.lsb else m) 0

/-- What a monitor scan feeds of a register's value (R416). -/
def settingWord (off : Nat) (v : BitVec 32) : Nat :=
  match regRow off with
  | some r => v.toNat &&& settingMask r
  | none => 0

/-- Adds to a reference entry, modulo 2^36 (R417). -/
def State.addRef (s : State) (e : Nat) (d : Int) : State :=
  { s with cvu := { s.cvu with refs := s.cvu.refs.modify e (fun r => { r with value := r.value + BitVec.ofInt 36 d }) } }

/-- An accepted write of a register: the entry of its scanned segment follows in the same clock (R417). -/
def State.wrSetting (s : State) (off : Nat) (v : BitVec 32) : State :=
  match segmentOf off with
  | some e => (s.addRef e ((settingWord off v : Int) - settingWord off (s.rd off))).wr off v
  | none => s.wr off v

/-- A word of a compensation-filter bank (R367): taps at or beyond T read 0. -/
def bankWord (l : List Int) (i : Nat) : Nat := unsignedOf 36 (l.getD i 0)

/-- Word w of a correction table (R158, R367); a table nothing has loaded is FLAT with unit gain. -/
def corrWord (l : List Int) (w : Nat) : Int := l.getD w (if w = 3 then 2 ^ 34 else 0)

/-- The sum of a bank's words, and of a table's. -/
def bankSum (l : List Int) : Nat := (List.range 64).foldl (fun a i => a + bankWord l i) 0
def corrSum (l : List Int) : Nat := (List.range 53).foldl (fun a w => a + unsignedOf 36 (corrWord l w)) 0

/-- State of a channel. -/
def State.chan (s : State) (n : Nat) : ChState := s.exp.chans.getD n ChState.reset

/-- Changes the state of a channel. -/
def State.modChan (s : State) (n : Nat) (f : ChState → ChState) : State :=
  { s with exp := { s.exp with chans := s.exp.chans.modify n f } }

/-- Loads a coefficient bank; entry 61 follows (R417). -/
def State.setBank (s : State) (n : Nat) (bank : Nat) (l : List Int) : State :=
  let old := if bank = 0 then (s.chan n).bankA else (s.chan n).bankB
  (s.addRef 61 ((bankSum l : Int) - bankSum old)).modChan n (fun c =>
    if bank = 0 then { c with bankA := l } else { c with bankB := l })

/-- Puts a correction table into effect; entry 62 follows (R417). -/
def State.setCorr (s : State) (n : Nat) (l : List Int) : State :=
  (s.addRef 62 ((corrSum l : Int) - corrSum (s.chan n).corr)).modChan n (fun c => { c with corr := l })

/-- The sum of the reset values of a segment of registers (R417). -/
def segmentReset (e : Nat) : Nat :=
  let rows := if e = 56 then rows02 else if e = 57 then rows03 else if e = 58 then rows04 else if e = 59 then rows05
    else if e = 60 then rows06 ++ rows07 else if e = 63 then rows13 else []
  rows.foldl (fun a r =>
    if segmentOf r.base = some e then a + (r.reset &&& settingMask r) * r.count * r.count2 else a) 0

/-- SUM36 of a segment as the memory stands (R416). -/
def State.segmentSum (s : State) (e : Nat) : BitVec 36 :=
  if e = 61 then
    BitVec.ofNat 36 (s.exp.chans.foldl (fun a c => a + bankSum c.bankA + bankSum c.bankB) 0)
  else if e = 62 then BitVec.ofNat 36 (s.exp.chans.foldl (fun a c => a + corrSum c.corr) 0)
  else BitVec.ofInt 36 (s.regs.foldl (fun (a : Int) x =>
    if segmentOf x.1 = some e then a + (settingWord x.1 x.2 : Int) - settingWord x.1 (regReset x.1) else a)
    (segmentReset e))

/-- Every monitor entry set to the sum of its segment as the memory stands, with valid check bits (R417). -/
def State.rebuildRefs (s : State) : State :=
  State.each 8 (fun i s =>
    { s with cvu := { s.cvu with refs := s.cvu.refs.set (56 + i) { value := s.segmentSum (56 + i), flips := 0 } } }) s

/-- Bits of a row's fields of one access type. -/
def accessMask (r : RegRow) (a : Access) : Nat :=
  r.fields.foldl (fun m f => if f.acc = a then m + (2 ^ f.width - 1) * 2 ^ f.lsb else m) 0

/-- Writes the stored fields of a register under R9 and the locks; effects beside them are the register's own. -/
def State.storeWrite (s : State) (w : WriteBy) (off : Nat) (v : BitVec 32) : State :=
  match regRow off with
  | none => s
  | some r =>
    if s.writable w off then
      let old := s.rd off
      let new := r.fields.foldl
        (writeField (decide (w = .image)) (s.sealed && decide (w ≠ .image)) (s.lockMask off) v) old.toNat
      s.wrSetting off (BitVec.ofNat 32 new)
    else s

/-- Upper words of the quantity wider than 32 bits whose lowest word has this offset (R12). -/
def upperWords (off : Nat) : List Nat :=
  if 0x0800 ≤ off ∧ off < 0x0C00 ∧ (off - 0x0800) % 0x40 = 0 then [off + 4]
  else if [GLB_SERIAL_LO, HIF_DBBASE_LO, HIF_STBASE_LO, HIF_LVBASE_LO, FLT_SYNCTS_LO, PAIR_AMP_LO, PAIR_BASE_LO,
      PAIR_TRIM_LO, LDG_AUDIT_LO, LDG_RGAP_LO, LDG_RSTOP_LO, NET_EUI_LO, NET_TBASE_LO, NET_TOVF_LO, NET_KEYBASE_LO,
      RTC_SEC_LO, RTC_CAPSEC_LO, RTC_STGSEC_LO, RTC_STEPSEC_LO, RTC_ALMSEC_LO, CVU_REFDATA_LO].contains off then [off + 4]
  else if off = RTC_CAL0 then [RTC_CAL1]
  else if off = LDG_LASTEXP_LO then [off + 4, off + 8]
  else if off = NET_SEED 0 then [off + 4, off + 8, off + 12]
  else if PIO_CFK0 0 ≤ off ∧ off ≤ PIO_CFK0 15 ∧ (off - PIO_CFK0 0) % 0x20 = 0 then [off + 4, off + 8]
  else if PIO_PINK_LO 0 ≤ off ∧ off ≤ PIO_PINK_LO 15 ∧ (off - PIO_PINK_LO 0) % 0x20 = 0 then [off + 4]
  else if CVU_RUN_LO 0 ≤ off ∧ off ≤ CVU_RUN_LO 3 ∧ (off - CVU_RUN_LO 0) % 0x40 = 0 then [off + 4]
  else []

/-- The lowest word of the quantity that an upper word belongs to. -/
def lowestOf (off : Nat) : Option Nat :=
  [4, 8, 12].findSome? (fun d => if d ≤ off ∧ (upperWords (off - d)).contains off then some (off - d) else none)

/-- Staged upper words of a port or of autostart (R12). -/
def State.staged (s : State) : WriteBy → List (Nat × BitVec 32)
  | .port .pcie => s.hif.stagePcie
  | .port .hspi => s.hif.stageHspi
  | .image => s.hif.stageImage

/-- Replaces the staged upper words. -/
def State.setStaged (s : State) (w : WriteBy) (l : List (Nat × BitVec 32)) : State :=
  match w with
  | .port .pcie => { s with hif := { s.hif with stagePcie := l } }
  | .port .hspi => { s with hif := { s.hif with stageHspi := l } }
  | .image => { s with hif := { s.hif with stageImage := l } }

/-- A write of an upper word is staged (R12). -/
def State.stage (s : State) (w : WriteBy) (off : Nat) (v : BitVec 32) : State :=
  if s.writable w off then s.setStaged w (assocPut (s.staged w) off v) else s

/-- Stores an upper word that was staged. -/
def State.storeStaged (s : State) (w : WriteBy) (st : List (Nat × BitVec 32)) (o : Nat) : State :=
  match storeFind st o with
  | some x => s.storeWrite w o x
  | none => s

/-- A write of the lowest word: the whole value takes effect.  An upper word not staged since keeps its value (log 8). -/
def State.storeWide (s : State) (w : WriteBy) (off : Nat) (v : BitVec 32) : State :=
  let st := s.staged w
  let s := (upperWords off).foldl (fun (s : State) o => s.storeStaged w st o) s
  ((s.setStaged w ((upperWords off).foldl assocDel st)).storeWrite w off v)

/-- A write to a register without effects beside its stored fields, by R9 and R12. -/
def State.plainWrite (s : State) (w : WriteBy) (off : Nat) (v : BitVec 32) : State :=
  if (lowestOf off).isSome then s.stage w off v
  else if (upperWords off).isEmpty then s.storeWrite w off v
  else s.storeWide w off v

end Sys2Proof.Machine
end

