-- ==== Sys2Proof/Machine/Crc.lean ====
section
/-!
DEFINITION. Check-value algorithms (R363 to R365, R368) and byte sequences: slots, packing of 36-bit words, and the ledger
FRAM as a sparse store of bytes (R243).
-/

namespace Sys2Proof.Machine

/-- Parameters of a CRC (R363, R364). -/
structure CrcDef where
  width : Nat
  poly : Nat
  init : Nat
  refin : Bool
  refout : Bool
  xorOut : Nat
  deriving DecidableEq, Repr

/-- One bit fed into a CRC register. -/
def crcBit (c : CrcDef) (reg : Nat) (b : Bool) : Nat :=
  let r := reg * 2 % 2 ^ c.width
  if (bitAt reg (c.width - 1)) != b then r ^^^ c.poly else r

/-- One byte fed, least significant bit first with REFIN. -/
def crcByte (c : CrcDef) (reg : Nat) (x : BitVec 8) : Nat :=
  (List.range 8).foldl (fun r i => crcBit c r (bitAt x.toNat (if c.refin then i else 7 - i))) reg

/-- The running value after a byte sequence. -/
def crcRun (c : CrcDef) (reg : Nat) (l : List (BitVec 8)) : Nat := l.foldl (crcByte c) reg

/-- A number bit-reversed over a width. -/
def bitReverse (w n : Nat) : Nat := (List.range w).foldl (fun r i => r + (if bitAt n i then 2 ^ (w - 1 - i) else 0)) 0

/-- The check value of a running value: output reflection and final XOR. -/
def crcOut (c : CrcDef) (reg : Nat) : Nat := (if c.refout then bitReverse c.width reg else reg) ^^^ c.xorOut

/-- CRC-32C (ALG 0). -/
def crc32cDef : CrcDef := ⟨32, 0x1EDC6F41, 0xFFFFFFFF, true, true, 0xFFFFFFFF⟩
/-- CRC-32 of IEEE 802.3 (ALG 1). -/
def crc32Def : CrcDef := ⟨32, 0x04C11DB7, 0xFFFFFFFF, true, true, 0xFFFFFFFF⟩
/-- CRC-16/CCITT-FALSE (ALG 2). -/
def crc16Def : CrcDef := ⟨16, 0x1021, 0xFFFF, false, false, 0⟩
/-- CRC-8 (ALG 3). -/
def crc8Def : CrcDef := ⟨8, 0x07, 0, false, false, 0⟩

/-- The CRC-32C of a byte sequence. -/
def crc32c (l : List (BitVec 8)) : Nat := crcOut crc32cDef (crcRun crc32cDef crc32cDef.init l)

/-- The `n` bytes of a number, least significant first. -/
def bytesLE : Nat → Nat → List (BitVec 8)
  | 0, _ => []
  | k + 1, x => BitVec.ofNat 8 x :: bytesLE k (x / 256)

/-- The number of a little-endian byte sequence. -/
def natLE : List (BitVec 8) → Nat
  | [] => 0
  | b :: t => b.toNat + 256 * natLE t

/-- Bytes of 64-bit slots in ascending address order (R14). -/
def slotBytes (l : List (BitVec 64)) : List (BitVec 8) := l.flatMap (fun x => bytesLE 8 x.toNat)

/-- 64-bit slots of a byte sequence (R14); a partial last slot is completed with zeros. -/
def bytesToSlots : Nat → List (BitVec 8) → List (BitVec 64)
  | 0, _ => []
  | _ + 1, [] => []
  | k + 1, l => BitVec.ofNat 64 (natLE (l.take 8)) :: bytesToSlots k (l.drop 8)

/-- The bytes that `n` consecutive addresses hold in a sparse byte store whose unlisted bytes are 0. -/
def cellsFrom : Nat → Nat → List Host.Cell → List (BitVec 8)
  | 0, _, _ => []
  | n + 1, a, [] => 0 :: cellsFrom n (a + 1) []
  | n + 1, a, (k, v) :: t => if k = a then v :: cellsFrom n (a + 1) t else 0 :: cellsFrom n (a + 1) ((k, v) :: t)

/-- Bytes of the FRAM (R243); a byte nothing has written reads as 0 (log 11). -/
def State.framBytes (s : State) (a n : Nat) : List (BitVec 8) :=
  cellsFrom n a (s.prf.fram.dropWhile (fun c => decide (c.1 < a)))

/-- One byte of the FRAM. -/
def State.framByte (s : State) (a : Nat) : BitVec 8 := storeGet 0 s.prf.fram a

/-- Listed cells for bytes from an address on: those that are not 0. -/
def cellsOf : Nat → List (BitVec 8) → List Host.Cell
  | _, [] => []
  | a, b :: t => if b = 0 then cellsOf (a + 1) t else (a, b) :: cellsOf (a + 1) t

/-- Bytes written to consecutive addresses of a sparse byte store. -/
def cellsWrite (m : List Host.Cell) (a : Nat) (l : List (BitVec 8)) : List Host.Cell :=
  m.filter (fun c => decide (c.1 < a)) ++ cellsOf a l ++ m.filter (fun c => decide (a + l.length ≤ c.1))

/-- Bytes written to the FRAM. -/
def State.framWrite (s : State) (a : Nat) (l : List (BitVec 8)) : State :=
  { s with prf := { s.prf with fram := cellsWrite s.prf.fram a l } }

/-- A number of `n` bytes at an FRAM address. -/
def State.framNat (s : State) (a n : Nat) : Nat := natLE (s.framBytes a n)

/-- Words of SUM36 added modulo 2^36 (R365). -/
def sum36 (acc : Nat) (l : List Nat) : Nat := l.foldl (fun a x => (a + x) % 2 ^ 36) (acc % 2 ^ 36)

/-- A 36-bit word as a CRC takes it: 5 bytes, low byte first (R368). -/
def word36Bytes (w : Nat) : List (BitVec 8) := bytesLE 5 (w % 2 ^ 36)

/-- Words 36 bits wide that SUM36 takes from a byte sequence: the low 36 bits of each 8-byte slot (R368). -/
def slotWords (l : List (BitVec 8)) : List Nat := (bytesToSlots l.length l).map (fun x => x.toNat % 2 ^ 36)

end Sys2Proof.Machine
end

