-- ==== Sys2Proof/Machine/Strike.lean ====
section
/-!
DEFINITION. Strikes, lasting diagnostics and the safe state (R421 to R426), FAULT_N (R57) and SECDED errors found by a read
(R420).
-/

namespace Sys2Proof.Machine

/-- Numbers of the diagnostics (R414). -/
def dCompare : Nat := 0
def dStall : Nat := 1
def dStream : Nat := 2
def dEcc : Nat := 3
def dScan : Nat := 4
def dTripRb : Nat := 5
def dClock : Nat := 6
def dSupply : Nat := 7
def dKav : Nat := 8
def dParity : Nat := 9
def dLane : Nat := 10
def dPairing : Nat := 11
def dPulse : Nat := 12
def dLedger : Nat := 13

/-- Changes the safety-monitor state. -/
def State.modSaf (s : State) (f : SafState → SafState) : State := { s with saf := f s.saf }

/-- A standby takes a point's ledger, or an input's quantity register, from the active device's mirror frames (R445, R448). -/
def State.mirPoint (s : State) (p : Nat) : Bool := s.mirStandby && (!s.tzl.small || decide (p < 12))
def State.mirInput (s : State) (j : Nat) : Bool := s.mirStandby && (!s.tzl.small || decide (j < 8))

/-- FAULT_N drives high only while the monitor runs, its start-up diagnostics have passed and the device is not in the safe state
(R57). -/
def State.faultUpdate (s : State) : State :=
  s.modSaf (fun f => { f with faultN := s.pdOn 5 && s.flag SAF_STAT_RUN && s.flag SAF_CTL_EN && !s.flag SAF_STAT_STARTFAIL && !s.inSafe })

/-- The pulse constant of a CF output, as taken at the boundary (R222, R227). -/
def State.cfK (s : State) (n : Nat) : Nat :=
  s.effGet (PIO_CFK0_K n) + 2 ^ 32 * s.effGet (PIO_CFK1_K n) + 2 ^ 64 * s.effGet (PIO_CFK2_K n)

/-- Changes the state of a CF output. -/
def State.modCf (s : State) (n : Nat) (f : CfState → CfState) : State :=
  { s with pio := { s.pio with cf := s.pio.cf.modify n f } }

/-- State of a CF output. -/
def State.cf (s : State) (n : Nat) : CfState := s.pio.cf.getD n CfState.reset

/-- An amount enters or leaves the accumulator of an output; DEBT follows (R223). -/
def State.cfAdd (s : State) (n : Nat) (d : Int) : State :=
  let s := s.modCf n (fun c => { c with acc := c.acc + d })
  s.setFlag (PIO_CFSTAT_DEBT n) (decide ((s.cf n).acc < 0))

/-- Cancels the pulses not yet risen: K returns to acc for each (R224, R226). -/
def State.cfCancel (s : State) (n : Nat) : State :=
  let k := (s.cf n).sched.length
  if k = 0 then s else (s.modCf n (fun c => { c with sched := [] })).cfAdd n (k * s.cfK n : Nat)

/-- Releases a CF ball at once (R226): a pulse that is high counts as emitted. -/
def State.cfRelease (s : State) (n : Nat) : State :=
  ((s.cfCancel n).modCf n (fun c => { c with ball := none, high := none })).setFlag (PIO_CFSTAT_HIGH n) false

/-- Enters the safe state for diagnostic d (R423): TRIP, CF and FAULT_N are released. -/
def State.enterSafe (s : State) (d : Nat) : State :=
  if s.inSafe || !s.flag SAF_CTL_EN then s
  else
    let s := ((s.setFlag SAF_STAT_SAFE true).put SAF_STAT_CAUSE d).put SAF_SSEXP_SSEXP 0
    let s := State.each 16 (fun n s => s.cfRelease n) s
    let s := State.each 8 (fun n s => (s.tripBall n false).modTrip n (fun t => { t with driven := false })) s
    (s.event 0x0602 d .start 0 0 0).faultUpdate

/-- The safe state ends (R425): FAULT_N is driven high, started CF outputs drive their balls low, TRIP outputs follow their next
decision. -/
def State.leaveSafe (s : State) : State :=
  if !s.inSafe then s
  else
    let s := (s.setFlag SAF_STAT_SAFE false).faultUpdate
    let s := State.each 16 (fun n s => if s.flag (PIO_CFSTAT_RUN n) && !s.mirStandby then s.modCf n (fun c => { c with ball := some false }) else s) s
    s.event 0x0602 (s.get SAF_STAT_CAUSE) .stop (s.get SAF_SSEXP_SSEXP) 0 0

/-- SAF_REINIT shows the last FN_REINIT (R429). -/
def State.reinitShow (s : State) (target status : Nat) : State :=
  if s.pdOn 5 then (s.put SAF_REINIT_TARGET target).put SAF_REINIT_STATUS status else s

/-- FN_REINIT SAFETY fails: FAULT with the diagnostic (R430). -/
def State.safetyFail (s : State) (d : Nat) : State :=
  if s.saf.reinit.isNone then s
  else
    let s := ((s.modSaf (fun f => { f with reinit := none })).setFlag SAF_STAT_REINIT false).reinitShow 6 stFault
    s.doneAll (fun t => t.wait == Wait.reinitSafety) stFault (fun _ => (d, 0, 0))

/-- Diagnostic d is lasting from now on; a first time enters the safe state if SAFEACT and EN ask for it, and ends FN_REINIT
SAFETY (R422, R430). -/
def State.makeLasting (s : State) (d : Nat) : State :=
  let old := s.get SAF_LASTING_LASTING
  if bitAt old d then s
  else
    let s := (s.put SAF_LASTING_LASTING (old + 2 ^ d)).safetyFail d
    if s.flag (SAF_DIAGCFG_SAFEACT d) then s.enterSafe d else s

/-- The window of R421 in units of 2^-24 s. -/
def strikeWindow (ms : Nat) : Nat := ms * 2 ^ 24 / 1000

/-- One strike of diagnostic d with its completion timestamp and the detail of the causing rule (R421, R422); `force` makes it
lasting whatever the threshold. -/
def State.strikeG (s : State) (ts : BitVec 64) (d detail : Nat) (force : Bool) : State :=
  if !s.pdOn 5 then s
  else
    let k := tsKey ts
    let hist := k :: (s.saf.strikes.getD d []).filter (fun x => k ≤ x + strikeWindow 60000)
    let s := s.modSaf (fun f => { f with strikes := f.strikes.set d hist })
    let s := s.bump (SAF_STRK_STRK d) 1
    let w := strikeWindow (s.get (SAF_DIAGCFG_WINDOW d))
    let n := (hist.filter (fun x => k ≤ x + w)).length
    let th := s.get (SAF_DIAGCFG_THRESH d)
    let lasting := force || (match hist[th - 1]? with
      | some x => decide (k ≤ x + w)
      | none => false)
    let s' := s.eventT ts 0x0601 d .momentary n ((lasting || bitAt (s.get SAF_LASTING_LASTING) d).toNat) detail
    if lasting then s'.makeLasting d else s'

/-- One strike with its completion timestamp. -/
def State.strikeT (s : State) (ts : BitVec 64) (d detail : Nat) : State := s.strikeG ts d detail false

/-- One strike at this instant. -/
def State.strike (s : State) (d detail : Nat) : State := s.strikeT s.ts d detail

/-- A strike that is lasting whatever the threshold (R417, R420). -/
def State.strikeLasting (s : State) (d detail : Nat) : State := s.strikeG s.ts d detail true

/-- INDEX of a memory in ECC events (R420). -/
def eccIndex : EccMem → Nat
  | .sampleBuffer _ _ => 0
  | .filterBank => 1
  | .corrTable => 2
  | .config => 3
  | .ledger => 4
  | .engine => 5
  | .queue _ => 6
  | .neighbour => 7
  | .sheet _ => 8

/-- A SECDED error found by a read (R420): a single-bit error is corrected and counted, with an event at most once per
second and memory; a double-bit error acts by its memory. -/
def State.eccFound (s : State) (e : EccIn) : State :=
  let m := eccIndex e.mem
  if e.double then
    let s := s.bump SAF_ECCDBE_COUNT 1
    match e.mem with
    | .filterBank | .corrTable | .config | .ledger => s.strikeLasting dEcc m
    | .queue .event =>
      if s.evt.queue.isEmpty then s.strike dEcc m
      else (({ s with evt := { s.evt with queue := s.evt.queue.tail, dropPend := true } }).bump EVT_DROPCNT_DROPCNT 1).strike dEcc m
    | .queue .completion =>
      if s.hif.cplQ.isEmpty then s.strike dEcc m
      else (({ s with hif := { s.hif with cplQ := s.hif.cplQ.tail } }).dropRecord 1).strike dEcc m
    | .queue .record =>
      if s.ldg.ldgQ.isEmpty then s.strike dEcc m
      else (({ s with ldg := { s.ldg with ldgQ := s.ldg.ldgQ.tail } }).dropRecord 3).strike dEcc m
    | _ => s.strike dEcc m
  else
    let s := s.bump SAF_ECCSBE_COUNT 1
    match s.saf.eccSec.getD m (none, 0) with
    | (some sec, n) =>
      if sec = s.rtc.sec then s.modSaf (fun f => { f with eccSec := f.eccSec.set m (some sec, n + 1) })
      else (s.modSaf (fun f => { f with eccSec := f.eccSec.set m (some s.rtc.sec, 1) })).event 0x0604 m .momentary
        (n + 1) 0 0
    | (none, n) => (s.modSaf (fun f => { f with eccSec := f.eccSec.set m (some s.rtc.sec, 1) })).event 0x0604 m .momentary
        (n + 1) 0 0

end Sys2Proof.Machine
end

