-- ==== Sys2Proof/Machine/Num.lean ====
section
/-!
DEFINITION. Fixed-point arithmetic the engines need (R173): integer square root and logarithm, saturation, and sine, cosine and
arctangent of angles in turns, all in units of 2^-100.
-/

namespace Sys2Proof.Machine

/-- Integer square root, rounded down, of a number below 2^256. -/
def isqrt (n : Nat) : Nat :=
  (List.range 128).foldl (fun r i =>
    let q := r + 2 ^ (127 - i)
    if q * q ≤ n then q else r) 0

/-- Floor of the binary logarithm of a positive number below 2^256. -/
def log2 (n : Nat) : Nat :=
  (List.range 8).foldl (fun r i =>
    let k := 2 ^ (7 - i)
    if 2 ^ (r + k) ≤ n then r + k else r) 0

/-- Saturation to the SQ2.34 range (R144). -/
def satQ (x : Int) : Int := clampInt (-(2 ^ 35)) (2 ^ 35 - 1) x

/-- Saturation of a sample value to ±(2^29 - 1) (R102, R132). -/
def satX (x : Int) : Int := clampInt (-(2 ^ 29 - 1)) (2 ^ 29 - 1) x

/-- Output rate of the chain in samples per second, for g of R185 (R125). -/
def rateOf (g : Nat) : Nat := 64000 / 2 ^ g

/-- The unit of this file's fractions: 2^100. -/
def fxOne : Int := 2 ^ 100

/-- π in units of 2^-100. -/
def fxPi : Int := 3982441812995697363688351113952

/-- 1 / (2π) in units of 2^-100. -/
def fxTurn : Int := 201752859139730814931732094791

/-- Product of two fractions. -/
def fxMul (a b : Int) : Int := a * b / fxOne

/-- Alternating power series by terms: `t` the first term, each next one `-t x² / (k (k + 1))`. -/
def fxSeries (x2 : Int) : Nat → Int → Int → Int → Int
  | 0, acc, _, _ => acc
  | n + 1, acc, t, k =>
    let t' := -(fxMul t x2 / (k * (k + 1)))
    fxSeries x2 n (acc + t') t' (k + 2)

/-- Sine and cosine of an angle of at most an eighth of a turn, in radians. -/
def fxSinSmall (x : Int) : Int := fxSeries (fxMul x x) 16 x x 2
def fxCosSmall (x : Int) : Int := fxSeries (fxMul x x) 16 fxOne fxOne 1

/-- Cosine and sine of the angle num / den of a turn. -/
def fxCosSin (num : Int) (den : Nat) : Int × Int :=
  let n := num % den
  let oct := (8 * n / den).toNat
  let rad (m : Int) : Int := 2 * fxPi * m / den
  let c (m : Int) := fxCosSmall (rad m)
  let s (m : Int) := fxSinSmall (rad m)
  -- the angle from the nearest multiple of a quarter turn
  let q := (oct + 1) / 2 % 4
  let d : Int := (4 * n - ((oct + 1) / 2 : Nat) * (den : Int))
  let cc := fxCosSmall (2 * fxPi * d / (4 * den))
  let ss := fxSinSmall (2 * fxPi * d / (4 * den))
  if den = 0 then (fxOne, 0)
  else if oct = 0 then (c n, s n)
  else if q = 0 then (cc, ss) else if q = 1 then (-ss, cc) else if q = 2 then (-cc, -ss) else (ss, -cc)

/-- Arctangent of a fraction between 0 and 1, in radians: three halvings, then the power series. -/
def fxAtan (t : Int) : Int :=
  let half (t : Int) : Int := t * fxOne / (fxOne + isqrt ((fxOne * fxOne + t * t).toNat))
  let u := half (half (half t))
  let u2 := fxMul u u
  let r := (List.range 30).foldl (fun (e : Int × Int) (k : Nat) =>
    let p := -(fxMul e.2 u2)
    (e.1 + p / (2 * k + 3), p)) (u, u)
  8 * r.1

/-- atan2(y, x) as a fraction of a turn in units of 2^-36, from 0 to 2^36 - 1, rounded to nearest; 0 when both are 0
(R165). -/
def atan2Turn (y x : Int) : Nat :=
  let ay := y.natAbs
  let ax := x.natAbs
  if ay = 0 ∧ ax = 0 then 0
  else
    let a : Int := if ay ≤ ax then fxAtan ((ay : Int) * fxOne / ax) else fxPi / 2 - fxAtan ((ax : Int) * fxOne / ay)
    let turn := fxMul a fxTurn
    let full :=
      if 0 ≤ x then (if 0 ≤ y then turn else fxOne - turn)
      else (if 0 ≤ y then fxOne / 2 - turn else fxOne / 2 + turn)
    ((full * 2 ^ 36 + fxOne / 2) / fxOne % 2 ^ 36).toNat

/-- Four Lagrange weights for a fraction F of 2^24, for positions -1, 0, 1, 2, in units of 2^-34 (R152). -/
def lagrangeW (f : Int) : Int × Int × Int × Int :=
  let o : Int := 2 ^ 24
  (roundDiv (-(f * (f - o) * (f - 2 * o)) * 2 ^ 34) (6 * 2 ^ 72),
   roundDiv ((f + o) * (f - o) * (f - 2 * o) * 2 ^ 34) (2 * 2 ^ 72),
   roundDiv (-((f + o) * f * (f - 2 * o)) * 2 ^ 34) (2 * 2 ^ 72),
   roundDiv ((f + o) * f * (f - o) * 2 ^ 34) (6 * 2 ^ 72))

/-- Interpolated value of four samples, position -1 first (R152). -/
def lagrange (f a b c d : Int) : Int :=
  let (w0, w1, w2, w3) := lagrangeW f
  roundDiv (w0 * a + w1 * b + w2 * c + w3 * d) (2 ^ 34)

end Sys2Proof.Machine
end

