-- ==== Sys2Proof/Machine/Coef.lean ====
section
/-!
DEFINITION. The fixed coefficients of the decimation chain (R124 to R126, R140) and of the all-pass networks (R182): the values set in
manufacture where they meet what the manual states of them, else values of this model that do.
-/

namespace Sys2Proof.Machine

/-! Half-band stages (R124, R140) -/

/-- One input through a half-band stage: every second input yields an output (R124). -/
def hbStep (taps : List Int) (st : HbStage) (x : Int) : HbStage × Option Int :=
  let hist := (x :: st.hist).take taps.length
  ({ hist := hist, odd := !st.odd },
   if st.odd then some ((taps.zip hist).foldl (fun a e => a + e.1 * e.2) 0) else none)

/-- One input through the stages that follow one another; stages not fed yet are in the zero state. -/
def hbChain : List (List Int) → List HbStage → Int → List HbStage × Option Int
  | [], st, x => (st, some x)
  | t :: ts, st, x =>
    let r := hbStep t (st.headD { hist := [], odd := false }) x
    match r.2 with
    | none => (r.1 :: st.tail, none)
    | some y => let q := hbChain ts st.tail y; (r.1 :: q.1, q.2)

/-- The zero states of a chain at which time goes on: whether each stage waits for its second input is kept (R108). -/
def hbZero (st : List HbStage) : List HbStage := st.map (fun x => { x with hist := [] })

/-- Stages of a grain (R125). -/
def grainStages (grain : Nat) : Nat := grain + 3

/-- Outputs of the stages of a grain for a stream of density 1 from the restart on, until `n` inputs are consumed; the sinc⁴
stage delivers its partial sums first (R101, R140). -/
def stepResponse (h : HalfBand) (grain : Nat) : Nat → Nat → List HbStage → List Int
  | 0, _, _ => []
  | n + 1, j, st =>
    let s : Int := [52360, 557040, 1012616].getD j 1048576
    let r := hbChain (h.taps.take (grainStages grain)) st s
    let rest := stepResponse h grain n (j + 1) r.1
    match r.2 with
    | some y => y :: rest
    | none => rest

/-- g_k of R140 in 10⁻⁶, by grain. -/
def stepTable (grain : Nat) : List Nat :=
  [[0, 2, 131, 3874, 39216, 176033, 428517, 702186, 891540, 979322, 1006118, 1003457, 1000521, 999984],
   [0, 48, 2217, 30945, 158802, 421633, 713380, 904227, 986154, 1005873, 1002611, 1000340, 999991],
   [1, 109, 4685, 51307, 214918, 487260, 754619, 925806, 992740, 1005212, 1002048, 1000233, 999994],
   [2, 174, 6502, 62876, 238551, 511947, 771035, 933418, 994617, 1004760, 1001792, 1000198, 999995]].getD grain []

/-- Settle count of a grain (R125). -/
def settleCount (grain : Nat) : Nat := if grain = 0 then 14 else 13

/-- A set of coefficients gives one grain the step response of R140: the table within its rounding, and |g_k - 1| ≤ 2⁻²⁰ from the
settle count on. -/
def stepOk (h : HalfBand) (grain : Nat) : Bool :=
  let full : Nat := 2 ^ (20 + h.frac * grainStages grain)
  let out := stepResponse h grain (32 * 8 * 2 ^ grain) 0 []
  out.zipIdx.all (fun e =>
    (match (stepTable grain)[e.2]? with
     | some t => decide ((2 * (e.1 * 1000000 - (t * full : Nat))).natAbs ≤ full)
     | none => true) &&
    (decide (e.2 < settleCount grain) || decide ((e.1 - (full : Nat)).natAbs * 2 ^ 20 ≤ full)))

/-- Coefficients that meet R140 at every grain: six stages of at most 31 taps, so that 32 outputs show the whole transient. -/
def halfBandOk (h : HalfBand) : Bool :=
  decide (h.taps.length = 6) && h.taps.all (fun t => decide (t.length ≤ 31)) &&
    stepOk h 0 && stepOk h 1 && stepOk h 2 && stepOk h 3

/-- Coefficients of this model's own that meet R140 (DESIGN CHOICE, log 120). -/
def halfBandModel : HalfBand :=
  { frac := 40
    taps :=
   [[274877906944, 549755813888, 274877906944],
    [-34359738368, 0, 309237645312, 549755813888, 309237645312, 0, -34359738368],
    [4052342, 43607177, -141441200, 148542382, 401323191, 960664132, 11272839707, 16051800438, 56668185750,
     76216785933, 124097792802, 145703092401, 152500747818, 156393079439, 119913907085, 102969233154, 63261598702,
     44068740453, 22667257026, 12378924703, 1873253512, -3626399825, -2021056925, -1546601427, -621824672,
     -145724033, 12052452, 7190145, 5114],
    [14149685175, -18238311598, 169716254480, 31859274898, 192709859467, 245597527991, 158491801513, 108907350301,
     100825155263, 67003788799, 23005902847, 8303472366, 9233435292, -413247767, -11038458436, -4656112949,
     5141751711, 1776374564, -3990943493, -516804856, 3307828989, -1528232019, -1728420567, 3147956077, -2115063936,
     499462785, 129662232, -81200908, 11879555],
    [14907170167, -176029839809, 1018104908175, -2173857124881, 2791289631163, -853685368160, -589342803288,
     893479181084, 300044902423, -290634548589, 22178350510, 257977279618, -133671793479, 502373084, 52115817021,
     -43342924658, 11016782004, -1505877760, -34486849],
    [18346086778, -179374497724, 837423672257, -1356496950486, 1375639680196, 100153473058, -453780951707,
     357930808111, 486301026445, -163737329370, -88946617817, 216940722681, 34957532427, -184519972844, 165594802684,
     -84849671660, 20398459684, -2403739942, -64904995]] }

/-- The half-band stages of every channel: the device's own, if they meet R140 (log 120). -/
def halfBand : HalfBand := if halfBandOk Config.halfBandRaw then Config.halfBandRaw else halfBandModel

/-! All-pass networks (R182) -/

/-- Product of 1 + a e^(jω) over sections, for cos ω and sin ω in units of 2⁻¹⁰⁰ and a in SQ2.34; `conj`: of the conjugates. -/
def leadProduct (l : List Int) (c s : Int) (conj : Bool) : Int × Int :=
  l.foldl (fun (p : Int × Int) a =>
    let re := fxOne + a * c / 2 ^ 34
    let im := (if conj then -(a * s) else a * s) / 2 ^ 34
    ((p.1 * re - p.2 * im) / fxOne, (p.1 * im + p.2 * re) / fxOne)) (fxOne, 0)

/-- H_I leads H_V by 90° within an angle whose tangent is `tol` 10⁻⁹ at a frequency of num / den of the output rate. -/
def leadAt (tol : Nat) (ai av : List Int) (num den : Nat) : Bool :=
  let w := fxCosSin num den
  let p := leadProduct ai w.1 w.2 false
  let q := leadProduct av w.1 w.2 true
  let re := p.1 * q.1 - p.2 * q.2
  let im := p.1 * q.2 + p.2 * q.1
  -- the phase of a section is -ω + 2 arg (1 + a e^(jω))
  decide (0 < 2 * re * im) && decide ((re * re - im * im).natAbs * 1000000000 ≤ tol * (2 * re * im).toNat)

/-- The test frequencies of a rate in mHz: four to the octave from 40 Hz, and 0.40 of the output rate. -/
def leadGrid (g : Nat) : List Nat :=
  let top := 400 * rateOf g
  (((List.range 10).flatMap (fun m => [40000, 47568, 56569, 67272].map (· * 2 ^ m))).filter (· < top)) ++ [top]

/-- The lead R182 allows, as a tangent in 10⁻⁹: 0.005°, and at 64 and 32 kS/s the least that eight sections reach (log 121). -/
def leadTol (g : Nat) : Nat := if g = 0 then 479966 else if g = 1 then 220784 else 87441

/-- Coefficients of both networks for a rate that keep R182's lead at the test frequencies. -/
def leadOk (g : Nat) (ai av : List Int) : Bool :=
  decide (ai.length = 8) && decide (av.length = 8) && (ai ++ av).all (fun a => decide (a.natAbs < 2 ^ 34)) &&
    (leadGrid g).all (fun f => leadAt (leadTol g) ai av f (1000 * rateOf g))

/-- Coefficients of this model's own that keep R182's lead: those of H_I (true) and H_V (DESIGN CHOICE, log 121). -/
def allPassModel (iSide : Bool) (g : Nat) : List Int :=
  if g = 0 then
    if iSide then [-17118273916, -16957892473, -16513387865, -15261289477, -12022972733, -5274138618, 4356165151, 14346065116]
    else [-17161215257, -17056674470, -16792682514, -16042955052, -13994441306, -9139373653, -629047855, 9308118918]
  else if g = 1 then
    if iSide then [-17068449700, -16803103424, -16142605956, -14474799437, -10660745332, -3686890908, 5346099641, 14558116884]
    else [-17145599126, -16963085392, -16549433704, -15493437496, -12922459212, -7570162855, 740780600, 9892615044]
  else
    if iSide then [-16979790368, -16544202463, -15576732798, -13403819788, -9036345971, -2016455689, 6331770263, 14771890757]
    else [-17117389333, -16800880319, -16159627816, -14699108807, -11554222560, -5819944305, 2125845732, 10478154359]

/-- The eight coefficients of H_I (true) or H_V at a rate: the device's own, if they keep R182's lead (log 121). -/
def allPass (iSide : Bool) (g : Nat) : List Int :=
  let own (i : Bool) := (List.range 8).map (Config.allPassRaw i g)
  if leadOk g (own true) (own false) then own iSide else allPassModel iSide g

/-! Low-pass of the window engine (R207) -/

/-- The modified Bessel function I₀(x), for y = x² / 4: the series of y^j / (j!)². -/
def besselI0 (y : Int) : Int :=
  ((List.range 64).foldl (fun (a : Int × Int) (j : Nat) =>
    let t := fxMul a.2 y / ((j + 1) * (j + 1))
    (a.1 + t, t)) (fxOne, fxOne)).1

/-- Tap k of a low-pass with cutoff 4,450 Hz at a rate, in units of 2^-100: a sinc under a Kaiser window of β = 10.06 over 2 m + 1
taps. -/
def kaiserTap (rate m k : Nat) : Int :=
  let y0 : Int := fxOne * 2530090 / 100000
  let w := besselI0 (y0 - y0 * (k * k : Nat) / (m * m : Nat)) * fxOne / besselI0 y0
  let sinc := if k = 0 then fxOne * 8900 / rate else (fxCosSin (4450 * k : Nat) rate).2 * fxOne / (fxPi * k)
  fxMul w sinc

/-- Half of a linear-phase low-pass of this model's own, centre tap first, in units of 2^-40: unit gain at 0 (DESIGN CHOICE, log
17). -/
def lowPassModel (g : Nat) : List Int :=
  let rate := rateOf g
  let m := rate / 200
  let side := (List.range m).map (fun k => kaiserTap rate (m + 1) (k + 1) / 2 ^ 60)
  (2 ^ 40 - 2 * side.sum) :: side

/-- Gain of such a filter at a frequency of num / den of the rate, in units of 2^-40: a sum of cosines, by Clenshaw's recurrence. -/
def firGain (h : List Int) (num den : Nat) : Int :=
  let c := (fxCosSin num den).1
  let r := (h.drop 1).reverse.foldl (fun (a : Int × Int) x => (x * 2 ^ 20 + 2 * fxMul a.1 c - a.2, a.1)) (0, 0)
  h.headD 0 + 2 * (fxMul r.1 c - r.2) / 2 ^ 20

/-- The taps keep R207's limits every 50 Hz: ±0.005 dB up to 4.1 kHz, 100 dB from 4.8 kHz up to half the rate. -/
def lowPassOk (g : Nat) (h : List Int) : Bool :=
  let rate := rateOf g
  let gain (i : Nat) := firGain h (50 * i) rate
  decide (h.length ≤ 400) && (List.range 83).all (fun i => decide (((gain i - 2 ^ 40).natAbs * 1000000) ≤ 575 * 2 ^ 40)) &&
    ((List.range (rate / 100 + 1)).drop 96).all (fun i => decide ((gain i).natAbs * 100000 ≤ 2 ^ 40))

/-- The window engine's low-pass at a rate, centre tap first: the device's own, if it keeps R207's limits (log 17). -/
def lowPass (g : Nat) : List Int :=
  let own := Config.lowPassRaw g
  if lowPassOk g own then own else lowPassModel g

/-- Outputs of a filter over values of which the first ones precede the first output. -/
def convolve (taps : List Int) : List Int → Nat → List Int
  | _, 0 => []
  | [], _ => []
  | x :: t, n + 1 => roundDiv ((taps.zip (x :: t)).foldl (fun a e => a + e.1 * e.2) 0) (2 ^ 40) :: convolve taps t n

/-- Values through a linear-phase filter given by half of it, its delay removed: nothing stands before the first and after the last
value. -/
def linearPhase (h zs : List Int) : List Int :=
  let pad := List.replicate (h.length - 1) (0 : Int)
  convolve ((h.drop 1).reverse ++ h) (pad ++ zs ++ pad) zs.length

end Sys2Proof.Machine
end

