-- ==== Sys2Proof/Machine/Chain.lean ====
section
/-!
DEFINITION. The sample path of one exposure: sinc stage and overrange (R101 to R105), bracket merge (R112 to R121), DC block
(R132 to R136), sample word (R128 to R130), compensation filter (R144, R147) and correction stage (R151 to R157).
-/

namespace Sys2Proof.Machine

/-! Rates (R24, R125) -/

/-- The rate index g of R185: GRAINNOW + MCLKLP, from a copy of the settings. -/
def effG (eff : List (Nat × BitVec 32)) : Nat := effOf eff FLT_STAT_GRAINNOW + effOf eff PWR_CTL_MCLKLP

/-- Output period in HFREF cycles: 256 at the Coarse grain, doubled with each step of g. -/
def periodOf (g : Nat) : Nat := 256 * 2 ^ g

/-- Sample instants in an interval of HFREF cycles that starts at one (R24). -/
def instantsIn (g len : Nat) : Nat := (len + periodOf g - 1) / periodOf g

/-- Settle count of the grain in effect (R125). -/
def grainSettle (eff : List (Nat × BitVec 32)) : Nat := settleCount (effOf eff FLT_STAT_GRAINNOW)

/-- MCLK periods in an interval of HFREF cycles (R92). -/
def mclksIn (eff : List (Nat × BitVec 32)) (len : Nat) : Nat := len / 2 ^ effOf eff PWR_CTL_MCLKLP

/-! Sinc stage (R101, R103) -/

def choose3 (n : Nat) : Int := ((n * (n - 1) * (n - 2) / 6 : Nat) : Int)

/-- Coefficient c_i of (1 + z⁻¹ + … + z⁻³¹)⁴, i = 0 to 124. -/
def sincTap (i : Nat) : Int :=
  choose3 (i + 3) - 4 * choose3 (i - 29) + 6 * choose3 (i - 61) - 4 * choose3 (i - 93)

/-- Output of the sinc stage from the newest bits, newest first; bits before the restart count as 0. -/
def sincAt (h : List Bool) : Int :=
  h.zipIdx.foldl (fun a e => if e.1 then a + sincTap e.2 else a - sincTap e.2) 0

/-- The outputs at every 32nd MCLK edge from an exposure's start on, none before the first bit after a restart, and the bits
kept for the next exposure. -/
def sincGo : Nat → List Bool → List Bool → List (Option Int) × List Bool
  | 0, h, _ => ([], h)
  | n + 1, h, st =>
    let o := if h.isEmpty then none else some (sincAt h)
    let r := sincGo n (((st.take 32).reverse ++ h).take 125) (st.drop 32)
    (o :: r.1, r.2)

/-- A run of 64 identical bits (R107, R109). -/
def hasRun64 (l : List Bool) : Bool :=
  (l.foldl (fun (a : Bool × Nat × Bool) b =>
    let n := if b = a.1 then a.2.1 + 1 else 1
    (b, n, a.2.2 || decide (64 ≤ n))) (true, 0, false)).2.2

/-- The density test of R107: every output of the exposure beyond ±0.95. -/
def denseLoss (outs : List (Option Int)) : Bool :=
  let l := outs.filterMap id
  !l.isEmpty && l.all (fun s => decide (996147 < s.natAbs))

/-- The bits sampled in an interval of `n` MCLK periods: those a command gives, then alternating ones, density 0 (DESIGN CHOICE,
log 118). -/
def fitStream (n : Nat) (l : List Bool) : List Bool :=
  (l ++ (List.range (n - l.length)).map (fun i => i % 2 == 0)).take n

/-! Half-band chain (R102, R104, R114, R124) -/

/-- One output sample of a member: its value, OVR, and whether a sinc⁴ output since the previous sample fired (R114). -/
structure FrontSmp where
  v : Int
  ovr : Bool
  fired : Bool
  deriving DecidableEq, Repr

/-- One sinc⁴ output through a member's detectors and half-band stages, of a grain and an overrange threshold; while the channel is
lost the stages hold zero (R102, R104, R108, R114). -/
def frontStep (grain th : Nat) (lost : Bool) (c : ChState) (o : Int) : ChState × Option FrontSmp :=
  let hot := c.ovrPend || decide (th < o.natAbs)
  let fired := c.firePend || decide (2 ^ 19 < o.natAbs)
  let r := hbChain (halfBand.taps.take (grainStages grain)) c.hb (if lost then 0 else o * 2 ^ 9)
  let c := { c with hb := if lost then hbZero r.1 else r.1 }
  match r.2 with
  | none => ({ c with ovrPend := hot, firePend := fired }, none)
  | some y =>
    ({ c with ovrPend := false, firePend := false, ovr := if hot then settleCount grain else c.ovr - 1 },
     some { v := satX (roundDiv y (2 ^ (halfBand.frac * grainStages grain))), ovr := hot || c.ovr != 0, fired := fired })

/-! DC block and sample word (R128, R132 to R136) -/

/-- A of R133. -/
def dcGain (tau fo : Nat) : Int := roundDiv (2 ^ 36) (2 ^ tau * fo)

/-- The DC block on one sample. -/
def dcBlock (on freeze : Bool) (a : Int) (c : ChState) (x : Int) (ovr settle loss hg : Bool) : ChState × Smp :=
  let frz := on && (freeze || ovr || settle || loss || c.frz != 0)
  let v := if loss then 0 else if on then satX (x - roundDiv c.dcE (2 ^ 36)) else x
  let e := if on && !frz then c.dcE + roundDiv ((x * 2 ^ 36 - c.dcE) * a) (2 ^ 36) else c.dcE
  ({ c with dcE := e, frz := c.frz - 1 }, { v := v, settle := settle, ovr := ovr, hg := hg, frz := frz, loss := loss })

/-- The 36-bit sample word with even parity (R128). -/
def wordOf (x : Smp) : BitVec 36 :=
  let n := unsignedOf 30 x.v * 2 ^ 6 + x.settle.toNat * 32 + x.ovr.toNat * 16 + x.hg.toNat * 8 + x.frz.toNat * 4
    + x.loss.toNat * 2
  BitVec.ofNat 36 (n + ((List.range 36).filter (bitAt n)).length % 2)

/-- What a read of a word finds (R130): a word of odd parity is a LOSS sample of value 0. -/
def readWord (w : BitVec 36) : Smp × Bool :=
  let n := w.toNat
  if ((List.range 36).filter (bitAt n)).length % 2 = 0 then
    ({ v := signedOf 30 (n / 2 ^ 6), settle := bitAt n 5, ovr := bitAt n 4, hg := bitAt n 3, frz := bitAt n 2,
       loss := bitAt n 1 }, false)
  else ({ v := 0, settle := bitAt n 5, ovr := bitAt n 4, hg := bitAt n 3, frz := bitAt n 2, loss := true }, true)

/-- One sample of a channel that is not bracketed: alignment delay, flags, DC block (R124, R131). -/
def plainStep (align dc freeze loss : Bool) (a : Int) (c : ChState) (x : FrontSmp) : ChState × Smp :=
  let q := if align then c.delay.getD 1 (0, false) else (x.v, x.ovr)
  let settle := c.settle != 0 || c.filtSettle != 0
  let c := { c with delay := ((x.v, x.ovr) :: c.delay).take 2, settle := c.settle - 1, filtSettle := c.filtSettle - 1 }
  dcBlock dc freeze a c q.1 q.2 settle loss false

/-- A step function along a list. -/
def mapState {σ α β : Type} (f : σ → α → σ × β) : σ → List α → σ × List β
  | s, [] => (s, [])
  | s, x :: t =>
    let r := f s x
    let q := mapState f r.1 t
    (q.1, r.2 :: q.2)

/-! Bracket merge (R112 to R116) -/

/-- What the merge keeps of one sample for the tracking loop: h, l, and whether a flag excludes the exposure (R117). -/
structure TrackSmp where
  h : Int
  l : Int
  bad : Bool
  deriving DecidableEq, Repr

/-- The member a merged sample is taken from (R113 to R115, R121): `fired` since the previous sample. -/
def mergeSel (hgLost fired : Bool) (b : BrkState) : Bool :=
  !hgLost && !fired && (b.sel || b.count == 64)

/-- Consecutive small low-gain samples up to one with value l (R115); none while the high-gain member is lost or settles (R121). -/
def mergeCount (hgLost fired : Bool) (b : BrkState) (sel : Bool) (l : Int) : Nat :=
  if sel || hgLost || b.hSettle != 0 || decide (8053064 ≤ l.natAbs) then 0
  else min 64 ((if fired then 0 else b.count) + 1)

/-- One merged sample (R112): both members aligned, the selected one taken. -/
def mergeStep (hgLost dc freeze loss : Bool) (a : Int) (ratio : Nat) (delay : Int) (bc : BrkState × ChState)
    (x : FrontSmp × FrontSmp) : (BrkState × ChState) × Smp × TrackSmp :=
  let b := { bc.1 with lOld := ((x.1.v, x.1.ovr) :: bc.1.lOld).take 5, hOld := ((x.2.v, x.2.ovr) :: bc.1.hOld).take 5 }
  let at_ (l : List (Int × Bool)) (i : Nat) := l.getD i (0, false)
  let l := at_ b.lOld 2
  let q := (-delay) / 2 ^ 24
  let f := (-delay) % 2 ^ 24
  let back (i : Int) := at_ b.hOld (2 - q - i).toNat
  let hv := lagrange f (back (-1)).1 (back 0).1 (back 1).1 (back 2).1
  let ho := (back (-1)).2 || (back 0).2 || (back 1).2 || (back 2).2
  let sel := mergeSel hgLost x.2.fired b
  let settle := bc.2.settle != 0 || bc.2.filtSettle != 0
  let c := { bc.2 with frz := if sel = b.sel then bc.2.frz else 64, settle := bc.2.settle - 1, filtSettle := bc.2.filtSettle - 1 }
  let v := if sel then satX (roundDiv (hv * 2 ^ 26) ratio) else l.1
  let r := dcBlock dc freeze a c v (if sel then ho else l.2) settle loss sel
  (({ b with sel := sel, count := mergeCount hgLost x.2.fired b sel l.1, hSettle := b.hSettle - 1 }, r.1), r.2,
   { h := hv, l := l.1, bad := l.2 || ho || settle || loss || b.hSettle != 0 })

/-- Switches in a run of merged samples: to the low-gain member, and returns (R122). -/
def countSwitches (first : Bool) (l : List Smp) : Nat × Nat :=
  let e := (first :: l.map Smp.hg).zip (l.map Smp.hg)
  ((e.filter (fun x => x.1 && !x.2)).length, (e.filter (fun x => !x.1 && x.2)).length)

/-! Tracking loop (R117 to R119) -/

/-- Gain and delay updates of an in-range exposure, before limiting: RATIO, and DELAY unless R118 divides by 0. -/
def trackLoop (tau ratio : Nat) (delay : Int) (l : List TrackSmp) : Int × Option Int :=
  let hl := l.foldl (fun (a : Int) x => a + x.h * x.l) 0
  let ll := l.foldl (fun (a : Nat) x => a + (x.l * x.l).toNat) 0
  let ratio' := (ratio : Int) + roundDiv (hl * 2 ^ 26 - (ratio : Int) * ll) (ll * tau)
  let trip := (l.zip (l.drop 1)).zip (l.drop 2)
  let num := trip.foldl (fun (a : Int) e => a + (e.1.2.h * 2 ^ 26 - e.1.2.l * ratio) * (e.2.l - e.1.1.l)) 0
  let dd := trip.foldl (fun (a : Nat) e => a + ((e.2.l - e.1.1.l) * (e.2.l - e.1.1.l)).toNat) 0
  (ratio', if dd = 0 then none else some (delay + roundDiv (2 * num * 2 ^ 24) (ratio * dd * tau)))

/-- The exposure is in range but for the firing test (R117). -/
def trackRange (l : List TrackSmp) : Bool :=
  !l.isEmpty && l.all (fun x => !x.bad) && decide (l.length * 2 ^ 38 < l.foldl (fun a x => a + (x.l * x.l).toNat) 0)

/-! Compensation filter (R144, R147) -/

/-- Output of one bank over the history, newest value first. -/
def fir (bank hist : List Int) : Int :=
  satQ (roundDiv ((bank.zip hist).foldl (fun a e => a + e.1 * e.2) 0) (2 ^ 29))

/-- One sample through a channel's compensation filter; `act` and `old` are the active bank and the other one. -/
def filtStep (run : Bool) (act old : List Int) (c : ChState) (x : Smp) : ChState × Smp :=
  let hist := (x.v :: c.hist).take 64
  let (y, fade) :=
    if !run then (x.v * 2 ^ 5, c.fade)
    else match c.fade with
      | some (len, i) =>
        if i < len then (roundDiv (((len : Int) - i) * fir old hist + i * fir act hist) len, some (len, i + 1))
        else (fir act hist, some (len, i))
      | none => (fir act hist, none)
  ({ c with hist := hist, histLen := min 64 (c.histLen + 1), fade := fade }, { x with v := y })

/-! Correction (R151 to R157) -/

/-- Breakpoint j of a table: MU, GAIN, DELAY (R158). -/
def tableMu (t : List Int) (j : Nat) : Int :=
  if (List.range 17).all (fun i => corrWord t (2 + 3 * i) == 0) then (2 * (j : Int) - 32) * 2 ^ 24
  else corrWord t (2 + 3 * j)
def tableGain (t : List Int) (j : Nat) : Int := corrWord t (3 + 3 * j)
def tableDelay (t : List Int) (j : Nat) : Int := corrWord t (4 + 3 * j)

/-- G and D of an exposure from a table and the magnitude index (R155, R157). -/
def corrGD (t : List Int) (mu : Int) : Int × Int :=
  if corrWord t 0 = 0 then (tableGain t 0, tableDelay t 0)
  else if mu ≤ tableMu t 0 then (tableGain t 0, tableDelay t 0)
  else if tableMu t 16 ≤ mu then (tableGain t 16, tableDelay t 16)
  else
    let j := ((List.range 16).filter (fun i => decide (tableMu t i ≤ mu))).length - 1
    let m0 := tableMu t j
    let w := (mu - m0) * 2 ^ 30 / (tableMu t (j + 1) - m0)
    (tableGain t j + roundDiv ((tableGain t (j + 1) - tableGain t j) * w) (2 ^ 30),
     tableDelay t j + roundDiv ((tableDelay t (j + 1) - tableDelay t j) * w) (2 ^ 30))

/-- One corrected sample from the newest outputs, newest first (R151 to R153): `geff` is G_eff and `deff` D_eff. -/
def corrStep (geff deff : Int) (ys : List Smp) (y : Smp) : List Smp × Smp :=
  let l := y :: ys
  let q := (-deff) / 2 ^ 24
  let f := (-deff) % 2 ^ 24
  let p (i : Int) : Smp :=
    l.getD (4 - q - i).toNat { v := 0, settle := true, ovr := false, hg := false, frz := false, loss := false }
  let u := lagrange f (p (-1)).v (p 0).v (p 1).v (p 2).v
  let any (g : Smp → Bool) := g (p (-1)) || g (p 0) || g (p 1) || g (p 2)
  (l.take 7,
   { v := satQ (roundDiv (geff * u) (2 ^ 34)), settle := any Smp.settle, ovr := any Smp.ovr, loss := any Smp.loss,
     hg := (p 0).hg, frz := (p 0).frz })

/-- G_eff of R151. -/
def gainEff (g t : Int) : Int := roundDiv (g * t) (2 ^ 34)

/-- D_eff of R152. -/
def delayEff (d dPair : Int) : Int := clampInt (-(2 ^ 25)) (2 ^ 25) (d + dPair)

/-- The magnitude index of a sum of squares over N samples (R154). -/
def magnitude (ss n : Nat) : Int :=
  let q := ss / n
  if q = 0 then -68 * 2 ^ 24
  else
    let e := log2 q
    ((e : Int) - 68) * 2 ^ 24 + (((q - 2 ^ e) * 2 ^ 24 / 2 ^ e : Nat) : Int)

/-! Engine sums (R179 to R188) -/

/-- Samples of two channels paired by instant: the later ends of both sequences coincide. -/
def pairUp (a b : List Smp) : List (Smp × Smp) := (a.drop (a.length - b.length)).zip (b.drop (b.length - a.length))

/-- SS_c and N_c (R179). -/
def chanSum (ch : Nat) (z : List Smp) : ChanSum :=
  let l := z.filter (fun x => !x.settle && !x.loss)
  { ch := ch, ss := l.foldl (fun a x => a + (x.v * x.v).toNat) 0, n := l.length }

/-- One first-order all-pass section (R182). -/
def allPassSection (a : Int) (st : Int × Int) (x : Int) : (Int × Int) × Int :=
  let y := satQ (roundDiv (a * x + 2 ^ 34 * st.1 - a * st.2) (2 ^ 34))
  ((x, y), y)

/-- The eight sections of a network on one sample. -/
def allPassNet (iSide : Bool) (g : Nat) (st : List (Int × Int)) (x : Int) : List (Int × Int) × Int :=
  (allPass iSide g).zipIdx.foldl (fun (acc : List (Int × Int) × Int) a =>
    let r := allPassSection a.1 (st.getD a.2 (0, 0)) acc.2
    (acc.1 ++ [r.1], r.2)) ([], x)

/-- Coefficients a₁, a₂, b and Γ of the fundamental resonator in SQ2.34 (R183), for a frequency in UQ8.24 Hz. -/
def resonCoef (fc g : Nat) : Int × Int × Int × Int :=
  let fo := rateOf g
  let r := fxOne - fxPi * 5 / fo
  let cs := fxCosSin fc (fo * 2 ^ 24)
  let cs2 := fxCosSin (2 * fc) (fo * 2 ^ 24)
  let a1 := 2 * fxMul r cs.1
  let a2 := fxMul r r
  let b := (fxOne - a2) / 2
  let q (x : Int) : Int := roundDiv x (2 ^ 66)
  let nre := fxMul b (fxOne - cs2.1)
  let nim := fxMul b cs2.2
  let dre := fxOne - fxMul a1 cs.1 + fxMul a2 cs2.1
  let dim := fxMul a1 cs.2 - fxMul a2 cs2.2
  let n2 := fxMul nre nre + fxMul nim nim
  let d2 := fxMul dre dre + fxMul dim dim
  let h2 := if d2 = 0 then fxOne else n2 * fxOne / d2
  (q a1, q a2, q b, q (fxMul h2 h2))

/-- One second-order resonator section (R183). -/
def resonSection (k : Int × Int × Int) (st : Int × Int × Int × Int) (x : Int) : (Int × Int × Int × Int) × Int :=
  let (x1, x2, y1, y2) := st
  let y := satQ (roundDiv (k.2.2 * (x - x2) + k.1 * y1 - k.2.1 * y2) (2 ^ 34))
  ((x, x1, y, y1), y)

/-- One sample through the networks of one side of an element: all-pass output and resonator output. -/
def netStep (iSide : Bool) (g : Nat) (k : Int × Int × Int) (n : NetState) (z : Smp) : NetState × Int × Int :=
  let (ap, v) := allPassNet iSide g n.ap z.v
  let r1 := resonSection k (n.rs.getD 0 (0, 0, 0, 0)) z.v
  let r2 := resonSection k (n.rs.getD 1 (0, 0, 0, 0)) r1.2
  ({ n with ap := ap, rs := [r1.1, r2.1] }, v, r2.2)

/-- The sums of one element over one exposure (R179 to R181): networks run over every sample of a channel, sums over the
included ones. -/
def elemSum (g : Nat) (coef : Int × Int × Int × Int) (vch ich : Nat) (nv ni : NetState) (zv zi : List Smp)
    (goneV goneI : Bool) : ElemSum × NetState × NetState :=
  let k := (coef.1, coef.2.1, coef.2.2.1)
  let rv := mapState (netStep false g k) nv zv
  let ri := mapState (netStep true g k) ni zi
  let l := pairUp zv zi
  let m := ((rv.2.drop (zv.length - zi.length)).zip (ri.2.drop (zi.length - zv.length)))
  let inc := (l.zip m).filter (fun e => !(e.1.1.settle || e.1.1.loss || e.1.2.settle || e.1.2.loss))
  let loss := (l.filter (fun e => e.1.loss || e.2.loss)).length
  let settle := (l.filter (fun e => !(e.1.loss || e.2.loss) && (e.1.settle || e.2.settle))).length
  let ovr := (inc.filter (fun e => e.1.1.ovr || e.1.2.ovr)).length
  let a := inc.foldl (fun a e => a + e.2.1.2 * e.2.2.2) 0
  ({ vch := vch, ich := ich, p := inc.foldl (fun a e => a + e.1.1.v * e.1.2.v) 0, n := inc.length,
     q := inc.foldl (fun a e => a + e.2.1.1 * e.2.2.1) 0,
     a1 := if coef.2.2.2 = 0 then 0 else roundDiv (a * 2 ^ 34) coef.2.2.2.toNat,
     sv := inc.foldl (fun a e => a + (e.1.1.v * e.1.1.v).toNat) 0,
     si := inc.foldl (fun a e => a + (e.1.2.v * e.1.2.v).toNat) 0, settle := settle,
     loss := loss + (if goneV then zi.length else if goneI then zv.length else 0), ovr := ovr },
   rv.1, ri.1)

/-- Increment of a sum (R185). -/
def increment (g : Nat) (x : Int) : Nat := (2 * x.natAbs + 2 ^ (10 - g)) / (2 * 2 ^ (10 - g))

/-- The ten increments of sums P, Q, A1 and S (R186). -/
def tenIncs (g : Nat) (p q a1 s : Int) : List Nat :=
  let d := increment g
  let on (b : Bool) (x : Int) : Nat := if b then d x else 0
  let pp := decide (0 ≤ p)
  let qp := decide (0 ≤ q)
  let ap := decide (0 ≤ a1)
  [on pp p, on (!pp) p, on ap a1, on (!ap) a1, on (pp && qp) q, on (!pp && qp) q, on (!pp && !qp) q, on (pp && !qp) q,
   on pp s, on (!pp) s]

/-- The apparent sum of an element (R181). -/
def apparent (svec : Bool) (e : ElemSum) : Nat :=
  if svec then isqrt ((e.p * e.p + e.q * e.q).toNat) else isqrt (e.sv * e.si)

/-- The 40 increments of a point from its elements (R186, R187): phase slots, then totals. -/
def pointIncs (g : Nat) (svec : Bool) (es : List ElemSum) : List Nat :=
  let phase (i : Nat) : List Nat :=
    match es[i]? with
    | some e => tenIncs g e.p e.q e.a1 (apparent svec e)
    | none => List.replicate 10 0
  let p := es.foldl (fun a e => a + e.p) 0
  let q := es.foldl (fun a e => a + e.q) 0
  let a1 := es.foldl (fun a e => a + e.a1) 0
  let s := if svec then isqrt ((p * p + q * q).toNat) else es.foldl (fun a e => a + apparent svec e) 0
  phase 0 ++ phase 1 ++ phase 2 ++ tenIncs g p q a1 s

/-- An element is in creep (R160). -/
def elemCreep (creep : Nat) (chans : List ChanSum) (e : ElemSum) : Bool :=
  let ss (c : Nat) := match chans.find? (fun x => x.ch == c) with | some x => x.ss | none => 0
  let t := creep * e.n * 2 ^ 36
  e.n == 0 || decide (ss e.vch * ss e.ich < t * t)

/-- Elements of a point by its settings (R175): voltage and current channel, in the order of the phase slots. -/
def pointElems (eff : List (Nat × BitVec 32)) (p : Nat) : List (Nat × Nat) :=
  let g := effOf eff (MET_CFG_VG p)
  let v (i : Nat) := effOf eff (if i = 0 then VGDEF_VCH0 g else if i = 1 then VGDEF_VCH1 g else VGDEF_VCH2 g)
  let c (i : Nat) := effOf eff (if i = 0 then MET_CUR_ICH0 p else if i = 1 then MET_CUR_ICH1 p else MET_CUR_ICH2 p)
  let w := effOf eff (MET_CFG_WIRING p)
  if w = 0 then [(v (effOf eff (MET_CFG_VSEL p)), c 0)]
  else if w = 1 then [(v 0, c 0), (v 1, c 1)]
  else [(v 0, c 0), (v 1, c 1), (v 2, c 2)]

/-- Current channels of a point, the neutral included (R175). -/
def pointCurrents (eff : List (Nat × BitVec 32)) (p : Nat) : List Nat :=
  (pointElems eff p).map (·.2) ++ (if effOf eff (MET_CFG_WIRING p) = 3 then [effOf eff (MET_CUR_ICHN p)] else [])

/-- Channels of a point. -/
def pointChans (eff : List (Nat × BitVec 32)) (p : Nat) : List Nat := (pointElems eff p).map (·.1) ++ pointCurrents eff p

/-- A development's result of one point: increments and creep from its sums (R161, R185 to R188). -/
def pointDev (eff : List (Nat × BitVec 32)) (chans : List ChanSum) (p : Nat) (es : List ElemSum) : PointDev :=
  let creep := es.all (elemCreep (effOf eff (MET_CREEP_CREEP p)) chans)
  { point := p, elems := es, creep := creep,
    incs := if creep then List.replicate 40 0 else pointIncs (effG eff) (effOf eff (MET_CFG_SVEC p) == 1) es }

/-- A result with what a faulty computation adds to sums of squares and active-power sums (R34). -/
def upsetResult (eff : List (Nat × BitVec 32)) (r : DevResult) (u : EngineUpset) : DevResult :=
  let chans := r.chans.map (fun c =>
    { c with ss := (u.ss.foldl (fun (a : Int) e => if e.1 = c.ch then a + e.2 else a) c.ss).toNat })
  { chans := chans,
    points := r.points.map (fun p =>
      pointDev eff chans p.point (p.elems.zipIdx.map (fun e =>
        { e.1 with p := u.p.foldl (fun a x => if x.1 = p.point ∧ x.2.1 = e.2 then a + x.2.2 else a) e.1.p }))) }

end Sys2Proof.Machine
end

