-- ==== Sys2Proof/Machine/Pio.lean ====
section
/-!
DEFINITION. Calibration pulses, trip outputs and pulse inputs (R222 to R240).
-/

namespace Sys2Proof.Machine

/-! Calibration pulses (R222 to R227) -/

/-- Outputs that run and follow a register of a point (R222), by mode. -/
def State.cfFollowing (s : State) (point slot : Nat) : List Nat :=
  (List.range 16).filter (fun n =>
    s.flag (PIO_CFSTAT_RUN n) && s.effGet (PIO_CFCFG_MP n) == point && s.effGet (PIO_CFCFG_SLOT n) == slot)

/-- Latent-pulse mode of an output. -/
def State.cfLatent (s : State) (n : Nat) : Bool := s.effGet (PIO_CFCFG_LATPULSE n) == 1

/-- A release enters every output that follows the register (R223). -/
def State.cfRelAmount (s : State) (point slot amount : Nat) : State :=
  (s.cfFollowing point slot).foldl (fun s n => s.cfAdd n amount) s

/-- Exposure `e` of a point is resolved with these fixed increments (0 when discarded): outputs of the default mode take
them, outputs of latent-pulse mode the difference to what was published (R223). -/
def State.cfResolve (s : State) (e : BitVec 72) (point : Nat) (incs : List Nat) : State :=
  State.each 40 (fun slot s =>
    (s.cfFollowing point slot).foldl (fun s n =>
      let c := s.cf n
      let pub := match c.pub.find? (fun x => x.1 == e) with | some x => x.2 | none => 0
      let s := s.modCf n (fun c => { c with pub := c.pub.filter (fun x => x.1 != e) })
      if e.toNat < c.first then s else s.cfAdd n ((incs.getD slot 0 : Int) - pub)) s) s

/-- Exposure `e` of a point is published as latent: outputs of latent-pulse mode take the increment, and a slot of theirs
starts (R223, R224). -/
def State.cfPublish (s : State) (e : BitVec 72) (point : Nat) (incs : List Nat) : State :=
  State.each 16 (fun n s =>
    if s.flag (PIO_CFSTAT_RUN n) ∧ s.effGet (PIO_CFCFG_MP n) = point ∧ s.cfLatent n ∧ (s.cf n).first ≤ e.toNat then
      let q := incs.getD (s.effGet (PIO_CFCFG_SLOT n)) 0
      (s.cfAdd n q).modCf n (fun c => { c with pub := c.pub ++ [(e, q)], due := c.due ++ [s.exp.now] })
    else s) s

/-- Rising times of the pulses of a slot that starts at `t` (R224): number and high time are given by the mode. -/
def cfSchedule (t k : Nat) (half : Bool) (width : Nat) (high : Option (Nat × Nat)) : List (Nat × Nat) :=
  let d := if half then 32768 / k else 0
  let ht := if half then d / 2 else width * 16384
  let t0 := match high with
    | some (fall, h) => max t (fall + h)
    | none => t
  (List.range k).map (fun i => (t0 + i * d, ht))

/-- A slot of an output starts at HFREF time `t` (R224, R225). -/
def State.cfSlotAt (s : State) (n t : Nat) : State :=
  let s := s.cfCancel n
  let c := s.cf n
  let kc := s.cfK n
  let d := if c.acc < kc ∨ kc = 0 then 0 else (c.acc / (kc : Int)).toNat
  let half := s.flag (PIO_CFCFG_WMODE n)
  let width := s.get (PIO_CFCFG_WIDTH n)
  let far := match c.lastRise with
    | some r => decide (r + 2 * width * 16384 ≤ t)
    | none => true
  let k := if half then min d 80 else if decide (1 ≤ d) && far then 1 else 0
  let s := s.modCf n (fun c => { c with slotEnd := t + 32768, sched := cfSchedule t k half width c.high })
  let s := s.cfAdd n (-((k * kc : Nat) : Int))
  let was := s.flag (PIO_CFSTAT_BACKLOG n)
  if k < d then
    (if was then s else (s.setFlag (PIO_CFSTAT_BACKLOG n) true).event 0x0A01 n .start d k 0)
  else if was then (s.setFlag (PIO_CFSTAT_BACKLOG n) false).event 0x0A01 n .stop 0 0 0
  else s

/-- Start and stop of an output at an exposure boundary (R222, R225); a pulse that is high completes through both. -/
def State.cfBoundary (s : State) (n : Nat) : State :=
  let run := s.flag (PIO_CFSTAT_RUN n)
  let en := s.flag (PIO_CFCFG_EN n)
  if en && !run then
    if s.cfK n = 0 then s.wrSetting (PIO_CFCFG n) (withField (s.rd (PIO_CFCFG n)) (PIO_CFCFG_EN n) 0)
    else
      let s := s.modCf n (fun c => { CfState.reset with first := s.exp.cur.toNat, high := c.high, lastRise := c.lastRise,
                                                        ball := if s.outputsOff then none else some c.high.isSome })
      (s.setFlag (PIO_CFSTAT_RUN n) true).wr (PIO_CFCNT n) 0
  else if !en && run then
    let s := s.cfCancel n
    let s := s.modCf n (fun c => { c with due := [], pub := [], stopping := c.high.isSome,
                                          ball := if c.high.isSome then c.ball else none })
    let s := (s.setFlag (PIO_CFSTAT_RUN n) false).setFlag (PIO_CFSTAT_DEBT n) false
    if s.flag (PIO_CFSTAT_BACKLOG n) then (s.setFlag (PIO_CFSTAT_BACKLOG n) false).event 0x0A01 n .stop 0 0 0 else s
  else s

/-- In the default mode the slot of an exposure that ended at `endAt` starts 34,473 HFREF cycles later (R224).  An output of latent-pulse
mode whose point did not run in it (`ran`: those that did), so that nothing of it is published, takes the same slot (R227, log 130). -/
def State.cfDue (s : State) (n endAt ran : Nat) : State :=
  if s.flag (PIO_CFSTAT_RUN n) ∧ ¬ (s.cfLatent n ∧ bitAt ran (s.effGet (PIO_CFCFG_MP n))) then
    s.modCf n (fun c => { c with due := c.due ++ [endAt + 34473] })
  else s

/-- The next edge of an output: the fall of the pulse that is high, else the rise of the next one (R224, R226). -/
def State.cfEdge (s : State) (n : Nat) : State :=
  let c := s.cf n
  match c.high with
  | some (fall, _) =>
    let s := s.modCf n (fun c => { c with high := none, stopping := false,
                                          ball := if c.stopping ∨ c.ball.isNone then none else some false })
    (s.setFlag (PIO_CFSTAT_HIGH n) false).reach fall
  | none =>
    match c.sched with
    | (t, ht) :: rest =>
      let s := s.modCf n (fun c => { c with high := some (t + ht, ht), sched := rest, lastRise := some t,
                                            ball := if s.mirStandby then none else some true })
      let s := (s.setFlag (PIO_CFSTAT_HIGH n) true).wr (PIO_CFCNT n) (s.rd (PIO_CFCNT n) + 1)
      s.reach t
    | [] => s

/-! Trip outputs (R228 to R232) -/

/-- Evaluation of every enabled output's sources at the resolution of a fixed exposure (R229). -/
def State.tripEvaluate (s : State) : State :=
  State.each 8 (fun n s => if s.flag (PIO_TRCFG_EN n) then (s.tripState n).tripDrive n else s) s

/-- A write of PIO_TRHOST acts at once (R54, R229): an output that its HOST bit trips is driven, and one already driven follows; an
output that a source alone tripped waits for its first evaluation. -/
def State.wrTrhost (w : WriteBy) (v : BitVec 32) (s : State) : State :=
  State.each 8 (fun n s =>
    let s := s.tripState n
    if (s.trip n).driven || ((s.trip n).tripped && bitAt (s.rd PIO_TRHOST).toNat n) then s.tripDrive n else s)
    (s.storeWrite w PIO_TRHOST v)

/-- A write of PIO_TRCFGn (R229): EN = 0 ends the trip, latch and minimum time and releases the ball; EN = 1 starts afresh. -/
def State.wrTrcfg (w : WriteBy) (n : Nat) (v : BitVec 32) (s : State) : State :=
  let t := s.storeWrite w (PIO_TRCFG n) v
  let was := s.flag (PIO_TRCFG_EN n)
  let en := t.flag (PIO_TRCFG_EN n)
  if was && !en then
    let trip := (t.trip n).tripped
    let t := t.modTrip n (fun x => { TripState.reset with changedAt := x.changedAt })
    let t := ((t.setFlag (PIO_TRSTAT_TRIPPED n) false).setFlag (PIO_TRSTAT_LATCHED n) false).tripBall n false
    if trip then t.event 0x0A03 n .stop 0 0 0 else t
  else if en then t.tripState n
  else t

/-- A write of a source slot (R228): with SEN = 1 and a CODE that is no trip source the whole slot stays unchanged. -/
def State.wrTrsrc (w : WriteBy) (n i : Nat) (v : BitVec 32) (s : State) : State :=
  if bitAt v.toNat 31 && !tripCodes.contains (v.toNat % 2 ^ 16) then s
  else (s.storeWrite w (PIO_TRSRC n i) v).tripState n

/-- A write of PIO_TRACK (R230): an acknowledge counts while no source is active and HOST[n] is 0. -/
def State.wrTrack (v : BitVec 32) (s : State) : State :=
  if !s.writable (.port .pcie) PIO_TRACK then s
  else State.each 8 (fun n s =>
    if bitAt v.toNat n ∧ s.tripSources n = 0 ∧ ¬ bitAt (s.get PIO_TRHOST_HOST) n then
      (s.modTrip n (fun t => { t with acked := true })).tripState n
    else s) s

/-- The readback of one ball (R231): a mismatch is counted unless the drive changed less than 100 µs ago. -/
def State.tripRead (s : State) (n : Nat) (level : Bool) : State :=
  if !s.flag (PIO_TRCFG_EN n) then s
  else
    let s := s.setFlag (PIO_TRSTAT_PINLVL n) level
    let low := s.flag (PIO_TRSTAT_DRIVE n)
    if s.exp.now < (s.trip n).changedAt + usCycles 100 then s
    else if level != low then s.modTrip n (fun t => { t with mismatch := 0 })
    else if !s.flag (PIO_TRCFG_RBEN n) then s
    else if (s.trip n).mismatch = 0 then s.modTrip n (fun t => { t with mismatch := 1 })
    else
      let s := (s.modTrip n (fun t => { t with mismatch := 0 })).setFlag (PIO_TRSTAT_RBFLT n) true
      (s.event 0x0A02 n .momentary low.toNat level.toNat 0).strike dTripRb n

/-! Pulse inputs (R233 to R239) -/

/-- Changes the state of a pulse input. -/
def State.modPin (s : State) (j : Nat) (f : PinState → PinState) : State :=
  { s with pio := { s.pio with pin := s.pio.pin.modify j f } }

/-- State of a pulse input. -/
def State.pin (s : State) (j : Nat) : PinState := s.pio.pin.getD j PinState.reset

/-- QUAD of the pair an input belongs to, as in effect (R234). -/
def State.pinQuad (s : State) (j : Nat) : Bool := s.effGet (PIO_PINCFG_QUAD (j - j % 2)) == 1

/-- A duration between two timestamps: a 60-bit difference in units of 2^-24 s (R214). -/
def tsSpan (a b : BitVec 64) : Nat := (tsKey b + 2 ^ 60 - tsKey a) % 2 ^ 60

/-- A counting edge for the frequency, in the exposure that holds its edge time, and for the missing-pulse event (R237, R238). -/
def State.pinEdge (s : State) (j at_ : Nat) : State :=
  let s := s.modPin j (fun p =>
    let q := { p with newest := (at_ :: p.newest).take 2 }
    if at_ < s.exp.startAt then q
    else { q with edges := p.edges + 1, first := if p.edges = 0 then at_ else p.first, last := at_ })
  match (s.pin j).missing with
  | some t0 =>
    ((s.modPin j (fun p => { p with missing := none })).setFlag (PIO_PINSTAT_MISSING j) false).event 0x0A04 j .stop
      (tsSpan t0 s.ts) 0 0
  | none => s

/-- The debounced level of an input changes (R233). -/
def State.pinLevel (s : State) (j : Nat) (level : Bool) (at_ : Nat) : State :=
  (s.modPin j (fun p => { p with level := level, changedAt := some at_ })).setFlag (PIO_PINSTAT_LEVEL j) level

/-- Debounce time of an input in HFREF cycles: a pair takes that of its first member (R233, R234). -/
def State.debounce (s : State) (j : Nat) : Nat :=
  usCycles (s.effGet (PIO_PINCFG_DEB (if s.pinQuad j then j - j % 2 else j)))

/-- The K-factor of an input (R234, R235): that of the pair's first member with QUAD. -/
def State.pinK (s : State) (j : Nat) : Nat :=
  let k := if s.pinQuad j then j - j % 2 else j
  s.effGet (PIO_PINK_LO_K k) + 2 ^ 32 * s.effGet (PIO_PINK_HI_K k)

/-- Adds counts to a quantity register, modulo 2^108 (R235). -/
def State.pinQuantity (s : State) (j c : Nat) : State :=
  { s with pio := { s.pio with pinq := s.pio.pinq.modify j (fun q => q + BitVec.ofNat 108 (c * s.pinK j)) } }

/-- The counts of an exposure: the quantity register of a standby follows the mirror frames instead (R235, R445). -/
def State.pinAdd (s : State) (j c : Nat) : State :=
  let s := if s.mirInput j then s else s.pinQuantity j c
  s.wr (PIO_PINCNT j) (s.rd (PIO_PINCNT j) + BitVec.ofNat 32 c)

/-- A rate of `n` per `d` HFREF cycles in UQ18.14 Hz, rounded to nearest (R237). -/
def pinRate (n d : Nat) : Nat := if d = 0 then 0 else min (2 ^ 32 - 1) ((2 * n * 16384000 * 16384 + d) / (2 * d))

/-- One count with its edge time (R235): of the exposure in progress, or of one that has ended, whose count goes to the register at
once (log 131). -/
def State.pinCount (s : State) (j at_ : Nat) : State :=
  if s.exp.running ∧ at_ < s.exp.startAt then (s.modPin j (fun p => { p with late := p.late + 1 })).pinAdd j 1
  else s.modPin j (fun p => { p with count := p.count + 1 })

/-- An accepted change of level (R233, R234); `both`: the other member of the pair changed in the same HFREF cycle. -/
def State.pinChange (s : State) (j : Nat) (level : Bool) (at_ : Nat) (both : Bool) : State :=
  let s := s.pinLevel j level at_
  let a := j - j % 2
  if s.pinQuad j && s.flag (PIO_PINSTAT_RUN a) then
    let s := if level then s.pinEdge j at_ else s
    if both then
      let o := a + (1 - j % 2)
      let l := !(s.pin o).level
      let s := s.pinLevel o l at_
      let s := if l then s.pinEdge o at_ else s
      (s.setFlag (PIO_PINSTAT_QERR a) true).event 0x0A05 (a / 2) .momentary 0 0 0
    else
      let la := (s.pin a).level
      let lb := (s.pin (a + 1)).level
      let forward := if j = a then la != lb else la == lb
      s.pinCount (if forward then a else a + 1) at_
  else if s.flag (PIO_PINSTAT_RUN j) && level != s.flag (PIO_PINCFG_EDGE j) then (s.pinCount j at_).pinEdge j at_
  else s

/-- Counting stops at a power fail: the counts since the last boundary are added at once (R235). -/
def State.pinsEnd (s : State) : State :=
  State.each 16 (fun j s =>
    if s.flag (PIO_PINSTAT_RUN j) then
      ((s.pinAdd j (s.pin j).count).modPin j (fun p => { p with count := 0 })).setFlag (PIO_PINSTAT_RUN j) false
    else s) s

/-- What the end of an exposure does at a pulse input (R235 to R237); `second` is the second counter when it differs. -/
def State.pinBoundary (s : State) (j : Nat) (second : Option Nat) : State :=
  let p := s.pin j
  if !s.flag (PIO_PINSTAT_RUN j) then s
  else
    let c2 := second.getD p.count
    let lo := min p.count c2
    let hi := max p.count c2
    let s := s.pinAdd j lo
    let s := if lo = hi then s
      else (((s.bump (PIO_PINDIF_PINDIF j) (hi - lo)).setFlag (PIO_PINSTAT_DIFF j) true).event 0x0A06 j .momentary hi lo
        0).strike dPulse j
    let frq :=
      if p.missing.isSome then 0
      else if 2 ≤ p.edges then pinRate (p.edges - 1) (p.last - p.first)
      else match p.newest with
        | t1 :: t0 :: _ => pinRate 1 (t1 - t0)
        | _ => 0
    (s.wr (PIO_PINFRQ j) (BitVec.ofNat 32 frq)).modPin j (fun p => { p with count := 0, late := 0, edges := 0 })

/-- Start and stop of an input at an exposure boundary (R239). -/
def State.pinStart (s : State) (j : Nat) : State :=
  let en := s.effGet (PIO_PINCFG_EN (if s.pinQuad j then j - j % 2 else j)) == 1 && !s.flag PWR_STAT_PFAIL
  let run := s.flag (PIO_PINSTAT_RUN j)
  if en && !run then
    (s.modPin j (fun p => { PinState.reset with level := p.level, changedAt := p.changedAt, startedAt := s.exp.now })).setFlag (PIO_PINSTAT_RUN j) true
  else if !en && run then
    let s := s.setFlag (PIO_PINSTAT_RUN j) false
    match (s.pin j).missing with
    | some t0 =>
      ((s.modPin j (fun p => { p with missing := none })).setFlag (PIO_PINSTAT_MISSING j) false).event 0x0A04 j .stop
        (tsSpan t0 s.ts) 0 0
    | none => s
  else s

/-! Meanings -/

/-- CF_SLOT (R224, R225): the next slot due on an output starts; none starts in the safe state (R226). -/
def execCfSlot (n : Nat) (s : State) : Host.Outcome State Fault Refusal :=
  finish (fun s =>
    match (s.cf n).due with
    | t :: rest =>
      let s := s.reach t
      let s := s.modCf n (fun c => { c with due := rest })
      if !s.flag (PIO_CFSTAT_RUN n) || s.inSafe then s
      else (s.modCf n (fun c => { c with ball := if s.mirStandby then none else some (c.high.isSome) })).cfSlotAt n t
    | [] => s) s

/-- CF_PULSE_EDGE (R224, R226). -/
def execCfPulseEdge (n : Nat) (s : State) : Host.Outcome State Fault Refusal := finish (fun s => s.cfEdge n) s

/-- TRIP_READBACK (R231): the next instant of the grid of 16,384 HFREF cycles on which the exposure boundaries lie. -/
def execTripReadback (levels : BitVec 8) (s : State) : Host.Outcome State Fault Refusal :=
  finish (fun s =>
    let from_ := match s.pio.readAt with
      | some r => max s.exp.now (r + 1)
      | none => s.exp.now
    let t := s.exp.startAt + (from_ - s.exp.startAt + 16383) / 16384 * 16384
    let s := { s.reach t with pio := { s.pio with readAt := some t } }
    State.each 8 (fun n s => s.tripRead n (bitAt levels.toNat n)) s) s

/-- MINTRIP_EXPIRY (R230). -/
def execMintripExpiry (n : Nat) (s : State) : Host.Outcome State Fault Refusal :=
  finish (fun s =>
    match (s.trip n).minUntil with
    | some u =>
      let s := s.reach u
      (s.modTrip n (fun t => { t with minUntil := none })).tripState n
    | none => s) s

/-- MOMENTARY_SOURCE_EXPIRY (R228): the source's 10 ms end. -/
def execMomentarySourceExpiry (code : BitVec 16) (index : BitVec 8) (s : State) : Host.Outcome State Fault Refusal :=
  finish (fun s =>
    match s.evt.pulses.find? (fun p => p.1 == code && p.2.1 == index) with
    | some p =>
      let s := { s with
        evt := { s.evt with pulses := s.evt.pulses.filter (fun q => !(q.1 == code && q.2.1 == index)) }
        exp := { s.exp with now := max s.exp.now p.2.2 } }
      State.each 8 (fun n s => s.tripState n) s
    | none => s) s

/-- HOST_TRIP (R229). -/
def execHostTrip (p : Port) (v : BitVec 32) (s : State) : Host.Outcome State Fault Refusal :=
  finish (State.wrTrhost (.port p) v) s

/-- TRIP_DISABLE (R229). -/
def execTripDisable (p : Port) (n : Nat) (v : BitVec 32) (s : State) : Host.Outcome State Fault Refusal :=
  finish (fun s => if n < 8 then State.wrTrcfg (.port p) n v s else s) s

/-- ACK (R230). -/
def execAck (_p : Port) (v : BitVec 32) (s : State) : Host.Outcome State Fault Refusal := finish (State.wrTrack v) s

/-- PIN_CHANGE_ACCEPTED (R233, R234): a level first sampled at `at_` is accepted DEB later; one that follows the change before it
sooner than DEB left that level too short to have been accepted. -/
def execPinChangeAccepted (j : Nat) (level : Bool) (at_ : Nat) (both : Bool) (s : State) :
    Host.Outcome State Fault Refusal :=
  finish (fun s =>
    let d := s.debounce j
    let stable (i : Nat) : Bool := match (s.pin i).changedAt with
      | some c => decide (c + d ≤ at_)
      | none => true
    if s.pdOn 5 ∧ j < 16 ∧ (s.pin j).level ≠ level ∧ stable j ∧ (¬ both ∨ stable (j - j % 2 + (1 - j % 2))) then
      (s.reach (at_ + d)).pinChange j level at_ both
    else s) s

/-- MISSING_PULSE (R238): TIMEOUT × 20 ms after the later of the input's start and its last counting edge. -/
def execMissingPulse (j : Nat) (s : State) : Host.Outcome State Fault Refusal :=
  finish (fun s =>
    let p := s.pin j
    let t := max p.startedAt (p.newest.headD 0) + s.effGet (PIO_PINWD_TIMEOUT j) * msCycles 20
    if s.flag (PIO_PINSTAT_RUN j) ∧ s.effGet (PIO_PINWD_TIMEOUT j) ≠ 0 ∧ (s.pin j).missing = none ∧ j < 16 then
      let s := s.reach t
      ((s.modPin j (fun p => { p with missing := some s.ts })).setFlag (PIO_PINSTAT_MISSING j) true).event 0x0A04 j .start
        0 0 0
    else s) s

end Sys2Proof.Machine
end

