-- ==== Sys2Proof/Machine/Pair.lean ====
section
/-!
DEFINITION. Precision pairing (R166 to R172): schedule, amplitude estimation, trims, relative phase and mismatch.
-/

namespace Sys2Proof.Machine

/-- Changes the pairing state. -/
def State.modPair (s : State) (f : PairState → PairState) : State := { s with ldg := { s.ldg with pair := f s.ldg.pair } }

/-- A channel lies in a paired bank while pairing runs (R166). -/
def State.chanPaired (s : State) (n : Nat) : Bool := s.flag PAIR_STAT_RUN && bitAt (s.effGet PAIR_BANKS_BANKS) (n / 8)

/-- The trim t a channel's correction uses (R151, R167): 2³⁴ on a channel that is not paired and while the members are away. -/
def State.pairTrim (s : State) (n : Nat) : Int :=
  if s.chanPaired n && !s.flag PAIR_STAT_AWAY then assocGet (2 ^ 34) s.ldg.pair.trim n else 2 ^ 34

/-- The D_pair a channel's correction uses (R152): 0 but on the current channels of a pairing secondary. -/
def State.pairDelay (s : State) (n : Nat) : Int :=
  if s.chanPaired n && s.effGet PAIR_CTL_SIDE == 1 then assocGet 0 s.ldg.pair.dPair n else 0

/-- A running calibration window whose point uses a channel is marked CORCHG (R163). -/
def State.corChg (s : State) (n : Nat) : State :=
  { s with ldg := { s.ldg with cals := s.ldg.cals.map (fun w =>
    if !w.ended && decide (w.first.toNat ≤ s.exp.cur.toNat) && (pointChans s.exp.eff w.point).contains n then
      { w with flags := w.flags ||| 2 } else w) } }

/-- Channels of paired banks that have samples in an exposure. -/
def pairedChans (eff : List (Nat × BitVec 32)) (l : List (Nat × List Smp)) : List (Nat × List Smp) :=
  l.filter (fun c => bitAt (effOf eff PAIR_BANKS_BANKS) (c.1 / 8))

/-- An estimation exposure adds to C and S of each paired channel (R167); a sample with OVR, LOSS or SETTLE spoils the
window (R168).  The first estimation exposure, c = s, starts the sums. -/
def State.pairEstimate (s : State) (eff : List (Nat × BitVec 32)) (ns : Nat) (corrected : List (Nat × List Smp)) : State :=
  let c := s.get PAIR_CYC_CYC
  let skip := s.get PAIR_CYC_SKIP
  if !s.flag PAIR_STAT_RUN || c < skip || 63 < c then s
  else
    let s := if c = skip then s.modPair (fun p => { p with csum := [], ssum := [], bad := [] }) else s
    (pairedChans eff corrected).foldl (fun s x =>
      let off := ns - x.2.length
      let w (z : Int) (k : Nat) : Int × Int :=
        let t := fxCosSin (off + k : Nat) ns
        (z * roundDiv t.1 (2 ^ 71), z * roundDiv t.2 (2 ^ 71))
      let sums := x.2.zipIdx.foldl (fun (a : Int × Int) e => (a.1 + (w e.1.v e.2).1, a.2 + (w e.1.v e.2).2)) (0, 0)
      let spoilt := x.2.any (fun z => z.ovr || z.loss || z.settle)
      s.modPair (fun p => { p with
        csum := assocPut p.csum x.1 (assocGet 0 p.csum x.1 + sums.1)
        ssum := assocPut p.ssum x.1 (assocGet 0 p.ssum x.1 + sums.2)
        bad := if spoilt && !p.bad.contains x.1 then p.bad ++ [x.1] else p.bad })) s

/-- Amplitude A of a channel (R167). -/
def State.pairAmp (s : State) (n ns : Nat) : Nat :=
  let p := s.ldg.pair
  let c := assocGet 0 p.csum n
  let q := assocGet 0 p.ssum n
  2 * isqrt ((c * c + q * q).toNat) / ((64 - s.get PAIR_CYC_SKIP) * ns * 2 ^ 29)

/-- The reference window is over: trims of every paired channel are derived, or BASE is captured where CAPBASE was set before
the window (R168). -/
def State.pairTrims (s : State) (eff : List (Nat × BitVec 32)) (ns : Nat) (corrected : List (Nat × List Smp)) : State :=
  let capture := s.ldg.pair.capture
  let s := (pairedChans eff corrected).foldl (fun s x =>
    let n := x.1
    let a := s.pairAmp n ns
    let s := s.modPair (fun p => { p with amp := assocPut p.amp n a })
    let base := corrWord (s.chan n).corr 1
    let t := if a = 0 then 0 else roundDiv (base * 2 ^ 34) a
    let fault := (s.ldg.pair.bad.contains n) || (!capture && base != 0 && decide (2 ^ 26 < (t - 2 ^ 34).natAbs))
    if fault then
      ((s.setFlag PAIR_STAT_REFFLT true).event 0x0403 n .momentary a 0 0).strike dPairing n
    else if base = 0 ∨ capture then
      let l := (s.chan n).corr
      let l' := (List.range 53).map (fun w => if w = 1 then ((a % 2 ^ 36 : Nat) : Int) else corrWord l w)
      (s.setCorr n l').modPair (fun p => { p with trimNext := assocPut p.trimNext n (2 ^ 34) })
    else s.modPair (fun p => { p with trimNext := assocPut p.trimNext n t })) s
  if capture then (s.setFlag PAIR_CTL_CAPBASE false).modPair (fun p => { p with capture := false }) else s

/-- s of R167: the largest, over paired channels, of ceil((settle count + 8) / samples per exposure). -/
def State.pairSkip (s : State) (settle : Nat → Nat) (ns : Nat) : Nat :=
  ((List.range 96).filter (fun n => (s.chan n).started && bitAt (s.effGet PAIR_BANKS_BANKS) (n / 8))).foldl
    (fun m n => max m ((settle n + 8 + ns - 1) / ns)) 0

/-- The conditions of R166: what the partner's settings show (log 122), the partner's position, started channels of paired banks in
paired points, a pair's high-gain input with its merged channel, and channels of paired points in paired banks. -/
def State.pairOk (s : State) (q : PairPartner) : Bool :=
  let eff := s.exp.eff
  let banks := s.effGet PAIR_BANKS_BANKS
  let pts := bitsOf 32 (s.effGet PAIR_MPMASK_MPMASK)
  let chans := pts.flatMap (pointChans eff)
  (q.secondary != (s.effGet PAIR_CTL_SIDE == 1)) && q.partner == s.get TZL_STAT_POS &&
  q.mpmask.toNat == s.effGet PAIR_MPMASK_MPMASK && pts.all (fun p => q.wiring.getD p 0 == effOf eff (MET_CFG_WIRING p)) &&
  s.effGet PAIR_CTL_PARTNER != s.get TZL_STAT_POS && (!s.flag GLB_STRAP_MSTR || decide (s.effGet PAIR_CTL_PARTNER < s.get TZL_STAT_NDEV)) &&
  (List.range 96).all (fun n => !((s.chan n).started && bitAt banks (n / 8)) ||
    chans.contains (if (s.chan n).role = 4 then n - 1 else n)) &&
  chans.all (fun n => bitAt banks (n / 8))

/-- The end of a cycle on the primary (R170, R171): relative phase trims for the secondary, and the mismatch check. -/
def State.pairCycleEnd (s : State) : State :=
  let eff := s.exp.eff
  let fo := rateOf (effG eff)
  let s := if s.flag PAIR_CTL_PHHOLD then s
    else s.ldg.pair.cyc.foldl (fun (s : State) (c : PairCyc) =>
      let den : Int := c.pa * c.pb + c.qa * c.qb
      let num : Int := c.qb * c.pa - c.pb * c.qa
      let fs : Nat × Nat × Nat := (s.ldg.pair.fsum.find? (fun (x : Nat × Nat × Nat) => x.1 == effOf eff (MET_CFG_VG c.point))).getD (0, 0, 0)
      let fm : Nat := if fs.2.2 = 0 then 0 else fs.2.1 / fs.2.2
      if c.n < 4000 ∨ den ≤ 0 ∨ fm = 0 then s
      else
        let ich := ((pointElems eff c.point).getD c.elem (0, 0)).2
        let d := assocGet 0 s.ldg.pair.dPairNext ich - roundDiv (num * fo * 2 ^ 148) (4 * den * fxPi * fm).toNat
        let d' := clampInt (-(2 ^ 22)) (2 ^ 22) d
        let s := s.modPair (fun p => { p with dPairNext := assocPut p.dPairNext ich d' })
        if d'.natAbs = 2 ^ 22 then s.setFlag PAIR_STAT_PHLIM true else s) s
  let s := if s.flag PAIR_CTL_PHHOLD then s
    else { s with tzl := { s.tzl with out := s.tzl.out ++ [.phase s.ldg.pair.dPairNext] } }
  let mm := s.effGet PAIR_MMTH_MMTH
  let s := s.ldg.pair.app.foldl (fun (s : State) (x : Nat × Nat × Nat) =>
    let diff := ((x.2.2 : Int) - x.2.1).natAbs * 1000000
    if mm ≠ 0 ∧ mm * x.2.1 < diff then
      let p0 := if x.2.1 = 0 then (Config.ratioNone x.2.2).toNat else diff / x.2.1
      ((s.setFlag PAIR_STAT_MISMATCH true).event 0x0404 x.1 .momentary p0 0 0).strike dPairing x.1
    else s) s
  s.modPair (fun p => { p with cyc := [], app := [], fsum := [] })

/-- Drives or releases CALSEL of the paired banks (R123, R167). -/
def State.pairCalsel (s : State) (lvl : Option Bool) : State :=
  State.each 12 (fun k s =>
    if bitAt (s.effGet PAIR_BANKS_BANKS) k then
      let v := if bitAt s.pwr.bankFault.toNat k then none else lvl
      { (s.setFlag (MFE_BANK_CALST k) (v == some true)) with exp := { s.exp with calsel := s.exp.calsel.set k v } }
    else s) s

/-- Pairing stops (R166): members are back, nothing is trimmed. -/
def State.pairStop (s : State) : State :=
  (((s.setFlag PAIR_STAT_RUN false).setFlag PAIR_STAT_AWAY false).pairCalsel none).modPair
    (fun p => { PairState.reset with amp := p.amp })

/-- Trims wait for the members' return, D_pair for c = 4 of the primary's cycle (R168, R170): both mark windows that run (R163). -/
def State.pairEffect (s : State) (n c : Nat) : State :=
  let s := if c = 64 + s.get PAIR_CYC_SKIP then
      let l := s.ldg.pair.trimNext
      let s := s.modPair (fun p => { p with trim := l.foldl (fun t e => assocPut t e.1 e.2) p.trim, trimNext := [] })
      l.foldl (fun s e => s.corChg e.1) s
    else s
  if n % 8000 = 4 ∧ s.effGet PAIR_CTL_SIDE = 1 ∧ s.ldg.pair.dPair ≠ s.ldg.pair.dPairNext then
    let l := s.ldg.pair.dPairNext
    l.foldl (fun s e => s.corChg e.1) (s.modPair (fun p => { p with dPair := l }))
  else s

/-- Pairing at the boundary at which exposure n begins (R166 to R170). -/
def State.pairBoundary (s : State) (n : Nat) (settle : Nat → Nat) (ns : Nat) (recvd : List (Nat × Int))
    (partner : Option PairPartner) : State :=
  let en := s.effGet PAIR_CTL_EN == 1
  let secondary := s.effGet PAIR_CTL_SIDE == 1
  let run := s.flag PAIR_STAT_RUN
  let s := s.modPair (fun p => { p with dPairNext := if secondary then recvd.foldl (fun l e => assocPut l e.1 e.2) p.dPairNext
                                                     else p.dPairNext })
  let s :=
    if !run && en && n % 8000 == 0 && s.tzl.enumerated && s.tzl.mode == 1 then
      match partner with
      | some q =>
        if !q.en then s
        else if s.pairOk q then s.setFlag PAIR_STAT_RUN true
        else (s.setFlag PAIR_STAT_CFGERR true).event 0x0402 0 .momentary 0 0 0
      | none => s
    else if run && !en then s.pairStop
    else s
  if !s.flag PAIR_STAT_RUN then s
  else
    let c := (if secondary then n + 4000 else n) % 8000
    let s := if c = 0 || !run then s.put PAIR_CYC_SKIP (s.pairSkip settle ns) else s
    let skip := s.get PAIR_CYC_SKIP
    let s := s.put PAIR_CYC_CYC c
    let s := s.setFlag PAIR_STAT_AWAY (decide (c ≤ 63 + skip))
    let s := s.pairCalsel (some (decide (c ≤ 63)))
    let s := if c = skip then s.modPair (fun p => { p with capture := s.flag PAIR_CTL_CAPBASE }) else s
    s.pairEffect n c

/-- Registers of the channel PAIR_SEL names, as a read shows them. -/
def State.pairShow (s : State) (off : Nat) : Option (BitVec 32) :=
  let n := s.get PAIR_SEL_CH
  let p := s.ldg.pair
  let lo (x : Int) := BitVec.ofNat 32 (unsignedOf 36 x)
  let hi (x : Int) := BitVec.ofNat 32 (unsignedOf 36 x / 2 ^ 32)
  let trim := if s.flag PAIR_STAT_RUN then s.pairTrim n else 0
  if off = PAIR_AMP_LO then some (lo (assocGet 0 p.amp n))
  else if off = PAIR_AMP_HI then some (hi (assocGet 0 p.amp n))
  else if off = PAIR_BASE_LO then some (lo (corrWord (s.chan n).corr 1))
  else if off = PAIR_BASE_HI then some (hi (corrWord (s.chan n).corr 1))
  else if off = PAIR_TRIM_LO then some (lo trim)
  else if off = PAIR_TRIM_HI then some (hi trim)
  else if off = PAIR_PHD then some (BitVec.ofNat 32 (unsignedOf 25 (s.pairDelay n)))
  else none

end Sys2Proof.Machine
end

