-- ==== Sys2Proof/Machine/Cvu.lean ====
section
/-!
DEFINITION. Check-value units (R363 to R379): what a scan reads, running values, references, verdicts and collisions.
-/

namespace Sys2Proof.Machine

/-! References (R375, R376) -/

/-- What a read of a reference entry answers: value, single-bit error corrected, double-bit error. -/
def refRead (e : RefEntry) : BitVec 36 × Bool × Bool :=
  let n := ((List.range 43).filter (bitAt e.flips.toNat)).length
  if n = 0 then (e.value, false, false)
  else if n = 1 then (e.value, true, false)
  else if n = 2 then (e.value ^^^ e.flips.truncate 36, false, true)
  else
    let r := Config.secdedMany e.value e.flips
    (r.1, r.2 == 1, r.2 == 2)

/-- A reference entry. -/
def State.refEntry (s : State) (i : Nat) : RefEntry := s.cvu.refs.getD i { value := 0, flips := 0 }

/-- Writes a reference entry with new check bits. -/
def State.setRef (s : State) (i : Nat) (v : BitVec 36) : State :=
  { s with cvu := { s.cvu with refs := s.cvu.refs.set i { value := v, flips := 0 } } }

/-- The safety monitor holds CVU3 and entries 56 to 63 (R378). -/
def State.monitorHolds (s : State) : Bool := s.flag SAF_CTL_EN

/-! What a scan reads (R366 to R368) -/

/-- Words of an on-chip region; none: unknown (R367). -/
def regionWords (region : Nat) : Option Nat :=
  if region = 0 then some 3072 else if region = 1 then some 12288 else if region = 2 then some 5088
  else if region = 3 then some 4848 else none

/-- A register of the configuration memory as it reads (R9, R367). -/
def State.configWord (s : State) (off : Nat) : BitVec 32 :=
  match s.pairShow off with
  | some x => x
  | none =>
    match regRow off with
    | some r => s.rd off &&& ~~~ BitVec.ofNat 32 (accessMask r .wo)
    | none => 0

/-- A word of an on-chip region as it stands (R367). -/
def State.regionWord (s : State) (region i : Nat) : Nat :=
  if region = 0 then (s.configWord (0x1000 + 4 * i)).toNat
  else if region = 1 then
    let c := s.chan (i / 128)
    bankWord (if i / 64 % 2 = 0 then c.bankA else c.bankB) (i % 64)
  else if region = 2 then unsignedOf 36 (corrWord (s.chan (i / 53)).corr (i % 53))
  else
    let q := if i < 4800 then (storeGet (0 : BitVec 108) s.ldg.regs (i / 3)).toNat
      else (s.pio.pinq.getD ((i - 4800) / 3) 0).toNat
    q / 2 ^ (36 * (i % 3)) % 2 ^ 36

/-- The CRC an algorithm number names on a unit (R363, R364); none for SUM36. -/
def State.cvuCrc (s : State) (u alg : Nat) : Option CrcDef :=
  if alg = 0 then some crc32cDef else if alg = 1 then some crc32Def else if alg = 2 then some crc16Def
  else if alg = 3 then some crc8Def
  else if alg = 4 then
    let w := s.get (CVU_CFG_WIDTH u)
    some ⟨w, (s.rd (CVU_POLY u)).toNat % 2 ^ w, (s.rd (CVU_INIT u)).toNat % 2 ^ w, s.flag (CVU_CFG_REFIN u),
      s.flag (CVU_CFG_REFOUT u), (s.rd (CVU_XOR u)).toNat % 2 ^ w⟩
  else none

/-- Running value and result of one pass over the contents as they stand (R364, R365, R368, R371). -/
def State.cvuPass (s : State) (u : Nat) (a : ScanArgs) (data : List (BitVec 8)) : Nat × BitVec 36 :=
  let words := (List.range a.len).map (fun i => s.regionWord a.region (a.start + i))
  let bytes := if a.space = 0 then words.flatMap word36Bytes
    else if a.space = 1 then s.framBytes a.start a.len else data.take a.len
  match s.cvuCrc u a.alg with
  | some c =>
    let r := crcRun c (match a.cont with | some x => x.toNat % 2 ^ c.width | none => c.init) bytes
    (r, BitVec.ofNat 36 (if a.part then r else crcOut c r))
  | none =>
    let r := sum36 (match a.cont with | some x => x.toNat | none => 0) (if a.space = 0 then words else slotWords bytes)
    (r, BitVec.ofNat 36 r)

/-- The domain of an on-chip region is powered (R367). -/
def State.regionOn (s : State) (a : ScanArgs) : Bool :=
  if a.space = 0 then
    (if a.region = 1 then s.pdOn 3 else if a.region = 2 then s.pdOn 3 else if a.region = 3 then s.pdOn 5
     else s.pdOn 2 && s.pdOn 3 && s.pdOn 4 && s.pdOn 5)
  else true

/-! Scans (R370 to R374, R379) -/

/-- Scan of a unit. -/
def State.scan (s : State) (u : Nat) : Option Scan := s.cvu.scans.getD u none

/-- Sets the scan of a unit; CVU_STAT.BUSY and RESCAN follow. -/
def State.setScan (s : State) (u : Nat) (x : Option Scan) : State :=
  let s := { s with cvu := { s.cvu with scans := s.cvu.scans.set u x } }
  let busy := match x with | some q => !q.waiting | none => false
  let resc := match x with | some q => q.first.isSome | none => false
  (s.setFlag (CVU_STAT_BUSY u) busy).setFlag (CVU_STAT_RESCAN u) resc

/-- The arguments of CVU_SCAN (R391, R396). -/
def scanArgs (a0 a1 a2 : BitVec 64) : Nat × ScanArgs :=
  let n := a0.toNat
  (n % 4,
   { alg := n / 2 ^ 2 % 8, space := n / 2 ^ 5 % 4, region := n / 2 ^ 8 % 256, start := a1.toNat, len := n / 2 ^ 32,
     refIdx := if bitAt n 16 then some (n / 2 ^ 17 % 64) else none, part := bitAt n 23,
     cont := if bitAt n 24 then some (a2.truncate 36) else none })

/-- An address of a mailbox command that names the data window: its byte offset (R409). -/
def windowOffset (h : CmdHdr) (addr : Nat) : Option Nat :=
  match h.src with
  | .mailbox _ => if addr / 2 ^ 56 = 0xFF then some (addr % 2048) else none
  | _ => none

/-- A range of a mailbox command reaches beyond the data window (R409). -/
def windowBad (h : CmdHdr) (addr len : Nat) : Bool :=
  match windowOffset h addr with
  | some o => decide (2048 < o + len)
  | none => false

/-- Bytes of the mailbox data window. -/
def State.windowBytes (s : State) (o n : Nat) : List (BitVec 8) :=
  (List.range n).map (fun i => BitVec.ofNat 8 ((s.rd (MBX_DATA ((o + i) / 4))).toNat / 2 ^ (8 * ((o + i) % 4))))

/-- Writes bytes into the mailbox data window. -/
def State.windowWrite (s : State) (o : Nat) (l : List (BitVec 8)) : State :=
  (l.zipIdx).foldl (fun s e =>
    let a := o + e.2
    let old := (s.rd (MBX_DATA (a / 4))).toNat
    let sh := 8 * (a % 4)
    s.wr (MBX_DATA (a / 4)) (BitVec.ofNat 32 (old - old / 2 ^ sh % 256 * 2 ^ sh + e.1.toNat * 2 ^ sh))) s

/-- Starts a DMA read of host memory for a command. -/
def State.startRead (s : State) (u : DmaUse) : State :=
  { s with hif := { s.hif with dmaReads := s.hif.dmaReads ++ [(s.hif.dmaNext, u)], dmaNext := s.hif.dmaNext + 1 } }

/-- Writes a record of a command to its result address: the mailbox data window or host memory (R409).  Answers whether the
write is possible; while PCI Express is down another address gives FAULT. -/
def State.cmdWrite (s : State) (h : CmdHdr) (addr : Nat) (data : List (BitVec 64)) : State × Bool :=
  match windowOffset h addr with
  | some o => (s.windowWrite o (slotBytes data), true)
  | none => if s.dmaOn then (s.emit (.mem (BitVec.ofNat 64 addr) data), true) else (s, false)

/-- BADARG of CVU_SCAN (R372). -/
def State.scanBad (s : State) (u : Nat) (a : ScanArgs) : Bool :=
  let outside :=
    if a.space = 0 then (match regionWords a.region with
      | some n => decide (n < a.start + a.len)
      | none => true)
    else if a.space = 1 then decide (0x40000 < a.start + a.len)
    else decide (2 ^ 64 < a.start + a.len)
  decide (6 ≤ a.alg) || (a.alg == 4 && !(decide (1 ≤ s.get (CVU_CFG_WIDTH u)) && decide (s.get (CVU_CFG_WIDTH u) ≤ 32)))
    || a.len == 0 || a.space == 3 || outside
    || (a.alg == 5 && a.space != 0 && !(a.start % 8 == 0 && a.len % 8 == 0))
    || (a.refIdx.isSome && a.part)

/-- REFUSED of CVU_SCAN (R372). -/
def State.scanRefused (s : State) (u : Nat) (a : ScanArgs) : Bool :=
  (s.scan u).isSome ||
    (s.monitorHolds && (u == 3 || (match a.refIdx with | some i => decide (56 ≤ i) | none => false)))

/-- A pass starts: no unit is fed, and the running value is the start value (R373).  What a scan of host memory needs is read by DMA, or
from the data window at once (R366, R409). -/
def State.scanData (s : State) (h : CmdHdr) (u : Nat) (q : Scan) : State :=
  let s := (s.wr (CVU_POS u) 0).putWide [CVU_RUN_LO u, CVU_RUN_HI u] (s.cvuPass u { q.args with len := 0 } []).1
  if q.args.space = 2 then
    match windowOffset h q.args.start with
    | some o => s.setScan u (some { q with data := some (s.windowBytes o q.args.len) })
    | none => (s.setScan u (some { q with data := none })).startRead (.cvu q.src)
  else s.setScan u (some q)

/-- CVU_SCAN (R370, R372). -/
def State.cmdCvuScan (s : State) (h : CmdHdr) (a0 a1 a2 : BitVec 64) : State :=
  let (u, a) := scanArgs a0 a1 a2
  if s.scanBad u a || (a.space == 2 && windowBad h a.start a.len) then s.complete 0x50 h stBadarg 0 0 0
  else if s.scanRefused u a then s.complete 0x50 h stRefused 0 0 0
  else if a.space = 2 ∧ windowOffset h a.start = none ∧ ¬ s.dmaOn then s.complete 0x50 h stFault 0 0 0
  else
    let q : Scan := { src := h.src, args := a, data := none, first := none, ref := 0, refCor := false,
                      waiting := s.flag (CVU_STAT_HELD u) }
    (s.keep 0x50 h (.cvu u)).scanData h u q

/-- The taken command of a unit's scan. -/
def State.scanCmd (s : State) (u : Nat) : Option Taken := s.taken.find? (fun t => t.wait == Wait.cvu u)

/-- Ends a scan with a status, units fed and value (R374, R379). -/
def State.endScan (s : State) (u status units : Nat) (value : Nat) : State :=
  let s' := s.setScan u none
  match s.scanCmd u with
  | some t => s'.done t status (units * 2 ^ 32) value 0
  | none => s'

/-- Completes a scan with its verdict (R371). -/
def State.verdict (s : State) (u verdict : Nat) (refCor : Bool) (units : Nat) (p1 p2 : BitVec 36) : State :=
  let s := s.put (CVU_STAT_VERDICT u) verdict
  let s := if 2 ≤ verdict then s.bump (CVU_CNT_MISM u) 1 else s
  let t := s.scanCmd u
  let s := s.setScan u none
  match t with
  | some t => s.done t stDone (verdict + 8 * refCor.toNat + units * 2 ^ 32) p1.toNat p2.toNat
  | none => s

/-- The scan can proceed: it does not wait for its unit, and host-memory data has arrived. -/
def Scan.fed (q : Scan) : Bool := !q.waiting && (q.args.space != 2 || q.data.isSome)

/-- A pass can end: its unit is not held, and a scan of the FRAM does not wait for the ledger writer (R248, R369). -/
def State.scanRuns (s : State) (u : Nat) (q : Scan) : Bool :=
  q.fed && !s.flag (CVU_STAT_HELD u) && (q.args.space != 1 || s.prf.phase == .idle)

/-- End of the first pass: the reference is read once and the verdict reached, or a rescan starts (R376). -/
def State.firstPass (s : State) (u : Nat) : State :=
  match s.scan u with
  | some q =>
    if !s.scanRuns u q || q.first.isSome then s
    else if !s.regionOn q.args then s.endScan u stFault 0 0
    else
      let (run, val) := s.cvuPass u q.args (q.data.getD [])
      let s := (s.putWide [CVU_RUN_LO u, CVU_RUN_HI u] run).wr (CVU_POS u) (BitVec.ofNat 32 q.args.len)
      match q.args.refIdx with
      | none => s.verdict u 1 false q.args.len val 0
      | some i =>
        let (ref, sbe, dbe) := refRead (s.refEntry i)
        if dbe then s.verdict u 4 false q.args.len val 0
        else
          let s := if sbe then (s.setRef i ref).bump (CVU_CNT_REFCOR u) 1 else s
          if val = ref then s.verdict u 0 sbe q.args.len val 0
          else
            let q := { q with first := some (q.args.len, val), ref := ref, refCor := sbe }
            match s.scanCmd u with
            | some t => s.scanData t.hdr u q
            | none => s.setScan u (some q)
  | none => s

/-- End of the rescan: UNSTABLE or STABLE_MISMATCH (R376). -/
def State.rescan (s : State) (u : Nat) : State :=
  match s.scan u with
  | some q =>
    match q.first with
    | some (units, v1) =>
      if !s.scanRuns u q then s
      else if !s.regionOn q.args then s.endScan u stFault units v1.toNat
      else
        let (run, v2) := s.cvuPass u q.args (q.data.getD [])
        let s := (s.putWide [CVU_RUN_LO u, CVU_RUN_HI u] run).wr (CVU_POS u) (BitVec.ofNat 32 q.args.len)
        s.verdict u (if v2 = v1 then 2 else 3) q.refCor units v1 v2
    | none => s
  | none => s

/-- Units fed so far and running value of a scan that is stopped (R374); how far a running pass has come is a free value (log 136). -/
def State.scanHalt (s : State) (u : Nat) : State × Nat × Nat :=
  match s.scan u with
  | some q =>
    if !s.scanRuns u q then (s, (s.rd (CVU_POS u)).toNat, s.wide [CVU_RUN_LO u, CVU_RUN_HI u])
    else
      let n := min (Config.unitsFed s.free) q.args.len
      let run := (s.cvuPass u { q.args with len := n } (q.data.getD [])).1
      let s := { s with free := s.free + 1 }
      ((s.wr (CVU_POS u) (BitVec.ofNat 32 n)).putWide [CVU_RUN_LO u, CVU_RUN_HI u] run, n, run)
  | none => (s, 0, 0)

/-- A scan is stopped (R374, R379). -/
def State.stopScan (s : State) (u status : Nat) : State :=
  let (s, units, val) := s.scanHalt u
  s.endScan u status units val

/-- The ledger writer claims or releases a unit (R248); a scan that waited for it starts at the release (R372). -/
def State.holdCvu (s : State) (u : Nat) (on : Bool) : State :=
  let s := s.setFlag (CVU_STAT_HELD u) on
  match s.scan u with
  | some q => if on then s else s.setScan u (some { q with waiting := false })
  | none => s

/-! Registers -/

/-- CVU_CTLu: SUSPEND stops the host scan (R374). -/
def State.wrCvuCtl (u : Nat) (v : BitVec 32) (s : State) : State :=
  if bitAt v.toNat 0 ∧ s.pdOn 5 ∧ (s.scan u).isSome ∧ ¬ (u = 3 ∧ s.monitorHolds) then s.stopScan u stAborted else s

/-- CVU_REFDATA_LO: stores the entry with new check bits (R375); entries 56 to 63 are the monitor's while it holds them. -/
def State.wrRefdata (w : WriteBy) (v : BitVec 32) (s : State) : State :=
  let i := s.get CVU_REFSEL_IDX
  if !s.pdOn 5 || (s.monitorHolds && decide (56 ≤ i)) then s
  else
    let st := s.staged w
    let hi := match storeFind st CVU_REFDATA_HI with
      | some x => x.toNat % 16
      | none => (refRead (s.refEntry i)).1.toNat / 2 ^ 32
    (s.setStaged w (assocDel st CVU_REFDATA_HI)).setRef i (BitVec.ofNat 36 (v.toNat + hi * 2 ^ 32))

/-- A read of CVU_REFDATA_LO: the corrected value; CVU_REFSTAT shows what the read found (R375). -/
def State.rdRefdata (s : State) : State × BitVec 36 :=
  let (v, sbe, dbe) := refRead (s.refEntry (s.get CVU_REFSEL_IDX))
  ((s.setFlag CVU_REFSTAT_SBE sbe).setFlag CVU_REFSTAT_DBE dbe, v)

/-- CVU_REFFLIP: GO inverts stored bits of the entry without new check bits (R375). -/
def State.wrRefflip (w : WriteBy) (v : BitVec 32) (s : State) : State :=
  let i := s.get CVU_REFSEL_IDX
  let s := s.storeWrite w CVU_REFFLIP v
  if !bitAt v.toNat 31 || !s.pdOn 5 || (s.monitorHolds && decide (56 ≤ i)) then s
  else
    let m (b : Nat) : BitVec 43 := if b < 43 then BitVec.ofNat 43 (2 ^ b) else 0
    let f := m (s.get CVU_REFFLIP_BITA) ^^^ m (s.get CVU_REFFLIP_BITB)
    { s with cvu := { s.cvu with refs := s.cvu.refs.modify i (fun r => { r with flips := r.flips ^^^ f }) } }

/-! Meanings -/

/-- CVU_SCAN (R370). -/
def execCvuScan (h : CmdHdr) (a0 a1 a2 : BitVec 64) (s : State) : Host.Outcome State Fault Refusal :=
  finish (fun s => s.take 0x50 h (fun s => s.cmdCvuScan h a0 a1 a2)) s

/-- SUSPEND (R374). -/
def execSuspend (_p : Port) (u : Nat) (v : BitVec 32) (s : State) : Host.Outcome State Fault Refusal :=
  finish (State.wrCvuCtl u v) s

/-- REFFLIP (R375). -/
def execRefflip (p : Port) (v : BitVec 32) (s : State) : Host.Outcome State Fault Refusal :=
  finish (State.wrRefflip (.port p) v) s

/-- REFERENCE_ENTRY_WRITE (R375). -/
def execReferenceEntryWrite (p : Port) (v : BitVec 32) (s : State) : Host.Outcome State Fault Refusal :=
  finish (State.wrRefdata (.port p) v) s

/-- CVU_FIRST_PASS_DONE (R376). -/
def execCvuFirstPassDone (u : Nat) (s : State) : Host.Outcome State Fault Refusal :=
  finish (fun s => s.firstPass u) s

/-- CVU_RESCAN_DONE (R376). -/
def execCvuRescanDone (u : Nat) (s : State) : Host.Outcome State Fault Refusal :=
  finish (fun s => s.rescan u) s

end Sys2Proof.Machine
end

