-- ==== Sys2Proof/Machine/Ledger.lean ====
section
/-!
DEFINITION. From computed exposures to the ledger: publication (R29), comparison and replay (R34, R35), resolution (R192),
releases (R193), withheld energy (R424), reverse power and overcurrent (R216 to R218), calibration windows (R162 to R165),
pairing of increments (R169 to R171), sample blocks (R399), the live view (R200) and the frames other devices are sent.
-/

namespace Sys2Proof.Machine

/-- Changes the ledger state. -/
def State.modLdg (s : State) (f : LdgState → LdgState) : State := { s with ldg := f s.ldg }

/-- Changes the event-logic state. -/
def State.modEvt (s : State) (f : EvtState → EvtState) : State := { s with evt := f s.evt }

/-- Changes the exposure state. -/
def State.modExp (s : State) (f : ExpState → ExpState) : State := { s with exp := f s.exp }

/-- Register slot s of point p (R189). -/
def State.ledgerReg (s : State) (p slot : Nat) : BitVec 108 := storeGet 0 s.ldg.regs (50 * p + slot)

/-- Adds to a ledger or withheld register, modulo 2^108 (R191). -/
def State.ledgerAdd (s : State) (p slot : Nat) (d : Int) : State :=
  s.modLdg (fun l => { l with regs := storePut 0 l.regs (50 * p + slot) (s.ledgerReg p slot + BitVec.ofInt 108 d) })

/-- MET_STAT.WHELD follows the withheld registers. -/
def State.wheld (s : State) (p : Nat) : State :=
  s.setFlag (MET_STAT_WHELD p) ((List.range 10).any (fun q => s.ledgerReg p (40 + q) != 0))

/-- Adds ten totals to a point's withheld registers (R35, R424). -/
def State.withhold (s : State) (p : Nat) (tot : List Nat) : State :=
  (State.each 10 (fun q s => s.ledgerAdd p (40 + q) (tot.getD q 0)) s).wheld p

/-- Adds 40 fixed increments to a point's ledger registers (R192 step 1). -/
def State.ledgerTake (s : State) (p : Nat) (incs : List Nat) : State :=
  State.each 40 (fun i s => if incs.getD i 0 = 0 then s else s.ledgerAdd p i (incs.getD i 0)) s

/-- Queues a journal entry (R260). -/
def State.journalAdd (s : State) (kind : Nat) (expno : BitVec 72) (p0 p1 p2 : Nat) : State :=
  let e : JournalEntry := { jkind := BitVec.ofNat 16 kind, ts := s.ts, expno := expno, p0 := BitVec.ofNat 64 p0,
                            p1 := BitVec.ofNat 64 p1, p2 := BitVec.ofNat 64 p2 }
  { s with prf := { s.prf with journal := s.prf.journal ++ [e] } }

/-- Registers of a point, those that are not 0, by slot. -/
def LdgState.pointRegs (l : LdgState) (p : Nat) : List (Nat × BitVec 108) :=
  l.regs.filter (fun e => decide (50 * p ≤ e.1) && decide (e.1 < 50 * p + 50))

/-- Before exposure `e` changes point p, snapshots and proofs that cover only earlier exposures keep the point's registers
(R196, R46). -/
def State.freezePoint (s : State) (p e : Nat) : State :=
  let regs := s.ldg.pointRegs p
  let s := s.modLdg (fun l => { l with snaps := l.snaps.map (fun r =>
    match r.expno with
    | some c => if c.toNat < e ∧ ¬ bitAt r.frozen.toNat p then
        { r with frozen := r.frozen ||| BitVec.ofNat 32 (2 ^ p), kept := r.kept ++ regs } else r
    | none => r) })
  { s with prf := { s.prf with due := s.prf.due.map (fun j =>
    if j.expno.toNat < e ∧ ¬ bitAt j.frozen.toNat p then
      { j with frozen := j.frozen ||| BitVec.ofNat 32 (2 ^ p), kept := j.kept ++ regs } else j) } }

/-! Releases (R36, R193) -/

/-- One release of one quantity: withheld to total, its event and journal entry, and the audit counter. -/
def State.releaseOne (s : State) (p q amount : Nat) (e : BitVec 72) : State :=
  let s := (s.ledgerAdd p (40 + q) (-(amount : Int))).ledgerAdd p (30 + q) amount
  let s := s.cfRelAmount p (30 + q) amount
  let s := s.modLdg (fun l => { l with audit := l.audit + 1 })
  let s := s.eventX e s.ts 0x0401 p .momentary q (amount % 2 ^ 64) (amount / 2 ^ 64)
  let s := s.journalAdd 5 e (p + q * 2 ^ 8) (amount % 2 ^ 64) (amount / 2 ^ 64)
  if s.tzl.mode = 2 ∧ s.flag TZL_STAT_ACTIVE then { s with tzl := { s.tzl with relNow := s.tzl.relNow ++ [(p, q, amount)] } }
  else s

/-- A due release is applied at exposure e (R192 step 2), or answered BADARG when the amount exceeds the withheld total. -/
def State.applyRelease (s : State) (t : Taken) (p qmask amount : Nat) (e : BitVec 72) : State :=
  let qs := bitsOf 10 qmask
  let have_ (q : Nat) := (s.ledgerReg p (40 + q)).toNat
  if t.hdr.dlv && s.lateFor t.hdr.deadline then s.done t stDone 0 0 0
  else if amount ≠ 0 ∧ qs.any (fun q => decide (have_ q < amount)) then s.done t stBadarg 0 0 0
  else
    let s := qs.foldl (fun s q => s.releaseOne p q (if amount = 0 then (s.ledgerReg p (40 + q)).toNat else amount) e) s
    (s.wheld p).done t stDone s.ldg.audit.toNat (e.toNat % 2 ^ 64) (e.toNat / 2 ^ 64)

/-- Applies the releases of a point that are due at exposure e. -/
def State.dueReleases (s : State) (p : Nat) (e : BitVec 72) : State :=
  s.taken.foldl (fun s t =>
    match t.wait with
    | .release pt qm am due => if pt = p ∧ due = some e then s.applyRelease t pt qm.toNat am.toNat e else s
    | _ => s) s

/-! Reverse power and overcurrent (R216, R217) -/

/-- The shared pick-up step: `on` and `off` of the exposure's test; answers the new state and what is logged. -/
def pickStep (st : Pickup) (delay : Nat) (on off : Bool) (e : BitVec 72) : Pickup × Option EvEdge :=
  if !st.picked then
    if on then
      if delay ≤ st.timer + 1 then ({ st with timer := st.timer + 1, picked := true, since := e }, some .start)
      else ({ st with timer := st.timer + 1 }, none)
    else ({ st with timer := 0 }, none)
  else if off then ({ st with timer := 0, picked := false }, some .stop)
  else (st, none)

/-- Sets one bit of a register that shows picked-up states. -/
def State.setBit (s : State) (off i : Nat) (on : Bool) : State :=
  let v := (s.rd off).toNat
  s.wr off (BitVec.ofNat 32 (v - v / 2 ^ i % 2 * 2 ^ i + on.toNat * 2 ^ i))

/-- Reverse power of a point from a fixed exposure (R216): `samples` per channel in it.  Lanes that disagree leave the state (R417). -/
def State.reversePower (s : State) (x : Slot) (p samples : Nat) (incs : List Nat) : State :=
  if s.effGet (EVT_RPCFG_EN p) = 0 ∨ ¬ s.pdOn 5 then s
  else if s.saf.laneBad.contains (true, p) then s.strike dLane p
  else
    let m : Int := (incs.getD 31 0 : Int) - incs.getD 30 0
    let ton := s.effGet (EVT_RPTH_RPTH p) * 2 ^ 26 * (samples * 2 ^ effG x.eff)
    let toff := ton * (100 - s.effGet (EVT_RPCFG_HYST p)) / 100
    let st := s.evt.rp.getD p Pickup.reset
    let (st', ev) := pickStep st (s.effGet (EVT_RPCFG_DELAY p)) (decide ((ton : Int) ≤ m)) (decide (m < toff)) x.expno
    let s := s.modEvt (fun e => { e with rp := e.rp.set p st' })
    match ev with
    | some .start => (s.setBit EVT_RPNOW p true).eventT x.ts 0x0201 p .start (unsignedOf 64 m) 0 0
    | some .stop => (s.setBit EVT_RPNOW p false).eventT x.ts 0x0201 p .stop (x.expno.toNat - st.since.toNat) 0 0
    | _ => s

/-- Overcurrent of a channel from a confirmed exposure (R217).  Lanes that disagree leave the state (R417). -/
def State.overcurrent (s : State) (x : Slot) (c : ChanSum) : State :=
  let n := c.ch
  let role := x.roles.getD n 0
  if s.effGet (EVT_OCCFG_EN n) = 0 ∨ ¬ s.pdOn 5 ∨ c.n = 0 ∨ ¬ (role = 2 ∨ role = 3) then s
  else if s.saf.laneBad.contains (false, n) then s.strike dLane n
  else
    let l := s.effGet (EVT_OCTH_OCTH n)
    let loff := l * (100 - s.effGet (EVT_OCCFG_HYST n)) / 100
    let ovr := s.effGet (EVT_OCCFG_OVRPU n) == 1 && (x.words.getD n []).any (fun w => bitAt w.toNat 4)
    let st := s.evt.oc.getD n Pickup.reset
    let rms := isqrt (c.ss / c.n)
    let (st', ev) := pickStep st (s.effGet (EVT_OCCFG_DELAY n)) (decide (l * l * c.n * 2 ^ 6 ≤ c.ss) || ovr)
      (decide (c.ss < loff * loff * c.n * 2 ^ 6) && !ovr) x.expno
    let high := if !st.picked then rms else if st'.picked then max st.high rms else st.high
    let s := s.modEvt (fun e => { e with oc := e.oc.set n { st' with high := high } })
    match ev with
    | some .start => (s.setBit (EVT_OCNOW (n / 32)) (n % 32) true).eventT x.ts 0x0202 n .start rms 0 0
    | some .stop => (s.setBit (EVT_OCNOW (n / 32)) (n % 32) false).eventT x.ts 0x0202 n .stop st.high 0 0
    | _ => s

/-- EN = 0 at a boundary ends reverse power and overcurrent (R218); `e` is the exposure that ends there. -/
def State.pickupsOff (s : State) (e : BitVec 72) (ts : BitVec 64) : State :=
  let s := State.each 32 (fun p s =>
    if s.effGet (EVT_RPCFG_EN p) = 1 then s
    else
      let st := s.evt.rp.getD p Pickup.reset
      let s := s.modEvt (fun v => { v with rp := v.rp.set p Pickup.reset })
      if st.picked then (s.setBit EVT_RPNOW p false).eventT ts 0x0201 p .stop (e.toNat - st.since.toNat) 0 0 else s) s
  State.each 96 (fun n s =>
    if s.effGet (EVT_OCCFG_EN n) = 1 then s
    else
      let st := s.evt.oc.getD n Pickup.reset
      let s := s.modEvt (fun v => { v with oc := v.oc.set n Pickup.reset })
      if st.picked then (s.setBit (EVT_OCNOW (n / 32)) (n % 32) false).eventT ts 0x0202 n .stop st.high 0 0 else s) s

/-! Calibration windows (R162 to R164) -/

/-- Element-wise addition of two lists. -/
def addLists {α : Type} [Add α] [Zero α] (a b : List α) : List α :=
  (List.range (max a.length b.length)).map (fun i => a.getD i 0 + b.getD i 0)

/-- An exposure of a point enters the point's calibration window: fixed, or discarded (R163). -/
def calTake (x : Slot) (fixed : Bool) (pd : PointDev) (w : CalWin) : CalWin :=
  if w.ended ∨ w.point ≠ pd.point ∨ x.expno.toNat < w.first.toNat ∨ w.first.toNat + w.count ≤ x.expno.toNat then w
  else
    let w := { w with ended := x.expno.toNat + 1 == w.first.toNat + w.count }
    if !fixed then { w with ndisc := w.ndisc + 1 }
    else if x.awayOwn && bitAt (effOf x.eff PAIR_MPMASK_MPMASK) pd.point then { w with naway := w.naway + 1 }
    else
      let f (g : ElemSum → Nat) := pd.elems.map g
      let h (g : ElemSum → Int) := pd.elems.map g
      let mu := pd.elems.map (fun e => assocGet 0 x.mu e.ich)
      let pick (m : Int → Int → Int) (old : List Int) := if w.nexp = 0 then mu
        else (old.zip mu).map (fun e => m e.1 e.2)
      { w with last := x.expno, tsLast := x.ts, nexp := w.nexp + 1,
               ncreep := w.ncreep + pd.creep.toNat, svv := addLists w.svv (f ElemSum.sv),
               sii := addLists w.sii (f ElemSum.si), svi := addLists w.svi (h ElemSum.p),
               svq := addLists w.svq (h ElemSum.q), nsamp := addLists w.nsamp (f ElemSum.n),
               muMin := pick min w.muMin, muMax := pick max w.muMax, tot := addLists w.tot (pd.incs.drop 30) }

/-! Pairing of increments (R169 to R171) -/

/-- Pairing runs on this device as the primary and pairs the point. -/
def State.pairPrimary (_s : State) (x : Slot) (p : Nat) : Bool :=
  x.pairC.isSome && effOf x.eff PAIR_CTL_SIDE == 0 && bitAt (effOf x.eff PAIR_MPMASK_MPMASK) p

/-- Average of both members' increments with the remainder bits of the point (R169). -/
def State.pairAverage (s : State) (p : Nat) (a b : List Nat) : State × List Nat :=
  let sum (i : Nat) := a.getD i 0 + b.getD i 0 + (s.ldg.pair.rem.contains (40 * p + i)).toNat
  let others := s.ldg.pair.rem.filter (fun k => k / 40 ≠ p)
  let mine := (List.range 40).filter (fun i => sum i % 2 = 1)
  (s.modLdg (fun l => { l with pair := { l.pair with rem := others ++ mine.map (fun i => 40 * p + i) } }),
   (List.range 40).map (fun i => sum i / 2))

/-- Adds one exposure with both members present to the cycle's sums (R170, R171). -/
def State.pairSums (s : State) (p : Nat) (a b : List Nat) : State :=
  let v (l : List Nat) (i : Nat) : Int := l.getD i 0
  let pq (l : List Nat) (e : Nat) : Int × Int :=
    (v l (10 * e) - v l (10 * e + 1), v l (10 * e + 4) + v l (10 * e + 5) - v l (10 * e + 6) - v l (10 * e + 7))
  let add (l : List PairCyc) (e : Nat) : List PairCyc :=
    let old := (l.find? (fun c => c.point == p && c.elem == e)).getD
      { point := p, elem := e, pa := 0, qa := 0, pb := 0, qb := 0, n := 0 }
    l.filter (fun c => !(c.point == p && c.elem == e)) ++
      [{ old with pa := old.pa + (pq a e).1, qa := old.qa + (pq a e).2, pb := old.pb + (pq b e).1,
                  qb := old.qb + (pq b e).2, n := old.n + 1 }]
  let app (l : List Nat) := l.getD 38 0 + l.getD 39 0
  s.modLdg (fun l => { l with pair := { l.pair with
    cyc := [0, 1, 2].foldl add l.pair.cyc
    app := (let old := (l.pair.app.find? (fun x => x.1 == p)).getD (p, 0, 0)
            l.pair.app.filter (fun x => x.1 != p) ++ [(p, old.2.1 + app a, old.2.2 + app b)]) } })

/-! Resolution (R192) -/

/-- Changes the exposure of a number in the pipe. -/
def State.modExpo (s : State) (e : BitVec 72) (f : Expo → Expo) : State :=
  s.modExp (fun x => { x with pipe := x.pipe.map (fun y => if y.slot.expno = e then f y else y) })

/-- The exposure of a number, if not yet resolved for every point. -/
def State.expo (s : State) (e : BitVec 72) : Option Expo := s.exp.pipe.find? (fun x => x.slot.expno == e)

/-- Running points of an exposure. -/
def Expo.points (x : Expo) : List Nat := bitsOf 32 x.slot.running.toNat

/-- Bit p of a 32-bit mask. -/
def bit32 (p : Nat) : BitVec 32 := BitVec.ofNat 32 (2 ^ p)

/-- MET_STAT.LATENT of a point follows the pipe. -/
def State.latentFlag (s : State) (p : Nat) : State :=
  s.setFlag (MET_STAT_LATENT p) (s.exp.pipe.any (fun x => bitAt x.latent.toNat p))

/-- The result of a point in a development. -/
def DevResult.point (r : DevResult) (p : Nat) : Option PointDev := r.points.find? (fun x => x.point == p)

/-- The developer's result an exposure is resolved by: the replay's when it completed, else the original (R35). -/
def Expo.result (x : Expo) (p : Nat) : Option PointDev :=
  match x.replay with
  | some r => r.point p
  | none => match x.dev with
    | some r => r.point p
    | none => none

/-- Own and the active device's fixed increments of a point differ (R445). -/
def State.mirDiffer (s : State) (e : BitVec 72) (p : Nat) : State :=
  (s.bump TZL_MIRDIF_MIRDIF 1).event 0x0C06 p .momentary (e.toNat % 2 ^ 64) 0 0

/-- The standby resolves an exposure whose mirror frame has arrived already: only the comparison is left (R445). -/
def State.mirMeet (s : State) (e : BitVec 72) (p : Nat) (fixed : Bool) (incs : List Nat) : State :=
  let s' := { s with tzl := { s.tzl with mirGot := s.tzl.mirGot.filter (fun g => !(g.1 == e && g.2.1 == p)) } }
  match s.tzl.mirGot.find? (fun g => g.1 == e && g.2.1 == p) with
  | some (_, _, true, l) => if fixed && l != incs then s'.mirDiffer e p else s'
  | _ => s'

/-- Exposure x is resolved for point p: one indivisible step (R192).  `incs` are the fixed increments, or what the discarded
development held. -/
def State.resolvePoint (s : State) (x : Expo) (p : Nat) (v : Verdict) (incs : List Nat) (pd : PointDev) : State :=
  let e := x.slot.expno
  let s := s.freezePoint p e.toNat
  let old := s.ldg.pointRegs p
  let fixed := v ≠ .discarded
  let tot := incs.drop 30
  let safe := s.inSafe
  let s := s.modEvt (fun y => { y with newest := if y.newest.toNat < e.toNat then e else y.newest })
  let s := s.modExpo e (fun y => { y with
    latent := y.latent &&& ~~~ bit32 p, resolved := y.resolved ||| bit32 p, fixed := if fixed then y.fixed ||| bit32 p else y.fixed,
    before := y.before ++ [(p, old)],
    pairWait := y.pairWait.filter (fun w => w.1 != p),
    outcome := y.outcome ++ [(p, fixed && !safe, if fixed && !safe then incs else tot)] })
  let s :=
    if (s.tzl.mirGot.any (fun g => g.1 == e && g.2.1 == p)) then s.mirMeet e p fixed incs
    else if s.mirPoint p then
      if fixed then { s with tzl := { s.tzl with own := s.tzl.own ++ [(e, p, incs)] } } else s
    else if safe || !fixed then (s.withhold p tot).cfResolve e p []
    else (s.ledgerTake p incs).cfResolve e p incs
  let counted := match s.expo e with | some y => y.ssCounted | none => true
  let s := if safe && !counted then (s.bump SAF_SSEXP_SSEXP 1).modExpo e (fun y => { y with ssCounted := true }) else s
  let s := s.dueReleases p e
  let s := match v with
    | .fixed => s
    | .fixedByReplay => s.bump (MET_REPLAY_REPLAY p) 1
    | .discarded => s.bump (MET_DISC_DISC p) 1
  let s := (if pd.creep then s.bump (MET_CREEPCNT_CREEPCNT p) 1 else s).setFlag (MET_STAT_CREEPNOW p) pd.creep
  let sum (f : ElemSum → Nat) := pd.elems.foldl (fun a y => a + f y) 0
  let s := if fixed then
      let s := ((s.bump (MET_SETTLE_SETTLE p) (sum ElemSum.settle)).bump (MET_LOSS_LOSS p) (sum ElemSum.loss)).bump
        (MET_OVR_OVR p) (sum ElemSum.ovr)
      let n := (x.slot.words.map List.length).foldl max 0
      s.reversePower x.slot p n incs
    else s
  let s := s.modLdg (fun l => { l with cals := l.cals.map (calTake x.slot fixed pd) })
  s.latentFlag p

/-- An empty result of a point that was not developed. -/
def noDev (p : Nat) : PointDev := { point := p, elems := [], incs := List.replicate 40 0, creep := false }

/-- The paired point of the primary is decided (R169) by its own verdict v and increments a, and the partner's increments when they
have arrived or the latent deadline has passed (`late`).  While its own members are away its own verdict is of no account. -/
def State.pairDecide (s : State) (x : Expo) (p : Nat) (a : List Nat) (v : Verdict) (pd : PointDev) (late : Bool) : State :=
  let b := s.ldg.pair.recvd.find? (fun y => y.1 == x.slot.expno && y.2.1 == p)
  let s := s.modLdg (fun l => { l with pair := { l.pair with
    recvd := l.pair.recvd.filter (fun y => !(y.1 == x.slot.expno && y.2.1 == p)) } })
  let other : Verdict := if v = .discarded then .fixed else v
  if x.slot.awayOther then s.resolvePoint x p v a pd
  else match b with
    | some (_, _, bv) =>
      if x.slot.awayOwn then s.resolvePoint x p other bv pd
      else
        let (s, avg) := s.pairAverage p a bv
        let s := if v = .discarded || pd.creep || bv.all (· == 0) then s else s.pairSums p a bv
        s.resolvePoint x p v avg pd
    | none =>
      if late then
        if x.slot.awayOwn then
          ((s.bump PAIR_GAPCNT_GAPCNT 1).setFlag PAIR_STAT_GAP true).resolvePoint x p other [] pd
        else s.resolvePoint x p v a pd
      else s.modExpo x.slot.expno (fun y => { y with
        pairWait := y.pairWait.filter (fun w => w.1 != p) ++ [(p, v, a)] })

/-- A point's own outcome is known (R34, R35): its exposure is resolved, or waits for the partner under pairing. -/
def State.decidePoint (s : State) (x : Expo) (p : Nat) (v : Verdict) (pd : PointDev) : State :=
  if s.pairPrimary x.slot p then s.pairDecide x p pd.incs v pd false else s.resolvePoint x p v pd.incs pd

/-! Sample blocks (R399) and the live view (R200) -/

/-- The block an SMP ring gets of an exposure: its slots, channels included and samples per channel. -/
def smpBlock (x : Expo) (r : Nat) : List (BitVec 64) :=
  let eff := x.slot.eff
  let src := effOf eff (HIF_SMPCFG_SRC r)
  let want (n : Nat) := bitAt (effOf eff (HIF_SMPCH_CH r (n / 32))) (n % 32)
  let data (n : Nat) : List (BitVec 64) :=
    if src = 0 then (x.slot.words.getD n []).map (·.zeroExtend 64)
    else ((x.corrected.find? (fun c => c.1 == n)).getD (0, [])).2.map (fun z => slotI z.v)
  let chs := (List.range 96).filter (fun n => want n && !(data n).isEmpty)
  let n := (chs.map (fun c => (data c).length)).foldl max 0
  let pad (l : List (BitVec 64)) := List.replicate (n - l.length) 0 ++ l
  let mask (l : List Nat) := l.foldl (fun m c => m + 2 ^ c) 0
  let cm := mask chs
  let un := mask (x.unconf.filter chs.contains)
  [BitVec.ofNat 64 (1 + src * 2 ^ 8 + n * 2 ^ 16 + chs.length * 2 ^ 24 + (128 + 8 * chs.length * n) * 2 ^ 32), 0]
    ++ slot128 x.slot.expno.toNat ++ [x.slot.ts, BitVec.ofNat 64 cm, BitVec.ofNat 64 (cm / 2 ^ 64), BitVec.ofNat 64 un,
      BitVec.ofNat 64 (un / 2 ^ 64)] ++ List.replicate 7 0 ++ chs.flatMap (fun c => pad (data c))

/-- SMP stream state. -/
def State.smpFill (s : State) (r : Nat) : SmpState :=
  s.hif.smp.getD (r - 4) { fill := { used := 0, blocks := 0, expno := 0, ts := 0 }, droppedBefore := 0 }

/-- Sets an SMP stream's state. -/
def State.setSmp (s : State) (r : Nat) (x : SmpState) : State :=
  { s with hif := { s.hif with smp := s.hif.smp.set (r - 4) x } }

/-- Returns the buffer an SMP ring is filling (R399). -/
def State.smpReturn (s : State) (r : Nat) : State :=
  let st := s.smpFill r
  if st.fill.blocks = 0 then s
  else (s.returnBuf r st.fill.used 0 1 st.fill.expno st.fill.ts).setSmp r
    { st with fill := { used := 0, blocks := 0, expno := 0, ts := 0 } }

/-- Places an exposure's block on an SMP ring (R399): it goes behind the blocks of the buffer in use when it fits, else into
the next buffer that holds it; without one it is dropped. -/
def State.smpPlace (s : State) (x : Expo) (r : Nat) : State :=
  let block := smpBlock x r
  let len := 8 * block.length
  if !s.ringRun r || block.length ≤ 16 then s
  else
    let s := match (s.ring r).posted with
      | b :: _ => if b.size.toNat < (s.smpFill r).fill.used + len then s.smpReturn r else s
      | [] => s
    let (s, ok) := s.skipShort r len 1 x.slot.expno x.slot.ts ((s.ring r).posted.length + 1)
    let st := s.smpFill r
    match ok, (s.ring r).posted with
    | true, b :: _ =>
      let block := block.set 1 (BitVec.ofNat 64 st.droppedBefore)
      let s := s.hostWrite (.mem (b.addr + BitVec.ofNat 64 st.fill.used) block)
      let s := s.setSmp r { fill := { used := st.fill.used + len, blocks := st.fill.blocks + 1, expno := x.slot.expno,
                                      ts := x.slot.ts }, droppedBefore := 0 }
      if max 1 (effOf x.slot.eff (HIF_SMPCFG_BPB r)) ≤ st.fill.blocks + 1 then s.smpReturn r else s
    | _, _ => (s.dropRecord r).setSmp r { st with droppedBefore := st.droppedBefore + 1 }

/-- The group whose frequency a channel shows: the lowest that names it as voltage channel, else that of the lowest running
point with it as a current channel (R200). -/
def viewGroup (eff : List (Nat × BitVec 32)) (pts : List Nat) (n : Nat) : Option Nat :=
  match (List.range 8).find? (fun g =>
      (decide (1 ≤ effOf eff (VGDEF_NV g)) && effOf eff (VGDEF_VCH0 g) == n) ||
      (decide (2 ≤ effOf eff (VGDEF_NV g)) && effOf eff (VGDEF_VCH1 g) == n) ||
      (decide (3 ≤ effOf eff (VGDEF_NV g)) && effOf eff (VGDEF_VCH2 g) == n)) with
  | some g => some g
  | none => match pts.find? (fun p => (pointCurrents eff p).contains n) with
    | some p => some (effOf eff (MET_CFG_VG p))
    | none => none

/-- The four slots of one channel of the live view (R200). -/
def State.viewChan (s : State) (x : Expo) (r : DevResult) (n : Nat) : List (BitVec 64) :=
  let eff := x.slot.eff
  let role := x.slot.roles.getD n 0
  let rms : BitVec 64 :=
    if role = 5 ∨ role = 6 then
      let l := x.slot.words.getD n []
      if l.isEmpty then 0
      else slotI (roundDiv (l.foldl (fun (a : Int) w => a + signedOf 30 (w.toNat / 64)) 0 * 2 ^ 5) l.length)
    else match r.chans.find? (fun c => c.ch == n) with
      | some c => if c.n = 0 then 0 else BitVec.ofNat 64 (isqrt (c.ss / c.n))
      | none => 0
  let el := x.points.findSome? (fun p =>
    match r.point p with
    | some pd => (pd.elems.find? (fun e => e.ich == n)).map (fun e => (e, effOf eff (MET_CFG_SVEC p) == 1))
    | none => none)
  let (pw, pf) : BitVec 64 × BitVec 64 := match el with
    | some (e, v) =>
      (if e.n = 0 then 0 else slotI (roundDiv e.p (e.n * 2 ^ 34)),
       if apparent v e = 0 then 0 else slotI (roundDiv (e.p * 2 ^ 34) (apparent v e)))
    | none => (0, 0)
  let f : BitVec 64 := match viewGroup eff x.points n with
    | some g => BitVec.ofNat 64 (s.evt.groups.getD g GroupState.reset).fcyc
    | none => 0
  [rms, pw, pf, f]

/-- The live view is written (R200, R404): SEQ odd, the view, SEQ even. -/
def State.liveView (s : State) (x : Expo) (r : DevResult) : State :=
  if !s.flag HIF_CTL_LVEN || !s.dmaOn then s
  else
    let base := BitVec.ofNat 64 (s.wide [HIF_LVBASE_LO, HIF_LVBASE_HI])
    let q := s.hif.lvSeq + 1
    let latent := if x.points.any (fun p => bitAt x.latent.toNat p) then (1 : BitVec 64) else 0
    let view := slot128 x.slot.expno.toNat ++ [x.slot.ts, latent, q, 0, 0, 0] ++
      (List.range 96).flatMap (s.viewChan x r)
    let s := { s with hif := { s.hif with lvSeq := q + 1 } }
    ((s.emit (.mem (base + 0x20) [q])).emit (.mem base view)).emit (.mem (base + 0x20) [q + 1])

/-! Completion of an exposure -/

/-- The 16 words of an event record (R219). -/
def Event.slots (e : Event) (dropped : Bool) : List (BitVec 64) :=
  let edge := match e.edge with | .momentary => 0 | .start => 1 | .stop => 2
  [BitVec.ofNat 64 (e.code.toNat + e.index.toNat * 2 ^ 16 + edge * 2 ^ 24 + dropped.toNat * 2 ^ 26), e.seq]
    ++ slot128 e.expno.toNat ++ [e.ts, e.p0, e.p1, e.p2]

/-- Words of 64-bit slots, low word first. -/
def slotWords32 (l : List (BitVec 64)) : List (BitVec 32) := l.flatMap (fun (x : BitVec 64) => [x.truncate 32, (x >>> 32).truncate 32])

/-- An exposure resolved for every point is reported to other devices: a slave's resolution frame (R440), the active device's
mirror frame (R445). -/
def State.tzResolved (s : State) (x : Expo) : State :=
  let e := x.slot.expno
  if s.tzl.mode = 1 ∧ s.get TZL_STAT_POS ≠ 0 ∧ s.flag TZL_STAT_UPTRN ∧ ¬ s.flag TZL_STAT_ISLAND then
    let f : ResFrame :=
      { bad := 0, pos := s.get TZL_STAT_POS, expno := e, points := x.outcome.map (fun o => (o.1, o.2.1, if o.2.1 then o.2.2 else [])),
        events := s.tzl.fwd.map (fun v => slotWords32 (v.slots false)), record := none }
    { s with tzl := { s.tzl with fwd := [], out := s.tzl.out ++ [.resolution f] } }
  else if s.tzl.mode = 2 ∧ s.flag TZL_STAT_ACTIVE then
    let counts := ((s.tzl.countsNow.find? (fun c => c.1 == e)).getD (0, List.replicate 16 0)).2
    let sum := match s.tzl.sums.find? (fun c => c.1 == e) with | some (_, v, _) => v | none => 0
    let points := if s.tzl.small then x.outcome.filter (fun o => decide (o.1 < 12)) else x.outcome
    let f : MirFrame := { bad := 0, expno := e, ts := x.slot.ts, handover := s.inSafe || s.flag TZL_MIRCTL_HANDOVER, safe := s.inSafe,
                          points := points, releases := s.tzl.relNow, counts := counts, sum36 := sum }
    let linked := s.flag TZL_STAT_UPTRN || s.flag TZL_STAT_DNTRN
    { s with tzl := { s.tzl with
      relNow := [], countsNow := s.tzl.countsNow.filter (fun c => c.1 != e), sums := s.tzl.sums.filter (fun c => c.1 != e),
      out := if linked then s.tzl.out ++ [.mirror f] else s.tzl.out } }
  else s

/-- Whether nothing of an exposure is open: every running point resolved, every channel decided (R28, R201). -/
def Expo.closed (x : Expo) : Bool := x.compared && x.points.all (fun p => bitAt x.resolved.toNat p) && x.openCh.isEmpty

/-- What pairing makes of an exposure that is resolved (R168, R170, R171): trims after c = 63, and on the primary the frequencies of
the cycle and, after its last exposure, the cycle's end. -/
def State.pairDone (s : State) (x : Expo) : State :=
  if x.slot.pairC.isNone || !s.flag PAIR_STAT_RUN then s
  else
    let s := if x.slot.pairC = some 63 then s.pairTrims x.slot.eff (instantsIn (effG x.slot.eff) 32768) x.corrected else s
    if effOf x.slot.eff PAIR_CTL_SIDE = 1 then s
    else
      let s := State.each 8 (fun g s =>
        let f := x.slot.freq.getD g 0
        if f = 0 then s
        else s.modPair (fun p =>
          let old := (p.fsum.find? (fun y => y.1 == g)).getD (g, 0, 0)
          { p with fsum := p.fsum.filter (fun y => y.1 != g) ++ [(g, old.2.1 + f, old.2.2 + 1)] })) s
      if x.slot.pairC = some 7999 then s.pairCycleEnd else s

/-- The exposure is resolved for every running point: stream losses of it act (R221), its fades and outgoing tables end (R147,
R159), releases at points that do not run are applied, its sample blocks are formed, the trip sources are evaluated (R229), and frames
are sent. -/
def State.exposureDone (s : State) (x : Expo) : State :=
  let e := x.slot.expno
  let s := s.modExp (fun y => { y with
    pipe := y.pipe.filter (fun z => z.slot.expno ≠ e)
    lastResolved := match y.lastResolved with
      | some (k, t) => if k.toNat < e.toNat then some (e, x.slot.ts) else some (k, t)
      | none => some (e, x.slot.ts) })
  let s := s.modEvt (fun y => { y with newest := if y.newest.toNat < e.toNat then e else y.newest })
  let due := s.evt.lossWait.filter (fun w => decide (w.2.2.1.toNat ≤ e.toNat))
  let s := s.modEvt (fun y => { y with lossWait := y.lossWait.filter (fun w => !decide (w.2.2.1.toNat ≤ e.toNat)) })
  let s := due.foldl (fun s w =>
    let s := s.eventT w.2.2.2 0x0101 w.1 .start w.2.1.toNat 0 0
    if (s.chan w.1).lost then
      s.modEvt (fun y => { y with active := y.active ++ [(0x0101, BitVec.ofNat 8 w.1)] })
    else s) s
  let s := State.each 32 (fun p s => if bitAt x.slot.running.toNat p then s else (s.freezePoint p e.toNat).dueReleases p e) s
  let s := s.modLdg (fun l => { l with cals := l.cals.map (fun w =>
    { w with ended := w.ended || decide (w.first.toNat + w.count ≤ e.toNat + 1) }) })
  let s := State.each 96 (fun n s =>
    let c := s.chan n
    let s := if c.fadeLast.any (fun k => decide (k ≤ e.toNat)) then
        (s.modChan n (fun c => { c with fade := none, fadeLast := none })).setFlag (FLT_CH_FADING n) false
      else s
    if c.corrHeld.any (fun k => decide (k ≤ e.toNat)) then s.modChan n (fun c => { c with corrHeld := none }) else s) s
  let s := [4, 5, 6, 7].foldl (fun s r => s.smpPlace x r) s
  let s := s.pairDone x
  let s := if x.fixed ≠ 0 ∨ x.slot.running = 0 then s.tripEvaluate else s
  s.tzResolved x

/-- Completes every exposure of the pipe with nothing open, oldest first. -/
def State.sweep (s : State) : State :=
  s.exp.pipe.foldl (fun s x =>
    match s.expo x.slot.expno with
    | some y => if y.closed then s.exposureDone y else s
    | none => s) s

/-- Publishes what may be published (R29): each developed exposure for each point whose earlier ones are resolved; the live
view follows when an exposure is published for every running point. -/
def State.publish (s : State) : State :=
  let s := s.exp.pipe.foldl (fun s x =>
    match x.dev with
    | none => s
    | some r => x.points.foldl (fun s p =>
        let blocked := s.exp.pipe.any (fun y =>
          decide (y.slot.expno.toNat < x.slot.expno.toNat) && bitAt y.slot.running.toNat p && !bitAt y.resolved.toNat p)
        match s.expo x.slot.expno with
        | some y =>
          if blocked || s.lateFor y.deadline || bitAt y.latent.toNat p || bitAt y.resolved.toNat p then s
          else
            let incs := match r.point p with | some d => d.incs | none => []
            let s := s.modExpo x.slot.expno (fun z => { z with latent := z.latent ||| bit32 p })
            (s.cfPublish x.slot.expno p incs).latentFlag p
        | none => s) s) s
  s.exp.pipe.foldl (fun s x =>
    match s.expo x.slot.expno, x.dev with
    | some y, some r =>
      if !y.viewed && y.points.all (fun p => bitAt (y.latent ||| y.resolved).toNat p) then
        (s.liveView y r).modExpo x.slot.expno (fun z => { z with viewed := true })
      else s
    | _, _ => s) s

/-! Comparison, replay, deadline (R34, R35, R201) -/

/-- Sums of a channel agree between two results. -/
def chanAgrees (a b : DevResult) (n : Nat) : Bool :=
  a.chans.find? (fun c => c.ch == n) == b.chans.find? (fun c => c.ch == n)

/-- A point agrees: active-power sums and sums of squares of everything it uses (R34). -/
def pointAgrees (eff : List (Nat × BitVec 32)) (a b : DevResult) (p : Nat) : Bool :=
  (match a.point p, b.point p with
   | some x, some y => x.elems.map (fun e => (e.p, e.n)) == y.elems.map (fun e => (e.p, e.n))
   | _, _ => false) && (pointChans eff p).all (chanAgrees a b)

/-- A channel's exposure is confirmed: overcurrent judges it. -/
def State.confirm (s : State) (x : Expo) (r : DevResult) (n : Nat) : State :=
  let s := s.modExpo x.slot.expno (fun y => { y with openCh := y.openCh.filter (· ≠ n) })
  match r.chans.find? (fun c => c.ch == n) with
  | some c => s.overcurrent x.slot c
  | none => s

/-- A channel's exposure stays unconfirmed: its overcurrent value is counted and holds the timer (R201, R217), and so is what the
crossings of the groups it times take from it (R203). -/
def State.unconfirm (s : State) (x : Expo) (n : Nat) : State :=
  let role := x.slot.roles.getD n 0
  let s := if s.effGet (EVT_OCCFG_EN n) = 1 ∧ (role = 2 ∨ role = 3) then s.bump EVT_STAT_UNCONFCNT 1 else s
  let timed := ((List.range 8).filter (fun g => s.effGet (VGDEF_NV g) != 0 && s.effGet (VGDEF_VCH0 g) == n)).length
  let s := s.bump EVT_STAT_UNCONFCNT timed
  let s := s.modExpo x.slot.expno (fun y => { y with openCh := y.openCh.filter (· ≠ n), unconf := y.unconf ++ [n] })
  s.modEvt (fun e => { e with unconf := e.unconf ++ [(x.slot.expno, n)] })

/-- One COMPARE strike per exposure at most (R35). -/
def State.compareStrike (s : State) (e : BitVec 72) (detail : Nat) : State :=
  match s.expo e with
  | some y => if y.struck then s else (s.modExpo e (fun y => { y with struck := true })).strike dCompare detail
  | none => s

/-- The vector of the KAV slot after the exposure that ended last (R418). -/
def State.kavVector (s : State) : Nat :=
  s.saf.kavAgain.getD (match s.exp.lastEnded with | some (n, _) => n.toNat % 32 | none => 0)

/-- The developer has published the exposure that ended last and is idle (R418). -/
def State.kavOpen (s : State) : Bool := s.exp.lastEnded.isSome && s.exp.pipe.all (fun x => x.dev.isSome)

/-- A replay takes precedence over a vector, which runs in the next exposure (R418). -/
def State.kavDisplace (s : State) : State :=
  if s.saf.kavDone then s
  else s.modSaf (fun f => { f with kavDone := true, kavAgain := some s.kavVector })

/-- The comparison of one exposure (R34): its channels once both engines have finished, each point once it is latent (R29).  What
agrees is fixed or confirmed, the rest replayed.  After the latent deadline nothing is fixed any more (R30). -/
def State.compareExpo (s : State) (e : BitVec 72) : State :=
  match s.expo e with
  | some x =>
    match x.dev, x.fix with
    | some d, some f =>
      if s.lateFor x.deadline then s
      else
        let chans := if x.compared then [] else x.openCh
        let due := x.points.filter (fun p => bitAt x.latent.toNat p && !bitAt x.judged.toNat p && !bitAt x.resolved.toNat p)
        let s := s.modExpo e (fun y => { y with compared := true, judged := due.foldl (fun m p => m ||| bit32 p) y.judged })
        let s := chans.foldl (fun s n => if chanAgrees d f n then s.confirm x d n else s) s
        let s := due.foldl (fun s p =>
          match d.point p with
          | some pd => if pointAgrees x.slot.eff d f p then s.decidePoint x p .fixed pd else s
          | none => s) s
        if due.any (fun p => !pointAgrees x.slot.eff d f p) || chans.any (fun n => !chanAgrees d f n) then
          s.kavDisplace.modExpo e (fun y => { y with replaying := true })
        else s
    | _, _ => s
  | none => s

/-- The replay of an exposure completed (R35); one that completed after the latent deadline decides nothing. -/
def State.replayExpo (s : State) (x : Expo) (u : EngineUpset) : State :=
  match x.fix with
  | some f =>
    let e := x.slot.expno
    if s.lateFor x.deadline then s.modExpo e (fun y => { y with replaying := false })
    else
      let r := upsetResult x.slot.eff x.sound u
      let s := s.modExpo e (fun y => { y with replay := some r, replaying := false })
      let x := { x with replay := some r }
      let s := x.openCh.foldl (fun s n => if chanAgrees r f n then s.confirm x r n else s.unconfirm x n) s
      let open_ := x.points.filter (fun p =>
        bitAt x.judged.toNat p && !bitAt x.resolved.toNat p && !x.pairWait.any (fun w => w.1 == p))
      let bad := open_.filter (fun p => !pointAgrees x.slot.eff r f p)
      let s := open_.foldl (fun s p =>
        match r.point p with
        | some pd => s.decidePoint x p (if bad.contains p then .discarded else .fixedByReplay) pd
        | none => s) s
      let badCh := x.openCh.filter (fun n => !chanAgrees r f n)
      if bad.isEmpty && badCh.isEmpty then s else s.compareStrike e (bad.headD (badCh.headD 0))
  | none => s

/-- The latent deadline of an exposure has passed (R30, R35, R169): paired points that wait take what their device decided, every
other open point is discarded. -/
def State.expireExpo (s : State) (x : Expo) : State :=
  let e := x.slot.expno
  let open_ := x.points.filter (fun p => !bitAt x.resolved.toNat p)
  let s := open_.foldl (fun s p =>
    let pd := (x.result p).getD (noDev p)
    match x.pairWait.find? (fun w => w.1 == p) with
    | some w => s.pairDecide x p w.2.2 w.2.1 pd true
    | none => if s.pairPrimary x.slot p then s.pairDecide x p pd.incs .discarded pd true
              else s.resolvePoint x p .discarded pd.incs pd) s
  let lostPts := open_.filter (fun p => !x.pairWait.any (fun w => w.1 == p))
  let s := x.openCh.foldl (fun s n => s.unconfirm x n) s
  let s := s.modExpo e (fun y => { y with compared := true, replaying := false })
  if x.dev.isNone || x.fix.isNone then
    s.strike dStall (lostPts.headD 0)
  else if lostPts.isEmpty && x.openCh.isEmpty then s
  else s.compareStrike e (lostPts.headD (x.openCh.headD 0))

/-- Publication, comparison and completion by turns, since each resolution lets the next exposure become latent (R29): the sample
buffer holds three (R28). -/
def State.settlePipe : Nat → State → State
  | 0, s => s
  | n + 1, s =>
    let s := s.publish
    let s := s.exp.pipe.foldl (fun s x => s.compareExpo x.slot.expno) s
    s.sweep.settlePipe n

/-- The latent deadline of an exposure that ends with a timestamp: 2.1 ms later, in 2⁻²⁴ s (R30). -/
def latentDeadline (ts : BitVec 64) : BitVec 64 := BitVec.ofNat 64 (ts.toNat + 35232)

/-- Gives up an exposure that is not closed. -/
def State.expireNo (s : State) (e : BitVec 72) : State :=
  match s.expo e with
  | some y => if y.closed then s else s.expireExpo y
  | none => s

/-- When exposure n + 3 starts, the slot of exposure n is refilled (R28): of the exposures that ended and are still open, the sample
buffer then keeps the two newest, and an older one is given up (log 123). -/
def State.refillSlot (s : State) : State :=
  let old := s.exp.pipe.take (s.exp.pipe.length - 2)
  if old.isEmpty then s else (old.foldl (fun s x => s.expireNo x.slot.expno) s).sweep.settlePipe 3

/-- Expires every exposure whose latent deadline has passed by more than 4 µs (R30, R39). -/
def State.expireLatent (s : State) : State :=
  (s.exp.pipe.foldl (fun s x => if s.passed x.deadline then s.expireNo x.slot.expno else s) s).sweep.settlePipe 3

end Sys2Proof.Machine
end

