-- ==== Sys2Proof/Machine/Front.lean ====
section
/-!
DEFINITION. The front end: stream loss (R107 to R110), bracket selection (R113 to R122), CALSEL (R123), restarts (R142), and
what closing an exposure makes of its streams: sample words, corrected samples, engine sums (R24, R179).
-/

namespace Sys2Proof.Machine

/-- Roles by code (R97). -/
def roleVolt : BitVec 3 := 1
def roleCurr : BitVec 3 := 2
def roleBrkLo : BitVec 3 := 3
def roleBrkHi : BitVec 3 := 4
def roleRef : BitVec 3 := 5
def roleAux : BitVec 3 := 6

/-- State of a bracketed pair. -/
def State.brk (s : State) (m : Nat) : BrkState := s.exp.brk.getD m BrkState.reset

/-- Changes the state of a bracketed pair. -/
def State.modBrk (s : State) (m : Nat) (f : BrkState → BrkState) : State :=
  s.modExp (fun e => { e with brk := e.brk.modify m f })

/-- A switch to the low-gain member from merged sample k on is seen at once (R114, R122): the exposure's end finds it again in the
streams (log 124). -/
def State.brkLow (s : State) (m k : Nat) : State :=
  if (s.brk m).on && s.flag (MFE_BRKST_SEL m) then
    let s := s.modBrk m (fun b => { b with timeline := b.timeline ++ [(k, false)], fired := true, toLg := b.toLg + 1 })
    (s.setFlag (MFE_BRKST_SEL m) false).bump (MFE_BRKSW_TOLG m) 1
  else s

/-- 64 consecutive low-gain samples are possible before merged sample k (R115, R121): since the switch announced last, or with those
counted up to the exposure's start, none of them while the high-gain member settles. -/
def BrkState.canReturn (b : BrkState) (k : Nat) : Bool :=
  match b.timeline.getLast? with
  | some (j, false) => decide (j + 64 + b.hSettle ≤ k)
  | _ => if b.hSettle = 0 then decide (64 ≤ b.count + k) else decide (b.hSettle + 64 ≤ k)

/-- A return to the high-gain member from merged sample k on is seen at once (R115, R121, R122, log 124). -/
def State.brkHigh (s : State) (m k : Nat) : State :=
  if (s.brk m).on && !s.flag (MFE_BRKST_SEL m) && !s.flag (MFE_BRKST_HGLOSS m) && (s.brk m).canReturn k then
    let s := s.modBrk m (fun b => { b with timeline := b.timeline ++ [(k, true)], toHg := b.toHg + 1 })
    (s.setFlag (MFE_BRKST_SEL m) true).bump (MFE_BRKSW_TOHG m) 1
  else s

/-- Stream loss is declared on a channel (R107, R110): cause 0 no transition, 1 density, 2 bank fault. -/
def State.declareLoss (s : State) (n cause : Nat) : State :=
  if (s.chan n).lost || !(s.chan n).started then s
  else
    let s := s.modChan n (fun c => { c with lost := true, lostNow := true, byBank := cause == 2 })
    let s := (s.setBit (MFE_LOSS (n / 32)) (n % 32) true).setBit (MFE_LOSSNOW (n / 32)) (n % 32) true
    let s := s.strike dStream n
    let s := if s.exp.running then
        let w := (n, BitVec.ofNat 64 cause, s.exp.cur, s.ts)
        s.modEvt (fun e => { e with lossWait := e.lossWait ++ [w] })
      else s.event 0x0101 n .start cause 0 0
    if (s.chan n).role = roleBrkHi ∧ (s.brk (n / 2)).on then
      (s.brkLow (n / 2) 0).setFlag (MFE_BRKST_HGLOSS (n / 2)) true
    else s

/-- Stream loss of a channel ends at a boundary (R109): the start event is logged before the end if it still waited. -/
def State.endLoss (s : State) (n : Nat) (ts : BitVec 64) : State :=
  if !(s.chan n).lost then s
  else
    let s := s.modChan n (fun c => { c with lost := false, byBank := false })
    let s := s.setBit (MFE_LOSSNOW (n / 32)) (n % 32) false
    let due := s.evt.lossWait.filter (fun w => w.1 == n)
    let s := s.modEvt (fun e => { e with lossWait := e.lossWait.filter (fun w => w.1 != n) })
    let s := due.foldl (fun s w => s.eventT w.2.2.2 0x0101 n .start w.2.1.toNat 0 0) s
    s.eventT ts 0x0101 n .stop 0 0 0

/-- The settle count of a channel (R141), by the settings in effect. -/
def State.settleOf (s : State) (n : Nat) : Nat :=
  let c := s.chan n
  let pair := c.role == roleBrkLo || c.role == roleBrkHi
  let taps := if s.flag (FLT_CH_ACTB n) then s.get (FLT_CH_TAPSB n) else s.get (FLT_CH_TAPSA n)
  grainSettle s.exp.eff + (if pair then 4 else if s.effGet (FLT_CH_ALIGN n) = 1 then 2 else 0)
    + (if s.flag (FLT_CH_FRUN n) then taps else 0)

/-- The compensation-filter history of a channel is cleared, with the correction history, networks and resonators (R139,
R152, R184). -/
def State.clearHist (s : State) (n : Nat) : State :=
  let s := s.modChan n (fun c => { c with hist := [], histLen := 0, ys := [] })
  s.modLdg (fun l => { l with nets := l.nets.filter (fun x => x.2.ch != n), netset := assocPut l.netset n 600 })

/-- A channel restarts from the zero state (R98, R139, R142); a freeze after a bracket switch goes on (R136). -/
def State.restart (s : State) (n : Nat) : State :=
  let k := s.settleOf n
  (s.modChan n (fun c => { c with
    bits := [], hb := [], delay := [], settle := k, ovr := 0, ovrPend := false, firePend := false, filtSettle := 0 })).clearHist n

/-- A pair restarts: nominal ratio and delay, high-gain member selected (R113, R120). -/
def State.restartPair (s : State) (m : Nat) : State :=
  let s := (s.restart (2 * m)).restart (2 * m + 1)
  let s := s.modBrk m (fun b => { b with sel := true, timeline := [], count := 0, hOld := [], lOld := [], fired := false, hSettle := 0 })
  let s := (s.put (MFE_BRKRAT_RATIO m) (s.effGet (MFE_BRKNOM_NOMRATIO m))).put (MFE_BRKDLY_DELAY m)
    (s.effGet (MFE_BRKNDL_NOMDELAY m))
  if s.flag (MFE_BRKST_HGLOSS m) then s.setFlag (MFE_BRKST_SEL m) false else s.setFlag (MFE_BRKST_SEL m) true

/-- Restart of a channel, with its partner when it is a member of a running pair. -/
def State.restartAny (s : State) (n : Nat) : State := if (s.brk (n / 2)).on then s.restartPair (n / 2) else s.restart n

/-- A bank's VDDIO lies in one of its windows (R71). -/
def State.bankOk (s : State) (k : Nat) : Bool := !bitAt s.pwr.bankFault.toNat k

/-- CALSELk follows CALFRC and CALLVL while pairing does not run on the bank; a bank fault releases it in any case (R123). -/
def State.calselForce (s : State) (k : Nat) : State :=
  if s.flag PAIR_STAT_RUN && bitAt (s.effGet PAIR_BANKS_BANKS) k && s.bankOk k then s
  else
    let drive := s.flag (MFE_BANK_CALFRC k) && s.bankOk k && s.pdOn 2
    let lvl := s.flag (MFE_BANK_CALLVL k)
    (s.modExp (fun e => { e with calsel := e.calsel.set k (if drive then some lvl else none) })).setFlag (MFE_BANK_CALST k)
      (drive && lvl)

/-! Closing an exposure -/

/-- What a member delivers of an exposure: its samples, the cause of a stream loss its stream shows (R107), and whether an output
fired (R114). -/
structure FrontOut where
  smps : List FrontSmp
  loss : Option Nat
  fired : Bool
  deriving DecidableEq, Repr

/-- A member's stream over an exposure of `n` MCLK periods through its sinc⁴ stage, detectors and half-band stages (R101 to R104,
R107, R114, R124). -/
def frontCh (eff : List (Nat × BitVec 32)) (ch n : Nat) (c : ChState) (ci : Option ChannelIn) : ChState × FrontOut :=
  let inv := effOf eff (MFE_CH_INV ch) == 1
  let raw := fitStream n (match ci with | some x => x.stream | none => [])
  let stream := raw.map (· != inv)
  let r := sincGo ((stream.length + 31) / 32) c.bits stream
  let dense := denseLoss r.1
  let run := hasRun64 ((c.bits.take 63).reverse ++ stream)
  let outs := r.1.filterMap id
  let th := (effOf eff (MFE_CH_OVRTH ch) + 1) * 2 ^ 14
  let q := mapState (frontStep (effOf eff FLT_STAT_GRAINNOW) th (c.lost || run || dense)) c outs
  ({ q.1 with bits := r.2, runSeen := run || dense },
   { smps := q.2.filterMap id, loss := if run then some 0 else if dense then some 1 else none,
     fired := outs.any (fun o => decide (2 ^ 19 < o.natAbs)) })

/-- The front ends of every started channel: what they deliver, by channel, after the losses their streams show are declared. -/
def State.closeSinc (s : State) (b : BoundaryIn) (n : Nat) : State × List FrontOut :=
  mapState (fun (s : State) ch =>
    let c := s.chan ch
    if !c.started || c.held then (s, { smps := [], loss := none, fired := false })
    else
      let r := frontCh s.exp.eff ch n c (b.chans.find? (fun x => x.ch == ch))
      let s := s.modChan ch (fun _ => r.1)
      (match r.2.loss with | some k => s.declareLoss ch k | none => s, r.2)) s (List.range 96)

/-- DC-block settings of a channel: enabled, host freeze, A (R132, R133, R136). -/
def dcSettings (eff : List (Nat × BitVec 32)) (n : Nat) (role : BitVec 3) : Bool × Bool × Int :=
  (effOf eff (FLT_CH_DCEN n) == 1 && role != roleRef && role != roleAux, effOf eff (FLT_CH_FREEZE n) == 1,
   dcGain (effOf eff (FLT_CH_DCTAU n)) (rateOf (effG eff)))

/-- The samples of a channel that is not bracketed. -/
def State.closePlain (s : State) (n : Nat) (xs : List FrontSmp) : State × List Smp :=
  let c := s.chan n
  let (dc, fz, a) := dcSettings s.exp.eff n c.role
  let r := mapState (plainStep (s.effGet (FLT_CH_ALIGN n) == 1) dc fz c.lost a) c xs
  (s.modChan n (fun _ => r.1), r.2)

/-- The tracking loop at the end of an exposure (R117 to R120). -/
def State.trackUpdate (s : State) (m : Nat) (l : List TrackSmp) (fired : Bool) : State :=
  let off := fired || (s.brk m).fired || s.effGet (MFE_BRKCFG_TRKHOLD m) == 1 || (s.chan (2 * m)).lost ||
    (s.chan (2 * m + 1)).lost || s.flag (MFE_BRKST_HGLOSS m) || !trackRange l
  let s := s.setFlag (MFE_BRKST_TRKACT m) (!off)
  if off then s
  else
    let (r, d) := trackLoop (s.effGet (MFE_BRKCFG_TAU m)) (s.get (MFE_BRKRAT_RATIO m)) (s.getI (MFE_BRKDLY_DELAY m)) l
    let (s, d) := match d with
      | some d => (s, d)
      | none => ({ s with free := s.free + 1 }, Config.flatDelay s.free)
    let nom := s.effGet (MFE_BRKNOM_NOMRATIO m)
    let ndl := signedOf 25 (s.effGet (MFE_BRKNDL_NOMDELAY m))
    let r' := clampInt ((nom : Int) - (nom / 32 : Nat)) (nom + (nom / 32 : Nat)) r
    let d' := clampInt (ndl - 2 ^ 22) (ndl + 2 ^ 22) d
    let s := (s.put (MFE_BRKRAT_RATIO m) r'.toNat).putI (MFE_BRKDLY_DELAY m) d'
    if r' = r ∧ d' = d then s
    else
      let was := s.flag (MFE_BRKST_TRKLIM m)
      let s := s.setFlag (MFE_BRKST_TRKLIM m) true
      if was then s else s.event 0x0104 m .momentary r'.toNat (unsignedOf 64 d') 0

/-- The merged samples of a pair (R112 to R121), its switches that no command announced (R122), the tracking loop, and the exposure
counter of R122.  A member that restarted alone delivers fewer samples: its later ones count. -/
def State.closePair (s : State) (m : Nat) (low high : FrontOut) : State × List Smp :=
  let b := s.brk m
  let c := s.chan (2 * m)
  let (dc, fz, a) := dcSettings s.exp.eff (2 * m) c.role
  let none_ : FrontSmp := { v := 0, ovr := false, fired := false }
  let hs := List.replicate (low.smps.length - high.smps.length) none_ ++ high.smps
  let r := mapState (mergeStep (s.flag (MFE_BRKST_HGLOSS m)) dc fz c.lost a (max 1 (s.get (MFE_BRKRAT_RATIO m)))
    (s.getI (MFE_BRKDLY_DELAY m))) (b, c) (low.smps.zip hs)
  let smps := r.2.map (·.1)
  let n := countSwitches b.sel smps
  let lo := n.1 - (b.timeline.filter (fun e => !e.2)).length
  let hi := n.2 - (b.timeline.filter (fun e => e.2)).length
  let sel := if smps.isEmpty then s.flag (MFE_BRKST_SEL m) else r.1.1.sel
  let s := (s.modBrk m (fun _ => { r.1.1 with sel := sel, timeline := [], toLg := b.toLg + lo, toHg := b.toHg + hi })).modChan (2 * m)
    (fun _ => r.1.2)
  let s := (s.bump (MFE_BRKSW_TOLG m) lo).bump (MFE_BRKSW_TOHG m) hi
  let s := s.setFlag (MFE_BRKST_SEL m) sel
  let s := if smps.any (fun x => !x.hg) then s.bump (MFE_BRKLGT_LGEXP m) 1 else s
  let s := s.trackUpdate m (r.2.map (·.2)) high.fired
  (s.modBrk m (fun b => { b with fired := false }), smps)

/-- What closing one channel leaves: sample words, words found bad, corrected samples, squares that feed R154. -/
structure ChanOut where
  ch : Nat
  words : List (BitVec 36)
  bad : Nat
  z : List Smp
  deriving DecidableEq, Repr

/-- Words, filter and correction of a channel's samples (R128, R130, R144, R151). -/
def State.closeTail (s : State) (b : BoundaryIn) (n : Nat) (smps : List Smp) : State × ChanOut :=
  let c := s.chan n
  let words := smps.zipIdx.map (fun e =>
    b.flips.foldl (fun w f => if f.1 = n ∧ f.2.1 = e.2 then w ^^^ f.2.2 else w) (wordOf e.1))
  let rd := words.map readWord
  let dbl (i : Nat) := b.ecc.any (fun e => e.1 == n && e.2.1 == i && e.2.2)
  let read := rd.zipIdx.map (fun e => if dbl e.2 then { e.1.1 with v := 0, loss := true } else e.1.1)
  let bad := ((rd.zipIdx).filter (fun e => e.1.2 && !dbl e.2)).length
  let s := if smps.any Smp.ovr then s.setBit (MFE_OVR (n / 32)) (n % 32) true else s
  let s := match smps.getLast? with | some x => s.setFlag (FLT_CH_FRZNOW n) x.frz | none => s
  let s := s.put (FLT_DCEST_DCEST n) (unsignedOf 32 ((s.chan n).dcE / 2 ^ 34))
  if c.role = roleVolt ∨ c.role = roleCurr ∨ c.role = roleBrkLo then
    let actB := s.flag (FLT_CH_ACTB n)
    let (act, old) := if actB then (c.bankB, c.bankA) else (c.bankA, c.bankB)
    let f := mapState (filtStep (s.flag (FLT_CH_FRUN n)) act old) c read
    let faded := match c.fade, f.1.fade with
      | some (len, i), some (_, j) => decide (i < len) && decide (j = len)
      | _, _ => false
    let c' := if faded then { f.1 with fadeLast := some s.exp.cur.toNat } else f.1
    let (g, d) := corrGD c.corr (assocGet 0 s.ldg.mu n)
    let k := mapState (corrStep (gainEff g (s.pairTrim n)) (delayEff d (s.pairDelay n))) c'.ys f.2
    (s.modChan n (fun _ => { c' with ys := k.1 }), { ch := n, words := words, bad := bad, z := k.2 })
  else (s, { ch := n, words := words, bad := bad, z := [] })

/-- Every channel of the exposure that ends, in ascending order. -/
def State.closeChannels (s : State) (b : BoundaryIn) (len : Nat) : State × List ChanOut :=
  let (s, fronts) := s.closeSinc b (mclksIn s.exp.eff len)
  mapState (fun (s : State) n =>
    let c := s.chan n
    let none_ : ChanOut := { ch := n, words := [], bad := 0, z := [] }
    if !c.started || c.held || c.role == roleBrkHi then (s, none_)
    else
      let x (i : Nat) := fronts.getD i { smps := [], loss := none, fired := false }
      let (s, smps) := if c.role = roleBrkLo then s.closePair (n / 2) (x n) (x (n + 1)) else s.closePlain n (x n).smps
      s.closeTail b n smps) s (List.range 96)

/-! Engine sums of the exposure (R179 to R183) -/

/-- The frequency a group's resonators are tuned to (R183). -/
def State.tuning (s : State) (g endAt : Nat) : Nat :=
  let gr := s.evt.groups.getD g GroupState.reset
  match gr.fcycAt with
  | some t => if endAt ≤ t + msCycles 100 ∧ gr.fcyc ≠ 0 then gr.fcyc
      else if s.effGet (EVT_VGCFG_NOM g) = 0 then 50 * 2 ^ 24 else 60 * 2 ^ 24
  | none => if s.effGet (EVT_VGCFG_NOM g) = 0 then 50 * 2 ^ 24 else 60 * 2 ^ 24

/-- A network's state for a side of an element; a fresh one when it was cleared or belongs to another channel. -/
def State.netOf (s : State) (key ch : Nat) : NetState :=
  let fresh : NetState := { ch := ch, ap := [], rs := [] }
  match storeFind s.ldg.nets key with
  | some n => if n.ch = ch then n else fresh
  | none => fresh

/-- The elements of a running point over the exposure; channels that stopped or lost the role R176 requires count as LOSS (R177). -/
def State.closePoint (s : State) (outs : List ChanOut) (endAt p : Nat) : State × List ElemSum :=
  let eff := s.exp.eff
  let g := effG eff
  let coef := resonCoef (s.tuning (effOf eff (MET_CFG_VG p)) endAt) g
  let gone (n : Nat) := bitAt (assocGet 0 s.ldg.chErrLogged p) n
  let zOf (n : Nat) := match outs.find? (fun o => o.ch == n) with | some o => o.z | none => []
  mapState (fun (s : State) (e : Nat × Nat × Nat) =>
    let (i, v, c) := e
    let goneV := gone v
    let goneI := gone c
    let kv := 8 * p + 2 * i
    let r := elemSum g coef v c (s.netOf kv v) (s.netOf (kv + 1) c) (if goneV then [] else zOf v) (if goneI then [] else zOf c)
      goneV goneI
    (s.modLdg (fun l => { l with nets := storeInsert (storeInsert l.nets kv r.2.1) (kv + 1) r.2.2 }), r.1))
    s ((pointElems eff p).zipIdx.map (fun e => (e.2, e.1.1, e.1.2)))

/-- What sound engines compute from the exposure for the running points.  The networks of a stopped point whose channels deliver
samples go on as well, since nothing but their channels' restarts clears them (R184, log 95). -/
def State.closeEngines (s : State) (outs : List ChanOut) (endAt : Nat) : State × DevResult :=
  let eff := s.exp.eff
  let isZ (n : Nat) := let c := s.chan n
    c.started && !c.held && (c.role == roleVolt || c.role == roleCurr || c.role == roleBrkLo)
  let chans := (outs.filter (fun o => isZ o.ch)).map (fun o => chanSum o.ch o.z)
  let has (n : Nat) := outs.any (fun o => o.ch == n && !o.z.isEmpty)
  let r := mapState (fun (s : State) p =>
    if bitAt s.runMask p then let q := s.closePoint outs endAt p; (q.1, some (pointDev eff chans p q.2))
    else if (pointElems eff p).any (fun e => has e.1 || has e.2) then ((s.closePoint outs endAt p).1, none)
    else (s, none)) s (List.range 32)
  (r.1, { chans := chans, points := r.2.filterMap id })

/-- Delay of a channel's corrected samples on the window engine's time base, in 2^-16 HFREF cycle (R202). -/
def windowDelay (eff : List (Nat × BitVec 32)) (n : Nat) (role : BitVec 3) : Nat :=
  let us := [109, 203, 391, 766].getD (effOf eff FLT_STAT_GRAINNOW) 766 * 2 ^ effOf eff PWR_CTL_MCLKLP
  let align := if role = roleBrkLo ∨ effOf eff (FLT_CH_ALIGN n) = 1 then 2 else 0
  us * 16384 * 65536 / 1000 + (align + 4) * periodOf (effG eff) * 65536

/-- The corrected samples of a channel with their instants (R202); all channels deliver the exposure's last sample. -/
def State.windowSamples (s : State) (o : ChanOut) (m : Nat) : List WSample :=
  let eff := s.exp.eff
  let first := m - o.z.length
  let dl := windowDelay eff o.ch (s.chan o.ch).role
  o.z.zipIdx.map (fun e =>
    { at_ := (s.exp.startAt + (first + e.2) * periodOf (effG eff)) * 65536 - dl, z := e.1.v, settle := e.1.settle,
      loss := e.1.loss, ovr := e.1.ovr, expno := s.exp.cur })

/-- The exposure in progress ends at HFREF time `endAt` (R24, R25): its slot, its sums, and its place in the pipe. -/
def State.closeExposure (s : State) (b : BoundaryIn) (endAt : Nat) : State :=
  let eff := s.exp.eff
  let len := endAt - s.exp.startAt
  let m := instantsIn (effG eff) len
  let mu := s.ldg.mu
  let awayOther := match (if s.flag PAIR_STAT_RUN then some (s.get PAIR_CYC_CYC) else none) with
    | some c => decide ((c + 4000) % 8000 ≤ 63 + s.get PAIR_CYC_SKIP)
    | none => false
  let (s, outs) := s.closeChannels b len
  let (s, sound) := s.closeEngines outs endAt
  let slot : Slot :=
    { expno := s.exp.cur, ts := s.ts, startAt := s.exp.startAt, endAt := endAt, startTs := s.exp.startTs,
      short := decide (len < 32768) || s.tzl.cut, words := outs.map ChanOut.words,
      roles := s.exp.chans.map (fun c => if c.started && !c.held then c.role else 0), eff := eff,
      running := s.ldg.running, parBad := outs.foldl (fun a o => a + o.bad) 0, ecc := b.ecc, mu := mu,
      freq := s.evt.groups.map GroupState.fcyc,
      pairC := if s.flag PAIR_STAT_RUN then some (s.get PAIR_CYC_CYC) else none, awayOwn := s.flag PAIR_STAT_AWAY,
      awayOther := awayOther }
  let x : Expo :=
    { slot := slot, deadline := latentDeadline s.ts, sound := sound, dev := none, corrected := (outs.filter (fun o => !o.z.isEmpty)).map (fun o => (o.ch, o.z)),
      fix := none, replaying := false, replay := none, latent := 0, judged := 0, resolved := 0, fixed := 0,
      openCh := sound.chans.map ChanSum.ch, unconf := [], struck := false, ssCounted := false, viewed := false,
      compared := false, outcome := [], before := [], pairWait := [] }
  let keep := (endAt - msCycles 500) * 65536
  let samples := outs.foldl (fun l o =>
    if o.z.isEmpty then l
    else assocPut l o.ch (((storeFind l o.ch).getD []).filter (fun w => decide (keep ≤ w.at_)) ++ s.windowSamples o m)) s.evt.samples
  let s := s.modEvt (fun e => { e with
    samples := samples
    unconf := e.unconf.filter (fun u => decide (s.exp.cur.toNat ≤ u.1.toNat + 400)) })
  let s := s.pairEstimate eff (instantsIn (effG eff) 32768) x.corrected
  s.modExp (fun e => { e with pipe := e.pipe ++ [x], lastEnded := some (e.cur, slot.ts) })

/-- Settling of the networks counts down with each exposure (R184). -/
def State.netsetStep (s : State) : State :=
  s.modLdg (fun x => { x with netset := (x.netset.map (fun e => (e.1, e.2 - 1))).filter (fun e => e.2 != 0) })

/-- MET_STAT.NETSET of every point (R184). -/
def State.netsetShow (s : State) : State :=
  let l := s.ldg.netset
  State.each 32 (fun p s => s.setFlag (MET_STAT_NETSET p)
    ((pointChans s.exp.eff p).any (fun n => decide (0 < assocGet 0 l n)))) s

/-! Meanings -/

/-- STREAM_LOSS (R107): no transition for 64 MCLK periods. -/
def execStreamLoss (ch : Nat) (s : State) : Host.Outcome State Fault Refusal :=
  finish (fun s => if (s.chan ch).held then s else s.declareLoss ch 0) s

/-- BRACKET_SWITCH (R114). -/
def execBracketSwitch (m sample : Nat) (s : State) : Host.Outcome State Fault Refusal :=
  finish (fun s => s.brkLow m sample) s

/-- BRACKET_RETURN (R115). -/
def execBracketReturn (m sample : Nat) (s : State) : Host.Outcome State Fault Refusal :=
  finish (fun s => s.brkHigh m sample) s

/-- MFE_BANKk: PHASE waits for the boundary, CALFRC and CALLVL act at once (R96, R123). -/
def State.wrBank (w : WriteBy) (k : Nat) (v : BitVec 32) (s : State) : State :=
  (s.storeWrite w (MFE_BANK k) v).calselForce k

/-- CALFRC_WRITE (R123). -/
def execCalfrcWrite (p : Port) (k : Nat) (v : BitVec 32) (s : State) : Host.Outcome State Fault Refusal :=
  finish (fun s => if k < 12 then State.wrBank (.port p) k v s else s) s

/-- What the first read of an exposure's words finds (R130, R420). -/
def State.readSlot (s : State) (x : Slot) : State :=
  let s := if x.parBad = 0 then s
    else State.each x.parBad (fun _ s => (s.bump FLT_PARERR_PARERR 1).strike dParity 0) s
  x.ecc.foldl (fun s e => s.eccFound { mem := .sampleBuffer e.1 e.2.1, double := e.2.2 }) s

/-- Resolves exposures while the lanes of the trip logic disagree where the upset says so (R417). -/
def State.withLanes (s : State) (u : EngineUpset) (f : State → State) : State :=
  (f (s.modSaf (fun a => { a with laneBad := u.lanes }))).modSaf (fun a => { a with laneBad := [] })

/-- DEVELOPMENT_DONE (R29): the oldest exposure not developed is developed and published when it may be.  While an older one is
replayed before its latent deadline, the replay goes first (R35). -/
def execDevelopmentDone (u : EngineUpset) (s : State) : Host.Outcome State Fault Refusal :=
  finish (fun s =>
    match s.exp.pipe.find? (fun x => x.dev.isNone || (x.replaying && !s.lateFor x.deadline)) with
    | some x =>
      if x.dev.isSome then s
      else
      let e := x.slot.expno
      let s := if x.fix.isNone then s.readSlot x.slot else s
      let s := s.modExpo e (fun y => { y with dev := some (upsetResult x.slot.eff x.sound u) })
      s.withLanes u (fun s => s.settlePipe 3)
    | none => s) s

/-- FIXER_COMPARISON (R34): the fixer finishes the oldest exposure it has not recomputed; μ follows its sums (R154). -/
def execFixerComparison (u : EngineUpset) (s : State) : Host.Outcome State Fault Refusal :=
  finish (fun s =>
    match s.exp.pipe.find? (fun x => x.fix.isNone) with
    | some x =>
      let e := x.slot.expno
      let s := if x.dev.isNone then s.readSlot x.slot else s
      let r := upsetResult x.slot.eff x.sound u
      let cur := r.chans.filter (fun c => c.n != 0 && (x.slot.roles.getD c.ch 0 == roleCurr || x.slot.roles.getD c.ch 0 == roleBrkLo))
      let s := s.modLdg (fun l => { l with mu := cur.foldl (fun m c => assocPut m c.ch (magnitude c.ss c.n)) l.mu })
      let s := s.modExpo e (fun y => { y with fix := some r })
      s.withLanes u (fun s => s.settlePipe 3)
    | none => s) s

/-- REPLAY_DONE (R35): the oldest exposure under replay. -/
def execReplayDone (u : EngineUpset) (s : State) : Host.Outcome State Fault Refusal :=
  finish (fun s =>
    match s.exp.pipe.find? (fun x => x.replaying) with
    | some x => s.withLanes u (fun s => (s.replayExpo x u).sweep.settlePipe 3)
    | none => s) s

/-- LATENT_DEADLINE (R30, R39): exposures whose latent deadline the clock has passed by more than 4 µs. -/
def execLatentDeadline (s : State) : Host.Outcome State Fault Refusal := finish (fun s => s.expireLatent) s

end Sys2Proof.Machine
end

