-- ==== Sys2Proof/Machine/Filt.lean ====
section
/-!
DEFINITION. Compensation-filter and correction-table commands (R145 to R150, R159), and metering-point commands (R176).
-/

namespace Sys2Proof.Machine

/-- ROLE of a channel as commands judge it: in effect while exposures run, as written while none runs (DEDUCED, log 20); none
for a number no channel has (R97). -/
def State.roleNow (s : State) (n : Nat) : Nat :=
  if 96 ≤ n then 0 else if s.exp.running then s.effGet (MFE_CH_ROLE n) else s.get (MFE_CH_ROLE n)

/-- A channel with a compensation filter and a correction stage (R144, R151). -/
def State.filterChan (s : State) (n : Nat) : Bool := let r := s.roleNow n; r == 1 || r == 2 || r == 3

/-- Commands that reconfigure metering are refused while sealed or while autostart runs, but for image records (R83, R150). -/
def State.locked (s : State) (h : CmdHdr) : Bool := (s.sealed && decide (h.src ≠ .image)) || s.asBusyFor h

/-- Tap count of a bank: 0 A, 1 B. -/
def State.taps (s : State) (n bank : Nat) : Nat := if bank = 0 then s.get (FLT_CH_TAPSA n) else s.get (FLT_CH_TAPSB n)

/-- A COEF_SWAP of a channel waits for its boundary. -/
def State.swapPending (s : State) (n : Nat) : Bool := s.taken.any (fun t => t.wait == Wait.swap n)

/-- Active bank number. -/
def State.actBank (s : State) (n : Nat) : Nat := s.get (FLT_CH_ACTB n)

/-- How COEF_LOAD of a bank is judged (R145, R148): allowed, or refused with whether it counts in FLT_SWREF. -/
def State.loadJudge (s : State) (n bank : Nat) : Option Bool :=
  if !s.flag (FLT_CH_FRUN n) then none
  else if s.flag (FLT_CH_FADING n) then some (bank != s.actBank n)
  else if s.swapPending n then some false
  else if bank = s.actBank n then some false else none

/-- A bank takes new coefficients. -/
def State.loadBank (s : State) (n bank : Nat) (l : List Int) : State :=
  let s := s.setBank n bank l
  if bank = 0 then s.put (FLT_CH_TAPSA n) l.length else s.put (FLT_CH_TAPSB n) l.length

/-- Coefficients of 64-bit slots (R15, R16). -/
def coefSlots (l : List (BitVec 64)) : List Int := l.map (fun x => signedOf 36 (x.toNat % 2 ^ 36))

/-- The 53 words of a correction table from its 76 slots (R158). -/
def tableSlots (l : List (BitVec 64)) : List Int :=
  let at_ (i : Nat) := (l.getD i 0).toNat
  [(at_ 0 : Int), ((at_ 1 % 2 ^ 36 : Nat) : Int)] ++ (List.range 17).flatMap (fun j =>
    [signedOf 36 (at_ (8 + 4 * j) % 2 ^ 36), ((at_ (9 + 4 * j) % 2 ^ 36 : Nat) : Int),
     signedOf 36 (at_ (10 + 4 * j) % 2 ^ 36)])

/-- BADARG of a correction table (R159). -/
def tableBad (volt : Bool) (t : List Int) : Bool :=
  let w (i : Nat) := t.getD i 0
  let mode := w 0
  let used := if mode = 0 then 1 else 17
  let mus := (List.range 17).map (fun j => w (2 + 3 * j))
  (mode != 0 && mode != 1) || (mode == 1 && volt) ||
  (mode == 1 && mus.any (· != 0) &&
    ((mus.zip (mus.drop 1)).any (fun e => decide (e.2 ≤ e.1)) ||
     mus.any (fun m => decide (m < -68 * 2 ^ 24) || decide (2 * 2 ^ 24 < m)))) ||
  (List.range used).any (fun j => decide (w (3 + 3 * j) < 2 ^ 33) || decide (3 * 2 ^ 33 < w (3 + 3 * j)) ||
    decide (2 ^ 25 < (w (4 + 3 * j)).natAbs))

/-- A correction table takes effect; the outgoing one is retained until exposure `last` is resolved (R159). -/
def State.corrEffect (s : State) (n : Nat) (l : List Int) (last : Option Nat) : State :=
  ((s.setCorr n l).modChan n (fun c => { c with corrNext := none, corrHeld := last })).corChg n

/-- The data of a COEF_LOAD has arrived: the bank or table changes unless the deadline has passed (R396).  A bank's load was judged
when it was executed (R145); an outgoing table is retained while exposures are unresolved (R159). -/
def State.coefArrived (s : State) (t : Taken) (data : List (BitVec 64)) : State :=
  if t.hdr.dlv && s.lateFor t.hdr.deadline then s.done t stDone 0 0 0
  else match t.wait with
    | .coefDma n bank taps =>
      ((s.loadBank n bank ((coefSlots data ++ List.replicate 64 0).take taps)).untake t).complete t.op t.hdr stDone 0 0 0
    | .corrDma n =>
      let l := tableSlots data
      if tableBad (s.roleNow n == 1) l then s.done t stBadarg 0 0 0
      else if s.locked t.hdr || (s.chan n).corrNext.isSome || (s.chan n).corrHeld.isSome ||
          (s.taken.takeWhile (fun x => decide (x ≠ t))).any (fun x => x.wait == Wait.corrDma n) then s.done t stRefused 0 0 0
      else if s.exp.running then
        { (s.modChan n (fun c => { c with corrNext := some l })) with
          taken := s.taken.replace t { t with wait := .corrBoundary n } }
      else ((s.corrEffect n l (s.exp.pipe.getLast?.map (fun x => x.slot.expno.toNat))).untake t).complete t.op t.hdr stDone 0 0 0
    | _ => s

/-- Starts reading the source of a COEF_LOAD: the data window at once, host memory by DMA (R409). -/
def State.coefFetch (s : State) (op : BitVec 8) (h : CmdHdr) (w : Wait) (u : DmaUse) (addr slots : Nat) : State :=
  match windowOffset h addr with
  | some o =>
    let t : Taken := { op := op, hdr := h, wait := w, muted := false }
    let s := { s with taken := s.taken ++ [t] }
    s.coefArrived t (bytesToSlots slots (s.windowBytes o (8 * slots)))
  | none => (s.keep op h w).startRead u

/-- COEF_LOAD of bank A or B (R145). -/
def State.cmdCoefLoad (s : State) (h : CmdHdr) (a0 a1 : BitVec 64) : State :=
  let n := a0.toNat % 2 ^ 7
  let bank := a0.toNat / 2 ^ 8 % 4
  let t := a0.toNat / 2 ^ 16 % 2 ^ 7
  if !s.filterChan n || t == 0 || decide (64 < t) || bank == 3 || a1.toNat % 8 != 0 || windowBad h a1.toNat (8 * t) then
    s.complete 0x10 h stBadarg 0 0 0
  else if s.locked h then s.complete 0x10 h stRefused 0 0 0
  else match s.loadJudge n bank with
    | some counted => (if counted then s.bump (FLT_SWREF_SWREF n) 1 else s).complete 0x10 h stRefused 0 0 0
    | none =>
      if windowOffset h a1.toNat = none ∧ ¬ s.dmaOn then s.complete 0x10 h stFault 0 0 0
      else s.coefFetch 0x10 h (.coefDma n bank t) (.coef h.src) a1.toNat t

/-- COEF_LOAD of bank CORR (R159): the table is read first, since an invalid one answers BADARG before any refusal. -/
def State.cmdCorrLoad (s : State) (h : CmdHdr) (a0 a1 : BitVec 64) : State :=
  let n := a0.toNat % 2 ^ 7
  if !s.filterChan n || a1.toNat % 8 != 0 || windowBad h a1.toNat 608 then s.complete 0x10 h stBadarg 0 0 0
  else if windowOffset h a1.toNat = none ∧ ¬ s.dmaOn then s.complete 0x10 h stFault 0 0 0
  else s.coefFetch 0x10 h (.corrDma n) (.corr h.src) a1.toNat 76

/-- Exchanges the active and inactive banks. -/
def State.swapBanks (s : State) (n : Nat) : State := s.setFlag (FLT_CH_ACTB n) (!s.flag (FLT_CH_ACTB n))

/-- COEF_SWAP (R146, R148). -/
def State.cmdCoefSwap (s : State) (h : CmdHdr) (a0 : BitVec 64) : State :=
  let n := a0.toNat % 2 ^ 7
  if !s.filterChan n then s.complete 0x11 h stBadarg 0 0 0
  else if s.locked h then s.complete 0x11 h stRefused 0 0 0
  else if s.flag (FLT_CH_FADING n) || s.swapPending n then
    (s.bump (FLT_SWREF_SWREF n) 1).complete 0x11 h stRefused 0 0 0
  else if s.taps n (1 - s.actBank n) = 0 then s.complete 0x11 h stBadarg 0 0 0
  else if !s.flag (FLT_CH_FRUN n) then (s.swapBanks n).complete 0x11 h stDone 0 0 0
  else s.keep 0x11 h (.swap n)

/-- The channel restarted from the zero state at this boundary: no bit has been sampled since. -/
def State.justRestarted (s : State) (n : Nat) : Bool := s.exp.running && (s.chan n).bits.isEmpty

/-- A filter starts: its history is cleared and the next T samples carry SETTLE (R149).  At a boundary at which the channel also
restarts T adds to its settle count, as for a running filter (R141, log 125). -/
def State.filtOn (s : State) (n : Nat) : State :=
  if s.flag (FLT_CH_FRUN n) then s
  else
    let t := s.taps n (s.actBank n)
    let s' := (s.setFlag (FLT_CH_FRUN n) true).clearHist n
    if s.justRestarted n then s'.modChan n (fun c => { c with settle := c.settle + t })
    else s'.modChan n (fun c => { c with filtSettle := t })

/-- A filter stops: a pending swap is withdrawn, a fade ends with the fading-in bank active (R149). -/
def State.filtOff (s : State) (n : Nat) : State :=
  if !s.flag (FLT_CH_FRUN n) then s
  else
    let s := s.doneAll (fun t => t.wait == Wait.swap n) stAborted (fun _ => (0, 0, 0))
    let t := if s.justRestarted n then s.taps n (s.actBank n) else 0
    let s := s.modChan n (fun c => { c with fade := none, fadeLast := none, filtSettle := 0, settle := c.settle - t })
    (s.setFlag (FLT_CH_FRUN n) false).setFlag (FLT_CH_FADING n) false

/-- FILT_START and FILT_STOP (R149). -/
def State.cmdFilt (s : State) (op : BitVec 8) (h : CmdHdr) (a0 : BitVec 64) (start : Bool) : State :=
  let n := a0.toNat % 2 ^ 7
  if !s.filterChan n || (start && s.taps n (s.actBank n) == 0) then s.complete op h stBadarg 0 0 0
  else if s.locked h then s.complete op h stRefused 0 0 0
  else if s.exp.running then s.keep op h (if start then .filtStart n else .filtStop n)
  else (if start then s.filtOn n else s.filtOff n).complete op h stDone 0 0 0

/-- A pending swap takes effect at this boundary if its bank is loaded and the history is long enough (R146, R147). -/
def State.swapBoundary (s : State) (t : Taken) (n : Nat) : State :=
  let other := 1 - s.actBank n
  let k := s.taps n other
  if k = 0 ∨ (s.chan n).histLen < k then s
  else if t.hdr.dlv && s.lateFor t.hdr.deadline then s.done t stDone 0 0 0
  else
    let len := 2 ^ s.effGet (FLT_CH_FADEK n)
    let s := (s.swapBanks n).modChan n (fun c => { c with fade := some (len, 0), fadeLast := none })
    (s.setFlag (FLT_CH_FADING n) true).done t stDone 0 0 0

/-! Metering points (R176) -/

/-- What MP_START checks of one point's definition (R175, R176). -/
def State.pointOk (s : State) (p : Nat) : Bool :=
  let eff := s.regs
  let g := effOf eff (MET_CFG_VG p)
  let nv := effOf eff (VGDEF_NV g)
  let w := effOf eff (MET_CFG_WIRING p)
  let vsel := effOf eff (MET_CFG_VSEL p)
  let vch (i : Nat) := effOf eff (if i = 0 then VGDEF_VCH0 g else if i = 1 then VGDEF_VCH1 g else VGDEF_VCH2 g)
  let chans := pointChans eff p
  decide (1 ≤ nv) &&
  (if w = 0 then decide (vsel < nv) else if w = 1 then decide (2 ≤ nv) else nv == 3) &&
  (List.range nv).all (fun i => s.roleNow (vch i) == 1) &&
  (pointCurrents eff p).all (fun c => s.roleNow c == 2 || s.roleNow c == 3) &&
  decide chans.Nodup

/-- MP_START and MP_STOP (R176). -/
def State.cmdMp (s : State) (h : CmdHdr) (a0 : BitVec 64) (start : Bool) : State :=
  let op : BitVec 8 := if start then 1 else 2
  let mask : BitVec 32 := a0.truncate 32
  let bad := if start then (bitsOf 32 mask.toNat).filter (fun p => !s.pointOk p) else []
  if s.locked h then s.complete op h stRefused 0 0 0
  else if bad ≠ [] then (bad.foldl (fun s p => s.setFlag (MET_STAT_DEFERR p) true) s).complete op h stBadarg 0 0 0
  else s.keep op h (if start then .mpStart mask else .mpStop mask)

/-! Meanings -/

/-- NOP (R396). -/
def execNop (h : CmdHdr) (s : State) : Host.Outcome State Fault Refusal :=
  finish (fun s => s.take 0x00 h (fun s => s.complete 0x00 h stDone 0 0 0)) s

/-- MP_STOP (R176). -/
def execMpStop (h : CmdHdr) (a0 : BitVec 64) (s : State) : Host.Outcome State Fault Refusal :=
  finish (fun s => s.take 0x02 h (fun s => s.cmdMp h a0 false)) s

/-- COEF_LOAD (R145): its bank field names bank A or B. -/
def execCoefLoad (h : CmdHdr) (a0 a1 : BitVec 64) (s : State) : Host.Outcome State Fault Refusal :=
  finish (fun s => if a0.toNat / 2 ^ 8 % 4 = 2 then s else s.take 0x10 h (fun s => s.cmdCoefLoad h a0 a1)) s

/-- COEF_LOAD_CORR (R159): its bank field is CORR. -/
def execCoefLoadCorr (h : CmdHdr) (a0 a1 : BitVec 64) (s : State) : Host.Outcome State Fault Refusal :=
  finish (fun s => if a0.toNat / 2 ^ 8 % 4 = 2 then s.take 0x10 h (fun s => s.cmdCorrLoad h a0 a1) else s) s

/-- COEF_SWAP (R146). -/
def execCoefSwap (h : CmdHdr) (a0 : BitVec 64) (s : State) : Host.Outcome State Fault Refusal :=
  finish (fun s => s.take 0x11 h (fun s => s.cmdCoefSwap h a0)) s

/-- FILT_START (R149). -/
def execFiltStart (h : CmdHdr) (a0 : BitVec 64) (s : State) : Host.Outcome State Fault Refusal :=
  finish (fun s => s.take 0x13 h (fun s => s.cmdFilt 0x13 h a0 true)) s

/-- FILT_STOP (R149). -/
def execFiltStop (h : CmdHdr) (a0 : BitVec 64) (s : State) : Host.Outcome State Fault Refusal :=
  finish (fun s => s.take 0x12 h (fun s => s.cmdFilt 0x12 h a0 false)) s

end Sys2Proof.Machine
end

