-- ==== Sys2Proof/Machine/Evt.lean ====
section
/-!
DEFINITION. The window engine and the power-quality events: crossings and frequency (R203 to R205), synchronous windows and their
records (R206 to R211), half-cycle RMS, sag, swell and interruption (R212 to R214), phase sequence (R215), the free-running
powerline timing (R43), and the writing of event records (R219, R220).
-/

namespace Sys2Proof.Machine

/-- HFREF cycles a second in units of the window engine's time base, 2^-16 HFREF cycle. -/
def secAt : Nat := 16384000 * 65536

/-- The timestamp of an earlier instant of the window engine's time base (R17, R18, R202): that of the HFREF cycle it lies in. -/
def State.tsAt (s : State) (t : Nat) : BitVec 64 :=
  let n := s.ts
  mkTs (bitAt n.toNat 61) (bitAt n.toNat 60) (keyShift (tsKey n) ((t / 65536 : Nat) - (s.exp.now : Int)))

/-- State of a voltage group. -/
def State.grp (s : State) (g : Nat) : GroupState := s.evt.groups.getD g GroupState.reset

/-- Changes the state of a voltage group. -/
def State.modGrp (s : State) (g : Nat) (f : GroupState → GroupState) : State :=
  s.modEvt (fun e => { e with groups := e.groups.modify g f })

/-- Voltage channels of a group, VCH0 first (R175). -/
def groupChans (eff : List (Nat × BitVec 32)) (g : Nat) : List Nat :=
  [effOf eff (VGDEF_VCH0 g), effOf eff (VGDEF_VCH1 g), effOf eff (VGDEF_VCH2 g)].take (effOf eff (VGDEF_NV g))

/-- Kept corrected samples of a channel, oldest first. -/
def State.kept (s : State) (n : Nat) : List WSample := (storeFind s.evt.samples n).getD []

/-- Samples of a channel in exposures that are resolved, and those of them that are confirmed (R201). -/
def State.resolvedSamples (s : State) (n : Nat) : List WSample :=
  (s.kept n).filter (fun w => s.exp.pipe.all (fun x => x.slot.expno != w.expno))
def State.confirmedSamples (s : State) (n : Nat) : List WSample :=
  (s.resolvedSamples n).filter (fun w => !s.evt.unconf.contains (w.expno, n))

/-- No further sample of a channel before an instant is to come: one at or after it is resolved, or the channel has stopped and no
exposure with its samples is open. -/
def State.samplesKnown (s : State) (n t : Nat) : Bool :=
  (s.resolvedSamples n).any (fun w => decide (t ≤ w.at_)) ||
    (!(s.chan n).started && s.exp.pipe.all (fun x => (x.slot.words.getD n []).isEmpty))

/-- Time that unconfirmed samples of a channel take after an instant: it does not count in a timer (R201). -/
def State.heldAfter (s : State) (n t : Nat) : Nat :=
  ((s.resolvedSamples n).filter (fun w => decide (t < w.at_) && s.evt.unconf.contains (w.expno, n))).length *
    periodOf (effG s.exp.eff) * 65536

/-! Crossings (R203) -/

/-- Where a search for a crossing stands: armed, and the last sample at or below 0. -/
structure CrossScan where
  armed : Bool
  low : Option (Nat × Int)
  prev : Option (Nat × Int)
  next : Option (Nat × Int)
  deriving DecidableEq, Repr

/-- Searches for the next rising crossing: `h2` is twice the arm level, `sg` is -1 for falling crossings.  Answers the crossing
instant and the recognising sample's instant and exposure. -/
def crossGo (h2 sg : Int) : CrossScan → List WSample → Option (Nat × Nat × BitVec 72)
  | _, [] => none
  | c, w :: t =>
    let z := sg * w.z
    let usable := !w.settle && !w.loss
    -- the last sample at or below 0 and the sample that follows it
    let c := if z ≤ 0 then { c with low := some (w.at_, z), next := none }
      else if c.next.isNone then { c with next := some (w.at_, z) } else c
    if usable ∧ c.armed ∧ h2 < 2 * z then
      match c.low, c.next with
      | some (ta, za), some (tb, zb) => some (ta + ((-za) * ((tb : Int) - ta) / (zb - za)).toNat, w.at_, w.expno)
      | _, _ => none
    else crossGo h2 sg { c with armed := c.armed || (usable && decide (2 * z < -h2)) } t

/-- Twice the arm level H of a group in LSB of SQ2.34 (R203). -/
def State.armLevel (s : State) (g : Nat) : Int :=
  let u := s.effGet (EVT_UDIN_UDIN g)
  if u = 0 then 2 ^ 27 else (u : Int)

/-- The first crossing of VCH0 of a defined group behind an instant, in samples that are confirmed (R201, R203). -/
def State.crossAfter (s : State) (g : Nat) (rising : Bool) (seen : Nat) : Option (Nat × Nat × BitVec 72) :=
  match groupChans s.exp.eff g with
  | [] => none
  | v :: _ =>
    crossGo (s.armLevel g) (if rising then 1 else -1) { armed := false, low := none, prev := none, next := none }
      ((s.confirmedSamples v).filter (fun w => decide (seen < w.at_)))

/-- The next crossing of a group. -/
def State.nextCross (s : State) (g : Nat) (rising : Bool) : Option (Nat × Nat × BitVec 72) :=
  s.crossAfter g rising (if rising then (s.grp g).seenRise else (s.grp g).seenFall)

/-- A rising crossing that is accepted after an instant `l` (R204) stands in the samples, not after `due`. -/
def State.riseBy (s : State) (g l due : Nat) : Nat → Nat → Bool
  | 0, _ => false
  | n + 1, seen =>
    match s.crossAfter g true seen with
    | none => false
    | some (t, seen', _) => decide (t ≤ due) && (decide (l * 65 + secAt ≤ t * 65) || s.riseBy g l due n seen')

/-! Windows (R206) -/

/-- The window in progress of a group is abandoned and counted (R204, R210). -/
def State.abandonWindow (s : State) (g : Nat) : State :=
  if (s.grp g).win.isSome then (s.modGrp g (fun r => { r with win := none })).bump EVT_WINABT_WINABT 1 else s

/-- Cycles of a full window (R206). -/
def State.ncyc (s : State) (g : Nat) : Nat := if s.effGet (EVT_VGCFG_NOM g) = 0 then 10 else 12

/-- A frequency of `n` cycles in a span of the time base, UQ8.24 Hz, rounded to nearest (R205). -/
def freqOf (n span : Nat) : Nat := if span = 0 then 0 else (roundDiv ((n : Int) * 2 ^ 24 * secAt) span).toNat

/-- A window starts at an accepted rising crossing. -/
def State.startWindow (s : State) (g t : Nat) : State :=
  let act := (s.grp g).sag.isSome || (s.grp g).swell.isSome || (s.grp g).intr.isSome
  let w : Window := { start := t, tsStart := s.tsAt t, stop := 0, tsStop := 0, fcyc := [], short := false,
                      ext := [none, none, none], flagged := act, seq := (s.grp g).winSeq }
  s.modGrp g (fun r => { r with win := some w, winSeq := r.winSeq + 1 })

/-- An accepted rising crossing advances the windows of its group; `f` is the frequency of the cycle it ends. -/
def State.windowCross (s : State) (g t f : Nat) : State :=
  if s.effGet (EVT_VGCFG_WINEN g) = 0 then s.modGrp g (fun r => { r with win := none })
  else match (s.grp g).win with
    | none => s.startWindow g t
    | some w =>
      let w := { w with fcyc := w.fcyc ++ [f] }
      let ts := s.tsAt t
      let n := s.ncyc g
      let resync := s.effGet (EVT_VGCFG_RESYNC g) == 1 && decide (tsKey w.tsStart / 2 ^ 24 / 600 < tsKey ts / 2 ^ 24 / 600)
      if n ≤ w.fcyc.length ∨ resync then
        let w := { w with stop := t, tsStop := ts, short := decide (w.fcyc.length < n) }
        let s := s.modGrp g (fun r => { r with done := r.done ++ [w] })
        (s.put (EVT_FREQ_FWIN g) (freqOf w.fcyc.length (t - w.start))).startWindow g t
      else s.modGrp g (fun r => { r with win := some w })

/-- Starts the frequency-range event of a group (R204). -/
def State.rangeStart (s : State) (g : Nat) : State :=
  if (s.grp g).frange.isSome then s
  else
    let s := (s.abandonWindow g).setFlag (EVT_VGSTAT_LOCK g) false
    let s := s.modGrp g (fun r => { r with frange := some s.ts })
    (s.setFlag (EVT_VGSTAT_FRANGE g) true).event 0x0305 g .start 0 0 0

/-- A 60-bit difference of two timestamps. -/
def tsDiff (a b : BitVec 64) : Nat := (tsKey a + 2 ^ 60 - tsKey b) % 2 ^ 60

/-- The powerline MAC resynchronises at a valid crossing of VG0 (R43). -/
def State.macResync (s : State) : State :=
  if s.evt.macFree then
    (s.modEvt (fun e => { e with macFree := false })).event 0x0306 0 .stop (s.evt.mainsNs.getD 20000000) 0 0
  else s

/-- An accepted rising crossing (R204 to R206). -/
def State.acceptRise (s : State) (g t : Nat) : State :=
  let last := (s.grp g).lastRise
  let v := (groupChans s.exp.eff g).headD 0
  let valid := match last with | some l => decide ((t - l) * 45 ≤ secAt + s.heldAfter v l * 45) | none => false
  let s := if last.isSome && !valid then s.rangeStart g else s
  let s := s.setFlag (EVT_VGSTAT_LOCK g) valid
  let f := match last with | some l => freqOf 1 (t - l) | none => 0
  let s := if last.isSome then s.modGrp g (fun r => { r with fcyc := f, fcycAt := some s.exp.now }) else s
  let s := match (s.grp g).frange with
    | some t0 => ((s.modGrp g (fun r => { r with frange := none })).setFlag (EVT_VGSTAT_FRANGE g) false).event 0x0305 g
        .stop (tsDiff s.ts t0) 0 0
    | none => s
  let s := s.windowCross g t f
  let s := if g = 0 then
      let s := if valid then s.modEvt (fun e => { e with mainsNs := some ((t - last.getD 0) * 1000000000 / secAt) }) else s
      s.macResync
    else s
  s.modGrp g (fun r => { r with lastRise := some t })

/-- ZERO_CROSSING (R203, R204): the next crossing in the confirmed samples of VCH0; one closer than 1/65 s to the accepted one
before it is ignored.  An accepted crossing also gives a half-cycle RMS (R212). -/
def execZeroCrossing (g : Nat) (rising : Bool) (s : State) : Host.Outcome State Fault Refusal :=
  finish (fun s =>
    if 8 ≤ g ∨ ¬ s.pdOn 5 then s
    else match s.nextCross g rising with
      | none => s
      | some (t, seen, e) =>
        let last := if rising then (s.grp g).lastRise else (s.grp g).lastFall
        let s := s.modGrp g (fun r => if rising then { r with seenRise := seen } else { r with seenFall := seen })
        if (match last with | some l => decide ((t - l) * 65 < secAt) | none => false) then s
        else
          let u : UHalf := { at_ := t, from_ := last, ts := s.tsAt t, exp := e }
          let s := s.modGrp g (fun r => { r with uhalf := r.uhalf ++ (if last.isSome then [u] else []) })
          if rising then s.acceptRise g t else s.modGrp g (fun r => { r with lastFall := some t })) s

/-- FREQUENCY_RANGE_TIMEOUT (R204): 1/45 s after the accepted rising crossing without another one, once the samples up to then are
known; unconfirmed ones hold the time (R201). -/
def execFrequencyRangeTimeout (g : Nat) (s : State) : Host.Outcome State Fault Refusal :=
  finish (fun s =>
    if 8 ≤ g ∨ ¬ s.pdOn 5 ∨ groupChans s.exp.eff g = [] then s
    else match (s.grp g).lastRise with
      | none => s
      | some l =>
        let v := (groupChans s.exp.eff g).headD 0
        let due := l + s.heldAfter v l + secAt / 45 + 1
        if !s.samplesKnown v due || s.riseBy g l due 64 (s.grp g).seenRise then s
        else (s.reach (due / 65536 + 1)).rangeStart g) s

/-- MAC_FREE_RUN (R43): no rising crossing of VG0 for 50 ms, none since the reset, or VG0 is not defined. -/
def execMacFreeRun (s : State) : Host.Outcome State Fault Refusal :=
  finish (fun s =>
    if s.evt.macFree ∨ ¬ s.pdOn 7 then s
    else
      let free (s : State) : State :=
        (s.modEvt (fun e => { e with macFree := true })).event 0x0306 0 .start (s.evt.mainsNs.getD 20000000) 0 0
      match groupChans s.exp.eff 0 with
      | [] => free s
      | v :: _ =>
        match (s.grp 0).lastRise with
        | none => if (s.nextCross 0 true).isSome then s else free s
        | some l =>
          let due := l + msCycles 50 * 65536
          if !s.samplesKnown v due || s.riseBy 0 l due 64 (s.grp 0).seenRise then s
          else free (s.reach (due / 65536))) s

/-! Half-cycle RMS (R212 to R214) -/

/-- Every exposure up to a number has ended and is resolved. -/
def State.resolvedTo (s : State) (e : BitVec 72) : Bool :=
  (!s.exp.running || decide (e.toNat < s.exp.cur.toNat)) &&
    s.exp.pipe.all (fun x => decide (e.toNat < x.slot.expno.toNat))

/-- U½ of a channel over a cycle: none when invalid or unconfirmed (R201, R212). -/
def State.uhalfOf (s : State) (n a b : Nat) : Option Nat :=
  let ws := (s.kept n).filter (fun w => decide (a ≤ w.at_) && decide (w.at_ < b))
  let use := ws.filter (fun w => !w.settle)
  if use.isEmpty ∨ ws.any WSample.loss ∨ ws.any (fun w => s.evt.unconf.contains (w.expno, n)) then none
  else some (isqrt (use.foldl (fun (a : Nat) w => a + w.z.natAbs * w.z.natAbs) 0 / use.length))

/-- One of the three events of R213: enabled, its start and end tests, and which extreme it keeps. -/
structure PqTest where
  code : Nat
  on : Bool
  start : Bool
  stop : Bool
  high : Bool
  deriving DecidableEq, Repr

/-- The extreme of an active event with a new value. -/
def PqActive.with (p : PqActive) (high : Bool) (v n : Nat) : PqActive :=
  if (if high then decide (p.extreme < v) else decide (v < p.extreme)) then { p with extreme := v, ch := n } else p

/-- Applies one event's tests at a crossing: answers the new activity, and the event is logged. -/
def State.pqStep (s : State) (g : Nat) (ts : BitVec 64) (vals : List (Nat × Nat)) (a : Option PqActive) (q : PqTest) :
    State × Option PqActive :=
  match a with
  | none =>
    if q.on ∧ q.start then
      match vals with
      | (n, v) :: t =>
        let p := t.foldl (fun (p : PqActive) e => p.with q.high e.2 e.1) { ts := ts, extreme := v, ch := n }
        (s.eventT ts q.code g .start 0 0 0, some p)
      | [] => (s, none)
    else (s, none)
  | some p =>
    let p := vals.foldl (fun (p : PqActive) e => p.with q.high e.2 e.1) p
    if !q.on || q.stop then (s.eventT ts q.code g .stop (tsDiff ts p.ts) p.extreme p.ch, none) else (s, some p)

/-- Marks a window with the values and the activity at a crossing. -/
def Window.mark (w : Window) (open_ : Bool) (x : Nat) (vals : List (Option Nat)) (before after : Bool) : Window :=
  if x < w.start ∨ (!open_ ∧ w.stop < x) then w
  else
    let ext := if w.start < x then
        (List.range 3).map (fun i =>
          match w.ext.getD i none, vals.getD i none with
          | some (lo, hi), some v => some (min lo v, max hi v)
          | none, some v => some (v, v)
          | e, none => e)
      else w.ext
    { w with ext := ext, flagged := w.flagged || after || (before && decide (w.start < x)) }

/-- The U½ values of one crossing are acted on (R212 to R214). -/
def State.uhalfDecide (s : State) (g : Nat) (u : UHalf) : State :=
  let chs := groupChans s.exp.eff g
  let vals := chs.map (fun n => s.uhalfOf n (u.from_.getD u.at_) u.at_)
  let s := s.bump EVT_STAT_UNCONFCNT (vals.filter Option.isNone).length
  let gr := s.grp g
  let newest := (List.range 3).map (fun i => match vals.getD i none with | some v => some v | none => gr.newest.getD i none)
  let fresh := (chs.zip vals).filterMap (fun e => e.2.map (fun v => (e.1, v)))
  let known := (newest.take chs.length).filterMap id
  let all (p : Nat → Bool) := known.length == chs.length && !known.isEmpty && known.all p
  let d := s.effGet (EVT_UDIN_UDIN g) * 4
  let sag := s.effGet (EVT_PQTH_SAG g)
  let swell := s.effGet (EVT_PQTH_SWELL g)
  let intr := s.effGet (EVT_PQTHB_INT g)
  let hyst := s.effGet (EVT_PQTHB_HYST g)
  let before := gr.sag.isSome || gr.swell.isSome || gr.intr.isSome
  let s := s.modGrp g (fun r => { r with newest := newest })
  let s :=
    if fresh.isEmpty then s
    else
      let (s, a) := s.pqStep g u.ts fresh gr.sag
        { code := 0x0301, on := decide (d ≠ 0 ∧ sag ≠ 0), start := known.any (fun v => decide (v * 1000 < sag * d)),
          stop := all (fun v => decide ((sag + hyst) * d ≤ v * 1000)), high := false }
      let (s, b) := s.pqStep g u.ts fresh gr.swell
        { code := 0x0302, on := decide (d ≠ 0 ∧ swell ≠ 0), start := known.any (fun v => decide (swell * d < v * 1000)),
          stop := all (fun v => decide (((v * 1000 : Nat) : Int) ≤ ((swell : Int) - hyst) * d)), high := true }
      let (s, c) := s.pqStep g u.ts fresh gr.intr
        { code := 0x0303, on := decide (d ≠ 0 ∧ intr ≠ 0), start := all (fun v => decide (v * 1000 < intr * d)),
          stop := known.any (fun v => decide ((intr + hyst) * d ≤ v * 1000)), high := false }
      let s := s.modGrp g (fun r => { r with sag := a, swell := b, intr := c })
      ((s.setFlag (EVT_VGSTAT_SAGACT g) a.isSome).setFlag (EVT_VGSTAT_SWLACT g) b.isSome).setFlag (EVT_VGSTAT_INTACT g)
        c.isSome
  let after := (s.grp g).sag.isSome || (s.grp g).swell.isSome || (s.grp g).intr.isSome
  s.modGrp g (fun r => { r with
    win := r.win.map (fun w => w.mark true u.at_ vals before after)
    done := r.done.map (fun w => w.mark false u.at_ vals before after) })

/-- Acts on the oldest U½ of a group if every exposure with a sample that it uses is resolved (R214). -/
def State.uhalfNext (s : State) (g : Nat) : State :=
  match (s.grp g).uhalf with
  | u :: t => if s.resolvedTo u.exp && (groupChans s.exp.eff g).all (fun n => s.samplesKnown n u.at_) then (s.modGrp g (fun r => { r with uhalf := t })).uhalfDecide g u else s
  | [] => s

/-- HALF_CYCLE_DECISION (R214). -/
def execHalfCycleDecision (g : Nat) (s : State) : Host.Outcome State Fault Refusal :=
  finish (fun s => if g < 8 ∧ s.pdOn 5 then s.uhalfNext g else s) s

/-! Harmonic results (R207 to R209) -/

/-- The four samples around an instant and the fraction between the second and the third, in units of 2^-24. -/
def around (t : Nat) : List (Nat × Int) → Option (Int × Int × Int × Int × Int)
  | a :: b :: c :: d :: r =>
    if b.1 ≤ t ∧ t < c.1 then
      some (roundDiv (((t : Int) - b.1) * 2 ^ 24) (c.1 - b.1), a.2, b.2, c.2, d.2)
    else around t (b :: c :: d :: r)
  | _ => none

/-- The resampled value x_j (R207). -/
def resample (ws : List (Nat × Int)) (t0 t1 j : Nat) : Int :=
  match around (t0 + j * (t1 - t0) / 2048) ws with
  | some (f, a, b, c, d) => lagrange f a b c d
  | none => 0

/-- The transform of 2048 values at bin k: real and imaginary part in units of 2^-40 of an LSB (R207). -/
def dftBin (xs : List Int) (k : Nat) : Int × Int :=
  let r := xs.zipIdx.foldl (fun (a : Int × Int) e =>
    let cs := fxCosSin ((k * e.2 % 2048 : Nat) : Int) 2048
    (a.1 + e.1 * cs.1, a.2 - e.1 * cs.2)) (0, 0)
  (r.1 / 2 ^ 60, r.2 / 2 ^ 60)

/-- C_k of a bin, UQ2.34, to the nearest unit and with the deviation R207 allows (log 18). -/
def binMag (free k : Nat) (b : Int × Int) : Nat :=
  let p := (b.1 * b.1 + b.2 * b.2).toNat
  let r := if k = 0 then isqrt (4 * p / 2 ^ 102) else isqrt (4 * p / 2 ^ 101)
  ((((r + 1) / 2 : Nat) : Int) + clampInt (-3) 3 (Config.dftMag free k)).toNat

/-- Argument of a bin in 2^-36 turn; open below 2^-20 of full scale (log 18). -/
def binArg (free k : Nat) (b : Int × Int) (mag : Nat) : Int :=
  if mag < 2 ^ 14 then ((Config.dftSmall free k).toNat : Int) else (atan2Turn b.2 b.1 : Int)

/-- What the engine computes of one channel of a window. -/
structure HrmChan where
  ch : Nat
  settle : Bool
  loss : Bool
  ovr : Bool
  unconf : Bool
  rms : Nat
  /-- C_k, k = 0 up, and φ_h and the deviation of PHASE_h, h = 0 to 63. -/
  mags : List Nat
  args : List Int
  devs : List Int
  deriving DecidableEq, Repr

/-- Orders beyond 63 N + N/2 are not needed. -/
def HrmChan.c (h : HrmChan) (k : Int) : Nat := if k < 0 then 0 else h.mags.getD k.toNat 0

/-- Half of the low-pass a channel passes, centre tap first: one tap of unit gain below 16 kS/s (R207). -/
def windowFilter (eff : List (Nat × BitVec 32)) : List Int :=
  let g := effG eff
  if 16000 ≤ rateOf g then lowPass g else [2 ^ 40]

/-- The samples a window uses of a channel (R207, R209, R210): first place and one behind the last, in order of time: those around
the first and the last resampling instant, and those the low-pass adds on both sides. -/
def usedRange (ws : List WSample) (w : Window) (k : Nat) : Nat × Nat :=
  let upTo (t : Nat) := (ws.filter (fun x => decide (x.at_ ≤ t))).length
  (upTo w.start - 2 - k, upTo (w.start + 2047 * (w.stop - w.start) / 2048) + 2 + k)

/-- The computed results of a channel over a window (R207, R209). -/
def State.hrmChan (s : State) (w : Window) (n : Nat) : State × HrmChan :=
  let ws := s.kept n
  let zs := ws.map WSample.z
  let h := windowFilter s.exp.eff
  let pts := (ws.map WSample.at_).zip (linearPhase h zs)
  let r := usedRange ws w (h.length - 1)
  let used := (ws.take r.2).drop r.1
  let xs := (List.range 2048).map (resample pts w.start w.stop)
  let nc := w.fcyc.length
  let bins := (List.range (63 * nc + nc / 2 + 1)).map (dftBin xs)
  let free := s.free
  let mags := bins.zipIdx.map (fun e => binMag free e.2 e.1)
  ({ s with free := s.free + 1 },
   { ch := n, settle := used.any WSample.settle, loss := used.any WSample.loss, ovr := used.any WSample.ovr,
     unconf := used.any (fun x => s.evt.unconf.contains (x.expno, n)),
     rms := isqrt (xs.foldl (fun (a : Nat) x => a + x.natAbs * x.natAbs) 0 / 2048),
     mags := mags, args := (List.range 64).map (fun h => binArg free (h * nc) (bins.getD (h * nc) (0, 0)) (mags.getD (h * nc) 0)),
     devs := (List.range 64).map (fun h => clampInt (-2047) 2047 (Config.dftAng free h)) })

/-- G_h and SG_h, UQ2.34 (R208). -/
def HrmChan.group (c : HrmChan) (n h : Nat) : Nat :=
  let sq (k : Int) : Nat := c.c k * c.c k
  let mid : Int := (h * n : Nat)
  let half : Int := (n / 2 : Nat)
  if h = 0 then c.c 0
  else isqrt ((sq (mid - half) + sq (mid + half)) / 2 +
    (List.range (n - 1)).foldl (fun a (i : Nat) => a + sq (mid - half + 1 + i)) 0)
def HrmChan.subgroup (c : HrmChan) (n h : Nat) : Nat :=
  let sq (k : Int) : Nat := c.c k * c.c k
  let mid : Int := (h * n : Nat)
  if h = 0 then c.c 0 else isqrt (sq (mid - 1) + sq mid + sq (mid + 1))

/-- HMAX of a window (R209). -/
def hmaxOf (g fwin : Nat) : Nat := if fwin = 0 then 0 else min 63 (min (rateOf g * 2 / 5) 4100 * 2 ^ 24 / fwin)

/-- A quotient of a root and a divisor, UQ2.34; 0 when the divisor is 0. -/
def ratio34 (sumSq d : Nat) : Nat := if d = 0 then 0 else isqrt (sumSq * 2 ^ 68 / (d * d))

/-- PHASE_h of a channel, with the deviation R207 allows (log 18). -/
def phaseOf (ref : HrmChan) (c : HrmChan) (h : Nat) : Nat :=
  if h = 0 then 0 else (((h : Int) * ref.args.getD 1 0 - c.args.getD h 0 + c.devs.getD h 0) % 2 ^ 36).toNat

/-- Flags of a window record (R209, R211). -/
def hrmFlags (w : Window) (cs : List HrmChan) (dropped : Bool) : BitVec 64 :=
  BitVec.ofNat 64 (w.short.toNat + 2 * (cs.any HrmChan.settle).toNat + 4 * (cs.any HrmChan.loss).toNat +
    8 * (cs.any HrmChan.ovr).toNat + 16 * (cs.any HrmChan.unconf).toNat + 32 * w.flagged.toNat + 64 * dropped.toNat)

/-- The head both records share. -/
def hrmHead (kind g ch : Nat) (w : Window) (first : BitVec 72) (flags : BitVec 64) : List (BitVec 64) :=
  [BitVec.ofNat 64 (kind + g * 2 ^ 8 + ch * 2 ^ 16), w.seq] ++ slot128 first.toNat ++ [w.tsStart, w.tsStop, flags]

/-- The 32 slots of a group record (R211). -/
def hrmGroup (g ch : Nat) (w : Window) (first : BitVec 72) (cs : List HrmChan) (fwin pseq : Nat) (dropped : Bool) :
    List (BitVec 64) :=
  let n (x : Nat) := BitVec.ofNat 64 x
  hrmHead 1 g ch w first (hrmFlags w cs dropped) ++ [n fwin] ++ (List.range 12).map (fun c => n (w.fcyc.getD c 0)) ++
    [n pseq, n w.fcyc.length] ++
    (List.range 3).flatMap (fun v => let e := (w.ext.getD v none).getD (0, 0); [n e.1, n e.2]) ++ List.replicate 4 0

/-- The 272 slots of a channel record (R211). -/
def State.hrmRecord (s : State) (g : Nat) (w : Window) (first : BitVec 72) (fwin : Nat) (volt : Bool) (ref c : HrmChan)
    (dropped : Bool) : List (BitVec 64) :=
  let n (x : Nat) := BitVec.ofNat 64 x
  let nc := w.fcyc.length
  let hmax := hmaxOf (effG s.exp.eff) fwin
  let top := min (s.effGet (EVT_VGCFG_THDMAX g)) hmax
  let m (h : Nat) := c.c ((h * nc : Nat) : Int)
  let orders := (List.range (top + 1)).filter (fun h => decide (2 ≤ h))
  let sq (f : Nat → Nat) := orders.foldl (fun a h => a + f h * f h) 0
  let thd := if s.effGet (EVT_VGCFG_THDSEL g) = 0 then ratio34 (sq m) (m 1) else ratio34 (sq (c.group nc)) (c.group nc 1)
  let il := s.effGet (EVT_IL_IL c.ch) * 4
  let tdd := if volt then 0 else ratio34 (sq m) il
  hrmHead 2 g c.ch w first (hrmFlags w [c] dropped) ++ [n hmax, n c.rms, n thd, n tdd] ++ List.replicate 5 0 ++
    (List.range 64).flatMap (fun h => [n (m h), n (phaseOf ref c h)]) ++
    (List.range 64).map (fun h => n (c.group nc h)) ++ (List.range 64).map (fun h => n (c.subgroup nc h))

/-- One HRM record goes to the next descriptor, or is dropped (R211). -/
def State.hrmPut (s : State) (kind : Nat) (first : BitVec 72) (ts : BitVec 64) (rec : Bool → List (BitVec 64)) : State :=
  let data := rec s.evt.hrmDropped
  let (s, i) := s.deliver 8 (8 * data.length) kind data first ts
  match i with
  | some _ => s.modEvt (fun e => { e with hrmDropped := false })
  | none => ((s.modEvt (fun e => { e with hrmDropped := true })).bump EVT_HRMDROP_HRMDROP 1).dropRecord 8

/-- Channels a group's window computes: its voltage channels, and enabled current channels of running points (R207). -/
def State.windowChans (s : State) (g : Nat) : List Nat :=
  let eff := s.exp.eff
  let volt := groupChans eff g
  let cur := (bitsOf 32 s.runMask).flatMap (fun p => if effOf eff (MET_CFG_VG p) = g then pointCurrents eff p else [])
  (List.range 96).filter (fun n => volt.contains n || (cur.contains n && bitAt (s.effGet (EVT_HRMEN_HRMEN (n / 32))) (n % 32)))

/-- Code of the phase sequence (R215): `nv` channels, lag of VCH1 behind VCH0 as a 36-bit angle. -/
def phaseSeq (nv lag : Nat) : Nat :=
  let within (lo hi : Nat) := decide (lo * 2 ^ 36 ≤ lag * 360) && decide (lag * 360 ≤ hi * 2 ^ 36)
  if nv = 3 then (if within 90 150 then 1 else if within 210 270 then 2 else 0)
  else if nv = 2 then (if within 270 330 then 1 else if within 30 90 then 2 else 0)
  else 0

/-- Every exposure that holds a sample of a channel that a window uses is resolved (R210); of a channel that has stopped, every one
with its samples. -/
def State.windowReady (s : State) (w : Window) (n : Nat) : Bool :=
  let ws := s.kept n
  match ws[(usedRange ws w ((windowFilter s.exp.eff).length - 1)).2 - 1]? with
  | some x => s.resolvedTo x.expno
  | none => !(s.chan n).started && s.exp.pipe.all (fun x => (x.slot.words.getD n []).isEmpty)

/-- A complete window is written (R207 to R211), with the phase sequence (R215). -/
def State.writeWindow (s : State) (g : Nat) (w : Window) : State :=
  let chs := s.windowChans g
  let volt := groupChans s.exp.eff g
  let (s, cs) := mapState (fun (s : State) n => s.hrmChan w n) s chs
  let blank : HrmChan := { ch := 0, settle := false, loss := false, ovr := false, unconf := false, rms := 0, mags := [], args := [],
                            devs := [] }
  let of_ (n : Nat) := (cs.find? (fun c => c.ch == n)).getD blank
  let v0 := volt.headD 0
  let ref := of_ v0
  let firsts := chs.filterMap (fun n => ((s.kept n).find? (fun x => decide (w.start ≤ x.at_))).map WSample.expno)
  let first := firsts.foldl (fun a e => if e.toNat < a.toNat then e else a) (firsts.headD 0)
  let fwin := freqOf w.fcyc.length (w.stop - w.start)
  let old := s.get (EVT_VGSTAT_PSEQ g)
  let bad := cs.any HrmChan.unconf
  let code := if bad then old else phaseSeq volt.length (phaseOf ref (of_ (volt.getD 1 v0)) 1)
  let s := if bad then s.bump EVT_STAT_UNCONFCNT 1 else s.put (EVT_VGSTAT_PSEQ g) code
  let s := if code = old then s else s.event 0x0304 g .momentary code old 0
  let s := s.hrmPut 1 first w.tsStart (hrmGroup g v0 w first cs fwin code)
  cs.foldl (fun s c => s.hrmPut 2 first w.tsStart (s.hrmRecord g w first fwin (volt.contains c.ch) ref c)) s

/-- WINDOW_WRITE (R210): the oldest complete window of a group whose exposures are all resolved. -/
def execWindowWrite (g : Nat) (s : State) : Host.Outcome State Fault Refusal :=
  finish (fun s =>
    if 8 ≤ g ∨ ¬ s.pdOn 5 then s
    else match (s.grp g).done with
      | [] => s
      | w :: _ =>
        let ok := (s.windowChans g).all (fun n => s.windowReady w n)
        if !ok then s
        else
          let due := ((s.grp g).uhalf.filter (fun u => decide (u.at_ ≤ w.stop))).length
          let s := State.each due (fun _ s => s.uhalfNext g) s
          match (s.grp g).done with
          | [] => s
          | w :: t => (s.modGrp g (fun r => { r with done := t })).writeWindow g w) s

/-! Event records (R219, R220) -/

/-- EVENT_RECORD_WRITE (R219): the oldest waiting event goes to the next EVT descriptor; a descriptor of the EVT ring is itself
the record (R399). -/
def execEventRecordWrite (s : State) : Host.Outcome State Fault Refusal :=
  finish (fun s =>
    match s.evt.queue with
    | [] => s
    | e :: t =>
      if s.ringRun 2 ∧ s.dmaOn ∧ 0 < s.ringOwned 2 then
        let s := s.hostWrite (.mem (s.descAddr 2 (s.ringC 2)) (e.slots s.evt.dropPend))
        (s.modEvt (fun v => { v with queue := t, dropPend := false })).returnDescs 2 1
      else s) s

end Sys2Proof.Machine
end

