-- ==== Sys2Proof/Machine/Led.lean ====
section
/-!
DEFINITION. Ledger records and the commands that read the ledger: snapshots (R195 to R199), calibration windows (R162 to R165),
releases of withheld energy (R193), and MP_START (R176).
-/

namespace Sys2Proof.Machine

/-- The taken command of a source that waits for `w`. -/
def State.waiting (s : State) (src : CmdSrc) (w : Wait) : Option Taken :=
  s.taken.find? (fun t => decide (t.hdr.src = src) && t.wait == w)

/-! Ledger records (R195) -/

/-- FLAGS of a record but for DROPPED (R195). -/
def State.recordFlags (s : State) (mask latmask : BitVec 32) : BitVec 64 :=
  let paired := s.flag PAIR_STAT_RUN && decide ((s.rd PAIR_MPMASK &&& mask) ≠ 0)
  BitVec.ofNat 64 ((decide (latmask ≠ 0)).toNat + 16 * s.sealed.toNat + 32 * paired.toNat + latmask.toNat * 2 ^ 32)

/-- The registers a record holds: those kept for a point, else the present ones, plus latent increments. -/
def State.recordRegs (s : State) (mask frozen : BitVec 32) (kept : List (Nat × BitVec 108)) (lat : Nat → List Nat) :
    List (Nat × BitVec 108) :=
  (bitsOf 32 mask.toNat).flatMap (fun p =>
    let regs := if bitAt frozen.toNat p then kept else s.ldg.regs
    let extra := lat p
    (List.range 50).filterMap (fun i =>
      let v := storeGet 0 regs (50 * p + i) + BitVec.ofNat 108 (extra.getD i 0)
      if v = 0 then none else some (50 * p + i, v)))

/-- The 3,241 slots of a ledger record (R195). -/
def State.recordSlots (s : State) (r : LedgerRecord) : List (BitVec 64) :=
  let n (x : Nat) := BitVec.ofNat 64 x
  let body := [n (0x474C5644 + 2 ^ 32 + r.kind.toNat * 2 ^ 48), n (s.wide [GLB_SERIAL_LO, GLB_SERIAL_HI])] ++
    slot128 r.expno.toNat ++ [r.ts, r.flags, n r.mpmask.toNat, n (r.seq.toNat + r.audit.toNat * 2 ^ 32)] ++
    (List.range 1600).flatMap (fun i => slot128 (storeGet (0 : BitVec 108) r.regs i).toNat) ++
    (List.range 16).flatMap (fun j => slot128 (r.pinq.getD j 0).toNat)
  body ++ [n (crc32c (slotBytes body))]

/-! Snapshots (R196 to R199) -/

/-- EXPNO and TS of a snapshot taken while no exposure runs (R196). -/
def State.lastCovered (s : State) : BitVec 72 × BitVec 64 :=
  match s.exp.lastEnded with
  | some x => x
  | none => match s.prf.restored with
    | some (e, t, _) => (e, t)
    | none => (0, 0)

/-- A snapshot is copied (R196, R197): its record is ready, or goes to the master it was taken for (R441). -/
def State.snapCopy (s : State) (r : SnapReq) (e : BitVec 72) : State :=
  let lat := if r.latent then
      (match s.expo e with
       | some x => bitsOf 32 (r.mask &&& x.latent).toNat
       | none => [])
    else []
  let incs (p : Nat) : List Nat := if lat.contains p then
      (match s.expo e with
       | some x => ((x.dev.bind (fun d => d.point p)).map PointDev.incs).getD []
       | none => [])
    else []
  let latmask : BitVec 32 := BitVec.ofNat 32 (lat.foldl (fun m p => m + 2 ^ p) 0)
  let rec_ : LedgerRecord :=
    { kind := if r.auto then 0x11 else 0x10, expno := e, ts := r.ts, flags := s.recordFlags r.mask latmask,
      mpmask := r.mask, seq := 0, audit := s.ldg.audit, regs := s.recordRegs r.mask r.frozen r.kept incs, pinq := r.pinq }
  let s := s.modLdg (fun l => { l with snaps := l.snaps.erase r })
  if r.up then
    let l := s.recordSlots { rec_ with seq := s.ldg.snapSeq }
    let f : ResFrame := { pos := s.get TZL_STAT_POS, expno := e, points := [], events := [], record := some l, bad := 0 }
    { s.modLdg (fun l => { l with snapSeq := l.snapSeq + 1 }) with tzl := { s.tzl with out := s.tzl.out ++ [.resolution f] } }
  else s.modLdg (fun l => { l with ldgQ := l.ldgQ ++ [{ src := r.src, auto := r.auto, record := rec_ }] })

/-- The exposure a snapshot covers is resolved, or for a latent snapshot developed with every earlier one resolved. -/
def State.snapReady (s : State) (r : SnapReq) (e : BitVec 72) : Bool :=
  s.exp.pipe.all (fun y =>
    decide (e.toNat < y.slot.expno.toNat) || y.points.all (fun p => bitAt y.resolved.toNat p) ||
    (r.latent && y.slot.expno == e && y.dev.isSome))

/-- Copies the oldest snapshot that is due. -/
def State.snapNext (s : State) : State :=
  match s.ldg.snaps.find? (fun r => match r.expno with | some e => s.snapReady r e | none => false) with
  | some r => match r.expno with | some e => s.snapCopy r e | none => s
  | none => s

/-- TS of a record that covers exposure e: its end timestamp, or where it was not issued since the reset of PD5 that of the proof
restored (R195, R196). -/
def State.coverTs (s : State) (e : BitVec 72) (prev : Option (BitVec 72 × BitVec 64)) : BitVec 64 :=
  let old := match s.prf.restored with | some (_, u, _) => u | none => 0
  match prev with
  | some (k, u) => if k = e then u else old
  | none => old

/-- An automatic snapshot with period k falls due at the boundary that ends exposure n: EXPNO + 1 is a multiple of k (R198), where
EXPNO is n - 1, or n at the boundary at which exposures stop (R196). -/
def autoDue (k : Nat) (n : BitVec 72) (stopping : Bool) : Bool :=
  k != 0 && (if stopping then (n.toNat + 1) % k == 0 else n.toNat % k == 0)

/-- Snapshots that every device of the cascade takes at the boundary that ends exposure n (R441). -/
def State.snapAsks (s : State) (n : BitVec 72) (stopping : Bool) : List (BitVec 32 × Bool × Bool) :=
  if !s.flag TZL_CTL_CASREC then []
  else
    let auto := match s.ldg.autoSnap with
      | some (k, mask) => if autoDue k n stopping then [(mask, true, false)] else []
      | none => []
    ((s.ldg.snaps.filter (fun r => r.expno.isNone)).map (fun r => (r.mask, r.auto, r.latent))) ++ auto

/-- At a boundary that ends exposure n, snapshots requested before it get their EXPNO (R196 to R198): n - 1, with the end
timestamp of that exposure; n for a latent one and at the boundary at which exposures stop. -/
def State.snapBoundary (s : State) (n : BitVec 72) (ts : BitVec 64) (prev : Option (BitVec 72 × BitVec 64)) (stopping : Bool) :
    State :=
  let e : BitVec 72 := if stopping then n else if n = 0 then 0 else n - 1
  let t : BitVec 64 := if stopping then ts else if n = 0 then 0 else s.coverTs e prev
  let s := s.modLdg (fun l => { l with snaps := l.snaps.map (fun r =>
    if r.expno.isSome then r
    else if r.latent then { r with expno := some n, ts := ts, pinq := s.pio.pinq }
    else { r with expno := some e, ts := t, pinq := s.pio.pinq }) })
  let s := match s.ldg.autoSnap with
    | some (k, mask) =>
      if autoDue k n stopping then
        let r : SnapReq :=
          { src := none, up := false, mask := mask, latent := false, auto := true, expno := some e, ts := t, pinq := s.pio.pinq,
            frozen := 0, kept := [] }
        s.modLdg (fun l => { l with snaps := l.snaps ++ [r] })
      else s
    | none => s
  if n = 0 ∧ ¬ stopping then
    s.ldg.snaps.foldl (fun s r => if r.latent ∨ r.expno ≠ some e then s else s.snapCopy r e) s
  else s

/-- SNAPSHOT (R196 to R199). -/
def State.cmdSnapshot (s : State) (h : CmdHdr) (a0 a1 a2 : BitVec 64) : State :=
  let mask : BitVec 32 := a0.truncate 32
  let latent := bitAt a1.toNat 0
  let auto := bitAt a1.toNat 1
  let n := a2.toNat % 2 ^ 19
  if (latent && auto) || (mask == 0 && !(auto && n == 0)) || (auto && decide (500000 < n)) then
    s.complete 0x21 h stBadarg 0 0 0
  else if s.asBusyFor h then s.complete 0x21 h stRefused 0 0 0
  else if auto then
    (s.modLdg (fun l => { l with autoSnap := if n = 0 then none else some (n, mask) })).complete 0x21 h stDone 0 0 0
  else
    let c := s.lastCovered
    let r : SnapReq :=
      if s.exp.running then
        { src := some h.src, up := false, mask := mask, latent := latent, auto := false, expno := none, ts := 0, pinq := [], frozen := 0,
          kept := [] }
      else
        { src := some h.src, up := false, mask := mask, latent := false, auto := false, expno := some c.1, ts := c.2, pinq := s.pio.pinq,
          frozen := 0, kept := [] }
    (s.keep 0x21 h .snapshot).modLdg (fun l => { l with snaps := l.snaps ++ [r] })

/-- A command SNAPSHOT is given up: its request and its record. -/
def State.snapDrop (s : State) (src : CmdSrc) : State :=
  s.modLdg (fun l => { l with snaps := l.snaps.filter (fun r => decide (r.src ≠ some src)),
                              ldgQ := l.ldgQ.filter (fun w => decide (w.src ≠ some src)) })

/-- A snapshot's last record has been written: its command completes (R196, R441). -/
def State.snapDone (s : State) (c : CasWait) : State :=
  match c.src.bind (fun x => s.waiting x .snapshot) with
  | some t => s.done t stDone c.p0 c.p1 c.p2
  | none => s

/-- Positions whose records follow the master's own (R441). -/
def State.slavePositions (s : State) : List Nat :=
  if s.tzl.mode = 1 ∧ s.flag GLB_STRAP_MSTR ∧ s.flag TZL_CTL_CASREC then (List.range (s.get TZL_STAT_NDEV)).drop 1 else []

/-- Exposure number of a ledger record's slots (R195). -/
def recordExpno (l : List (BitVec 64)) : Nat := (l.getD 2 0).toNat + 2 ^ 64 * (l.getD 3 0).toNat

/-- The device's own record of a snapshot has been written; slaves' records of it that came before are taken up (R441). -/
def State.recordWritten (s : State) (c : CasWait) : State :=
  if c.left.isEmpty then s.snapDone c
  else
    let mine := s.tzl.early.filter (fun g => recordExpno g.2 == c.expno.toNat)
    let rest := s.tzl.early.filter (fun g => decide (c.expno.toNat < recordExpno g.2))
    { s with tzl := { s.tzl with cascade := s.tzl.cascade ++ [{ c with got := c.got ++ mine }], early := rest } }

/-- Slaves' records that have arrived go to the LDG ring in ascending position order, one per descriptor (R441). -/
def State.cascadeFlush : Nat → State → State
  | 0, s => s
  | fuel + 1, s =>
    match s.tzl.cascade with
    | [] => s
    | c :: rest =>
      match c.left with
      | [] => ({ s with tzl := { s.tzl with cascade := rest } }.snapDone c).cascadeFlush fuel
      | p :: ps =>
        match c.got.find? (fun g => g.1 == p) with
        | none => s
        | some (_, l) =>
          let kind := (l.headD 0).toNat / 2 ^ 48 % 256
          let (s, i) := s.deliver 3 25984 kind l c.expno (l.getD 4 0)
          match i with
          | some _ => { s with tzl := { s.tzl with cascade := { c with left := ps } :: rest } }.cascadeFlush fuel
          | none => s

/-- Enough steps for everything that can be written. -/
def State.cascadeSend (s : State) : State := s.cascadeFlush (s.tzl.cascade.foldl (fun n c => n + c.left.length + 1) 1)

/-- Writes the oldest ready record into the next LDG descriptor; without one, automatic records are dropped (R199). -/
def State.ledgerWrite (s : State) : State :=
  match s.ldg.ldgQ with
  | [] => s
  | w :: rest =>
    let r := { w.record with seq := s.ldg.snapSeq,
                             flags := if s.ldg.dropped then w.record.flags ||| 8 else w.record.flags }
    let (s, ok) := s.skipShort 3 25984 r.kind.toNat r.expno r.ts ((s.ring 3).posted.length + 1)
    let (s, i) := if ok then s.deliver 3 25984 r.kind.toNat (s.recordSlots r) r.expno r.ts else (s, none)
    match i with
    | some idx =>
      let s := s.modLdg (fun l => { l with ldgQ := rest, snapSeq := l.snapSeq + 1, dropped := false })
      s.recordWritten { src := w.src, expno := r.expno, p0 := r.seq.toNat + idx.toNat * 2 ^ 32, p1 := r.expno.toNat % 2 ^ 64,
                        p2 := r.expno.toNat / 2 ^ 64, left := s.slavePositions, got := [], at_ := s.exp.now }
    | none =>
      let gone := (s.ldg.ldgQ.filter LdgWait.auto).length
      let s := s.modLdg (fun l => { l with ldgQ := l.ldgQ.filter (fun w => !w.auto), dropped := l.dropped || gone != 0 })
      State.each gone (fun _ s => s.dropRecord 3) s

/-! Calibration windows (R162 to R165) -/

/-- The 72 slots of a calibration record (R164). -/
def CalWin.slots (w : CalWin) : List (BitVec 64) :=
  let n (x : Nat) := BitVec.ofNat 64 x
  let el (e : Nat) : List (BitVec 64) :=
    slot128 (w.svv.getD e 0) ++ slot128 (w.sii.getD e 0) ++ slot128 (unsignedOf 128 (w.svi.getD e 0)) ++
    slot128 (unsignedOf 128 (w.svq.getD e 0)) ++
    [n (w.nsamp.getD e 0), n (atan2Turn (w.svq.getD e 0) (w.svi.getD e 0)), slotI (w.muMin.getD e 0), slotI (w.muMax.getD e 0)]
  slot128 w.first.toNat ++ slot128 w.last.toNat ++
    [w.tsFirst, w.tsLast, n w.nexp, n w.ndisc, n w.naway, n w.ncreep, n w.point, w.flags.zeroExtend 64, 0, 0, 0, 0] ++
    (List.range 3).flatMap el ++ (List.range 10).flatMap (fun q => slot128 (w.tot.getD q 0))

/-- The taken CAL_WINDOW of a window. -/
def State.calTaken (s : State) (w : CalWin) : Option Taken := s.waiting w.src (.calWindow w.point)

/-- TSFIRST of a window is the timestamp of the start boundary of its first exposure (R164). -/
def State.calBegin (s : State) : State :=
  s.modLdg (fun l => { l with cals := l.cals.map (fun w =>
    if !w.ended && w.first == s.exp.cur then { w with tsFirst := s.exp.startTs } else w) })

/-- CAL_WINDOW (R162). -/
def State.cmdCalWindow (s : State) (h : CmdHdr) (a0 a1 a2 a3 : BitVec 64) : State :=
  let p := a0.toNat % 32
  let next := bitAt a0.toNat 8
  let n := a0.toNat / 2 ^ 16 % 2 ^ 16
  let start := (a1.toNat + 2 ^ 64 * a2.toNat) % 2 ^ 72
  let upcoming := if s.exp.running then s.exp.cur.toNat + 1 else s.exp.next.toNat
  if !s.pointOk p || n == 0 || (!next && decide (start < upcoming)) || a3.toNat % 64 != 0 || windowBad h a3.toNat 576 then
    s.complete 0x22 h stBadarg 0 0 0
  else if s.ldg.cals.any (fun w => w.point == p) || decide (4 ≤ s.ldg.cals.length) then s.complete 0x22 h stRefused 0 0 0
  else
    let w : CalWin :=
      { src := h.src, point := p, first := BitVec.ofNat 72 (if next then upcoming else start), count := n, addr := a3,
        last := 0, tsFirst := 0, tsLast := 0, nexp := 0, ndisc := 0, naway := 0, ncreep := 0, flags := 0, svv := [],
        sii := [], svi := [], svq := [], nsamp := [], muMin := [], muMax := [], tot := [], ended := false }
    (s.keep 0x22 h (.calWindow p)).modLdg (fun l => { l with cals := l.cals ++ [w] })

/-- A window is removed. -/
def State.calDrop (s : State) (w : CalWin) : State := s.modLdg (fun l => { l with cals := l.cals.erase w })

/-- The record of an ended window is written and its command completes (R163). -/
def State.calEnd (s : State) (w : CalWin) : State :=
  match s.calTaken w with
  | none => s.calDrop w
  | some t =>
    if t.wait == Wait.late ∨ (t.hdr.dlv ∧ s.lateFor t.hdr.deadline) then s
    else
      let (s, ok) := s.cmdWrite t.hdr w.addr.toNat w.slots
      (s.calDrop w).done t (if !ok then stFault else if bitAt w.flags.toNat 2 then stAborted else stDone) w.nexp w.ndisc
        w.flags.toNat

/-- The deadline of a window's command passes: the window ends at once and its record is written (R163). -/
def State.calExpire (s : State) (t : Taken) (p : Nat) : State :=
  match s.ldg.cals.find? (fun w => w.point == p && decide (w.src = t.hdr.src)) with
  | some w =>
    let w' := { w with flags := w.flags ||| 8 }
    let (s, _) := s.cmdWrite t.hdr w.addr.toNat w'.slots
    ((s.calDrop w).untake t).complete t.op t.hdr stDeadline w.nexp w.ndisc w'.flags.toNat
  | none => (s.untake t).complete t.op t.hdr stDeadline 0 0 0

/-- A SYNC by ball or command marks the windows in progress (R163). -/
def State.calSync (s : State) : State :=
  s.modLdg (fun l => { l with cals := l.cals.map (fun w =>
    if !w.ended ∧ w.first.toNat ≤ s.exp.cur.toNat then { w with flags := w.flags ||| 1 } else w) })

/-- A grain or MCLKLP change at the boundary that ends exposure n ends there the windows that have begun (R163). -/
def State.calAbort (s : State) (n : BitVec 72) : State :=
  s.modLdg (fun l => { l with cals := l.cals.map (fun w =>
    if w.ended || decide (n.toNat < w.first.toNat) then w
    else { w with flags := w.flags ||| 4, count := min w.count (n.toNat + 1 - w.first.toNat),
                  ended := !(s.exp.pipe.any (fun y => y.slot.expno == n)) }) })

/-! Releases (R193) -/

/-- WITHHELD_RELEASE (R193). -/
def State.cmdRelease (s : State) (h : CmdHdr) (a0 a1 a2 : BitVec 64) : State :=
  let p := a0.toNat % 32
  let q : BitVec 10 := BitVec.ofNat 10 (a0.toNat / 2 ^ 16)
  let amount : BitVec 108 := BitVec.ofNat 108 (a1.toNat + 2 ^ 64 * a2.toNat)
  if q = 0 ∨ (amount ≠ 0 ∧ (bitsOf 10 q.toNat).length ≠ 1) then s.complete 0x23 h stBadarg 0 0 0
  else
    let t : Taken := { op := 0x23, hdr := h, wait := .release p q amount none, muted := false }
    let s := { s with taken := s.taken ++ [t] }
    if s.exp.running then s
    else
      let s := if s.exp.pipe.isEmpty then s.freezePoint p (2 ^ 72) else s
      s.applyRelease t p q.toNat amount.toNat s.lastCovered.1

/-- At a boundary, releases taken before it become due at the exposure that ends there (R193). -/
def State.releaseBoundary (s : State) (n : BitVec 72) : State :=
  { s with taken := s.taken.map (fun t =>
      match t.wait with
      | .release p q a none => { t with wait := .release p q a (some n) }
      | _ => t) }

/-! Meanings -/

/-- MP_START (R176): the points start at the next boundary, the start of the first exposure included. -/
def execMpStart (h : CmdHdr) (a0 : BitVec 64) (s : State) : Host.Outcome State Fault Refusal :=
  finish (fun s => s.take 0x01 h (fun s => s.cmdMp h a0 true)) s

/-- SNAPSHOT (R196): AUTO is 0. -/
def execSnapshot (h : CmdHdr) (a0 a1 a2 : BitVec 64) (s : State) : Host.Outcome State Fault Refusal :=
  finish (fun s => if bitAt a1.toNat 1 then s else s.take 0x21 h (fun s => s.cmdSnapshot h a0 a1 a2)) s

/-- SNAPSHOT_AUTO (R198): AUTO is 1. -/
def execSnapshotAuto (h : CmdHdr) (a0 a1 a2 : BitVec 64) (s : State) : Host.Outcome State Fault Refusal :=
  finish (fun s => if bitAt a1.toNat 1 then s.take 0x21 h (fun s => s.cmdSnapshot h a0 a1 a2) else s) s

/-- CAL_WINDOW (R162). -/
def execCalWindow (h : CmdHdr) (a0 a1 a2 a3 : BitVec 64) (s : State) : Host.Outcome State Fault Refusal :=
  finish (fun s => s.take 0x22 h (fun s => s.cmdCalWindow h a0 a1 a2 a3)) s

/-- WITHHELD_RELEASE (R193). -/
def execWithheldRelease (h : CmdHdr) (a0 a1 a2 : BitVec 64) (s : State) : Host.Outcome State Fault Refusal :=
  finish (fun s => s.take 0x23 h (fun s => s.cmdRelease h a0 a1 a2)) s

/-- SNAPSHOT_COPY (R196). -/
def execSnapshotCopy (s : State) : Host.Outcome State Fault Refusal := finish (fun s => s.snapNext) s

/-- LEDGER_RECORD_WRITE (R199). -/
def execLedgerRecordWrite (s : State) : Host.Outcome State Fault Refusal := finish (fun s => s.ledgerWrite.cascadeSend) s

/-- CAL_WINDOW_END (R163). -/
def execCalWindowEnd (point : Nat) (s : State) : Host.Outcome State Fault Refusal :=
  finish (fun s =>
    match s.ldg.cals.find? (fun w => w.point == point && w.ended) with
    | some w => s.calEnd w
    | none => s) s

end Sys2Proof.Machine
end

