-- ==== Sys2Proof/Machine/Rtc.lean ====
section
/-!
DEFINITION. The real-time clock and backup domain (R336 to R362): time counters, calendar, commits, steps, slews, captures,
alarm, periodic wake, temperature compensation, retention memory, power controller and trickle charger.
-/

namespace Sys2Proof.Machine

/-! Calendar (R338, R339, R341) -/

/-- Whole days from the epoch to the first day of year 2000 + k; k may be negative by a year or two. -/
def daysBeforeYear (k : Int) : Int :=
  365 * k + (k + 3) / 4 - (if 100 < k then 1 else 0) - (if 200 < k then 1 else 0) - (if 300 < k then 1 else 0)

/-- Year 2000 + k is a leap year (R338). -/
def leapYear (k : Int) : Bool := k % 4 == 0 && k != 100 && k != 200 && k != 300

/-- Days before a month, 1 to 12, of a year. -/
def daysBeforeMonth (k : Int) (m : Nat) : Int :=
  ([0, 31, 59, 90, 120, 151, 181, 212, 243, 273, 304, 334].getD (m - 1) 0 : Nat) +
    (if 2 < m ∧ leapYear k then 1 else 0)

/-- Seconds from the epoch of calendar fields, normalised without validation (R341). -/
def calendarSec (year month day hour minute second : Nat) : Int :=
  let k : Int := (year : Int) + ((month : Int) - 1) / 12
  let m := (((month : Int) - 1) % 12 + 1).toNat
  (daysBeforeYear k + daysBeforeMonth k m + ((day : Int) - 1)) * 86400 + hour * 3600 + minute * 60 + second

/-- First second beyond the calendar range: 2400-01-01 00:00:00 (R339). -/
def calendarEnd : Nat := 12622780800

/-- Year number since 2000 of a day count since the epoch. -/
def yearOfDay (d : Nat) : Nat :=
  [0, 1, 2].foldl (fun k _ => if daysBeforeYear ((k : Int) + 1) ≤ d then k + 1 else k) (d / 366)

/-- Month, 1 to 12, of the day of a year. -/
def monthOfDay (k : Nat) (doy : Nat) : Nat :=
  ([2, 3, 4, 5, 6, 7, 8, 9, 10, 11, 12].filter (fun m => daysBeforeMonth k m ≤ doy)).length + 1

/-- RTC_CAL0 and RTC_CAL1 of a seconds count (R338, R339). -/
def calendarOf (sec : Nat) : BitVec 32 × BitVec 32 :=
  let sec := min sec (calendarEnd - 1)
  let d := sec / 86400
  let t := sec % 86400
  let k := yearOfDay d
  let doy := d - (daysBeforeYear k).toNat
  let m := monthOfDay k doy
  let wday := (d + 5) % 7 + 1
  (BitVec.ofNat 32 (t % 60 + t / 60 % 60 * 2 ^ 8 + t / 3600 * 2 ^ 16 + wday * 2 ^ 24),
   BitVec.ofNat 32 (doy - (daysBeforeMonth k m).toNat + 1 + m * 2 ^ 8 + k * 2 ^ 16))

/-! Time (R336, R337, R342 to R345) -/

/-- The largest seconds count (R336). -/
def secMax : Nat := 2 ^ 36 - 1

/-- The time in ticks since the epoch. -/
def State.ticks (s : State) : Nat := s.rtc.sec * 32768 + s.rtc.tick

/-- Changes the backup-domain state. -/
def State.modRtc (s : State) (f : RtcState → RtcState) : State := { s with rtc := f s.rtc }

/-- RTC_STAT.COMMITPEND and STEPPEND follow the pending requests (R343). -/
def State.commitPending (s : State) : Bool := s.rtc.commit || s.taken.any (fun t => t.wait == Wait.rtcSet)
def State.rtcPend (s : State) : State :=
  (s.setFlag RTC_STAT_COMMITPEND s.commitPending).setFlag RTC_STAT_STEPPEND s.rtc.step.isSome

/-- RTC_CTL as it reads (R9): each bit written 1 stays 1 until the tick edge takes the request. -/
def State.rtcAsked (s : State) : Nat :=
  s.rtc.commit.toNat + 2 * s.rtc.capture.toNat +
    4 * (s.rtc.step.isSome && s.rtc.stepReg).toNat

/-- Sets RTC_STAT.WERR. -/
def State.werr (s : State) : State := s.setFlag RTC_STAT_WERR true

/-- RTC_STAT.CALOVF follows the time (R339). -/
def State.calovf (s : State) : State := s.setFlag RTC_STAT_CALOVF (decide (calendarEnd ≤ s.rtc.sec))

/-- The total correction C in units of 0.01 ppm (R337): the temperature correction counts as 0 while ticks come from
HFREF. -/
def State.corrTotal (s : State) : Int :=
  clampInt (-100000) 100000
    ((if s.flag PWR_STAT_LFSUB then 0 else s.rtc.tcorr) + s.getI RTC_TCOFF_TCOFF + s.rtc.slew)

/-- The time `n` ticks later (R336): a carry at the largest seconds count leaves it there with TICK at 0. -/
def State.advance (s : State) (n : Nat) : State :=
  if s.rtc.tick + n < 32768 then s.modRtc (fun r => { r with tick := r.tick + n })
  else if s.rtc.sec = secMax then
    (s.modRtc (fun r => { r with tick := 0 })).setFlag RTC_STAT_SECSAT true
  else s.modRtc (fun r => { r with sec := r.sec + 1, tick := r.tick + n - 32768 })

/-- A timestamp moved by a step in units of 2^-24 s (R40). -/
def shiftTs (d : Int) (t : BitVec 64) : BitVec 64 :=
  BitVec.ofNat 64 (unsignedOf 60 ((tsKey t : Int) + d) + (t.toNat / 2 ^ 60) * 2 ^ 60)

/-- Adds a step to every pending deadline, to completion timestamps not yet judged and to stored strike timestamps
(R40, R421). -/
def State.shiftDeadlines (s : State) (d : Int) : State :=
  let mac (m : MacTx) : MacTx := { m with deadline := m.deadline.map (shiftTs d), queuedAt := shiftTs d m.queuedAt }
  { s with
    taken := s.taken.map (fun t => { t with hdr := { t.hdr with deadline := shiftTs d t.hdr.deadline } })
    exp := { s.exp with pipe := s.exp.pipe.map (fun x => { x with deadline := shiftTs d x.deadline }) }
    tzl := { s.tzl with sums := s.tzl.sums.map (fun c => (c.1, c.2.1, shiftTs d c.2.2)) }
    saf := { s.saf with strikes := s.saf.strikes.map (·.map (fun (k : Nat) => unsignedOf 60 ((k : Int) + d))) }
    plc := { s.plc with
      queue := s.plc.queue.map mac
      lookWait := s.plc.lookWait.map mac
      tx := s.plc.tx.map (fun t => { t with deadline := shiftTs d t.deadline })
      assocDeadline := s.plc.assocDeadline.map (shiftTs d)
      asm := s.plc.asm.map (fun a => { a with ts := shiftTs d a.ts })
      ready := s.plc.ready.map (fun a => { a with ts := shiftTs d a.ts })
      ctxs := s.plc.ctxs.map (fun c =>
        { c with neg := c.neg.map (fun n => { n with t0 := shiftTs d n.t0, tPrev := shiftTs d n.tPrev })
                 negHold := shiftTs d c.negHold }) } }

/-- Sets OSF and logs it with its cause (R350, R362). -/
def State.setOsf (s : State) (cause : Nat) : State :=
  (s.setFlag RTC_STAT_OSF true).event 0x0912 0 .momentary cause (s.get RTC_STAT_STOPSUB) 0

/-- A committed write of the time (R342): a step of Δ from the time held at this edge; it clears OSF and is logged. -/
def State.setTime (s : State) (ticks : Nat) (kind : Nat) : State :=
  let old := s.ticks
  let d : Int := ((ticks : Int) - old) * 512
  let s := s.modRtc (fun r => { r with sec := ticks / 32768, tick := ticks % 32768, jumped := some old })
  let s := (s.shiftDeadlines d).setFlag RTC_STAT_OSF false
  let s := (s.setFlag RTC_STAT_SECSAT false).calovf
  let s := if s.flag RTC_PER_ALIGN then
      s.modRtc (fun r => { r with perDue := s.flag RTC_PER_EN && decide (ticks % (s.get RTC_PER_N * 128) = 0) })
    else s
  s.event 0x0911 0 .momentary (unsignedOf 64 d) kind 0

/-- The staged time in ticks (R340, R341); none when the commit is refused (R342). -/
def State.stagedTime (s : State) : Option Nat :=
  let tick := s.get RTC_STGFRAC_TICK
  if s.flag RTC_STGFRAC_FMT then
    let sec := calendarSec (s.get RTC_STGCAL1_YEAR) (s.get RTC_STGCAL1_MONTH) (s.get RTC_STGCAL1_DAY)
      (s.get RTC_STGCAL0_HOUR) (s.get RTC_STGCAL0_MIN) (s.get RTC_STGCAL0_SEC)
    if sec < 0 ∨ 399 < s.get RTC_STGCAL1_YEAR ∨ (calendarEnd : Int) ≤ sec then none
    else some (sec.toNat * 32768 + tick)
  else some (s.wide [RTC_STGSEC_LO, RTC_STGSEC_HI] * 32768 + tick)

/-- Takes the pending step away. -/
def State.dropStep (s : State) : State := s.modRtc (fun r => { r with step := none, stepReg := false })

/-- The commit takes effect at the tick edge (R342, R343): a step due at the same edge is discarded. -/
def State.commitEdge (s : State) : State :=
  if s.commitPending then
    let s := if s.rtc.step.isSome then
        (s.doneAll (fun t => t.wait == Wait.rtcStep) stRefused (fun _ => (0, 0, 0))).dropStep.werr
      else s
    let s := s.modRtc (fun r => { r with commit := false })
    let old := s.ticks
    let s := match s.stagedTime with
      | some t =>
        (s.setTime t 0).doneAll (fun t => t.wait == Wait.rtcSet) stDone
          (fun _ => (unsignedOf 64 (((t : Int) - old) * 512), 0, 0))
      | none => (s.doneAll (fun t => t.wait == Wait.rtcSet) stBadarg (fun _ => (0, 0, 0))).werr
    s.rtcPend
  else s

/-- The step takes effect at the tick edge (R344), unless a commit is due there too (R343). -/
def State.stepEdge (s : State) : State :=
  match s.rtc.step with
  | some (sec, tick) =>
    if s.commitPending then s
    else
      let s := s.dropStep
      let new : Int := s.ticks + sec * 32768 + tick
      let d := (sec * 32768 + tick) * 512
      let s := if new < 0 ∨ (secMax : Int) * 32768 + 32767 < new then
          (s.doneAll (fun t => t.wait == Wait.rtcStep) stBadarg (fun _ => (0, 0, 0))).werr
        else (s.setTime new.toNat 1).doneAll (fun t => t.wait == Wait.rtcStep) stDone (fun _ => (unsignedOf 64 d, 0, 0))
      s.rtcPend
  | none => s

/-- Ticks by which the next LFCLK edge advances TICK (R337). -/
def State.lfTicks (s : State) : Nat :=
  if 100000000 ≤ s.rtc.acc + s.corrTotal then 2 else if s.rtc.acc + s.corrTotal ≤ -100000000 then 0 else 1

/-- The slew after `n` ticks of a tick edge (R345): a new rate replaces the old one; one whose duration has elapsed returns to 0. -/
def RtcState.slewStep (r : RtcState) (n : Nat) : Int × Option Nat :=
  match r.slewNext, r.slewDur with
  | some (rate, 0), _ => (rate, none)
  | some (rate, dur), _ => (rate, some (dur * 32768))
  | none, some left => if left ≤ n then (0, none) else (r.slew, some (left - n))
  | none, none => (r.slew, none)

/-- The slew in effect ends at the next tick edge (R345). -/
def State.slewEnds (s : State) (n : Nat) : Bool :=
  s.rtc.slewNext.isNone && (match s.rtc.slewDur with | some left => decide (left ≤ n) | none => false)

/-- One LFCLK edge (R337): the accumulator inserts or suppresses a tick, a new slew rate and temperature correction enter
at a tick edge, HFREF interpolation restarts there, and a verified LFCLK takes over from HFREF / 500 (R77). -/
def State.lfEdge (s : State) : State :=
  let n := s.lfTicks
  let acc := s.rtc.acc + s.corrTotal + 100000000 * (1 - (n : Int))
  let now := if s.hfOn then max s.exp.now (s.exp.lfAt + 500) else s.exp.now
  let s := s.modRtc (fun r => { r with acc := acc })
  let s := { s with exp := { s.exp with now := now, lfAt := now } }
  if n = 0 then s
  else
    let per := s.get RTC_PER_N * 128
    let before := s.ticks
    let s := (s.advance n).calovf
    let s := { s with exp := { s.exp with edgeAt := now } }
    let s := if s.flag PWR_STAT_LFOK then s.setFlag PWR_STAT_LFSUB false else s
    let count := if s.flag RTC_PER_EN ∧ ¬ s.flag RTC_PER_ALIGN then s.rtc.perCount + n else 0
    let due := s.flag RTC_PER_EN && (if s.flag RTC_PER_ALIGN then decide (before / per < s.ticks / per)
      else decide (per ≤ count))
    let s := if s.slewEnds n then s.putI RTC_SLEW_RATE 0 else s
    s.modRtc (fun r => { r with
      tcorr := r.tcorrNext.getD r.tcorr, tcorrNext := none, slew := (r.slewStep n).1, slewDur := (r.slewStep n).2, slewNext := none,
      tcDue := r.tcDue - n, armAge := min 2 (r.armAge + 1), jumped := none,
      perCount := (if per ≤ count then count - per else count), perDue := due })

/-- Requests a slew from the next tick edge (R345), shown in RTC_SLEW. -/
def State.slewTo (s : State) (rate : Int) (dur : Nat) : State :=
  (s.putI RTC_SLEW_RATE rate).modRtc (fun r => { r with slewNext := some (rate, dur) })

/-- The slew rate that takes up an offset in 16 s, at most 500 ppm, in units of 0.01 ppm (R321, R439). -/
def slewOver (d : Int) : Int := clampInt (-50000) 50000 (roundDiv (d * 100000000) (2 ^ 28))

/-- Requests a step of `d` units of 2^-24 s from the next tick edge (R344); absorbed into one that waits (R343). -/
def State.stepBy (s : State) (d : Int) : State :=
  if s.rtc.step.isSome then s
  else
    let t := roundDiv d 512
    (s.modRtc (fun r => { r with step := some (t / 32768, (t % 32768).toNat) })).rtcPend

/-! Register effects -/

/-- RTC_CTL: commit, step and capture requests (R342, R344, R346). -/
def State.wrRtcCtl (v : BitVec 32) (s : State) : State :=
  if !s.pd1On then s
  else
    let s := if bitAt v.toNat 0 then s.modRtc (fun r => { r with commit := true }) else s
    let s := if bitAt v.toNat 2 ∧ s.rtc.step.isNone then
        let q := (signedOf 37 (s.wide [RTC_STEPSEC_LO, RTC_STEPSEC_HI] % 2 ^ 37), s.get RTC_STEPTICK_STEP)
        s.modRtc (fun r => { r with step := some q, stepReg := true })
      else s
    let s := if bitAt v.toNat 1 ∧ s.ready ∧ s.pdOn 5 then
        (s.modRtc (fun r => { r with capture := true })).setFlag RTC_STAT_CAPVALID false
      else s
    s.rtcPend

/-- The staging set, the step registers and the alarm value take no write while their request waits, and set WERR
(R343, R352). -/
def State.wrRtcGuarded (w : WriteBy) (off : Nat) (v : BitVec 32) (s : State) : State :=
  let stg := RTC_STGSEC_LO ≤ off ∧ off ≤ RTC_STGCAL1
  let stp := RTC_STEPSEC_LO ≤ off ∧ off ≤ RTC_STEPTICK
  if (stg ∧ s.commitPending) ∨ (stp ∧ s.rtc.step.isSome) ∨ (¬ stg ∧ ¬ stp ∧ s.flag RTC_ALMCTL_ARMED) then s.werr
  else s.plainWrite w off v

/-- RTC_SLEW: a rate within ±50,000 replaces the rate at the next tick edge for SLEWDUR seconds (R345). -/
def State.wrRtcSlew (v : BitVec 32) (s : State) : State :=
  if !s.pd1On then s
  else
    let rate := signedOf 17 (v.toNat % 2 ^ 17)
    if rate.natAbs ≤ 50000 then s.slewTo rate (s.get RTC_SLEWDUR_DUR) else s.werr

/-- RTC_ALMCTL: arm, disarm, and the W1C flags (R352). -/
def State.wrAlmctl (w : WriteBy) (v : BitVec 32) (s : State) : State :=
  if !s.pd1On then s
  else
    let s := s.storeWrite w RTC_ALMCTL v
    if bitAt v.toNat 1 then s.setFlag RTC_ALMCTL_ARMED false
    else if bitAt v.toNat 0 then (s.setFlag RTC_ALMCTL_ARMED true).modRtc (fun r => { r with armAge := 0 })
    else s

/-- RTC_PER: setting EN or writing N restarts the count of ALIGN = 0 (R354). -/
def State.wrRtcPer (w : WriteBy) (v : BitVec 32) (s : State) : State :=
  if !s.pd1On then s
  else
    (s.storeWrite w RTC_PER v).modRtc (fun r => { r with perCount := 0, perDue := r.perDue && bitAt v.toNat 24 })

/-- RTC_TCCFG: compensation starts with a measurement at once; a new INTERVAL restarts the period (R348).  With TCEN = 0
nothing is compensated from the next tick edge on (DEDUCED, log 13). -/
def State.wrTccfg (w : WriteBy) (v : BitVec 32) (s : State) : State :=
  let t := s.storeWrite w RTC_TCCFG v
  let on := t.flag RTC_TCCFG_TCEN
  if on ∧ ¬ s.flag RTC_TCCFG_TCEN then t.modRtc (fun r => { r with tcDue := 0 })
  else if ¬ on then t.modRtc (fun r => { r with tcorrNext := some 0 })
  else if t.get RTC_TCCFG_INTERVAL ≠ s.get RTC_TCCFG_INTERVAL then
    t.modRtc (fun r => { r with tcDue := t.get RTC_TCCFG_INTERVAL * 32768 })
  else t

/-- RTC_STAT.CHGON: the charger conducts only while PD0 is supplied from VDDIO (R359; termination: log 14). -/
def State.chargerState (s : State) : State := s.setFlag RTC_STAT_CHGON (s.flag RTC_TCHG_EN && !s.rtc.onBattery)

/-- RTC_TCHG: EN is set only with KEY 0xA5; any write without it clears EN (R359). -/
def State.wrTchg (w : WriteBy) (v : BitVec 32) (s : State) : State :=
  if !s.pd1On then s
  else
    let s := s.storeWrite w RTC_TCHG v
    let s := if v.toNat / 2 ^ 24 = 0xA5 then s else s.setFlag RTC_TCHG_EN false
    s.chargerState

/-- The power-controller state is shown in retention bytes 0x40 to 0x48 in power-control mode (R355). -/
def State.showPwr (s : State) (offend : BitVec 64) : State :=
  if s.flag RTC_BKCFG_BKMODE then
    ((s.wr (RTC_RAM 16) (offend.truncate 32)).wr (RTC_RAM 17) ((offend >>> 32).truncate 32)).wr (RTC_RAM 18)
      (BitVec.ofNat 32 (s.get RTC_PWRCTL_OFF + 2 * s.get RTC_PWRCTL_CYC + 4 * s.get RTC_PWRCTL_VOID))
  else s

/-- OFFEND as shown in the power-controller state. -/
def State.offend (s : State) : BitVec 64 := BitVec.ofNat 64 (s.wide [RTC_RAM 16, RTC_RAM 17])

/-- Releases PWRON (R56, R357): OFF = 0. -/
def State.releasePwron (s : State) : State :=
  let s := s.modRtc (fun r => { r with pwronLow := false })
  (s.setFlag RTC_PWRCTL_OFF false).showPwr s.offend

/-- RTC_BKCFG: a change of BKMODE clears bytes 0x40 to 0x5F and releases PWRON; ignored while CYC = 1 (R356). -/
def State.wrBkcfg (w : WriteBy) (v : BitVec 32) (s : State) : State :=
  let t := s.storeWrite w RTC_BKCFG v
  if t.flag RTC_BKCFG_BKMODE = s.flag RTC_BKCFG_BKMODE then t
  else
    let t := State.each 8 (fun i t => t.wr (RTC_RAM (16 + i)) 0) t
    (t.modRtc (fun r => { r with pwronLow := false, badParity := r.badParity.filter (· < 0x40) })).setFlag
      RTC_PWRCTL_OFF false

/-- RTC_PWRCTL: ALMON, PERON and the W1C flag VOID, shown in the power-controller state (R355, R357). -/
def State.wrPwrctl (w : WriteBy) (v : BitVec 32) (s : State) : State :=
  let t := s.storeWrite w RTC_PWRCTL v
  t.showPwr t.offend

/-- RTC_RAMw: a write that is taken regenerates the parity of its bytes (R355). -/
def State.wrRam (w : WriteBy) (off : Nat) (v : BitVec 32) (s : State) : State :=
  let s' := s.storeWrite w off v
  if s.lockMask off = 0 ∧ s.writable w off then
    s'.modRtc (fun r => { r with badParity := r.badParity.filter (fun b => b / 4 ≠ (off - RTC_RAM 0) / 4) })
  else s'

/-- A read of a retention word (R355): what an upset inverted since is found now; a byte with wrong parity flags the word
and logs it.  Answers the stored data. -/
def State.readRam (s : State) (w : Nat) (flips : BitVec 36) : State × BitVec 32 :=
  let part (b : Nat) : Nat := flips.toNat / 2 ^ (9 * b) % 2 ^ 9
  let odd (n : Nat) : Bool := ((List.range 9).filter (bitAt n)).length % 2 == 1
  let data := (List.range 4).foldl (fun (v : BitVec 32) b => v ^^^ BitVec.ofNat 32 (part b % 256 * 2 ^ (8 * b)))
    (s.rd (RTC_RAM w))
  let bad := (List.range 4).foldl (fun l b =>
    if odd (part b) then (if l.contains (4 * w + b) then l.erase (4 * w + b) else l ++ [4 * w + b]) else l) s.rtc.badParity
  let s := (s.wr (RTC_RAM w) data).modRtc (fun r => { r with badParity := bad })
  if bad.any (fun b => b / 4 == w) then
    ((s.wr RTC_RAMERR (s.rd RTC_RAMERR ||| BitVec.ofNat 32 (2 ^ w))).setFlag RTC_STAT_RAMPERR true
      |>.event 0x0915 w .momentary data.toNat 0 0, data)
  else (s, data)

/-- The temperature correction of a measurement by the 33-point curve (R348). -/
def State.tempCorr (s : State) (t : Int) : Int :=
  let pt (j : Nat) : Int := s.getI (RTC_TC_TC j)
  if t < -640 then pt 0
  else if 1920 ≤ t then pt 32
  else
    let u := (t + 640).toNat
    pt (u / 80) + roundDiv ((pt (u / 80 + 1) - pt (u / 80)) * ((u % 80 : Nat) : Int)) 80

/-! Meanings -/

/-- RTC_CAPTURE (R346): refused without PD5 or before READY; else it waits for the tick edge. -/
def State.cmdRtcCapture (s : State) (h : CmdHdr) : State :=
  if s.ready ∧ s.pdOn 5 then (s.keep 0x30 h .rtcCapture).setFlag RTC_STAT_CAPVALID false
  else s.complete 0x30 h stRefused 0 0 0

/-- Loads RTC_SET's arguments into the staging set (R342, R396). -/
def State.loadStaging (s : State) (a0 a1 a2 : BitVec 64) : State :=
  let fmt := a0.toNat % 2
  let s := (s.put RTC_STGFRAC_FMT fmt).put RTC_STGFRAC_TICK (a2.toNat % 2 ^ 15)
  if fmt = 0 then s.putWide [RTC_STGSEC_LO, RTC_STGSEC_HI] (a1.toNat % 2 ^ 36)
  else
    let c1 := a1.toNat % 2 ^ 32
    let c0 := a1.toNat / 2 ^ 32
    let s := ((s.put RTC_STGCAL1_YEAR (c1 / 2 ^ 16)).put RTC_STGCAL1_MONTH (c1 / 2 ^ 8)).put RTC_STGCAL1_DAY c1
    ((s.put RTC_STGCAL0_HOUR (c0 / 2 ^ 16)).put RTC_STGCAL0_MIN (c0 / 2 ^ 8)).put RTC_STGCAL0_SEC c0

/-- RTC_SET (R342, R343): loads the staging set and requests a commit; refused while one is pending. -/
def State.cmdRtcSet (s : State) (h : CmdHdr) (a0 a1 a2 : BitVec 64) : State :=
  if s.commitPending then s.werr.complete 0x31 h stRefused 0 0 0
  else ((s.loadStaging a0 a1 a2).keep 0x31 h .rtcSet).rtcPend

/-- RTC_ADJUST: a step with A0[0] = 0 (R343, R344), else a slew (R345); the arguments have the widths of RTC_STEPSEC,
RTC_STEPTICK, RTC_SLEW and RTC_SLEWDUR, and the bits above them are ignored (R16, log 87). -/
def State.cmdRtcAdjust (s : State) (h : CmdHdr) (a0 a1 a2 : BitVec 64) : State :=
  let rate := signedOf 17 (a1.toNat % 2 ^ 17)
  let sec := signedOf 37 (a1.toNat % 2 ^ 37)
  if bitAt a0.toNat 0 then
    if rate.natAbs ≤ 50000 then
      ((s.put RTC_SLEWDUR_DUR a2.toNat).slewTo rate (a2.toNat % 2 ^ 16)).complete 0x32 h stDone 0 0 0
    else s.werr.complete 0x32 h stBadarg 0 0 0
  else if s.rtc.step.isSome then s.werr.complete 0x32 h stRefused 0 0 0
  else ((s.modRtc (fun r => { r with step := some (sec, a2.toNat % 2 ^ 15) })).keep 0x32 h .rtcStep).rtcPend

/-- RTC_CAPTURE (R346). -/
def execRtcCapture (h : CmdHdr) (s : State) : Host.Outcome State Fault Refusal :=
  finish (fun s => s.take 0x30 h (fun s => s.cmdRtcCapture h)) s

/-- RTC_SET (R342). -/
def execRtcSet (h : CmdHdr) (a0 a1 a2 : BitVec 64) (s : State) : Host.Outcome State Fault Refusal :=
  finish (fun s => s.take 0x31 h (fun s => s.cmdRtcSet h a0 a1 a2)) s

/-- RTC_ADJUST with A0[0] = 0, a step (R344). -/
def execRtcAdjustStep (h : CmdHdr) (a0 a1 a2 : BitVec 64) (s : State) : Host.Outcome State Fault Refusal :=
  finish (fun s => if bitAt a0.toNat 0 then s else s.take 0x32 h (fun s => s.cmdRtcAdjust h a0 a1 a2)) s

/-- RTC_ADJUST with A0[0] = 1, a slew (R345). -/
def execRtcAdjustSlew (h : CmdHdr) (a0 a1 a2 : BitVec 64) (s : State) : Host.Outcome State Fault Refusal :=
  finish (fun s => if bitAt a0.toNat 0 then s.take 0x32 h (fun s => s.cmdRtcAdjust h a0 a1 a2) else s) s

/-- RTC_CTL_COMMIT (R342). -/
def execRtcCtlCommit (_p : Port) (v : BitVec 32) (s : State) : Host.Outcome State Fault Refusal :=
  finish (State.wrRtcCtl v) s

/-- RTC_CTL_STEP (R344). -/
def execRtcCtlStep (_p : Port) (v : BitVec 32) (s : State) : Host.Outcome State Fault Refusal :=
  finish (State.wrRtcCtl v) s

/-- RTC_CTL_CAPTURE (R346). -/
def execRtcCtlCapture (_p : Port) (v : BitVec 32) (s : State) : Host.Outcome State Fault Refusal :=
  finish (State.wrRtcCtl v) s

/-- RTC_SLEW (R345). -/
def execRtcSlew (_p : Port) (v : BitVec 32) (s : State) : Host.Outcome State Fault Refusal :=
  finish (State.wrRtcSlew v) s

/-- ALMCTL_ARM (R352). -/
def execAlmctlArm (p : Port) (v : BitVec 32) (s : State) : Host.Outcome State Fault Refusal :=
  finish (State.wrAlmctl (.port p) v) s

/-- ALMCTL_DISARM (R352). -/
def execAlmctlDisarm (p : Port) (v : BitVec 32) (s : State) : Host.Outcome State Fault Refusal :=
  finish (State.wrAlmctl (.port p) v) s

/-- TEMPERATURE_MEASUREMENT (R348): shown in RTC_TCTEMP; the correction enters C at the next tick edge. -/
def execTemperatureMeasurement (t : BitVec 16) (s : State) : Host.Outcome State Fault Refusal :=
  finish (fun s => if s.flag RTC_TCCFG_TCEN ∧ s.rtc.tcDue = 0 then
      (s.put RTC_TCTEMP_TEMP t.toNat).modRtc (fun r =>
        { r with tcorrNext := some (s.tempCorr t.toInt), tcDue := s.get RTC_TCCFG_INTERVAL * 32768 })
    else s) s

/-- TCCFG_WRITE (R348). -/
def execTccfgWrite (p : Port) (v : BitVec 32) (s : State) : Host.Outcome State Fault Refusal :=
  finish (State.wrTccfg (.port p) v) s

/-- TCHG_WRITE (R359). -/
def execTchgWrite (p : Port) (v : BitVec 32) (s : State) : Host.Outcome State Fault Refusal :=
  finish (State.wrTchg (.port p) v) s

/-- BKMODE_CHANGE (R356). -/
def execBkmodeChange (p : Port) (v : BitVec 32) (s : State) : Host.Outcome State Fault Refusal :=
  finish (State.wrBkcfg (.port p) v) s

/-- OSCILLATOR_STOP (R350): a stop bridged by substitution also sets STOPSUB. -/
def execOscillatorStop (s : State) : Host.Outcome State Fault Refusal :=
  finish (fun s =>
    let s := if s.flag PWR_STAT_LFSUB then s.setFlag RTC_STAT_STOPSUB true else s
    s.setOsf 1) s

/-- The timestamp slot of the real-time clock itself, which a slave's clock keeps too (R18, R357). -/
def State.rtcTs (s : State) : BitVec 64 := mkTs (!s.hfOn) (s.flag RTC_STAT_OSF) s.rtcKey

/-- PWRON_LOW (R357): 1 ms after PWR_CYCLE has completed, PWRON is driven low and OFFEND set. -/
def execPwronLow (s : State) : Host.Outcome State Fault Refusal :=
  finish (fun s => match s.rtc.cycle with
    | some o =>
      let s := s.reach (s.rtc.cycleAt + msCycles 1)
      let s := s.modRtc (fun r =>
        { r with cycle := none, offtime := o, lowAt := some s.exp.now, pwronLow := true, supplyFell := false })
      let offend := if o = 0 then 0 else shiftTs ((o.toNat : Int) * 2 ^ 16) s.rtcTs
      (s.setFlag RTC_PWRCTL_OFF true).showPwr offend
    | none => s) s

/-- PWR_CYCLE completes DONE: PWRON is driven low 1 ms later (R357). -/
def State.cycleDone (s : State) (off : BitVec 24) : State := s.modRtc (fun r => { r with cycle := some off, cycleAt := s.exp.now })

/-- The power cycle is void (R358): PWRON released, CYC 0, VOID set, and an event. -/
def State.voidCycle (s : State) : State :=
  let o := s.rtc.offtime
  let s := s.modRtc (fun r => { r with pwronLow := false, lowAt := none })
  let s := ((s.setFlag RTC_PWRCTL_OFF false).setFlag RTC_PWRCTL_CYC false).setFlag RTC_PWRCTL_VOID true
  (s.showPwr s.offend).event 0x0914 0 .momentary o.toNat 0 0

/-- The clock has reached OFFEND (R357). -/
def State.offendDue (s : State) : Bool := decide (s.rtc.offtime ≠ 0) && decide (tsKey s.offend ≤ s.rtcKey)

/-- OFFEND (R357): the clock has reached it, and PWRON is released; where the supplies have not fallen, the cycle is void (R358). -/
def execOffend (s : State) : Host.Outcome State Fault Refusal :=
  finish (fun s => if s.rtc.lowAt.isSome && s.offendDue then
      (if s.rtc.supplyFell then (if s.rtc.pwronLow then s.releasePwron else s) else s.voidCycle) else s) s

/-- VOID (R358): at OFFEND, or 1 s after t1 with OFFTIME 0, the supplies are still present, also where a wake source has released
PWRON before. -/
def execVoid (s : State) : Host.Outcome State Fault Refusal :=
  finish (fun s => match s.rtc.lowAt with
    | some t =>
      if s.rtc.supplyFell then s
      else if s.rtc.offtime = 0 then (s.reach (t + msCycles 1000)).voidCycle
      else if s.offendDue then s.voidCycle else s
    | none => s) s

end Sys2Proof.Machine
end

