-- ==== Sys2Proof/Machine/Proof.lean ====
section
/-!
DEFINITION. The ledger writer: bookkeeping in the backup domain (R253, R254), proofs (R246 to R252), restore and its accounting
(R255, R256), the journal (R260), the identity and the seal (R245, R262 to R264), the FRAM port (R244) and PWR_CYCLE (R357).
-/

namespace Sys2Proof.Machine

/-- Changes the ledger-writer state. -/
def State.modPrf (s : State) (f : PrfState → PrfState) : State := { s with prf := f s.prf }

/-! Bookkeeping (R253, R254) -/

/-- The bookkeeping is valid: written since the last backup-domain reset, with correct parity. -/
def State.bkValid (s : State) : Bool := s.rtc.bkValid && s.rtc.badParity.all (fun b => decide (32 ≤ b))

def State.bkLastseq (s : State) : BitVec 32 := s.rd (RTC_RAM 0)
def State.bkLastexp (s : State) : Nat := s.wide [RTC_RAM 1, RTC_RAM 2, RTC_RAM 3] % 2 ^ 72
/-- EPSTATE, STOPCAUSE and STOPPED of BK_STATE. -/
def State.bkState (s : State) : Nat := (s.rd (RTC_RAM 3)).toNat / 2 ^ 8 % 2 ^ 8
def State.bkStopts (s : State) : BitVec 64 := BitVec.ofNat 64 (s.wide [RTC_RAM 4, RTC_RAM 5])
def State.bkCurdelta (s : State) : Nat := (s.rd (RTC_RAM 6)).toNat
def State.bkStopped (s : State) : Bool := bitAt s.bkState 4

/-- Replaces BK_STATE; a write regenerates the parity of the byte (R355). -/
def State.setBkState (s : State) (v : Nat) : State :=
  let w := (s.rd (RTC_RAM 3)).toNat
  (s.wr (RTC_RAM 3) (BitVec.ofNat 32 (w - w / 2 ^ 8 % 2 ^ 8 * 2 ^ 8 + v % 2 ^ 8 * 2 ^ 8))).modRtc
    (fun r => { r with badParity := r.badParity.filter (· ≠ 13) })

/-- Saturation at 0xFFFF_FFFF. -/
def sat32 (x : Int) : Nat := (clampInt 0 0xFFFFFFFF x).toNat

/-- The first instant at which metering stops (R254): STOPCAUSE 0 power fail, 1 reset, 2 standby; a power fail also sets EPSTATE
to 1 in the same write. -/
def State.bkStop (s : State) (cause : Nat) : State :=
  let st := s.bkState
  let ep := if cause = 0 then 1 else st % 4
  if s.bkStopped then s.setBkState (st - st % 4 + ep)
  else
    let s := s.setBkState (ep + 4 * cause + 16)
    (s.putWide [RTC_RAM 4, RTC_RAM 5] s.ts.toNat).modRtc (fun r =>
      { r with badParity := r.badParity.filter (fun b => decide (b < 16 ∨ 24 ≤ b)) })

/-- BK_CURDELTA follows at a boundary: `cur` is the exposure then in progress (R253). -/
def State.bkBoundary (s : State) (cur : BitVec 72) : State :=
  if s.bkValid ∧ ¬ s.bkStopped then s.wr (RTC_RAM 6) (BitVec.ofNat 32 (sat32 ((cur.toNat : Int) - s.bkLastexp))) else s

/-- A completed proof is entered into the bookkeeping, in one write (R250). -/
def State.bkProof (s : State) (seq : BitVec 32) (e : BitVec 72) (emergency : Bool) : State :=
  let st := s.bkState
  let s := (s.wr (RTC_RAM 0) seq).putWide [RTC_RAM 1, RTC_RAM 2] (e.toNat % 2 ^ 64)
  let s := s.wr (RTC_RAM 3) (BitVec.ofNat 32 (e.toNat / 2 ^ 64 + (st - st % 4 + (if emergency then 2 else 0)) * 2 ^ 8))
  let s := s.wr (RTC_RAM 6) (BitVec.ofNat 32 (sat32 ((s.exp.cur.toNat : Int) - e.toNat)))
  s.modRtc (fun r => { r with bkValid := true, badParity := r.badParity.filter (fun b => decide (32 ≤ b)) })

/-! Journal (R260) -/

/-- The 64 bytes of a journal entry. -/
def JournalEntry.bytes (e : JournalEntry) (jseq : BitVec 32) : List (BitVec 8) :=
  let body := slotBytes ([BitVec.ofNat 64 (e.jkind.toNat + jseq.toNat * 2 ^ 32), e.ts] ++ slot128 e.expno.toNat ++
    [e.p0, e.p1, e.p2])
  body ++ bytesLE 8 (crc32c body)

/-- Writes one entry over the oldest. -/
def State.journalPut (s : State) (e : JournalEntry) : State :=
  (s.framWrite (0x3E000 + 64 * s.prf.jpos) (e.bytes s.prf.jseq)).modPrf (fun p =>
    { p with jseq := p.jseq + 1, jpos := (p.jpos + 1) % 128, lqDriven := true })

/-- Writes an entry synchronously: EXPNO is the newest exposure resolved, TS the instant of the act. -/
def State.journalNow (s : State) (kind : Nat) (p0 p1 p2 : Nat) : State :=
  s.journalPut { jkind := BitVec.ofNat 16 kind, ts := s.ts, expno := s.evt.newest, p0 := BitVec.ofNat 64 p0,
                 p1 := BitVec.ofNat 64 p1, p2 := BitVec.ofNat 64 p2 }

/-- An entry of the journal ring, when its CRC is right: its sequence, kind and P0. -/
def State.journalEntry (s : State) (i : Nat) : Option (Nat × Nat × Nat) :=
  let b := s.framBytes (0x3E000 + 64 * i) 64
  let crc := crc32c (b.take 56)
  if natLE ((b.drop 56).take 4) = crc ∧ natLE (b.take 2) ≠ 0 then
    some (natLE ((b.drop 4).take 4), natLE (b.take 2), natLE ((b.drop 32).take 8))
  else none

/-- a is newer than b in modulo-2^32 order. -/
def newer32 (a b : Nat) : Bool :=
  let d := (a + 2 ^ 32 - b) % 2 ^ 32
  decide (1 ≤ d) && decide (d ≤ 2 ^ 31 - 1)

/-- At start-up the journal continues behind its newest entry. -/
def State.journalLoad (s : State) : State :=
  let newest := (List.range 128).foldl (fun (best : Option (Nat × Nat)) i =>
    match s.journalEntry i with
    | some (q, _, _) => (match best with
      | some (_, bq) => if newer32 q bq then some (i, q) else best
      | none => some (i, q))
    | none => best) none
  match newest with
  | some (i, q) => s.modPrf (fun p => { p with jpos := (i + 1) % 128, jseq := BitVec.ofNat 32 (q + 1) })
  | none => s.modPrf (fun p => { p with jpos := 0, jseq := 0 })

/-- The highest AUDIT among the journal's unseal entries (R264). -/
def State.journalAudit (s : State) : Nat :=
  (List.range 128).foldl (fun m i => match s.journalEntry i with
    | some (_, k, a) => if k = 2 then max m a else m
    | none => m) 0

/-! Busy state of the writer and the check-value unit it claims -/

/-- The writer uses the FRAM: a proof is written or read back, or an identity is written. -/
def State.writerBusy (s : State) : Bool := s.prf.phase != .idle || !s.prf.idJobs.isEmpty

/-- LDG_STAT.BUSY follows. -/
def State.busyFlag (s : State) : State := s.setFlag LDG_STAT_BUSY s.writerBusy

/-- The writer releases its unit and is idle. -/
def State.writerIdle (s : State) : State :=
  let s := s.modPrf (fun p => { p with phase := .idle, job := none, record := none, attempt := 0 })
  let s := State.each 3 (fun u s => if s.flag (CVU_STAT_HELD u) then s.holdCvu u false else s) s
  (s.setFlag LDG_STAT_EPRUN false).busyFlag

/-! Proofs (R246 to R252) -/

/-- FRAM address of the proof slot of a sequence (R243, R246). -/
def proofSlot (seq : BitVec 32) : Nat := if seq.toNat % 2 = 0 then 0x31000 else 0x37800

/-- Body and trailer of a record in the FRAM. -/
def State.proofBytes (s : State) (r : LedgerRecord) : List (BitVec 8) := slotBytes (s.recordSlots r)

/-- The writer starts a proof (R247, R248): registers are copied, the unit is claimed and the body goes to the slot. -/
def State.proofBegin (s : State) (j : ProofJob) (flags : Nat) : State :=
  let all : BitVec 32 := 0xFFFFFFFF
  let r : LedgerRecord :=
    { kind := j.kind, expno := j.expno, ts := j.ts, flags := s.recordFlags all 0 ||| BitVec.ofNat 64 flags, mpmask := all,
      seq := s.prf.nextSeq, audit := s.ldg.audit, regs := s.recordRegs all j.frozen j.kept (fun _ => []), pinq := j.pinq }
  let s := s.modPrf (fun p => { p with phase := .writing, job := some j, record := some r, attempt := 1, lqDriven := true })
  let s := s.framWrite (proofSlot r.seq) ((s.proofBytes r).take 0x6540)
  ((s.holdCvu (s.get LDG_CTL_CVU) true).setFlag LDG_STAT_EPRUN (j.kind == 2)).busyFlag

/-- A proof due may start: every exposure it covers is resolved for every point (R46). -/
def State.coveredTo (s : State) (e : BitVec 72) : Bool :=
  s.exp.pipe.all (fun y => decide (e.toNat < y.slot.expno.toNat) || y.points.all (fun p => bitAt y.resolved.toNat p))

/-- Starts the oldest proof due when the writer is free. -/
def State.proofStart (s : State) : State :=
  match s.prf.due with
  | j :: rest =>
    if s.writerBusy ∨ ¬ (s.coveredTo j.expno ∨ j.frozen = 0xFFFFFFFF) then s else (s.modPrf (fun p => { p with due := rest })).proofBegin j 0
  | [] => s

/-- Completes the commands a proof serves. -/
def State.proofCommands (s : State) (j : ProofJob) (status seq : Nat) : State :=
  let s := j.cmds.foldl (fun s c => match s.waiting c .proofNow with
    | some t => s.done t status seq 0 0
    | none => s) s
  match j.cycle with
  | none => s
  | some c =>
    match s.taken.find? (fun t => decide (t.hdr.src = c) && (match t.wait with | .pwrCycle _ => true | _ => false)) with
    | some t =>
      let off := match t.wait with | .pwrCycle o => o | _ => 0
      let s := s.done t status seq 0 0
      if status = stDone then s.cycleDone off
      else (s.setFlag RTC_PWRCTL_CYC false).showPwr 0
    | none => s

/-- The proof is completed (R250). -/
def State.proofComplete (s : State) (j : ProofJob) (r : LedgerRecord) : State :=
  let s := (s.wr LDG_SEQ r.seq).putWide [LDG_LASTEXP_LO, LDG_LASTEXP_MID, LDG_LASTEXP_HI] r.expno.toNat
  let s := s.modPrf (fun p => { p with nextSeq := r.seq + 1 })
  ((s.bkProof r.seq r.expno (j.kind == 2)).writerIdle).proofCommands j stDone r.seq.toNat

/-- The trailer of the proof is written (R248, R249): completed, or read back. -/
def State.proofTrailer (s : State) : State :=
  match s.prf.phase, s.prf.job, s.prf.record with
  | .writing, some j, some r =>
    let s := s.framWrite (proofSlot r.seq) (s.proofBytes r)
    if j.kind ≠ 2 ∧ s.flag LDG_CTL_VERIFY then s.modPrf (fun p => { p with phase := .readback }) else s.proofComplete j r
  | _, _, _ => s

/-- The readback has ended (R249). -/
def State.proofReadback (s : State) (ok : Bool) : State :=
  match s.prf.phase, s.prf.job, s.prf.record with
  | .readback, some j, some r =>
    if ok then s.proofComplete j r
    else if s.prf.attempt < 2 then s.modPrf (fun p => { p with phase := .writing, attempt := 2 })
    else
      let s := (s.event 0x0901 (r.seq.toNat % 2) .momentary r.seq.toNat r.kind.toNat 0).bump LDG_PFAULT_PFAULT 1
      ((s.strike dLedger (r.seq.toNat % 2)).writerIdle).proofCommands j stFault r.seq.toNat
  | _, _, _ => s

/-- What a boundary that ends exposure n of the present run makes due (R248, R251, R86).  At the end of exposure 0 nothing is covered
yet: the registers of that boundary are taken, with EXPNO and TS 0 (log 129). -/
def State.proofBoundary (s : State) (n : BitVec 72) (ts : BitVec 64) (prev : Option (BitVec 72 × BitVec 64)) (stopping : Bool) :
    State :=
  let e : BitVec 72 := if n = 0 then 0 else n - 1
  let pint := max 1 (s.get LDG_CTL_PINT)
  let want := decide (n.toNat % pint = 0) || !s.prf.nowReq.isEmpty || s.prf.cycleReq.isSome
  let s := if (n ≠ 0 ∨ ¬ s.prf.nowReq.isEmpty ∨ s.prf.cycleReq.isSome) ∧ want then
      let j : ProofJob :=
        { kind := 1, expno := e, ts := if n = 0 then 0 else s.coverTs e prev, pinq := s.pio.pinq, cmds := s.prf.nowReq,
          cycle := s.prf.cycleReq, frozen := if n = 0 then 0xFFFFFFFF else 0, kept := if n = 0 then s.ldg.regs else [] }
      s.modPrf (fun p => { p with due := p.due ++ [j], nowReq := [], cycleReq := none })
    else s
  if stopping then
    let j : ProofJob :=
      { kind := 3, expno := n, ts := ts, pinq := s.pio.pinq, cmds := s.prf.nowReq, cycle := s.prf.cycleReq, frozen := 0,
        kept := [] }
    s.modPrf (fun p => { p with due := p.due ++ [j], nowReq := [], cycleReq := none })
  else s

/-! Restore (R255, R256) -/

/-- What a proof slot holds: none no valid proof; and whether it fails on SERIAL only. -/
def State.proofAt (s : State) (slot : Nat) : Option (List (BitVec 8)) × Bool :=
  let b := s.framBytes (if slot = 0 then 0x31000 else 0x37800) 0x6548
  let f (o n : Nat) := natLE ((b.drop o).take n)
  let sound := f 0 4 == 0x474C5644 && f 4 2 == 1 && [1, 2, 3].contains (f 6 1) && f 0x6540 4 == crc32c (b.take 0x6540)
  let mine := f 8 8 == s.wide [GLB_SERIAL_LO, GLB_SERIAL_HI]
  (if sound && mine then some b else none, sound && !mine)

/-- Number of the first exposure of the next run, and whether numbering jumps (R26, R256). -/
def State.firstNumber (s : State) : Nat × Bool :=
  let proof : Option Nat := s.prf.restored.map (fun r => r.1.toNat)
  let sat := s.bkCurdelta = 0xFFFFFFFF
  if s.bkValid ∧ ¬ sat then (max (s.bkLastexp + s.bkCurdelta) (proof.getD 0) + 1, false)
  else match proof with
    | some e => (e + 2 ^ 40, true)
    | none => if s.bkValid then (s.bkLastexp + 2 ^ 40, true) else (0, false)

/-- Loads the registers of a valid proof. -/
def State.loadProof (s : State) (b : List (BitVec 8)) : State :=
  let f (o n : Nat) := natLE ((b.drop o).take n)
  let e : BitVec 72 := BitVec.ofNat 72 (f 0x10 16)
  let ts : BitVec 64 := BitVec.ofNat 64 (f 0x20 8)
  let seq : BitVec 32 := BitVec.ofNat 32 (f 0x38 4)
  let slots := bytesToSlots 3241 b
  let val (o : Nat) : BitVec 108 := BitVec.ofNat 108 ((slots.getD (o / 8) 0).toNat + 2 ^ 64 * (slots.getD (o / 8 + 1) 0).toNat)
  let regs := (List.range 1600).filterMap (fun i => let v := val (0x40 + 16 * i); if v = 0 then none else some (i, v))
  let s := s.modLdg (fun l => { l with regs := regs, audit := BitVec.ofNat 32 (f 0x3C 4) })
  let s := { s with pio := { s.pio with pinq := (List.range 16).map (fun j => val (0x6440 + 16 * j)) } }
  let s := (s.wr LDG_SEQ seq).putWide [LDG_LASTEXP_LO, LDG_LASTEXP_MID, LDG_LASTEXP_HI] e.toNat
  (s.modPrf (fun p => { p with restored := some (e, ts, seq), nextSeq := seq + 1 })).modEvt (fun v => { v with newest := e })

/-- Both proof slots are read and the newest valid proof restored (R255). -/
def State.restoreProof (s : State) : State :=
  let (a, fa) := s.proofAt 0
  let (b, fb) := s.proofAt 1
  let seqOf (x : List (BitVec 8)) := natLE ((x.drop 0x38).take 4)
  let pick : Option (Nat × List (BitVec 8)) := match a, b with
    | some x, some y => if newer32 (seqOf y) (seqOf x) then some (1, y) else some (0, x)
    | some x, none => some (0, x)
    | none, some y => some (1, y)
    | none, none => none
  let zero := s.modLdg (fun l => { l with regs := [], audit := 0 })
  let zero := { zero with pio := { zero.pio with pinq := List.replicate 16 0 } }
  let zero := zero.modPrf (fun p => { p with
    restored := none, nextSeq := if s.bkValid then s.bkLastseq + 1 else 0, started := false })
  let s := match pick with | some (_, x) => zero.loadProof x | none => zero
  let seq := match pick with | some (_, x) => seqOf x | none => 0
  let bk := s.bkValid
  let last := s.bkLastseq.toNat
  let untrusted := (match s.prf.restored with | some (_, t, _) => bitAt t.toNat 60 | none => false) ||
    (bk && bitAt s.bkStopts.toNat 60)
  let kind := match pick with | some (_, x) => natLE ((x.drop 6).take 1) | none => 0
  let rst := pick.isNone.toNat + 2 * (fa || fb).toNat + 4 * (a.isNone || b.isNone).toNat +
    8 * (bk && pick.isSome && newer32 last seq).toNat + 16 * (pick.isSome && seq == (last + 1) % 2 ^ 32).toNat +
    32 * (!bk).toNat + 64 * (kind == 2).toNat + 128 * (s.bkState % 4 == 1).toNat + 256 * untrusted.toNat +
    512 * (if bk then s.bkState / 4 % 4 else 3)
  let s := s.wr LDG_RSTAT (BitVec.ofNat 32 rst)
  let s := State.each 32 (fun p s => s.wheld p) s
  let s := s.modExp (fun x => { x with next := BitVec.ofNat 72 s.firstNumber.1, lastEnded := none, lastResolved := none })
  let slot := match pick with | some (i, _) => i | none => 2
  s.event 0x0902 slot .momentary seq rst 0

/-- Metering starts (R254, R256): the first time after a restore the accounting is set and entered into the journal. -/
def State.startAccount (s : State) : State :=
  let s0 := s
  let s := if s.prf.started then s
    else
      let bk := s.bkValid
      let jump := s.firstNumber.2
      let lost := if !bk then 0
        else if s.bkCurdelta = 0xFFFFFFFF then 0xFFFFFFFF
        else sat32 (((s.firstNumber.1 : Int) - 1) - (match s.prf.restored with | some (e, _, _) => (e.toNat : Int) | none => -1))
      let gap := match s.prf.restored with | some (_, t, _) => tsDiff s.ts t | none => 0
      let stop := if bk then s.bkStopts.toNat else 0
      let s := ((s.wr LDG_RLOST (BitVec.ofNat 32 lost)).putWide [LDG_RGAP_LO, LDG_RGAP_HI] gap).putWide
        [LDG_RSTOP_LO, LDG_RSTOP_HI] stop
      let s := (s.setFlag LDG_RSTAT_ACCT true).setFlag LDG_RSTAT_NUMJUMP jump
      let s := if bitAt s.ts.toNat 60 then s.wr LDG_RSTAT (s.rd LDG_RSTAT ||| 0x100) else s
      let seq := match s.prf.restored with | some (_, _, q) => q.toNat | none => 0
      (s.modPrf (fun p => { p with started := true })).journalNow 1 seq gap (s.rd LDG_RSTAT).toNat
  let st := s0.bkState
  s.setBkState (st - st / 16 % 2 * 16)

/-! Identity and seal (R245, R262 to R264) -/

/-- AUDIT. -/
def State.sealAudit (s : State) : Nat := s.wide [LDG_AUDIT_LO, LDG_AUDIT_HI] % 2 ^ 36

/-- Writes an identity of the next generation into copy GEN mod 2. -/
def State.identityPut (s : State) (gen : BitVec 64) (unsealed : Bool) : State :=
  let n (x : Nat) := BitVec.ofNat 64 x
  let body := slotBytes [n (0x44495644 + 2 ^ 32), n (s.wide [GLB_SERIAL_LO, GLB_SERIAL_HI]), gen, n s.sealAudit, n unsealed.toNat, 0, 0]
  (s.framWrite (if gen.toNat % 2 = 0 then 0 else 0x800) (body ++ bytesLE 8 (crc32c body))).modPrf (fun p =>
    { p with gen := gen, lqDriven := true })

/-- An identity copy when it is valid: GEN, AUDIT, UNSEALED. -/
def State.identityAt (s : State) (c : Nat) : Option (Nat × Nat × Bool) :=
  let b := s.framBytes (0x800 * c) 64
  let f (o n : Nat) := natLE ((b.drop o).take n)
  if f 0 4 = 0x44495644 ∧ f 4 2 = 1 ∧ f 8 8 = s.wide [GLB_SERIAL_LO, GLB_SERIAL_HI] ∧ f 0x38 4 = crc32c (b.take 56) then
    some (f 0x10 8, f 0x18 8 % 2 ^ 36, bitAt (f 0x20 8) 0)
  else none

/-- Start-up decides the seal from the current identity and SEAL_N (R262): a device whose identity says unsealed while SEAL_N is
high seals itself with cause 2. -/
def State.startSeal (s : State) (unsealed : Bool) : State :=
  if unsealed ∧ ¬ s.prf.sealN then s.setFlag LDG_STAT_SEALED false
  else
    let s := s.setFlag LDG_STAT_SEALED true
    if unsealed then ((s.identityPut (s.prf.gen + 1) false).journalNow 3 2 0 0).event 0x0904 0 .momentary 2 0 0 else s

/-- The identity is read at start-up (R245, R264). -/
def State.restoreIdentity (s : State) : State :=
  let s := (s.setFlag LDG_STAT_SEALN s.prf.sealN).journalLoad
  let cur := match s.identityAt 0, s.identityAt 1 with
    | some a, some b => if a.1 < b.1 then some b else some a
    | some a, none => some a
    | none, b => b
  match cur with
  | some (g, a, u) =>
    ((s.putWide [LDG_AUDIT_LO, LDG_AUDIT_HI] a).modPrf (fun p => { p with gen := BitVec.ofNat 64 g })).startSeal u
  | none =>
    if s.bkValid ∨ (s.proofAt 0).1.isSome ∨ (s.proofAt 1).1.isSome then
      ((s.putWide [LDG_AUDIT_LO, LDG_AUDIT_HI] s.journalAudit).setFlag LDG_STAT_IDFLT true |>.setFlag LDG_STAT_SEALED true).event
        0x0907 0 .momentary 0 0 0
    else ((s.putWide [LDG_AUDIT_LO, LDG_AUDIT_HI] 0).identityPut 0 true).startSeal true

/-- The device seals itself at once; its identity is to be written (R262). -/
def State.sealNow (s : State) (cause : Nat) (src : Option CmdSrc) : State :=
  let s := (s.setFlag LDG_STAT_SEALED true).journalNow 3 cause 0 0
  let s := s.modPrf (fun p => { p with idJobs := p.idJobs ++ [.seal src (BitVec.ofNat 64 cause)] })
  (s.event 0x0904 0 .momentary cause 0 0).busyFlag

/-- SEAL (R262). -/
def State.cmdSeal (s : State) (h : CmdHdr) : State :=
  if s.sealed then s.complete 0x71 h stDone 0 0 0 else (s.keep 0x71 h .seal).sealNow 0 (some h.src)

/-- UNSEAL (R263). -/
def State.cmdUnseal (s : State) (h : CmdHdr) : State :=
  if s.prf.sealN ∨ s.flag PWR_STAT_ASBUSY then
    let s := (s.event 0x0905 0 .momentary s.prf.sealN.toNat 0 0).journalNow 4 s.sealAudit 0 0
    s.complete 0x72 h stRefused 0 0 0
  else if !s.sealed then s.complete 0x72 h stDone s.sealAudit 0 0
  else
    let s := s.putWide [LDG_AUDIT_LO, LDG_AUDIT_HI] ((s.sealAudit + 1) % 2 ^ 36)
    ((s.keep 0x72 h .unseal).modPrf (fun p => { p with idJobs := p.idJobs ++ [.unseal h.src] })).busyFlag

/-- An identity write completes, once no proof is being written (R262, R263). -/
def State.identityDone (s : State) : State :=
  if s.prf.phase ≠ .idle then s
  else match s.prf.idJobs with
    | [] => s
    | j :: rest =>
      let s := s.modPrf (fun p => { p with idJobs := rest })
      let s := match j with
        | .seal src _ =>
          let s := s.identityPut (s.prf.gen + 1) false
          (match src.bind (fun c => s.waiting c .seal) with
           | some t => s.done t stDone 0 0 0
           | none => s)
        | .unseal src =>
          let s := (s.identityPut (s.prf.gen + 1) true).journalNow 2 s.sealAudit 0 0
          let s := (s.setFlag LDG_STAT_SEALED false).event 0x0903 0 .momentary s.sealAudit 0 0
          (match s.waiting src .unseal with
           | some t => s.done t stDone s.sealAudit 0 0
           | none => s)
        | .fresh => s.identityPut 0 true
      s.busyFlag

/-! Commands -/

/-- PROOF_NOW (R251). -/
def State.cmdProofNow (s : State) (h : CmdHdr) : State :=
  if s.flag PWR_STAT_ASBUSY ∨ ¬ s.exp.running then s.complete 0x70 h stRefused 0 0 0
  else (s.keep 0x70 h .proofNow).modPrf (fun p => { p with nowReq := p.nowReq ++ [h.src] })

/-- PWR_CYCLE (R357). -/
def State.cmdPwrCycle (s : State) (h : CmdHdr) (a0 : BitVec 64) : State :=
  let off : BitVec 24 := a0.truncate 24
  if ¬ s.flag RTC_BKCFG_BKMODE ∨ s.flag RTC_PWRCTL_CYC then s.complete 0x61 h stRefused 0 0 0
  else if (0 < off.toNat ∧ off.toNat < 26) ∨ (off = 0 ∧ ¬ s.flag RTC_PWRCTL_ALMON ∧ ¬ s.flag RTC_PWRCTL_PERON) then
    s.complete 0x61 h stBadarg 0 0 0
  else
    let s := (s.setFlag RTC_PWRCTL_CYC true).showPwr 0
    if s.exp.running then (s.keep 0x61 h (.pwrCycle off)).modPrf (fun p => { p with cycleReq := some h.src })
    else (s.cycleDone off).complete 0x61 h stDone (s.get LDG_SEQ_SEQ) 0 0

/-! FRAM port (R244) -/

/-- Queues a read of a word; an earlier read not yet done is displaced. -/
def State.portRead (s : State) (a : Nat) : State :=
  (s.modPrf (fun p => { p with
    port := (p.port.filter (fun x => match x with | .read _ => false | .write _ _ => true)) ++ [.read a] })).setFlag
    LDG_FSTAT_RDY false

/-- ADDR advances by one word; the device's own write of this setting is followed by its reference entry (R417). -/
def State.portNext (s : State) : State :=
  let a := (s.get LDG_FADDR_ADDR + 1) % 2 ^ 16
  (s.wrSetting LDG_FADDR (withField (s.rd LDG_FADDR) LDG_FADDR_ADDR a)).portRead (4 * a)

/-- LDG_FADDR: starts a read of the word (R244). -/
def State.wrFaddr (w : WriteBy) (v : BitVec 32) (s : State) : State :=
  if s.writable w LDG_FADDR then
    let s := s.storeWrite w LDG_FADDR v
    s.portRead (4 * s.get LDG_FADDR_ADDR)
  else s

/-- A read of LDG_FDATA: the word, or 0 with EARLY; the next word is read.  From a power fail on it is 0 (R244). -/
def State.rdFdata (s : State) : State × BitVec 32 :=
  if ¬ s.pdOn 5 then (s, 0)
  else if s.flag PWR_STAT_PFAIL then (s.portNext, 0)
  else if s.flag LDG_FSTAT_RDY then (s.portNext, s.prf.portData)
  else ((s.setFlag LDG_FSTAT_EARLY true).portNext, 0)

/-- Words queued for writing. -/
def State.portWrites (s : State) : Nat :=
  (s.prf.port.filter (fun x => match x with | .write _ _ => true | .read _ => false)).length

/-- LDG_FDATA: the word is queued, or discarded with DENY (R244): outside an image slot, sealed, during autostart, from a power
fail on, or with 16 words queued.  The seal and autostart do not
block an image's own record (R259). -/
def State.wrFdata (w : WriteBy) (v : BitVec 32) (s : State) : State :=
  if ¬ s.pdOn 5 then s
  else
    let a := 4 * s.get LDG_FADDR_ADDR
    let free := decide (w = .image) || (!s.sealed && !s.flag PWR_STAT_ASBUSY)
    let ok := decide (0x1000 ≤ a) && decide (a < 0x31000) && free && !s.flag PWR_STAT_PFAIL && decide (s.portWrites < 16)
    let s := if ok then s.modPrf (fun p => { p with port := p.port ++ [.write a v] }) else s.setFlag LDG_FSTAT_DENY true
    (s.setFlag LDG_FSTAT_WFULL (decide (16 ≤ s.portWrites))).portNext

/-- The oldest port access completes once the writer leaves the FRAM (R244); after a power fail reads give 0 and a write is
discarded with DENY. -/
def State.portDone (s : State) : State :=
  if s.writerBusy then s
  else match s.prf.port with
    | [] => s
    | .read a :: t =>
      let v : BitVec 32 := if s.flag PWR_STAT_PFAIL then 0 else BitVec.ofNat 32 (s.framNat a 4)
      (s.modPrf (fun p => { p with port := t, portData := v, lqDriven := true })).setFlag LDG_FSTAT_RDY true
    | .write a v :: t =>
      let s := s.modPrf (fun p => { p with port := t, lqDriven := true })
      let s := if s.flag PWR_STAT_PFAIL then s.setFlag LDG_FSTAT_DENY true else s.framWrite a (bytesLE 4 v.toNat)
      s.setFlag LDG_FSTAT_WFULL (decide (16 ≤ s.portWrites))

/-! Meanings -/

/-- PROOF_NOW (R251). -/
def execProofNow (h : CmdHdr) (s : State) : Host.Outcome State Fault Refusal :=
  finish (fun s => s.take 0x70 h (fun s => s.cmdProofNow h)) s

/-- PWR_CYCLE (R357). -/
def execPwrCycle (h : CmdHdr) (a0 : BitVec 64) (s : State) : Host.Outcome State Fault Refusal :=
  finish (fun s => s.take 0x61 h (fun s => s.cmdPwrCycle h a0)) s

/-- SEAL (R262). -/
def execSeal (h : CmdHdr) (s : State) : Host.Outcome State Fault Refusal :=
  finish (fun s => s.take 0x71 h (fun s => s.cmdSeal h)) s

/-- UNSEAL (R263). -/
def execUnseal (h : CmdHdr) (s : State) : Host.Outcome State Fault Refusal :=
  finish (fun s => s.take 0x72 h (fun s => s.cmdUnseal h)) s

/-- IDENTITY_WRITE_DONE (R262). -/
def execIdentityWriteDone (s : State) : Host.Outcome State Fault Refusal := finish (fun s => s.identityDone) s

/-- SEAL_N (R262): the level after 10 ms of debounce. -/
def execSealN (high : Bool) (s : State) : Host.Outcome State Fault Refusal :=
  finish (fun s =>
    let s := s.modPrf (fun p => { p with sealN := high })
    if ¬ s.pdOn 5 then s
    else
      let s := s.setFlag LDG_STAT_SEALN high
      if high ∧ ¬ s.sealed then s.sealNow 1 none else s) s

/-- PROOF_WRITE_START (R248). -/
def execProofWriteStart (s : State) : Host.Outcome State Fault Refusal := finish (fun s => s.proofStart) s

/-- PROOF_WRITE_DONE (R249); the emergency proof has a row of its own. -/
def execProofWriteDone (s : State) : Host.Outcome State Fault Refusal :=
  finish (fun s => match s.prf.job with
    | some j => if j.kind = 2 then s else s.proofTrailer
    | none => s) s

/-- PROOF_READBACK_DONE (R249). -/
def execProofReadbackDone (ok : Bool) (s : State) : Host.Outcome State Fault Refusal :=
  finish (fun s => s.proofReadback ok) s

/-- JOURNAL_WRITE (R260): the oldest queued entry, behind any proof in progress. -/
def execJournalWrite (s : State) : Host.Outcome State Fault Refusal :=
  finish (fun s =>
    if s.writerBusy then s
    else match s.prf.journal with
      | e :: t => (s.modPrf (fun p => { p with journal := t })).journalPut e
      | [] => s) s

/-- LDG_FADDR_WRITE (R244). -/
def execLdgFaddrWrite (p : Port) (v : BitVec 32) (s : State) : Host.Outcome State Fault Refusal :=
  finish (State.wrFaddr (.port p) v) s

/-- LDG_FDATA_WRITE (R244). -/
def execLdgFdataWrite (p : Port) (v : BitVec 32) (s : State) : Host.Outcome State Fault Refusal :=
  finish (State.wrFdata (.port p) v) s

/-- FRAM_PORT_ACCESS_DONE (R244). -/
def execFramPortAccessDone (s : State) : Host.Outcome State Fault Refusal := finish (fun s => s.portDone) s

end Sys2Proof.Machine
end

