-- ==== Sys2Proof/Machine/Fcv.lean ====
section
/-!
DEFINITION. The fast converter: who holds it (R269 to R272), sequences (R273 to R275), self-calibration and its factors (R276, R277),
and contact sheets (R278 to R282).
-/

namespace Sys2Proof.Machine

/-- No conversion summed yet. -/
def ConvSum.zero : ConvSum := { n := 0, sum := 0, ovr := false, settle := false, uncal := false, at_ := 0 }

/-- A slot starts again from its beginning (R274). -/
def SlotRun.again (r : SlotRun) : SlotRun := { r with drop := 0, acc := ConvSum.zero }

/-- A change of the converter's state and, where it changes the owner, of its sampling: the new owner samples from the next FCLK edge
(R270), a slot that was interrupted starts again (R274), a capture that loses the converter drops its sample in progress and opens a
gap (R279), the windows of R268 end, and the first conversion of an owner that resumes, or that follows self-calibration or reception,
is a multiplexer change (R269). -/
def State.fcvDo (s : State) (f : FcvState → FcvState) : State :=
  let o := s.fcvOwner
  let t := s.modFcv f
  let n := t.fcvOwner
  let t := if n = o then t
    else t.modFcv (fun x => { x with
      muxLeft := 0, ovrLeft := 0, part := none, slot := x.slot.map SlotRun.again
      mux := if o ≤ 1 ∨ n ≤ 1 ∨ (n = 4 ∧ x.fill) then none else x.mux
      next := max x.next (25 * s.exp.now + 1)
      gap := x.gap || (x.fill && (o == 4 || o == 2))
      fill := x.fill || n == 4 || n == 2 })
  t.fcvShow

/-- An urgent conversion that reception interrupts: its result carries VALID = 0 (R272). -/
def State.urgentLost (s : State) : State :=
  if s.fcv.urgent then ((s.wr FCV_URGRES 0).setFlag FCV_URG_GO false).modFcv (fun f => { f with urgent := false, slot := none }) else s

/-! Conversions (R266 to R268) -/

/-- V of R267 in sixteenths of a nanovolt (nanodegree for the die temperature), from what the converter samples. -/
def sourceV (input sub : Nat) (v : Int) : Int :=
  let ref : Int := 16 * 800000000
  if input = 0 ∨ input = 6 then 16 * v
  else if input ≠ 7 then 16 * v - ref
  else match sub with
    | 0 => 16 * v - ref
    | 1 => 8 * v - ref
    | 2 => 4 * v - ref
    | 3 => v - ref
    | 4 => 4 * v - ref
    | 5 => 16 * v
    | 6 => 16 * 600000000 - ref
    | _ => -ref

/-- c = round(k × V) of R267, half away from zero, exact up to codes of 14 bits beyond the sign and at that limit above them:
k = 10,240 × 10^(3 PGA / 10) behind the PGA, 32 per °C for the die temperature, else 10,240. -/
def exactCode (input sub pga : Nat) (v : Int) : Int :=
  let x := sourceV input sub v
  let k := if input = 6 then 32 else 10240
  let p := if input = 0 then pga else 0
  let fits (c : Nat) : Bool := decide ((((2 * c - 1) * 16000000000) ^ 10) ≤ ((2 * k * x.natAbs) ^ 10) * 10 ^ (3 * p))
  let c := (List.range 14).foldl (fun c i => if fits (c + 2 ^ (13 - i)) then c + 2 ^ (13 - i) else c) 0
  if x < 0 then -(c : Int) else c

/-- A conversion with its flags, its FCLK time, and whether a multiplexer change precedes it. -/
structure Tagged where
  value : Int
  ovr : Bool
  settle : Bool
  uncal : Bool
  at_ : Nat
  change : Bool
  deriving DecidableEq, Repr

/-- The converter's next sampling edge, under an input, sub-input and gain (R267, R268). -/
def State.convert (s : State) (input sub pga : Nat) (v : Int) : State × Tagged :=
  let f := s.fcv
  let sel := some (input, sub, pga)
  let c := exactCode input sub pga v
  let o := decide (8191 < c) || decide (c < -8192)
  let change := f.mux != sel
  let left := if change then 2 else f.muxLeft
  let x : Tagged :=
    { value := clampInt (-8192) 8191 c, ovr := o, settle := decide (0 < left) || (decide (0 < f.ovrLeft) && !o),
      uncal := s.flag FCV_STAT_UNCAL, at_ := f.next, change := change }
  (((s.reach (f.next / 25)).modFcv (fun f => { f with
      mux := sel, muxLeft := left - 1, ovrLeft := if o then 4 else f.ovrLeft - 1, next := f.next + 1 })), x)

/-- A conversion enters a sum. -/
def ConvSum.add (a : ConvSum) (x : Tagged) : ConvSum :=
  { n := a.n + 1, sum := a.sum + x.value, ovr := a.ovr || x.ovr, settle := a.settle || x.settle, uncal := a.uncal || x.uncal,
    at_ := if a.n = 0 then x.at_ else a.at_ }

/-- A result word (R275). -/
def resultWord (valid uncal ovr settle : Bool) (pga sub input : Nat) (value : Int) : BitVec 32 :=
  BitVec.ofNat 32 (unsignedOf 16 value + input * 2 ^ 16 + sub * 2 ^ 19 + pga * 2 ^ 22 + settle.toNat * 2 ^ 25 +
    ovr.toNat * 2 ^ 26 + uncal.toNat * 2 ^ 27 + valid.toNat * 2 ^ 28)

/-- The result of a slot whose conversions are all summed (R274). -/
def SlotRun.word (r : SlotRun) : BitVec 32 :=
  resultWord true r.acc.uncal r.acc.ovr r.acc.settle r.pga r.sub r.input (roundDiv (4 * r.acc.sum) (2 ^ r.avg))

/-- One conversion for the slot in progress (R274): after a multiplexer change the 2 SETTLE conversions are discarded with SKIP = 1.
Answers the slot's result once it is complete. -/
def State.slotConv (s : State) (v : Int) : State × Option (BitVec 32) :=
  match s.fcv.slot with
  | none => (s, none)
  | some r =>
    let (s, x) := s.convert r.input r.sub r.pga v
    let drop := if x.change && r.skip then 2 else r.drop
    if 0 < drop then (s.modFcv (fun f => { f with slot := some { r with drop := drop - 1 } }), none)
    else
      let r := { r with drop := 0, acc := r.acc.add x }
      if r.acc.n < 2 ^ r.avg then (s.modFcv (fun f => { f with slot := some r }), none)
      else ((s.modFcv (fun f => { f with slot := none })).reach ((s.fcv.next + 10) / 25), some r.word)

/-- The settings of a slot of a sequence, as it begins. -/
def State.seqSlot (s : State) (q i : Nat) : SlotRun :=
  { avg := s.get (FCV_SLOT_AVG q i), skip := s.flag (FCV_SLOT_SKIP q i), pga := s.get (FCV_SLOT_PGA q i),
    sub := s.get (FCV_SLOT_SUB q i), input := s.get (FCV_SLOT_INPUT q i), drop := 0, acc := ConvSum.zero }

/-- The settings of an urgent conversion, as it begins (R272). -/
def State.urgentSlot (s : State) : SlotRun :=
  { avg := s.get FCV_URG_AVG, skip := s.flag FCV_URG_SKIP, pga := s.get FCV_URG_PGA, sub := s.get FCV_URG_SUB,
    input := s.get FCV_URG_INPUT, drop := 0, acc := ConvSum.zero }

/-! Sequence runs (R273, R275) -/

/-- Inserts a due run in ascending sequence order, behind those of the same sequence (R270). -/
def insertRun (r : SeqRun) : List SeqRun → List SeqRun
  | [] => [r]
  | x :: t => if x.s ≤ r.s then x :: insertRun r t else r :: x :: t

/-- At a boundary that ends exposure n, periodic runs fall due; one still waiting is skipped and replaced (R273). -/
def State.seqBoundary (s : State) (n : BitVec 72) : State :=
  if ¬ s.pdOn 6 then s
  else State.each 4 (fun q s =>
    let per := s.get (FCV_SEQCFG_PER q)
    if per = 0 ∨ n.toNat % per ≠ 0 then s
    else
      let waiting := s.fcv.due.any (fun r => r.s == q && r.cmd.isNone)
      let s := if waiting then
          let s := s.bump (FCV_SEQSKIP_SKIP q) 1
          s.event 0x0706 q .momentary (s.get (FCV_SEQSKIP_SKIP q)) 0 0
        else s
      let r : SeqRun := { s := q, cmd := none, started := false, tsFirst := 0, seq := 0, nslot := 0, idx := 0 }
      s.modFcv (fun f => { f with due := insertRun r (f.due.filter (fun x => !(x.s == q && x.cmd.isNone))) })) s

/-- FCV_SEQ (R275). -/
def State.cmdFcvSeq (s : State) (h : CmdHdr) (a0 a1 : BitVec 64) : State :=
  let q := a0.toNat % 256
  if 3 < q ∨ a1.toNat % 64 ≠ 0 ∨ windowBad h a1.toNat 144 then s.complete 0x41 h stBadarg 0 0 0
  else if ¬ s.pdOn 6 ∨ s.asBusyFor h then s.complete 0x41 h stRefused 0 0 0
  else
    let r : SeqRun := { s := q, cmd := some (h.src, a1), started := false, tsFirst := 0, seq := 0, nslot := 0, idx := 0 }
    (s.keep 0x41 h .fcvSeq).modFcv (fun f => { f with due := insertRun r f.due })

/-- The lowest run due starts when no higher owner holds the converter (R269, R270); slots beyond NSLOT read 0 (R275). -/
def State.runStart (s : State) (q : Nat) : State :=
  match s.fcv.due with
  | r :: rest =>
    if r.s ≠ q ∨ s.fcv.run.isSome ∨ ¬ (s.fcvOwner = 4 ∨ s.fcvOwner = 7) then s
    else
      let n := s.get (FCV_SEQCFG_NSLOT q)
      let s := State.each 16 (fun i s => if i < n then s else s.wr (FCV_RES q i) 0) s
      let run := { r with started := true, tsFirst := s.ts, seq := s.fcv.runSeq.getD q 0, nslot := n, idx := 0 }
      s.fcvDo (fun f => { f with due := rest, run := some run, slot := some (s.seqSlot q 0),
                                 runSeq := f.runSeq.set q (run.seq + 1) })
  | [] => s

/-- A command's run is withdrawn: due or in progress, where it stops at once and the slots that did not complete read 0 (R275). -/
def State.runDrop (s : State) (src : CmdSrc) : State :=
  let mine (r : SeqRun) : Bool := match r.cmd with | some (c, _) => decide (c = src) | none => false
  let s := match s.fcv.run with
    | some r =>
      if mine r then
        (State.each 16 (fun i s => if i < r.idx then s else s.wr (FCV_RES r.s i) 0) s).fcvDo
          (fun f => { f with run := none, slot := none })
      else s
    | none => s
  s.modFcv (fun f => { f with due := f.due.filter (fun r => !mine r) })

/-- Every slot of the run has completed (R275): the block of a run started by FCV_SEQ is written and the command completes. -/
def State.runFinish (s : State) (r : SeqRun) : State :=
  let s := s.fcvDo (fun f => { f with run := none, next := f.next + 11 })
  match r.cmd with
  | none => s
  | some (src, addr) =>
    match s.waiting src .fcvSeq with
    | none => s
    | some t =>
      let block := [r.tsFirst, r.seq] ++ (List.range 16).map (fun i => (s.rd (FCV_RES r.s i)).zeroExtend 64)
      let (s, ok) := s.cmdWrite t.hdr addr.toNat block
      s.done t (if ok then stDone else stFault) r.seq.toNat 0 0

/-- The deadline of a run's command has passed (R38). -/
def State.runLate (s : State) (r : SeqRun) : Option Taken :=
  match r.cmd with
  | some (src, _) => (s.waiting src .fcvSeq).filter (fun t => t.hdr.dlv && s.lateFor t.hdr.deadline)
  | none => none

/-- One conversion of the run in progress (R274, R275): a slot's result is written as the slot completes; one that would complete after
the command's deadline does not, and the run stops. -/
def State.runConv (s : State) (v : Int) : State :=
  match s.slotConv v with
  | (s, none) => s
  | (s, some w) =>
    match s.fcv.run with
    | none => s
    | some r =>
      match s.runLate r with
      | some t => (s.runDrop t.hdr.src).done t stDeadline 0 0 0
      | none =>
        let r' := { r with idx := r.idx + 1 }
        let s := (s.wr (FCV_RES r.s r.idx) w).modFcv (fun f => { f with run := some r' })
        if r'.idx < r'.nslot then s.modFcv (fun f => { f with slot := some (s.seqSlot r.s r'.idx) }) else s.runFinish r'

/-- One conversion of the urgent conversion in progress (R272). -/
def State.urgentConv (s : State) (v : Int) : State :=
  match s.slotConv v with
  | (s, none) => s
  | (s, some w) =>
    ((s.wr FCV_URGRES w).setFlag FCV_URG_GO false).fcvDo (fun f => { f with urgent := false, next := f.next + 11 })

/-! Self-calibration (R276, R277) -/

/-- FCV_CAL (R276). -/
def State.cmdFcvCal (s : State) (h : CmdHdr) : State :=
  if ¬ s.pdOn 6 ∨ s.fcv.cal.isSome then s.complete 0x40 h stRefused 0 0 0
  else (s.keep 0x40 h .fcvCal).fcvDo (fun f => { f with cal := some h.src, calAt := 25 * s.exp.now + 1 })

/-- Self-calibration ends, 1,048,576 FCLK cycles after it took the converter (R276): the die temperature, the factors, and the index
of the first factor out of range. -/
def State.fcvCalEnd (s : State) (temp : BitVec 16) (factors : List (BitVec 24)) (bad : Option Nat) : State :=
  match s.fcv.cal with
  | none => s
  | some src =>
    let s := s.reach ((s.fcv.calAt + 1048576) / 25)
    let s := s.put FCV_CALTEMP_CALTEMP temp.toNat
    let s := match bad with
      | none =>
        let s := State.each 24 (fun i s => s.put (FCV_CALF_CALF i) (factors.getD i 0).toNat) s
        (s.setFlag FCV_STAT_UNCAL false).event 0x0704 0 .momentary (temp.signExtend 64).toNat 0 0
      | some i => s.event 0x0705 0 .momentary i 0 0
    let s := s.fcvDo (fun f => { f with cal := none })
    match s.waiting src .fcvCal with
    | some t => s.done t (if bad.isSome then stFault else stDone) temp.toNat 0 0
    | none => s

/-- FCV_CALCTL: LOAD stays 1 until the factors are applied (R277). -/
def State.wrCalctl (w : WriteBy) (v : BitVec 32) (s : State) : State :=
  if bitAt v.toNat 0 ∧ s.writable w FCV_CALCTL then s.setFlag FCV_CALCTL_LOAD true else s

/-- The factors are applied at the first FCLK edge without reception and without a triggered capture (R277). -/
def State.loadApply (s : State) : State :=
  if s.flag FCV_CALCTL_LOAD ∧ s.fcvOwner ≠ 1 ∧ s.fcvOwner ≠ 2 then
    (s.setFlag FCV_STAT_UNCAL false).setFlag FCV_CALCTL_LOAD false
  else s

/-! Urgent conversions (R272) -/

/-- FCV_URG: the settings are written; GO requests an urgent conversion, taken from idle or dropped. -/
def State.wrUrg (w : WriteBy) (v : BitVec 32) (s : State) : State :=
  if ¬ s.writable w FCV_URG then s
  else
    let s := s.storeWrite w FCV_URG v
    if ¬ bitAt v.toNat 31 then s
    else
      let o := s.fcvOwner
      if o = 7 then (s.setFlag FCV_URG_GO true).fcvDo (fun f => { f with urgent := true, slot := some s.urgentSlot })
      else
        let q := if o = 3 then (match s.fcv.run with | some r => r.s | none => 0) else 0
        ((s.setFlag FCV_URG_GO false).bump FCV_URGDROP_URGDROP 1).event 0x0701 (s.get FCV_URG_INPUT) .momentary o q 0

/-! Contact sheets (R278 to R282) -/

/-- A VALUE of a contact-sheet sample word. -/
def CsSample.value (x : CsSample) : Int := signedOf 14 (x.word.toNat / 4)

/-- The level trigger of R280: a sample without SETTLE that reaches LEVEL, the sample before it lying on the other side. -/
def State.levelHit (s : State) (prev : Option CsSample) (x : CsSample) : Bool :=
  let l := signedOf 14 (s.get FCV_CSLVL_LEVEL)
  s.flag FCV_CSLVL_LEN && !bitAt x.word.toNat 0 && (match prev with
    | some p =>
      if s.flag FCV_CSLVL_SLOPE then decide (x.value ≤ l) && decide (l < p.value) else decide (l ≤ x.value) && decide (p.value < l)
    | none => false)

/-- A sample is in the buffer (R278 to R281): before the trigger it joins the ring, where the newest 65,536 stay; from the trigger on
the post-trigger part, whose last sample completes the record. -/
def State.sheetSample (s : State) (x : CsSample) : State :=
  let hit := s.levelHit (match s.fcv.post.getLast? with | some p => some p | none => s.fcv.ring.getLast?) x
  let before := match s.fcv.trig with | some t => decide (x.at_ < t.at_) | none => false
  let s := if hit && !before then s.sheetTrigger 4 1 0 0 0 x.at_ else s
  match s.fcv.cs, s.fcv.trig with
  | .post, some t =>
    if x.at_ < t.at_ then s.modFcv (fun f => { f with ring := f.ring ++ [x] })
    else
      let s := s.modFcv (fun f => { f with post := f.post ++ [x] })
      if s.fcv.post.length < 65536 - t.pre then s.fcvShow else s.fcvDo (fun f => { f with cs := .held })
  | .armed, _ =>
    s.modFcv (fun f => { f with ring := (f.ring ++ [x]).drop (f.ring.length - 65535) })
  | _, _ => s

/-- One conversion of the capture (R278): 2^D of them make a sample. -/
def State.sheetConv (s : State) (v : Int) : State :=
  let (s, x) := s.convert (s.get FCV_CSCTL_INPUT) (s.get FCV_CSCTL_SUB) (s.get FCV_CSCTL_PGA) v
  let d := s.get FCV_CSCTL_DEC
  let a := (s.fcv.part.getD ConvSum.zero).add x
  if a.n < 2 ^ d then s.modFcv (fun f => { f with part := some a })
  else
    let word := unsignedOf 14 (roundDiv a.sum (2 ^ d)) * 4 + a.ovr.toNat * 2 + a.settle.toNat
    let y : CsSample :=
      { word := BitVec.ofNat 16 word, uncal := a.uncal, ts := s.tsAt (a.at_ / 25 * 65536), fine := a.at_ % 25, at_ := a.at_,
        gap := s.fcv.gap }
    (s.modFcv (fun f => { f with part := none, gap := false })).sheetSample y

/-- Conversions taken by the owner of the converter, where it is one of `owners`, on its consecutive sampling edges (R266). -/
def State.fcvFeed (owners : List Nat) (convs : List Conv) (s : State) : State :=
  convs.foldl (fun s v =>
    let o := s.fcvOwner
    if !owners.contains o then s
    else if o = 3 then s.runConv v
    else if o = 5 then s.urgentConv v
    else s.sheetConv v) s

/-- FCV_CSCTL: input settings hold while armed or held; ARM arms or ends the armed state; FORCE triggers (R279, R280). -/
def State.wrCsctl (w : WriteBy) (v : BitVec 32) (s : State) : State :=
  if ¬ s.writable w FCV_CSCTL then s
  else
    let fixed := s.flag FCV_CSCTL_ARM || s.fcv.cs == .held
    let old := (s.rd FCV_CSCTL).toNat
    let v' := if fixed then (old &&& 0x1FFFF) + (v.toNat &&& 0x60000000) else v.toNat &&& 0x6001FFFF
    let s := s.storeWrite w FCV_CSCTL (BitVec.ofNat 32 v')
    let s := if s.flag FCV_CSCTL_ARM then (if s.fcv.cs = .off then
          s.fcvDo (fun f => { f with cs := .armed, fill := false, gap := false, part := none, ring := [], post := [] })
        else s)
      else if s.fcv.cs = .armed then s.fcvDo (fun f => { f with cs := .off }) else s
    if bitAt v.toNat 31 then s.sheetTrigger 5 2 0 0 0 (25 * s.exp.now) else s

/-- FCV_CSTRGk: a write that would enable a code not marked C leaves the whole slot unchanged (R280). -/
def State.wrCstrg (w : WriteBy) (k : Nat) (v : BitVec 32) (s : State) : State :=
  if bitAt v.toNat 31 ∧ ¬ sheetCodes.contains (v.toNat % 2 ^ 16) then s else s.storeWrite w (FCV_CSTRG k) v

/-- Places of the samples, but for the first, at which a gap ends (R282). -/
def gapPlaces (l : List CsSample) : List Nat :=
  (List.range l.length).filter (fun i => decide (0 < i) && (match l[i]? with | some x => x.gap | none => false))

/-- The pre-trigger samples of the record (R281): the newest PRE, from the first sample after the ninth gap before the trigger on;
whether that gap cut them. -/
def preSamples (pre : Nat) (ring post : List CsSample) : List CsSample × Bool :=
  let l := ring.drop (ring.length - pre)
  let gs := gapPlaces (l ++ post.take 1)
  if 8 < gs.length then (l.drop (gs.getD (gs.length - 9) 0), true) else (l, false)

/-- The header of a contact-sheet record (R282) with pre-trigger samples `pre`. -/
def State.sheetHeader (s : State) (t : CsTrig) (pre : List CsSample) (cut : Bool) : List (BitVec 64) :=
  let n (v : Nat) := BitVec.ofNat 64 v
  let all := pre ++ s.fcv.post
  let any (b : Nat) := all.any (fun w => bitAt w.word.toNat b)
  let places := gapPlaces all
  let stamp (x : Option CsSample) : BitVec 64 × Nat := match x with | some x => (x.ts, x.fine) | none => (0, 0)
  let first := stamp all.head?
  let post := stamp s.fcv.post.head?
  let gaps := (List.range 8).flatMap (fun i => match places[i]? with
    | some g => [n (g + (stamp all[g]?).2 * 2 ^ 32), (stamp all[g]?).1]
    | none => [0, 0])
  [n (1 + s.get FCV_CSCTL_INPUT * 2 ^ 8 + s.get FCV_CSCTL_SUB * 2 ^ 11 + s.get FCV_CSCTL_PGA * 2 ^ 14 +
      s.get FCV_CSCTL_DEC * 2 ^ 20), t.seq] ++ slot128 t.expno.toNat ++
    [t.ts, n (t.code.toNat + t.index.toNat * 2 ^ 16 + t.source.toNat * 2 ^ 24 + t.evseq.toNat % 2 ^ 32 * 2 ^ 32),
     first.1, n first.2, post.1, n post.2, n all.length, n pre.length,
     n (t.delayed.toNat + 2 * (all.any CsSample.uncal).toNat + 4 * (any 1).toNat + 8 * (any 0).toNat +
        16 * (cut || decide (8 < places.length)).toNat + 32 * s.fcv.discarded.toNat), n (min 8 places.length), 0, 0] ++ gaps

/-- A sample of the held record, by its place in it, that a memory error destroyed carries OVR and SETTLE (R420). -/
def State.sheetHurt (s : State) (i : Nat) : State :=
  let hurt (x : CsSample) : CsSample := { x with word := x.word ||| 3 }
  let n := (preSamples (match s.fcv.trig with | some t => t.pre | none => 0) s.fcv.ring s.fcv.post).1.length
  s.modFcv (fun f =>
    if i < n then { f with ring := f.ring.modify (f.ring.length - n + i) hurt } else { f with post := f.post.modify (i - n) hurt })

/-- The held record goes to the next FCAP descriptor; AUTO re-arms the capture (R281). -/
def State.sheetWrite (s : State) : State :=
  match s.fcv.cs, s.fcv.trig with
  | .held, some t =>
    let (pre, cut) := preSamples t.pre s.fcv.ring s.fcv.post
    let bytes := (pre ++ s.fcv.post).flatMap (fun w => bytesLE 2 w.word.toNat)
    let len := 256 + bytes.length
    let (s, ok) := s.skipShort 11 len 1 t.expno t.ts ((s.ring 11).posted.length + 1)
    if ok then
      match (s.ring 11).posted with
      | b :: _ =>
        let s := (s.hostWrite (.mem b.addr (s.sheetHeader t pre cut))).hostWrite (.bytes (b.addr + 256) bytes)
        let s := s.returnBuf 11 len 0 1 t.expno t.ts
        let again := s.flag FCV_CSCTL_AUTO && s.flag FCV_CSCTL_ARM
        let s := s.fcvDo (fun f => { f with
          cs := if again then .armed else .off, trig := none, fill := false, gap := false, part := none, ring := [], post := []
          discarded := false })
        if again then s else s.setFlag FCV_CSCTL_ARM false
      | [] => s
    else s
  | _, _ => s

/-- The capture ends at a change of state; a held record is discarded (R279). -/
def State.sheetDrop (s : State) : State :=
  let s := if s.fcv.cs = .held then
      let q := match s.fcv.trig with | some t => t.seq.toNat | none => 0
      ((s.bump FCV_CSMISS_CSMISS 1).event 0x0703 0 .momentary q 0 0).modFcv (fun f => { f with discarded := true })
    else s
  if s.fcv.cs = .off then s
  else
    (s.setFlag FCV_CSCTL_ARM false).fcvDo (fun f => { f with cs := .off, trig := none, fill := false, gap := false, part := none,
                                                             ring := [], post := [] })

/-- PD6 is about to be switched off: sequences and captures stop (R86, R279), and commands on the converter end ABORTED (log 23). -/
def State.fcvStop (s : State) : State :=
  let s := s.sheetDrop
  let s := s.doneAll (fun t => t.wait == Wait.fcvSeq || t.wait == Wait.fcvCal) stAborted (fun _ => (0, 0, 0))
  s.urgentLost.modFcv (fun f => { FcvState.reset with discarded := f.discarded })

/-! Reception (R269, R44) -/

/-- The baseband requests reception: refused during self-calibration.  Answers whether it took the converter. -/
def State.receive (s : State) : State × Bool :=
  if s.fcv.cal.isSome then (s, false)
  else (s.urgentLost.fcvDo (fun f => { f with reception := true }), true)

/-- Reception releases the converter. -/
def State.receiveEnd (s : State) : State := s.fcvDo (fun f => { f with reception := false })

/-! Meanings -/

/-- FCV_CAL (R276). -/
def execFcvCal (h : CmdHdr) (s : State) : Host.Outcome State Fault Refusal :=
  finish (fun s => s.take 0x40 h (fun s => s.cmdFcvCal h)) s

/-- FCV_CAL_DONE (R276). -/
def execFcvCalDone (temp : BitVec 16) (factors : List (BitVec 24)) (bad : Option Nat) (s : State) :
    Host.Outcome State Fault Refusal := finish (fun s => s.fcvCalEnd temp factors bad) s

/-- FCV_SEQ (R275). -/
def execFcvSeq (h : CmdHdr) (a0 a1 : BitVec 64) (s : State) : Host.Outcome State Fault Refusal :=
  finish (fun s => s.take 0x41 h (fun s => s.cmdFcvSeq h a0 a1)) s

/-- SEQUENCE_RUN (R273). -/
def execSequenceRun (q : Nat) (s : State) : Host.Outcome State Fault Refusal := finish (fun s => s.runStart q) s

/-- SEQUENCE_RUN_END (R275): conversions of the run in progress, which ends when they complete its last slot. -/
def execSequenceRunEnd (convs : List Conv) (s : State) : Host.Outcome State Fault Refusal :=
  finish (State.fcvFeed [3] convs) s

/-- URGENT_CONVERSION (R272). -/
def execUrgentConversion (p : Port) (v : BitVec 32) (s : State) : Host.Outcome State Fault Refusal :=
  finish (State.wrUrg (.port p) v) s

/-- URGENT_CONVERSION_DONE (R272). -/
def execUrgentConversionDone (convs : List Conv) (s : State) : Host.Outcome State Fault Refusal :=
  finish (State.fcvFeed [5] convs) s

/-- LOAD (R277). -/
def execLoad (p : Port) (v : BitVec 32) (s : State) : Host.Outcome State Fault Refusal :=
  finish (State.wrCalctl (.port p) v) s

/-- LOAD_APPLIED (R277). -/
def execLoadApplied (s : State) : Host.Outcome State Fault Refusal := finish (fun s => s.loadApply) s

/-- CS_ARM (R279). -/
def execCsArm (p : Port) (v : BitVec 32) (s : State) : Host.Outcome State Fault Refusal :=
  finish (State.wrCsctl (.port p) v) s

/-- CS_DISARM (R279). -/
def execCsDisarm (p : Port) (v : BitVec 32) (s : State) : Host.Outcome State Fault Refusal :=
  finish (State.wrCsctl (.port p) v) s

/-- FORCE (R280). -/
def execForce (p : Port) (v : BitVec 32) (s : State) : Host.Outcome State Fault Refusal :=
  finish (State.wrCsctl (.port p) v) s

/-- CAPTURE_TRIGGER (R280): conversions of the armed fill up to and from its trigger.  A level crossing among them triggers; a
selected event triggered at its decision (`State.sheetNow`), and the samples from that instant on belong to the post-trigger part. -/
def execCaptureTrigger (convs : List Conv) (s : State) : Host.Outcome State Fault Refusal :=
  finish (State.fcvFeed [4, 2] convs) s

/-- POST_TRIGGER_COMPLETE (R281): conversions of the triggered capture, whose record is held once they complete it. -/
def execPostTriggerComplete (convs : List Conv) (s : State) : Host.Outcome State Fault Refusal :=
  finish (State.fcvFeed [2] convs) s

/-- FCAP_RECORD_WRITE (R281). -/
def execFcapRecordWrite (s : State) : Host.Outcome State Fault Refusal := finish (fun s => s.sheetWrite) s

end Sys2Proof.Machine
end

