-- ==== Sys2Proof/Machine/Cipher.lean ====
section
/-!
DEFINITION. AES-128 in CCM mode as NIST SP 800-38C has it, with the parameters of R310, and SipHash-2-4 over the eight bytes of
a node ID (R326).
-/

namespace Sys2Proof.Machine

/-! AES-128 -/

/-- Product in GF(2^8) modulo x^8 + x^4 + x^3 + x + 1. -/
def gfMul (a b : BitVec 8) : BitVec 8 :=
  ((List.range 8).foldl (fun (x : BitVec 8 × BitVec 8) i =>
    (if b.getLsbD i then x.1 ^^^ x.2 else x.1, (x.2 <<< 1) ^^^ (if x.2.msb then 0x1B else 0))) (0, a)).1

/-- The inverse in GF(2^8), 0 for 0: the 254th power. -/
def gfInv (a : BitVec 8) : BitVec 8 :=
  let p2 := gfMul a a
  let p4 := gfMul p2 p2
  let p8 := gfMul p4 p4
  let p16 := gfMul p8 p8
  let p32 := gfMul p16 p16
  let p64 := gfMul p32 p32
  let p128 := gfMul p64 p64
  gfMul p128 (gfMul p64 (gfMul p32 (gfMul p16 (gfMul p8 (gfMul p4 p2)))))

/-- The substitution box. -/
def aesSub (a : BitVec 8) : BitVec 8 :=
  let x := gfInv a
  x ^^^ x.rotateLeft 1 ^^^ x.rotateLeft 2 ^^^ x.rotateLeft 3 ^^^ x.rotateLeft 4 ^^^ 0x63

/-- Bytes combined by exclusive or. -/
def xorBytes (a b : List (BitVec 8)) : List (BitVec 8) := List.zipWith (· ^^^ ·) a b

/-- The next round key: 16 bytes from 16 bytes, with the round constant. -/
def aesNextKey (rc : BitVec 8) (k : List (BitVec 8)) : List (BitVec 8) :=
  let g := xorBytes ([k.getD 13 0, k.getD 14 0, k.getD 15 0, k.getD 12 0].map aesSub) [rc, 0, 0, 0]
  let w0 := xorBytes (k.take 4) g
  let w1 := xorBytes ((k.drop 4).take 4) w0
  let w2 := xorBytes ((k.drop 8).take 4) w1
  w0 ++ w1 ++ w2 ++ xorBytes (k.drop 12) w2

/-- Substitution and row shift of a state held column by column. -/
def aesSubShift (s : List (BitVec 8)) : List (BitVec 8) :=
  (List.range 16).map (fun i => aesSub (s.getD ((i + 4 * (i % 4)) % 16) 0))

/-- Column mixing. -/
def aesMix (s : List (BitVec 8)) : List (BitVec 8) :=
  (List.range 16).map (fun i =>
    let at_ (r : Nat) := s.getD (i / 4 * 4 + (i + r) % 4) 0
    gfMul 2 (at_ 0) ^^^ gfMul 3 (at_ 1) ^^^ at_ 2 ^^^ at_ 3)

/-- Rounds 1 to 9 and the last round. -/
def aesRounds : Nat → BitVec 8 → List (BitVec 8) → List (BitVec 8) → List (BitVec 8)
  | 0, rc, k, s => xorBytes (aesSubShift s) (aesNextKey rc k)
  | n + 1, rc, k, s =>
    let k := aesNextKey rc k
    aesRounds n (gfMul 2 rc) k (xorBytes (aesMix (aesSubShift s)) k)

/-- AES-128 of one block. -/
def aes (key block : List (BitVec 8)) : List (BitVec 8) := aesRounds 9 1 key (xorBytes block key)

/-- The bytes of a key as the key table holds them. -/
def keyBytes (k : BitVec 128) : List (BitVec 8) := bytesLE 16 k.toNat

/-! CCM (R310): tag of 8 bytes, length field of 2 bytes -/

/-- A sequence completed with zeros to whole blocks, cut into blocks. -/
def blocks : Nat → List (BitVec 8) → List (List (BitVec 8))
  | 0, _ => []
  | _ + 1, [] => []
  | n + 1, l => let b := l.take 16; (b ++ List.replicate (16 - b.length) 0) :: blocks n (l.drop 16)

/-- Big-endian bytes. -/
def bytesBE (n x : Nat) : List (BitVec 8) := (bytesLE n x).reverse

/-- A counter block. -/
def ccmCtr (nonce : List (BitVec 8)) (i : Nat) : List (BitVec 8) := [1] ++ nonce ++ bytesBE 2 i

/-- The tag of associated data and clear payload. -/
def ccmTag (key nonce aad p : List (BitVec 8)) : List (BitVec 8) :=
  let b0 := [0x59] ++ nonce ++ bytesBE 2 p.length
  let a := bytesBE 2 aad.length ++ aad
  let mac := (b0 :: blocks (a.length + 1) a ++ blocks (p.length + 1) p).foldl (fun x b => aes key (xorBytes x b))
    (List.replicate 16 0)
  xorBytes (mac.take 8) (aes key (ccmCtr nonce 0))

/-- Encryption and decryption of a payload. -/
def ccmCrypt (key nonce : List (BitVec 8)) : Nat → Nat → List (BitVec 8) → List (BitVec 8)
  | 0, _, _ => []
  | _ + 1, _, [] => []
  | n + 1, i, l => xorBytes (l.take 16) (aes key (ccmCtr nonce i)) ++ ccmCrypt key nonce n (i + 1) (l.drop 16)

/-- The nonce: the sender's EUI-64 most significant byte first, the frame counter, the key index (R310). -/
def ccmNonce (eui : Nat) (ctr : Nat) (keyId : Nat) : List (BitVec 8) := bytesBE 8 eui ++ bytesBE 4 ctr ++ bytesBE 1 keyId

/-- A MAC frame protected: header, encrypted bytes, tag. -/
def ccmSeal (key nonce header body : List (BitVec 8)) : List (BitVec 8) :=
  header ++ ccmCrypt key nonce (body.length + 1) 1 body ++ ccmTag key nonce header body

/-- The clear bytes after the header of a protected MAC frame; none when its tag fails. -/
def ccmOpen (key nonce frame : List (BitVec 8)) : Option (List (BitVec 8)) :=
  if frame.length < 24 then none
  else
    let header := frame.take 16
    let c := (frame.drop 16).take (frame.length - 24)
    let p := ccmCrypt key nonce (c.length + 1) 1 c
    if ccmTag key nonce header p = frame.drop (frame.length - 8) then some p else none

/-! SipHash-2-4 -/

/-- One SipHash round over (v0, v1, v2, v3). -/
def sipRound (v : BitVec 64 × BitVec 64 × BitVec 64 × BitVec 64) : BitVec 64 × BitVec 64 × BitVec 64 × BitVec 64 :=
  let (a, b, c, d) := v
  let a := a + b
  let c := c + d
  let b := b.rotateLeft 13 ^^^ a
  let d := d.rotateLeft 16 ^^^ c
  let a := a.rotateLeft 32
  let a := a + d
  let c := c + b
  let d := d.rotateLeft 21 ^^^ a
  let b := b.rotateLeft 17 ^^^ c
  (a, b, c.rotateLeft 32, d)

/-- SipHash-2-4 of eight bytes, low byte first, under a 128-bit key (R326). -/
def sipHash (key : BitVec 128) (m : BitVec 64) : BitVec 64 :=
  let k0 : BitVec 64 := key.truncate 64
  let k1 : BitVec 64 := (key >>> 64).truncate 64
  let word (x : BitVec 64) (v : BitVec 64 × BitVec 64 × BitVec 64 × BitVec 64) :=
    let w := sipRound (sipRound (v.1, v.2.1, v.2.2.1, v.2.2.2 ^^^ x))
    (w.1 ^^^ x, w.2.1, w.2.2.1, w.2.2.2)
  let v := word m (k0 ^^^ 0x736f6d6570736575, k1 ^^^ 0x646f72616e646f6d, k0 ^^^ 0x6c7967656e657261, k1 ^^^ 0x7465646279746573)
  let v := word (8 <<< 56) v
  let v := sipRound (sipRound (sipRound (sipRound (v.1, v.2.1, v.2.2.1 ^^^ 0xFF, v.2.2.2))))
  v.1 ^^^ v.2.1 ^^^ v.2.2.1 ^^^ v.2.2.2

end Sys2Proof.Machine
end

