-- ==== Sys2Proof/Machine/Phy.lean ====
section
/-!
DEFINITION. The powerline signal (R286 to R301): carriers, preamble and sounding points, the frame control and its code, the
segments, the scrambler, the codewords, the interleaver, the order of carriers, and the length of a transmission.
-/

namespace Sys2Proof.Machine

/-! Carriers (R287, R288) -/

/-- The carriers, 40 to 1720 (R287). -/
def allCarriers : List Nat := (List.range 1681).map (· + 40)

/-- Unmasked carriers in ascending order (R288). -/
def State.carriers (s : State) : List Nat :=
  (List.range 53).flatMap (fun i =>
    let v := (s.rd (PLC_MASK i)).toNat
    (List.range 32).filterMap (fun b =>
      let k := 40 + 32 * i + b
      if bitAt v b || decide (1720 < k) then none else some k))

/-- PLC_STAT.MASKERR follows the tone mask: fewer than 640 carriers are unmasked (R288). -/
def State.maskShow (s : State) : State := s.setFlag PLC_STAT_MASKERR (decide (s.carriers.length < 640))

/-- A write of a tone-mask register. -/
def State.wrMask (w : WriteBy) (i : Nat) (v : BitVec 32) (s : State) : State :=
  if s.writable w (PLC_MASK i) then (s.storeWrite w (PLC_MASK i) v).maskShow else s

/-- Quarter turns of the QPSK point of a carrier in preamble symbol P (`n` = 0) and in sounding symbol `n`, beside the phase
π/4 that all of them share (R290). -/
def pointTurn (n k : Nat) : Nat := (k * (k + 1) / 2 + n) % 4

/-- The eight preamble symbols: P seven times, then -P, two quarter turns away (R290). -/
def preamble (carriers : List Nat) : List (List (Nat × Nat)) :=
  List.replicate 7 (carriers.map (fun k => (k, pointTurn 0 k))) ++ [carriers.map (fun k => (k, (pointTurn 0 k + 2) % 4))]

/-- The sixteen sounding symbols (R290). -/
def soundingSyms (carriers : List Nat) : List (List (Nat × Nat)) :=
  (List.range 16).map (fun n => carriers.map (fun k => (k, pointTurn n k)))

/-! Durations (R287, R289) -/

/-- Samples of a payload symbol at a guard interval code. -/
def symSamples (gi : Nat) : Nat := 4096 + (if gi = 0 then 512 else if gi = 1 then 1024 else 2048)

/-- Samples of a transmission: preamble, frame control, payload. -/
def txSamples (gi nsym : Nat) : Nat := 32768 + 12288 + nsym * symSamples gi

/-- HFREF cycles that a number of samples takes, rounded up: 12.5 samples to a cycle. -/
def sampleCycles (n : Nat) : Nat := (2 * n + 24) / 25

/-- Units of 2^-24 s that a number of samples takes, rounded down. -/
def sampleUnits (n : Nat) : Nat := n * 256 / 3125

/-! Frame control (R291, R292) -/

/-- A field of a frame control or of a header. -/
def bitsAt (n lsb width : Nat) : Nat := n / 2 ^ lsb % 2 ^ width

/-- CRC-24 of a frame control's bits [231:0], fed in ascending order of their numbers (log 24). -/
def fcCrc (n : Nat) : Nat :=
  (List.range 232).foldl (fun r i => crcBit ⟨24, 0x864CFB, 0xB704CE, false, false, 0⟩ r (bitAt n i)) 0xB704CE

/-- What a frame control says beside its CRC. -/
structure Fc where
  ftype : Nat
  gi : Nat
  mode : Nat
  rate : Nat
  mapId : Nat
  fsn : Nat
  netId : Nat
  saddr : Nat
  daddr : Nat
  nseg : Nat
  nsym : Nat
  ackReq : Bool
  /-- Bits [231:116]. -/
  tspec : Nat
  deriving DecidableEq, Repr

/-- The 256 bits of a frame control (R291). -/
def Fc.bits (f : Fc) : BitVec 256 :=
  let n := f.ftype + f.gi * 2 ^ 4 + f.mode * 2 ^ 6 + f.rate * 2 ^ 8 + f.mapId * 2 ^ 10 + f.fsn * 2 ^ 16 + f.netId * 2 ^ 32 +
    f.saddr * 2 ^ 40 + f.daddr * 2 ^ 64 + f.nseg * 2 ^ 88 + f.nsym * 2 ^ 102 + f.ackReq.toNat * 2 ^ 114 + f.tspec * 2 ^ 116
  BitVec.ofNat 256 (n + fcCrc n * 2 ^ 232)

/-- Whether a frame control's CRC matches. -/
def fcOk (b : BitVec 256) : Bool := fcCrc (b.toNat % 2 ^ 232) == bitsAt b.toNat 232 24

/-- The fields of a decoded frame control. -/
def fcRead (b : BitVec 256) : Fc :=
  let n := b.toNat
  { ftype := bitsAt n 0 4, gi := bitsAt n 4 2, mode := bitsAt n 6 2, rate := bitsAt n 8 2, mapId := bitsAt n 10 6,
    fsn := bitsAt n 16 16, netId := bitsAt n 32 8, saddr := bitsAt n 40 24, daddr := bitsAt n 64 24, nseg := bitsAt n 88 14,
    nsym := bitsAt n 102 12, ackReq := bitAt n 114, tspec := bitsAt n 116 116 }

/-! Code (R294) -/

/-- K of a rate. -/
def codeK (rate : Nat) : Nat := if rate = 0 then 2160 else if rate = 1 then 2880 else 3600

/-- The three checks an information bit enters; checks that coincide count once. -/
def codeChecks (rate i : Nat) : List Nat :=
  let p := 4320 - codeK rate
  let b := if rate = 0 then [0, 719, 1440] else if rate = 1 then [0, 479, 960] else [0, 239, 480]
  let c := if rate = 0 then [0, 0, 0] else if rate = 1 then [1, 97, 577] else [1, 97, 337]
  ((List.range 3).map (fun t => ([7, 11, 13].getD t 0 * i + c.getD t 0 * (i / p) + b.getD t 0) % p)).eraseDups

/-- Parity bits by accumulation: p_m = p_(m-1) + s_m. -/
def accumulate : Bool → List Bool → List Bool
  | _, [] => []
  | p, x :: t => (p != x) :: accumulate (p != x) t

/-- The parity bits of K information bits. -/
def codeParity (rate : Nat) (u : List Bool) : List Bool :=
  let step (a : Array Bool × Nat) (b : Bool) : Array Bool × Nat :=
    (if b then (codeChecks rate a.2).foldl (fun v m => v.modify m not) a.1 else a.1, a.2 + 1)
  accumulate false (u.foldl step (Array.replicate (4320 - codeK rate) false, 0)).1.toList

/-- A list of bits cut or completed with zeros to a length. -/
def padBits (n : Nat) (l : List Bool) : List Bool := l.take n ++ List.replicate (n - l.length) false

/-- One codeword of 4,320 bits. -/
def codeWord (rate : Nat) (u : List Bool) : List Bool :=
  let u := padBits (codeK rate) u
  u ++ codeParity rate u

/-- The coded block of a frame control: its 256 bits and the first parity bits (R292). -/
def fcCoded (l : Nat) (b : BitVec 256) : List Bool :=
  let u := (List.range 256).map (fun i => b.getLsbD i)
  u ++ (codeParity 0 (padBits 2160 u)).take (2 * (l / 4) - 256)

/-- The scrambling sequence of x^23 + x^18 + 1 from 23 ones on (log 24). -/
def scrambleFrom : Nat → List Bool → List Bool
  | 0, _ => []
  | n + 1, w => (w.getD 22 true) :: scrambleFrom n ((w.getD 17 true != w.getD 22 true) :: w.take 22)
def scramble (n : Nat) : List Bool := scrambleFrom n (List.replicate 23 true)

/-- Bits of a byte sequence, each byte from its bit 0 on (log 24). -/
def byteBits (l : List (BitVec 8)) : List Bool := l.flatMap (fun x => (List.range 8).map (fun i => x.getLsbD i))

/-- Codewords of a payload of NSEG segments (R294). -/
def codeCount (rate nseg : Nat) : Nat := (4192 * nseg + codeK rate - 1) / codeK rate

/-- The codewords of an information stream: scrambled, padded and coded (R294). -/
def codeWords (rate nseg : Nat) (info : List (BitVec 8)) (seq : List Bool) : List (List Bool) :=
  let k := codeK rate
  let u := List.zipWith (fun a b => a != b) (padBits (k * codeCount rate nseg) (byteBits info)) seq
  (List.range (codeCount rate nseg)).map (fun c => codeWord rate ((u.drop (k * c)).take k))

/-- The position sequence of a transmission (R297): coded bits interleaved, then the continuation of the scrambling sequence. -/
def interleave (fsn total : Nat) (words : List (List Bool)) (fill : List Bool) : List Bool :=
  let ncw := words.length
  if ncw = 0 then []
  else
    let put (a : Array Bool) (c j : Nat) (b : Bool) : Array Bool :=
      a.setIfInBounds (((j + fsn * 2593 % 4320) % 4320) * ncw + (c + fsn * 40503 % ncw) % ncw) b
    let word (a : Array Bool) (c : Nat) (w : List Bool) : Array Bool :=
      (w.foldl (fun (x : Array Bool × Nat) b => (put x.1 c x.2 b, x.2 + 1)) (a, 0)).1
    let a := (words.foldl (fun (x : Array Bool × Nat) w => (word x.1 x.2 w, x.2 + 1)) (Array.replicate (4320 * ncw) false, 0)).1
    a.toList ++ fill.take (total - 4320 * ncw)

/-! Symbols (R295 to R298, R303) -/

/-- Coded bits of a loading code (R295). -/
def loadBits (code : Nat) : Nat := [0, 1, 2, 3, 4, 6, 8, 10].getD code 0

/-- The visiting order of carriers (R298). -/
def carrierOrder : List Nat := (List.range 1681).map (fun t => 40 + (t * 1021) % 1681)

/-- The places of a symbol's positions in order: carrier and bit plane, plane 0 the most significant (R298). -/
def symPlaces (bits : Nat → Nat) : List (Nat × Nat) :=
  (List.range 10).flatMap (fun p => (carrierOrder.filter (fun k => decide (p < bits k))).map (fun k => (k, p)))

/-- Distinct coded bits of a safelight symbol (R296). -/
def slBits (l nrep : Nat) : Nat := 2 * l / nrep

/-- The places of copy 0 in a safelight symbol (R296, R298). -/
def slPlaces (carriers : List Nat) (nrep : Nat) : List (Nat × Nat) :=
  (symPlaces (fun k => if carriers.contains k then 2 else 0)).take (slBits carriers.length nrep)

/-- Offsets, in unmasked carriers from copy 0, of the further copies of a symbol's bits in that symbol and in the next one (R296). -/
def slOffsets (l nrep : Nat) : List Nat × List Nat :=
  if nrep = 4 then ([l / 2], [l / 4, 3 * l / 4])
  else ([l / 4, l / 2, 3 * l / 4], [l / 8, 3 * l / 8, 5 * l / 8, 7 * l / 8])

/-- The further copies in each of the symbols: carrier and bit.  Offsets are taken modulo L, and what falls beyond the last symbol
wraps to symbol 0 (R296, log 134). -/
def slCopies (carriers : List Nat) (nrep : Nat) (syms : List (List (Nat × Nat × Bool))) : List (List (Nat × Bool)) :=
  let l := carriers.length
  let (own, next) := slOffsets l nrep
  let copy (offs : List Nat) (y : List (Nat × Nat × Bool)) : List (Nat × Bool) :=
    offs.flatMap (fun d => y.map (fun x => (carriers.getD ((carriers.idxOf x.1 + d) % l) 0, x.2.2)))
  (List.range syms.length).map (fun i =>
    copy own (syms.getD i []) ++ copy next (syms.getD ((i + syms.length - 1) % syms.length) []))

/-- Carrier k's coded bits under a tone map, with the mask (R295). -/
def mapBits (carriers : List Nat) (m : ToneMap) (k : Nat) : Nat :=
  if carriers.contains k then loadBits (m.load.getD (k - 40) 0).toNat else 0

/-- The mains slot whose map payload symbol i uses (R303). -/
def symSlot (slot0 chg0 step i : Nat) : Nat := if i < chg0 then slot0 else (slot0 + 1 + (i - chg0) * 16 / step) % 4

/-- The least number of symbols whose capacities reach a number of positions, at most 3,545. -/
def symCount (cap : Nat → Nat) (need : Nat) : Nat :=
  ((List.range 3545).foldl (fun (a : Nat × Nat) i => if need ≤ a.1 then a else (a.1 + cap i, a.2 + 1)) (0, 0)).2

/-- A position sequence cut into symbols, each position with its carrier and plane. -/
def cutSymbols (places : Nat → List (Nat × Nat)) : Nat → Nat → List Bool → List (List (Nat × Nat × Bool))
  | 0, _, _ => []
  | n + 1, i, l =>
    let p := places i
    List.zipWith (fun (x : Nat × Nat) b => (x.1, x.2, b)) p l :: cutSymbols places n (i + 1) (l.drop p.length)

/-! Segments (R293) -/

/-- One segment on air: header, data padded with zeros, CRC-32C. -/
def segmentBytes (seq idx count : Nat) (data : List (BitVec 8)) : List (BitVec 8) :=
  let h := seq + idx * 2 ^ 16 + (count - 1) * 2 ^ 20 + (data.length - 1) * 2 ^ 24
  let b := bytesLE 8 h ++ data ++ List.replicate (512 - data.length) 0
  b ++ bytesLE 4 (crc32c b)

/-- Segments of a frame of `n` bytes. -/
def segCount (n : Nat) : Nat := (n + 511) / 512

/-- Segment `i` of a frame. -/
def frameSegment (seq : Nat) (frame : List (BitVec 8)) (i : Nat) : List (BitVec 8) :=
  segmentBytes seq i (segCount frame.length) ((frame.drop (512 * i)).take 512)

/-! What goes on the line -/

/-- A transmission (R289): from its frame control, the segments' bytes, the tone maps of the link by slot and the copies of
safelight; a sounding has its sixteen points in place of coded symbols. -/
def State.airFrame (s : State) (f : Fc) (info : List (BitVec 8)) (maps : List ToneMap) : AirFrame :=
  let cs := s.carriers
  let l := cs.length
  let nrep := if f.mode = 1 then 4 else 8
  let fcb := f.bits
  let places (i : Nat) : List (Nat × Nat) :=
    if f.mode = 0 then
      match maps[symSlot (bitsAt f.tspec 0 2) (bitsAt f.tspec 2 12) (bitsAt f.tspec 14 14) i]? with
      | some m => symPlaces (mapBits cs m)
      | none => []
    else slPlaces cs nrep
  let k := codeK f.rate * codeCount f.rate f.nseg
  let total := ((List.range f.nsym).map (fun i => (places i).length)).sum
  let seq := scramble (k + (total - 4320 * codeCount f.rate f.nseg))
  let pos := interleave f.fsn total (codeWords f.rate f.nseg info seq) (seq.drop k)
  let fcSyms := cutSymbols (fun _ => slPlaces cs 8) 2 0 (fcCoded l fcb)
  let syms := if f.ftype = 3 then [] else cutSymbols places f.nsym 0 pos
  { fc := fcb, at_ := s.exp.now, psdLo := s.get PLC_PSD_PSDLO, psdHi := s.get PLC_PSD_PSDHI, preamble := preamble cs,
    fcSyms := fcSyms, fcCopies := slCopies cs 8 fcSyms, syms := syms,
    copies := if f.mode = 0 then [] else slCopies cs nrep syms, points := if f.ftype = 3 then soundingSyms cs else [],
    cutAt := none }

/-! What is received -/

/-- Median of block energies: the lower one of the middle two (log 133). -/
def medianOf (l : List Nat) : Nat :=
  let less (x : Nat) : Nat := (l.filter (fun y => decide (y < x))).length
  let upto (x : Nat) : Nat := (l.filter (fun y => decide (y ≤ x))).length
  let k := (l.length - 1) / 2
  (l.find? (fun x => decide (less x ≤ k) && decide (k < upto x))).getD 0

/-- One quantity exceeds another by a number of tenths of a decibel. -/
def exceedsBy (x y tenths : Nat) : Bool := decide (y ^ 100 * 10 ^ tenths < x ^ 100)

/-- Which symbols of a transmission are erased (R299): those with an OVR conversion, and those with a block whose energy exceeds the
median of the blocks received so far by `th` dB. -/
def erasedSyms (th : Nat) : List Nat → List SymIn → List Bool
  | _, [] => []
  | seen, y :: t =>
    let seen := seen ++ y.blocks
    (y.ovr || y.blocks.any (fun e => exceedsBy e (medianOf seen) (10 * th))) :: erasedSyms th seen t

/-- Tracks the channel through one symbol (R309): an unerased one moves each estimate by 1/8 of its error, or 1/2 for four symbols
after a channel step, which two consecutive unerased symbols declare whose mean squared error exceeds the design noise by 6 dB.
`noise` is none outside a tone map. -/
def Track.symbol (noise : Option Nat) (k : Track) (y : SymIn) (erased : Bool) : Track :=
  if erased then { k with prev := none, fast := k.fast - 1 }
  else
    let d := if 0 < k.fast then 2 else 8
    let est := k.est.map (fun e => match y.quots.find? (fun q => q.1 == e.1) with
      | some q => (e.1, e.2.1 + roundDiv (q.2.1 - e.2.1) d, e.2.2 + roundDiv (q.2.2 - e.2.2) d)
      | none => e)
    let step := match k.prev, noise with
      | some p, some n => exceedsBy (p + y.err) (2 * n) 60
      | _, _ => false
    { est := est, prev := some y.err, fast := if step then 4 else k.fast - 1, steps := k.steps + step.toNat }

/-- Numbers x in [lo, hi) with x mod n = r, for r < n. -/
def residues (n r lo hi : Nat) : Nat := (hi + n - 1 - r) / n - (lo + n - 1 - r) / n

/-- Bits of codeword `c` that lie in erased symbols of the given capacities (R297, R299). -/
def codeErased (fsn ncw c : Nat) (caps : List Nat) (erased : List Bool) : Nat :=
  let r := (c + fsn * 40503 % ncw) % ncw
  ((caps.zip erased).foldl (fun (a : Nat × Nat) x =>
    let hi := a.1 + x.1
    (hi, if x.2 then a.2 + residues ncw r (min a.1 (4320 * ncw)) (min hi (4320 * ncw)) else a.2)) (0, 0)).2

/-- Largest share of erased bits that the decoder corrects at a rate, in 1/1000 (R301). -/
def erasureLimit (rate : Nat) : Nat := [300, 180, 80].getD rate 80

/-- The codewords of a payload that are decoded (R301): with the SNR met every one whose erased bits stay within the limit, and of the
others those that the operand does not name.  In safelight a bit is erased with both symbols that hold its copies (R296). -/
def decodedWords (rate fsn nseg : Nat) (safelight : Bool) (caps : List Nat) (erased : List Bool) (snrMet : Bool)
    (undecoded : List Nat) : List Bool :=
  let ncw := codeCount rate nseg
  let n := erased.length
  let lost := if safelight then
      (List.range n).map (fun i => erased.getD i false && erased.getD ((i + 1) % n) false)
    else erased
  (List.range ncw).map (fun c =>
    (snrMet && decide (codeErased fsn ncw c caps lost * 1000 ≤ erasureLimit rate * 4320)) || !undecoded.contains c)

/-- Whether every codeword that holds bits of segment k was decoded (R294). -/
def segDecoded (rate : Nat) (words : List Bool) (k : Nat) : Bool :=
  let from_ := 4192 * k / codeK rate
  let upTo := (4192 * (k + 1) - 1) / codeK rate
  (List.range (upTo + 1 - from_)).all (fun j => words.getD (from_ + j) true)

end Sys2Proof.Machine
end

