-- ==== Sys2Proof/Machine/Dir.lean ====
section
/-!
DEFINITION. The node directory (R324 to R329): the table in host memory, lookups, adds and removals, the on-chip cache, rehash,
and the host-ring descriptors of PLC_TX and NET (R401, R402).
-/

namespace Sys2Proof.Machine

/-- Changes the powerline state. -/
def State.modPlc (s : State) (f : PlcState → PlcState) : State := { s with plc := f s.plc }

/-! Host-ring descriptors (R401, R402) -/

/-- The index of the next descriptor to be taken on a host ring with out-of-order completion. -/
def State.nextDesc (s : State) (r : Nat) : Option (BitVec 32) :=
  let i := s.ringC r + BitVec.ofNat 32 (s.ring r).open_.length
  if s.ringRun r && s.dmaOn && decide (i ≠ s.ringP r) then some i else none

/-- Takes that descriptor. -/
def State.takeDesc (s : State) (r : Nat) (i : BitVec 32) : State :=
  s.modRing r (fun a => { a with open_ := a.open_ ++ [(i, false)] })

/-- A descriptor completes: its writeback, and C over every leading completed descriptor (R401). -/
def State.descDone (s : State) (r : Nat) (i : BitVec 32) (wb : Nat) : State :=
  let s := s.hostWrite (.mem (s.descAddr r i + 0x28) [BitVec.ofNat 64 wb, s.ts])
  let l := (s.ring r).open_.map (fun e => if e.1 = i then (i, true) else e)
  let n := (l.takeWhile (fun e => e.2)).length
  let s := s.modRing r (fun a => { a with open_ := l.drop n })
  if n = 0 then s else s.returnDescs r n

/-! Table (R324 to R327) -/

/-- Bucket of a node (R326). -/
def DirTable.bucket (t : DirTable) (node : BitVec 64) : Nat := (sipHash t.seed node).toNat % 2 ^ t.bkt

/-- Overflow entries chained to a bucket. -/
def DirTable.chain (t : DirTable) (b : Nat) : List Nat := assocGet [] t.chains b

/-- A place in the table: a slot of the bucket array (4 b + slot), or an overflow entry. -/
inductive DirPlace where
  | slot (k : Nat)
  | ovf (i : Nat)
  deriving DecidableEq, Repr

/-- The entry at a place. -/
def DirTable.entry (t : DirTable) : DirPlace → Option DirEntry
  | .slot k => storeFind t.slots k
  | .ovf i => storeFind t.ovf i

/-- Address of a place (R324). -/
def DirTable.addr (t : DirTable) : DirPlace → BitVec 64
  | .slot k => t.tbase + BitVec.ofNat 64 (64 * k)
  | .ovf i => t.tovf + BitVec.ofNat 64 (64 * i)

/-- The places a lookup compares, in order (R326). -/
def DirTable.places (t : DirTable) (b : Nat) : List DirPlace :=
  (List.range 4).map (fun j => DirPlace.slot (4 * b + j)) ++ (t.chain b).map DirPlace.ovf

/-- Lookup of a node (R326). -/
def DirTable.find (t : DirTable) (node : BitVec 64) : Option DirPlace :=
  (t.places (t.bucket node)).find? (fun p => match t.entry p with | some e => e.node == node | none => false)

/-- Stores an entry at a place. -/
def DirTable.put (t : DirTable) (p : DirPlace) (e : DirEntry) : DirTable :=
  match p with
  | .slot k => { t with slots := storeInsert t.slots k e }
  | .ovf i => { t with ovf := storeInsert t.ovf i e }

/-- NEXT at a place: overflow index + 1 of the following entry of its chain, 0 at the end (R324); in a free overflow entry, of
the next free one (R325). -/
def DirTable.next (t : DirTable) (p : DirPlace) : Nat :=
  match p with
  | .slot k => if k % 4 = 3 then (match t.chain (k / 4) with | i :: _ => i + 1 | [] => 0) else 0
  | .ovf i =>
    match t.chains.find? (fun c => c.2.contains i) with
    | some c => (match (c.2.dropWhile (· != i)).tail with | j :: _ => j + 1 | [] => 0)
    | none =>
      match (t.freed.dropWhile (· != i)).tail with
      | j :: _ => j + 1
      | [] => if t.fresh < t.ovfn then t.fresh + 1 else 0

/-- The eight slots of a place as they stand in host memory (R324). -/
def DirTable.image (t : DirTable) (p : DirPlace) : List (BitVec 64) :=
  let n := BitVec.ofNat 64 (t.next p)
  match t.entry p with
  | some e =>
    [e.node, BitVec.ofNat 64 (e.laddr.toNat + e.state.toNat * 2 ^ 24 + e.hops.toNat * 2 ^ 27 + e.keyIdx.toNat * 2 ^ 32), e.nh, n,
     e.heard, BitVec.ofNat 64 (e.sent.toNat + e.recvd.toNat * 2 ^ 32),
     BitVec.ofNat 64 (e.failed.toNat + e.retx.toNat * 2 ^ 32), e.cookie]
  | none => [0, 0, 0, n, 0, 0, 0, 0]

/-- An entry read from eight slots, under a node ID. -/
def entryOf (node : BitVec 64) (l : List (BitVec 64)) : DirEntry :=
  let n := (l.getD 1 0).toNat
  { node := node, laddr := BitVec.ofNat 24 n, state := BitVec.ofNat 3 (n / 2 ^ 24), hops := BitVec.ofNat 3 (n / 2 ^ 27),
    keyIdx := BitVec.ofNat 16 (n / 2 ^ 32), nh := l.getD 2 0, heard := l.getD 4 0, sent := (l.getD 5 0).truncate 32,
    recvd := ((l.getD 5 0) >>> 32).truncate 32, failed := (l.getD 6 0).truncate 32,
    retx := ((l.getD 6 0) >>> 32).truncate 32, cookie := l.getD 7 0 }

/-- Entries in the table. -/
def DirTable.count (t : DirTable) : Nat := t.slots.length + t.ovf.length

/-- Length of the longest chain. -/
def DirTable.maxChain (t : DirTable) : Nat := t.chains.foldl (fun m c => max m c.2.length) 0

/-- The first free overflow entry and the table without it in the free list. -/
def DirTable.takeFree (t : DirTable) : Option (Nat × DirTable) :=
  match t.freed with
  | i :: rest => some (i, { t with freed := rest })
  | [] => if t.fresh < t.ovfn then some (t.fresh, { t with fresh := t.fresh + 1 }) else none

/-- Adds an entry (R326): the first free slot, then the chain; none when the chain would exceed 64 or the free list is empty. -/
def DirTable.add (t : DirTable) (e : DirEntry) : Option (DirTable × DirPlace) :=
  let b := t.bucket e.node
  match (List.range 4).find? (fun j => (storeFind t.slots (4 * b + j)).isNone) with
  | some j => some (t.put (.slot (4 * b + j)) e, .slot (4 * b + j))
  | none =>
    if 64 ≤ (t.chain b).length then none
    else match t.takeFree with
      | none => none
      | some (i, t) => some ({ t.put (.ovf i) e with chains := assocPut t.chains b (t.chain b ++ [i]) }, .ovf i)

/-- The place whose NEXT names an overflow entry of a bucket's chain. -/
def DirTable.before (t : DirTable) (b i : Nat) : DirPlace :=
  match ((t.chain b).takeWhile (· != i)).getLast? with
  | some j => .ovf j
  | none => .slot (4 * b + 3)

/-- Frees an entry and relinks the chain (R326). -/
def DirTable.remove (t : DirTable) (p : DirPlace) (b : Nat) : DirTable :=
  match p with
  | .slot k => { t with slots := storeErase t.slots k }
  | .ovf i =>
    let l := (t.chain b).filter (· != i)
    { t with ovf := storeErase t.ovf i, chains := if l.isEmpty then assocDel t.chains b else assocPut t.chains b l,
             freed := i :: t.freed }

/-! The table and its copy under a rehash -/

/-- The directory is initialised. -/
def State.dirReady (s : State) : Bool := s.flag NET_STAT_DIRRDY

/-- An entry of the directory by node ID. -/
def State.dirFind (s : State) (node : BitVec 64) : Option DirEntry :=
  match s.plc.dir with
  | some t => if s.dirReady then (t.find node).bind t.entry else none
  | none => none

/-- An entry of the directory by link address. -/
def State.dirByLaddr (s : State) (laddr : BitVec 24) : Option DirEntry :=
  match s.plc.dir with
  | some t => if s.dirReady then ((t.slots ++ t.ovf).find? (fun e => e.2.laddr == laddr)).map (·.2) else none
  | none => none

/-- Writes a place of a table to host memory. -/
def State.dirEmit (s : State) (t : DirTable) (p : DirPlace) : State := s.hostWrite (.mem (t.addr p) (t.image p))

/-- Writes NEXT of a place to host memory. -/
def State.dirEmitNext (s : State) (t : DirTable) (p : DirPlace) : State :=
  s.hostWrite (.mem (t.addr p + 0x18) [BitVec.ofNat 64 (t.next p)])

/-- NET_DIRINFO follows the table (R325, R327). -/
def State.dirShow (s : State) : State :=
  match s.plc.dir with
  | some t => (s.put NET_DIRINFO_NODES t.count).put NET_DIRINFO_MAXCHAIN t.maxChain
  | none => (s.put NET_DIRINFO_NODES 0).put NET_DIRINFO_MAXCHAIN 0

/-- A change goes to the new table as well when the entry's old bucket has been copied (R328). -/
def State.copiedToo (s : State) (node : BitVec 64) : Bool :=
  match s.plc.dir with
  | some t => s.plc.newDir.isSome && decide (t.bucket node < s.get NET_RHCUR_RHCUR)
  | none => false

/-- Ends the rehash without taking the new table over (R328): 0 chain, 1 host. -/
def State.rehashAbort (s : State) (cause : Nat) : State :=
  if s.plc.newDir.isNone then s
  else
    let s := (s.setFlag NET_STAT_REHASH false).setFlag NET_DIRCTL_REHASH false
    (s.modPlc (fun p => { p with newDir := none, copied := 0 })).event 0x0846 0 .momentary cause (s.get NET_RHCUR_RHCUR) 0

/-- Changes an entry in the table, and in the copy where R328 asks for it; `now` writes it to host memory at once, else the cache
writes it back (R329). -/
def State.dirMod (s : State) (node : BitVec 64) (now : Bool) (f : DirEntry → DirEntry) : State :=
  let change (t : DirTable) (s : State) (set : DirTable → State → State) : State :=
    match t.find node with
    | some p =>
      match t.entry p with
      | some e =>
        let t := t.put p (f e)
        let s := set t s
        if now then s.dirEmit t p else s
      | none => s
    | none => s
  let both := s.copiedToo node
  let s := match s.plc.dir with
    | some t => change t s (fun t s => s.modPlc (fun p => { p with dir := some t }))
    | none => s
  match both, s.plc.newDir with
  | true, some t => change t s (fun t s => s.modPlc (fun p => { p with newDir := some t }))
  | _, _ => s

/-- Writes HEARD, TRAFFIC and FAULTS of an entry back (R329). -/
def State.writeBack (s : State) (node : BitVec 64) : State :=
  let one (s : State) (t : Option DirTable) : State :=
    match t with
    | some t => (match t.find node with
      | some p => s.hostWrite (.mem (t.addr p + 0x20) (((t.image p).drop 4).take 3))
      | none => s)
    | none => s
  let both := s.copiedToo node
  let s := one s s.plc.dir
  if both then one s s.plc.newDir else s

/-- Uses a cached entry, or brings it in: 4,096 entries, the one used least recently is replaced and written back (R329). -/
def State.cacheUse (s : State) (node : BitVec 64) (dirty : Bool) : State :=
  let was := s.plc.cache.any (fun e => e.1 == node && e.2)
  let l := (node, dirty || was) :: s.plc.cache.filter (fun e => e.1 != node)
  let s := s.modPlc (fun p => { p with cache := l.take 4096 })
  match l[4096]? with
  | some (n, true) => s.writeBack n
  | _ => s

/-- An entry can be looked up: it is cached, or host memory can be reached (R329). -/
def State.dirSeen (s : State) (node : BitVec 64) : Bool := s.dmaOn || s.plc.cache.any (fun e => e.1 == node)

/-- Updates counters or HEARD of a node, if the directory holds it. -/
def State.dirTouch (s : State) (node : BitVec 64) (f : DirEntry → DirEntry) : State :=
  if (s.dirFind node).isSome ∧ s.dirSeen node then (s.cacheUse node true).dirMod node false f else s

/-- Adds an entry (R326 to R328): the status, and the state with bucket and place written. -/
def State.dirAdd (s : State) (e : DirEntry) : State × Nat :=
  match s.plc.dir with
  | none => (s, stRefused)
  | some t =>
    if (t.find e.node).isSome then (s, stBadarg)
    else if 131072 ≤ t.count then (s, stRefused)
    else match t.add e with
      | none => (s, stRefused)
      | some (t, p) =>
        let both := s.copiedToo e.node
        let b := t.bucket e.node
        let s := s.modPlc (fun x => { x with dir := some t })
        let s := s.dirEmit t p
        let s := match p with
          | .ovf i => s.dirEmitNext t (t.before b i)
          | .slot _ => s
        let n := (t.chain b).length
        let s := match p with
          | .ovf _ => if 8 < n then (s.setFlag NET_STAT_PRESS true).event 0x0844 0 .momentary b n 0 else s
          | .slot _ => s
        let s := match both, s.plc.newDir with
          | true, some u => (match u.add e with
            | some (u, p) =>
              let s := (s.modPlc (fun x => { x with newDir := some u })).dirEmit u p
              (match p with | .ovf i => s.dirEmitNext u (u.before (u.bucket e.node) i) | .slot _ => s)
            | none => s.rehashAbort 0)
          | _, _ => s
        (s.dirShow, stDone)

/-- Removes an entry from one table in host memory. -/
def State.dirErase (s : State) (t : DirTable) (node : BitVec 64) (set : DirTable → State → State) : State :=
  match t.find node with
  | none => s
  | some p =>
    let b := t.bucket node
    let prev := match p with | .ovf i => some (t.before b i) | .slot _ => none
    let t := t.remove p b
    let s := (set t s).dirEmit t p
    match prev with | some q => s.dirEmitNext t q | none => s

/-- Removes an entry (R326, R328). -/
def State.dirRemove (s : State) (node : BitVec 64) : State :=
  let both := s.copiedToo node
  let s := match s.plc.dir with
    | some t => s.dirErase t node (fun t s => s.modPlc (fun p => { p with dir := some t }))
    | none => s
  let s := match both, s.plc.newDir with
    | true, some t => s.dirErase t node (fun t s => s.modPlc (fun p => { p with newDir := some t }))
    | _, _ => s
  (s.modPlc (fun p => { p with cache := p.cache.filter (fun e => e.1 != node) })).dirShow

/-! Setting a table up (R325, R328) -/

/-- The staged table, empty. -/
def State.stagedDir (s : State) : DirTable :=
  { tbase := BitVec.ofNat 64 (s.wide [NET_TBASE_LO, NET_TBASE_HI]), tovf := BitVec.ofNat 64 (s.wide [NET_TOVF_LO, NET_TOVF_HI]),
    bkt := s.get NET_TGEOM_BKT, ovfn := min (s.get NET_TGEOM_OVFN) 131072,
    seed := BitVec.ofNat 128 (s.wide [NET_SEED 0, NET_SEED 1, NET_SEED 2, NET_SEED 3]),
    slots := [], ovf := [], chains := [], freed := [], fresh := 0 }

/-- Zeroes a table's memory and links its overflow entries into the free list. -/
def State.dirZero (s : State) (t : DirTable) : State :=
  let s := (s.hostWrite (.zero t.tbase (256 * 2 ^ t.bkt))).hostWrite (.zero t.tovf (64 * t.ovfn))
  (List.range (t.ovfn - 1)).foldl (fun s i =>
    s.hostWrite (.word (t.tovf + BitVec.ofNat 64 (64 * i + 0x18)) (BitVec.ofNat 32 (i + 2)))) s

/-- NET_DIRCTL: INIT begins to zero the staged table, REHASH begins to copy into it, ABORT abandons the copy (R325, R328). -/
def State.wrDirctl (w : WriteBy) (v : BitVec 32) (s : State) : State :=
  if ¬ s.writable w NET_DIRCTL then s
  else
    let s := if bitAt v.toNat 2 then s.rehashAbort 1 else s
    let s := if bitAt v.toNat 0 then
        let s := (s.rehashAbort 1).modPlc (fun p => { p with dir := none, cache := [], initBusy := some s.stagedDir })
        ((s.setFlag NET_STAT_DIRRDY false).setFlag NET_DIRCTL_INIT true).dirShow
      else s
    if bitAt v.toNat 1 ∧ s.dirReady ∧ s.plc.newDir.isNone then
      let t := s.stagedDir
      let s := (s.dirZero t).modPlc (fun p => { p with newDir := some t, copied := 0 })
      ((s.setFlag NET_STAT_REHASH true).setFlag NET_DIRCTL_REHASH true).put NET_RHCUR_RHCUR 0
    else s

/-- The table that was staged at the INIT is zeroed (R325). -/
def State.initDone (s : State) : State :=
  match s.plc.initBusy with
  | some t =>
    if s.dmaOn then
      let s := (s.dirZero t).modPlc (fun p => { p with dir := some t, initBusy := none })
      ((s.setFlag NET_STAT_DIRRDY true).setFlag NET_DIRCTL_INIT false).dirShow
    else s
  | none => s

/-- Copies one entry into the new table; the rehash is aborted when it does not fit (R328). -/
def State.rehashOne (s : State) (e : DirEntry) : State :=
  match s.plc.newDir with
  | none => s
  | some u =>
    match u.add e with
    | none => s.rehashAbort 0
    | some (u, p) =>
      let s := (s.modPlc (fun x => { x with newDir := some u, copied := x.copied + 1 })).dirEmit u p
      match p with | .ovf i => s.dirEmitNext u (u.before (u.bucket e.node) i) | .slot _ => s

/-- Copies the next old bucket; after the last one the new table takes over (R328). -/
def State.rehashBucket (s : State) : State :=
  match s.plc.dir, s.plc.newDir with
  | some t, some _ =>
    if ¬ s.dmaOn then s
    else
      let b := s.get NET_RHCUR_RHCUR
      let s := ((t.places b).filterMap t.entry).foldl State.rehashOne s
      match s.plc.newDir with
      | none => s
      | some u =>
        let s := s.put NET_RHCUR_RHCUR (b + 1)
        if b + 1 < 2 ^ t.bkt then s
        else
          let n := s.plc.copied
          let s := s.modPlc (fun p => { p with dir := some u, newDir := none, copied := 0 })
          let s := ((s.setFlag NET_STAT_REHASH false).setFlag NET_DIRCTL_REHASH false).setFlag NET_STAT_PRESS false
          s.dirShow.event 0x0845 0 .momentary n 0 0
  | _, _ => s

/-- A directory lookup could not be served (R329). -/
def State.lookupLost (s : State) : State :=
  let s := s.bump NET_LOOKMISS_COUNT 1
  if s.flag NET_STAT_DIRUNR then s else (s.setFlag NET_STAT_DIRUNR true).event 0x0847 0 .start 0 0 0

/-- A directory lookup was served (R329). -/
def State.lookupServed (s : State) : State :=
  if s.flag NET_STAT_DIRUNR then (s.setFlag NET_STAT_DIRUNR false).event 0x0847 0 .stop 0 0 0 else s

/-! Directory operations of the NET ring (R402) -/

/-- Takes a NET descriptor whose OP is `op` and completes it with a status and result. -/
def State.netTake (s : State) (op : Nat) (d : Desc8) (f : State → BitVec 32 → State) : State :=
  match s.nextDesc 12 with
  | some i => if bitsAt d.d0.toNat 0 8 = op then f (s.takeDesc 12 i) i else s
  | none => s

/-- Completes a NET descriptor. -/
def State.netDone (s : State) (i : BitVec 32) (status result : Nat) : State :=
  s.descDone 12 i (status + result % 2 ^ 32 * 2 ^ 32)

/-- A buffer read by a NET operation: the data, or the state after its DMA fault. -/
def State.netBuf (s : State) (i : BitVec 32) (buf : Fetch (List (BitVec 8))) (f : List (BitVec 8) → State) : State :=
  match buf with
  | .ok l => f l
  | .fault c a => (s.dmaFault 12 c a).netDone i stFault 0

/-- DIR_ADD. -/
def State.opDirAdd (s : State) (d : Desc8) (buf : Fetch (List (BitVec 8))) (i : BitVec 32) : State :=
  if ¬ s.dirReady then s.netDone i stRefused 0
  else if bitsAt d.d3.toNat 0 32 < 64 then s.netDone i stBadarg 0
  else s.netBuf i buf (fun l =>
    let e := entryOf d.d1 (bytesToSlots 8 l)
    let (s, st) := s.dirAdd { e with heard := 0, sent := 0, recvd := 0, failed := 0, retx := 0 }
    let b := match s.plc.dir with | some t => t.bucket d.d1 | none => 0
    s.netDone i st (if st = stDone then b else 0))

/-- DIR_SET. -/
def State.opDirSet (s : State) (d : Desc8) (buf : Fetch (List (BitVec 8))) (i : BitVec 32) : State :=
  if ¬ s.dirReady then s.netDone i stRefused 0
  else if (s.dirFind d.d1).isNone ∨ bitsAt d.d3.toNat 0 32 < 64 then s.netDone i stBadarg 0
  else s.netBuf i buf (fun l =>
    let n := entryOf d.d1 (bytesToSlots 8 l)
    let a := d.d4.toNat
    let s := s.dirMod d.d1 true (fun e =>
      { e with laddr := if bitAt a 0 then n.laddr else e.laddr, state := if bitAt a 1 then n.state else e.state,
               hops := if bitAt a 2 then n.hops else e.hops, keyIdx := if bitAt a 3 then n.keyIdx else e.keyIdx,
               nh := if bitAt a 4 then n.nh else e.nh, cookie := if bitAt a 5 then n.cookie else e.cookie })
    s.netDone i stDone 0)

/-- DIR_REMOVE. -/
def State.opDirRemove (s : State) (d : Desc8) (i : BitVec 32) : State :=
  if ¬ s.dirReady then s.netDone i stRefused 0
  else if (s.dirFind d.d1).isNone then s.netDone i stBadarg 0
  else (s.dirRemove d.d1).netDone i stDone 0

/-- DIR_READ: the current entry, with cached fields current (R329), from the new table where its old bucket has been copied (R328). -/
def State.opDirRead (s : State) (d : Desc8) (i : BitVec 32) : State :=
  if ¬ s.dirReady then s.netDone i stRefused 0
  else match (if s.copiedToo d.d1 then s.plc.newDir else s.plc.dir) with
    | none => s.netDone i stRefused 0
    | some t =>
      match t.find d.d1 with
      | none => s.netDone i stBadarg 0
      | some p =>
        if bitsAt d.d3.toNat 0 32 < 64 then s.netDone i stBadarg 0
        else (s.hostWrite (.mem d.d2 (t.image p))).netDone i stDone 0

/-! Meanings -/

/-- INIT (R325). -/
def execInit (p : Port) (v : BitVec 32) (s : State) : Host.Outcome State Fault Refusal :=
  finish (fun s => if bitAt v.toNat 0 then s.wrDirctl (.port p) v else s) s

/-- REHASH (R328). -/
def execRehash (p : Port) (v : BitVec 32) (s : State) : Host.Outcome State Fault Refusal :=
  finish (fun s => if bitAt v.toNat 1 then s.wrDirctl (.port p) v else s) s

/-- ABORT (R328). -/
def execAbort (p : Port) (v : BitVec 32) (s : State) : Host.Outcome State Fault Refusal :=
  finish (fun s => if bitAt v.toNat 2 then s.wrDirctl (.port p) v else s) s

/-- DIRECTORY_INIT_DONE (R325). -/
def execDirectoryInitDone (s : State) : Host.Outcome State Fault Refusal := finish (fun s => s.initDone) s

/-- REHASH_BUCKET_COPY (R328). -/
def execRehashBucketCopy (s : State) : Host.Outcome State Fault Refusal := finish (fun s => s.rehashBucket) s

/-- DIRECTORY_WRITEBACK (R329): every changed cached entry is written back. -/
def execDirectoryWriteback (s : State) : Host.Outcome State Fault Refusal :=
  finish (fun s =>
    if ¬ s.dmaOn then s
    else
      let dirty := s.plc.cache.filterMap (fun e => if e.2 then some e.1 else none)
      (dirty.foldl State.writeBack s).modPlc (fun p => { p with cache := p.cache.map (fun e => (e.1, false)) })) s

/-- DIR_ADD (R326). -/
def execDirAdd (d : Desc8) (buf : Fetch (List (BitVec 8))) (s : State) : Host.Outcome State Fault Refusal :=
  finish (fun s => s.netTake 0x01 d (fun s i => s.opDirAdd d buf i)) s

/-- DIR_SET (R402). -/
def execDirSet (d : Desc8) (buf : Fetch (List (BitVec 8))) (s : State) : Host.Outcome State Fault Refusal :=
  finish (fun s => s.netTake 0x02 d (fun s i => s.opDirSet d buf i)) s

/-- DIR_REMOVE (R326). -/
def execDirRemove (d : Desc8) (s : State) : Host.Outcome State Fault Refusal :=
  finish (fun s => s.netTake 0x03 d (fun s i => s.opDirRemove d i)) s

/-- DIR_READ (R402). -/
def execDirRead (d : Desc8) (s : State) : Host.Outcome State Fault Refusal :=
  finish (fun s => s.netTake 0x04 d (fun s i => s.opDirRead d i)) s

end Sys2Proof.Machine
end

