-- ==== Sys2Proof/Machine/Nbr.lean ====
section
/-!
DEFINITION. Neighbour contexts (R322, R323): allocation, keys, tone maps (R304), the link metric (R330), tone-map negotiation
(R305, R306) and the context operations of the NET ring (R312, R402).
-/

namespace Sys2Proof.Machine

/-- A neighbour context. -/
def State.ctx (s : State) (i : Nat) : NeighCtx := s.plc.ctxs.getD i NeighCtx.reset

/-- Changes a neighbour context. -/
def State.modCtx (s : State) (i : Nat) (f : NeighCtx → NeighCtx) : State :=
  s.modPlc (fun p => { p with ctxs := p.ctxs.modify i f })

/-- The context of the neighbour with a link address. -/
def State.ctxOf (s : State) (laddr : BitVec 24) : Option Nat :=
  (List.range 256).find? (fun i => (s.ctx i).valid && (s.ctx i).laddr == laddr)

/-! Tone maps (R304) -/

/-- Coded bits per symbol of a list of loading codes. -/
def loadSum (l : List (BitVec 4)) : Nat := l.foldl (fun a c => a + loadBits c.toNat) 0

/-- The 912 bytes of a tone map. -/
def ToneMap.bytes (m : ToneMap) (slot : Nat) : List (BitVec 8) :=
  slotBytes [BitVec.ofNat 64 (slot + m.mapId.toNat * 2 ^ 2 + m.rate.toNat * 2 ^ 8 + m.gi.toNat * 2 ^ 10 + m.valid.toNat * 2 ^ 12),
    m.bits, m.tsNeg, BitVec.ofNat 64 (m.segs.toNat + m.failed.toNat * 2 ^ 32), 0, 0, 0, 0] ++
  (List.range 841).map (fun i =>
    BitVec.ofNat 8 ((m.load.getD (2 * i) 0).toNat + 16 * (if i = 840 then 0 else (m.load.getD (2 * i + 1) 0).toNat))) ++
  List.replicate 7 0

/-- A tone map that its 912 bytes describe. -/
def mapOf (l : List (BitVec 8)) : ToneMap :=
  let slot (i : Nat) : BitVec 64 := BitVec.ofNat 64 (natLE ((l.drop (8 * i)).take 8))
  let id := (slot 0).toNat
  { mapId := BitVec.ofNat 6 (id / 4), rate := BitVec.ofNat 2 (id / 2 ^ 8), gi := BitVec.ofNat 2 (id / 2 ^ 10), valid := bitAt id 12,
    bits := slot 1, tsNeg := slot 2, segs := (slot 3).truncate 32, failed := ((slot 3) >>> 32).truncate 32,
    load := (((l.drop 64).take 841).flatMap (fun (b : BitVec 8) => [b.truncate 4, (b >>> 4).truncate 4])).take 1681 }

/-- The four maps of a context; a map never written is not VALID. -/
def NeighCtx.map (c : NeighCtx) (q : Nat) : ToneMap :=
  c.maps.getD q { mapId := 0, rate := 0, gi := 0, valid := false, bits := 0, tsNeg := 0, segs := 0, failed := 0, load := [] }

/-- All four maps are VALID (R307). -/
def NeighCtx.mapsValid (c : NeighCtx) : Bool := (List.range 4).all (fun q => (c.map q).valid)

/-- The maps of a link invalidated, with event 0x0803 (R309). -/
def State.invalidateMaps (s : State) (i cause fsn : Nat) : State :=
  (s.modCtx i (fun c => { c with maps := c.maps.map (fun m => { m with valid := false }) })).event 0x0803 i .momentary cause fsn 0

/-! Link metric (R330) -/

/-- Failed segments among the last 256 sent. -/
def NeighCtx.fails (c : NeighCtx) : Nat := (c.sentHist.filter id).length

/-- Twice the symbol length in µs, by guard interval. -/
def symHalfUs (gi : Nat) : Nat := if gi = 0 then 45 else if gi = 1 then 50 else 60

/-- M of a link (R330); a link whose maps carry no bit has the largest M (log 25). -/
def State.metricOf (s : State) (c : NeighCtx) : Nat :=
  let f := c.fails
  let (t2, rn, rd, b4) :=
    if c.mapsValid then
      let m := c.map 0
      (symHalfUs m.gi.toNat, [1, 2, 5].getD m.rate.toNat 5, [2, 3, 6].getD m.rate.toNat 6,
       ((List.range 4).map (fun q => (c.map q).bits.toNat)).sum)
    else (60, 1, 2, 4 * slBits s.carriers.length (if s.get PLC_CTL_SLREP = 0 then 4 else 8))
  let den := 2 * rn * b4 * (256 - f)
  if den = 0 then 2 ^ 32 - 1
  else min (2 ^ 32 - 1) (roundDiv ((256 * 4192 * t2 * rd * 4 * 256 : Nat) : Int) den).toNat

/-- Recomputes the link metric. -/
def State.remetric (s : State) (i : Nat) : State :=
  s.modCtx i (fun c => { c with metric := BitVec.ofNat 32 (s.metricOf c) })

/-! Allocation (R323) -/

/-- Segments are queued for a neighbour. -/
def State.ctxQueued (s : State) (i : Nat) : Bool :=
  s.plc.queue.any (fun m => m.link == some i && !m.waitResp) ||
    (match s.plc.tx with | some t => t.nb == some i | none => false)

/-- KEYIDX of a node without a key (R323). -/
def noKey : Nat := 0xFFFF

/-- Reads a key into a context (R323). -/
def State.readKey (s : State) (i : Nat) (key : Fetch (BitVec 128)) : State :=
  if (s.ctx i).keyIdx.toNat = noKey ∨ ¬ s.dmaOn then s
  else match key with
    | .ok k => s.modCtx i (fun c => { c with key := k, keyOk := true })
    | .fault c a => s.dmaFault 19 c a

/-- Allocates a context (R323): a free one, else the one heard least recently among those with no queued segment; none qualifies:
NET_CTXFULL. -/
def State.ctxAlloc (s : State) (eui : BitVec 64) (laddr : BitVec 24) (keyIdx : BitVec 16) (key : Fetch (BitVec 128)) :
    State × Option Nat :=
  let older (b : Option Nat) (i : Nat) : Option Nat :=
    if s.ctxQueued i then b
    else match b with
      | none => some i
      | some j => if tsKey (s.ctx i).heard < tsKey (s.ctx j).heard then some i else some j
  let place := match (List.range 256).find? (fun i => !(s.ctx i).valid) with
    | some i => some i
    | none => (List.range 256).foldl older none
  match place with
  | none => (s.bump NET_CTXFULL_COUNT 1, none)
  | some i =>
    let old := s.ctx i
    let c : NeighCtx :=
      { NeighCtx.reset with valid := true, eui := eui, laddr := laddr, keyIdx := keyIdx,
                            gen := if old.eui = eui ∧ eui ≠ 0 then old.gen else old.gen + 1 }
    (((s.modCtx i (fun _ => c)).remetric i).readKey i key, some i)

/-- The context of a node from which something was received or which a route needs, allocated when it has none: the directory names
its node ID and key index. -/
def State.ctxFor (s : State) (laddr : BitVec 24) (key : Fetch (BitVec 128)) : State × Option Nat :=
  match s.ctxOf laddr with
  | some i => (s, some i)
  | none =>
    match s.dirByLaddr laddr with
    | some e => s.ctxAlloc e.node laddr e.keyIdx key
    | none => s.ctxAlloc 0 laddr (BitVec.ofNat 16 noKey) key

/-! What was sent (R322, R330) -/

/-- Segments sent to a neighbour, each failed or not, oldest first (R322, R330). -/
def State.sentSegs (s : State) (i : Nat) (l : List Bool) : State :=
  (s.modCtx i (fun c => { c with sentHist := (l.reverse ++ c.sentHist).take 256,
                                  sent := c.sent + BitVec.ofNat 32 l.length })).remetric i

/-! Negotiation (R305, R306) -/

/-- Length of a beacon period in units of 2^-24 s. -/
def State.beaconUnits (s : State) : Nat := s.plc.bpLen * 128 / 125

/-- A timestamp later by a number of units. -/
def tsLater (t : BitVec 64) (n : Nat) : BitVec 64 := BitVec.ofNat 64 (t.toNat / 2 ^ 60 * 2 ^ 60 + (tsKey t + n) % 2 ^ 60)

/-- A negotiation as it begins. -/
def State.newNeg (s : State) (initiator : Bool) (attempt : Nat) : Negotiation :=
  { initiator := initiator, attempt := attempt, t0 := s.ts, tPrev := s.ts, sent := 0, heard := 0, begun := false, half := none,
    reported := false, snr := [],
    erasure := [], cir := 0, other := [], final := [] }

/-- Starts a negotiation as initiator, unless one runs or the next attempt still waits for the refresh interval (R305). -/
def State.negStart (s : State) (i : Nat) : State :=
  if (s.ctx i).valid && (s.ctx i).neg.isNone && decide (tsKey (s.ctx i).negHold ≤ tsKey s.ts) then s.modCtx i (fun c => { c with neg := some (s.newNeg true 1) }) else s

/-- An attempt fails: a retry, up to 3 attempts; then the maps stay invalid, with the event, and the next attempt waits for the refresh
interval (R305). -/
def State.negFail (s : State) (i : Nat) : State :=
  match (s.ctx i).neg with
  | none => s
  | some n =>
    if 3 ≤ n.attempt then
      (s.modCtx i (fun c => { c with neg := none, maps := c.maps.map (fun (m : ToneMap) => { m with valid := false }), negHold := tsLater s.ts (s.get PLC_LINKCFG_REFINT * 2 ^ 24) })).event 0x0804 i
        .momentary n.attempt 0 0
    else if n.initiator then s.modCtx i (fun c => { c with neg := some (s.newNeg true (n.attempt + 1)) })
    else s.modCtx i (fun c => { c with neg := none })

/-- SNR in 0.5 dB that loading codes 1 to 7 need at a rate (R295). -/
def snrNeed (rate : Nat) : List Int :=
  if rate = 0 then [2, 8, 15, 20, 31, 42, 53] else if rate = 1 then [6, 12, 19, 24, 36, 47, 58] else [10, 16, 23, 29, 41, 53, 64]

/-- The largest loading code whose SNR is met. -/
def loadCode (rate : Nat) (margin snr : Int) : BitVec 4 :=
  BitVec.ofNat 4 ((snrNeed rate).takeWhile (fun n => decide (n + margin ≤ snr))).length

/-- Loadings of carriers 40 to 1720 in a slot, from the SNR measured. -/
def State.loadings (s : State) (n : Negotiation) (rate q : Nat) : List (BitVec 4) :=
  let cs := s.carriers
  let snr := assocGet [] n.snr q
  (List.range 1681).map (fun j =>
    if cs.contains (j + 40) then (match snr[j]? with | some x => loadCode rate (s.get PLC_LINKCFG_MARGIN) x | none => 0) else 0)

/-- Maps without validity for the first report: the responder's own loadings at the link's rate (log 26). -/
def State.reportMaps (s : State) (i : Nat) (n : Negotiation) : List ToneMap :=
  let m := (s.ctx i).map 0
  (List.range 4).map (fun q =>
    let l := s.loadings n m.rate.toNat q
    { m with valid := false, bits := BitVec.ofNat 64 (loadSum l), tsNeg := 0, segs := 0, failed := 0, load := l })

/-- The final maps the initiator chooses (R305 step 3): the smaller code of both ends, the rate with the most information bits, the
shortest guard interval that exceeds the impulse response, the next MAPID. -/
def State.finalMaps (s : State) (i : Nat) (n : Negotiation) : List ToneMap :=
  let loads (rate : Nat) : List (List (BitVec 4)) :=
    (List.range 4).map (fun q =>
      let own := s.loadings n rate q
      let other := n.other.getD q []
      (List.range 1681).map (fun j =>
        if erasureLimit rate < n.erasure.getD j 0 then 0
        else
          let a := own.getD j 0
          let b := other.getD j 0
          if a.toNat ≤ b.toNat then a else b))
  let info (rate : Nat) : Nat := ((loads rate).map loadSum).sum * [3, 4, 5].getD rate 5
  let rate := if info 0 < info 2 ∧ info 1 < info 2 then 2 else if info 0 < info 1 then 1 else 0
  let gi := if n.cir < 512 then 0 else if n.cir < 1024 then 1 else 2
  let id := ((s.ctx i).map 0).mapId + 1
  (loads rate).map (fun l =>
    { mapId := id, rate := BitVec.ofNat 2 rate, gi := BitVec.ofNat 2 gi, valid := true, bits := BitVec.ofNat 64 (loadSum l),
      tsNeg := 0, segs := 0, failed := 0, load := l })

/-- The maps of a completed negotiation come into use (R305 step 4). -/
def State.mapsInUse (s : State) (i : Nat) (maps : List ToneMap) : State :=
  let t := s.ts
  (s.modCtx i (fun c => { c with maps := maps.map (fun m => { m with valid := true, tsNeg := t }), mapAge := t, neg := none })).remetric i

/-- A SNR list and erasure rates measured on a sounding of slot q. -/
def Negotiation.measure (n : Negotiation) (q : Nat) (m : SoundIn) : Negotiation :=
  { n with heard := n.heard ||| BitVec.ofNat 4 (2 ^ q), snr := assocPut n.snr q m.snr, cir := max n.cir m.cir,
           erasure := (List.range 1681).map (fun j => max (n.erasure.getD j 0) (m.erasure.getD j 0)) }

/-- The initiator has the responder's report and soundings: it computes the final maps. -/
def State.negFinal (s : State) (i : Nat) : State :=
  match (s.ctx i).neg with
  | some n =>
    if n.initiator && n.heard == 15 && !n.other.isEmpty && n.final.isEmpty then
      let f := s.finalMaps i n
      s.modCtx i (fun c => { c with neg := some { n with final := f, tPrev := s.ts } })
    else s
  | none => s

/-! Context operations of the NET ring (R402) -/

/-- The 4,096 bytes of a context (R322); KEY reads as zero. -/
def NeighCtx.bytes (c : NeighCtx) : List (BitVec 8) :=
  slotBytes ([c.eui, BitVec.ofNat 64 (c.laddr.toNat + c.gen.toNat * 2 ^ 24 + c.valid.toNat * 2 ^ 32 + c.keyOk.toNat * 2 ^ 33),
    c.metric.zeroExtend 64, BitVec.ofNat 64 (c.fails + c.sent.toNat * 2 ^ 32), 0, 0,
    BitVec.ofNat 64 (c.txCtr.toNat + c.rxCtr.toNat * 2 ^ 32), c.keyIdx.zeroExtend 64, c.heard, c.mapAge] ++ List.replicate 22 0) ++
  (List.range 4).flatMap (fun q => (c.map q).bytes q) ++ List.replicate 192 0

/-- What CTX_WRITE takes from an image (log 27): EUI, LADDR and VALID; a different node gets a fresh context with the next
generation; with ARG[0] the four maps. -/
def State.ctxImage (s : State) (i : Nat) (arg : Nat) (l : List (BitVec 8)) : State :=
  let slot (k : Nat) : BitVec 64 := BitVec.ofNat 64 (natLE ((l.drop (8 * k)).take 8))
  let link := (slot 1).toNat
  let s := if (s.ctx i).eui = slot 0 then s
    else s.modCtx i (fun c => { NeighCtx.reset with gen := c.gen + 1, eui := slot 0, keyIdx := c.keyIdx })
  let s := s.modCtx i (fun c => { c with laddr := BitVec.ofNat 24 link, valid := bitAt link 32 })
  let s := if bitAt arg 0 then
      s.modCtx i (fun c => { c with maps := (List.range 4).map (fun q => mapOf ((l.drop (0x100 + 0x390 * q)).take 912)) })
    else s
  s.remetric i

/-- CTX_READ. -/
def State.opCtxRead (s : State) (d : Desc8) (r : BitVec 32) : State :=
  let i := bitsAt d.d1.toNat 0 8
  if ¬ (s.ctx i).valid ∨ bitsAt d.d3.toNat 0 32 < 4096 then s.netDone r stBadarg 0
  else (s.hostWrite (.bytes d.d2 (s.ctx i).bytes)).netDone r stDone (s.ctx i).gen.toNat

/-- CTX_WRITE without ARG[1]. -/
def State.opCtxWrite (s : State) (d : Desc8) (buf : Fetch (List (BitVec 8))) (r : BitVec 32) : State :=
  let i := bitsAt d.d1.toNat 0 8
  if bitsAt d.d3.toNat 0 32 < 4096 then s.netDone r stBadarg 0
  else s.netBuf r buf (fun l => (s.ctxImage i d.d4.toNat l).netDone r stDone 0)

/-- CTX_WRITE with ARG[1] (R312): KEYIDX and the key it names; a key equal to the one held is refused. -/
def State.opCtxRekey (s : State) (d : Desc8) (buf : Fetch (List (BitVec 8))) (key : Fetch (BitVec 128)) (r : BitVec 32) : State :=
  let i := bitsAt d.d1.toNat 0 8
  if bitsAt d.d3.toNat 0 32 < 4096 then s.netDone r stBadarg 0
  else s.netBuf r buf (fun l =>
    match key with
    | .fault c a => (s.dmaFault 12 c a).netDone r stFault 0
    | .ok k =>
      let c := s.ctx i
      if c.keyOk ∧ c.key = k then s.netDone r stRefused 0
      else
        let idx := BitVec.ofNat 16 (natLE ((l.drop 0x38).take 2))
        let s := s.ctxImage i d.d4.toNat l
        let s := s.modCtx i (fun c => { c with keyIdx := idx, key := k, keyOk := true, txCtr := 0, rxCtr := 0, exhausted := false })
        s.netDone r stDone 0)

/-- CTX_FREE. -/
def State.opCtxFree (s : State) (d : Desc8) (r : BitVec 32) : State :=
  let i := bitsAt d.d1.toNat 0 8
  if ¬ (s.ctx i).valid then s.netDone r stBadarg 0
  else if s.ctxQueued i then s.netDone r stRefused 0
  else (s.modCtx i (fun c => { NeighCtx.reset with gen := c.gen, eui := c.eui })).netDone r stDone 0

/-- RENEG. -/
def State.opReneg (s : State) (d : Desc8) (r : BitVec 32) : State :=
  let i := bitsAt d.d1.toNat 0 8
  if ¬ (s.ctx i).valid then s.netDone r stBadarg 0 else (s.negStart i).netDone r stDone 0

/-! Meanings -/

/-- CTX_READ (R402). -/
def execCtxRead (d : Desc8) (s : State) : Host.Outcome State Fault Refusal :=
  finish (fun s => s.netTake 0x10 d (fun s i => s.opCtxRead d i)) s

/-- CTX_WRITE (R402): with ARG[1] = 0. -/
def execCtxWrite (d : Desc8) (buf : Fetch (List (BitVec 8))) (s : State) : Host.Outcome State Fault Refusal :=
  finish (fun s => if bitAt d.d4.toNat 1 then s else s.netTake 0x11 d (fun s i => s.opCtxWrite d buf i)) s

/-- CTX_WRITE_REKEY (R312). -/
def execCtxWriteRekey (d : Desc8) (buf : Fetch (List (BitVec 8))) (key : Fetch (BitVec 128)) (s : State) :
    Host.Outcome State Fault Refusal :=
  finish (fun s => if bitAt d.d4.toNat 1 then s.netTake 0x11 d (fun s i => s.opCtxRekey d buf key i) else s) s

/-- CTX_FREE (R402). -/
def execCtxFree (d : Desc8) (s : State) : Host.Outcome State Fault Refusal :=
  finish (fun s => s.netTake 0x12 d (fun s i => s.opCtxFree d i)) s

/-- RENEG (R305). -/
def execReneg (d : Desc8) (s : State) : Host.Outcome State Fault Refusal :=
  finish (fun s => s.netTake 0x13 d (fun s i => s.opReneg d i)) s

/-- NEGOTIATION_STEP_TIMEOUT (R305): a step was not completed within 2 beacon periods of the previous one, or the negotiation
within 6 of the first sounding. -/
def execNegotiationStepTimeout (index : Nat) (s : State) : Host.Outcome State Fault Refusal :=
  finish (fun s =>
    match (s.ctx index).neg with
    | some n =>
      let p := s.beaconUnits
      if s.passed (tsLater n.tPrev (2 * p)) || ((n.begun || n.heard != 0) && s.passed (tsLater n.t0 (6 * p))) then s.negFail index
      else s
    | none => s) s

/-- The newest TSNEG of a link's maps (R306). -/
def NeighCtx.newestNeg (c : NeighCtx) : Nat := (List.range 4).foldl (fun t q => max t (tsKey (c.map q).tsNeg)) 0

/-- REFRESH_INTERVAL (R306): the newest TSNEG of the link's maps is older than REFINT seconds. -/
def execRefreshInterval (index : Nat) (s : State) : Host.Outcome State Fault Refusal :=
  finish (fun s =>
    if (s.ctx index).newestNeg + s.get PLC_LINKCFG_REFINT * 2 ^ 24 < tsKey s.ts then s.negStart index else s) s

end Sys2Proof.Machine
end

