-- ==== Sys2Proof/Machine/Mac.lean ====
section
/-!
DEFINITION. The powerline MAC's sending side (R302, R307, R310, R311, R318 to R320, R331 to R334, R401): MAC frames, next hops,
access to the line, transmissions, SACK waits, retransmission, beacons.
-/

namespace Sys2Proof.Machine

/-- This device's link address: 0 for the coordinator (R315). -/
def State.ownLaddr (s : State) : BitVec 24 := if s.flag NET_CTL_ROLE then BitVec.ofNat 24 (s.get NET_LADDR_LADDR) else 0

/-- A station, and an associated one. -/
def State.station (s : State) : Bool := s.flag NET_CTL_ROLE
def State.onNet (s : State) : Bool := !s.station || s.flag NET_STAT_ASSOC

/-- Transmission is possible (R71, R285, R288). -/
def State.txAble (s : State) : Bool :=
  s.pdOn 7 && s.flag NET_CTL_EN && s.flag PLC_CTL_TXEN && !s.flag PLC_STAT_MASKERR && s.flag PLC_STAT_VLDOK && !s.plc.overTemp

/-- The line is free for this device: it neither transmits nor receives nor awaits a SACK (R285). -/
def State.txIdle (s : State) : Bool := s.txAble && s.plc.tx.isNone && !s.flag PLC_STAT_RXBUSY

/-- Copies of a bit in safelight fallback (R296), and the MODE that says so. -/
def State.slMode (s : State) : Nat := if s.get PLC_CTL_SLREP = 0 then 1 else 2

/-! MAC frames (R332) -/

/-- The 16-byte header of a MAC frame on a link. -/
def MacTx.header (m : MacTx) (prot : Bool) (fctr keyId : Nat) : List (BitVec 8) :=
  bytesLE 16 (m.mtype.toNat + prot.toNat * 2 ^ 8 + m.resp.toNat * 2 ^ 9 + m.respReq.toNat * 2 ^ 10 + m.orig.toNat * 2 ^ 16 +
    m.final.toNat * 2 ^ 40 + fctr * 2 ^ 64 + keyId * 2 ^ 96 + m.hopLim.toNat * 2 ^ 104 + m.rseq.toNat * 2 ^ 112)

/-- Queues a MAC frame (R310, R401): it gets the next MAC frame sequence. -/
def State.enqueue (s : State) (m : MacTx) : State :=
  let n := segCount (16 + m.body.length + (if m.prot then 8 else 0))
  let m := { m with id := s.plc.nextId, seq := s.plc.macSeq, todo := (List.range n).map (fun i => (i, 0)), queuedAt := s.ts }
  s.modPlc (fun p => { p with queue := p.queue ++ [m], nextId := p.nextId + 1, macSeq := p.macSeq + 1 })

/-- A MAC frame that this device originates. -/
def State.ownFrame (s : State) (mtype : BitVec 8) (final : BitVec 24) (node : BitVec 64) (body : List (BitVec 8)) : MacTx :=
  { id := 0, desc := none, deadline := none, final := final, node := node, bcast := false, mtype := mtype, prot := false,
    resp := false, respReq := false, rseq := 0, orig := s.ownLaddr, hopLim := 7, body := body, seq := 0, link := none, frame := [],
    todo := [], txs := 0, waitResp := false, queuedAt := 0 }

/-- Changes a queued MAC frame. -/
def State.modFrame (s : State) (id : Nat) (f : MacTx → MacTx) : State :=
  s.modPlc (fun p => { p with queue := p.queue.map (fun m => if m.id = id then f m else m) })

/-- A MAC frame leaves the queue; its descriptor completes with a status (R334, R401, R402). -/
def State.frameEnd (s : State) (m : MacTx) (status : Nat) : State :=
  let s := s.modPlc (fun p => { p with queue := p.queue.filter (fun x => x.id != m.id) })
  match m.desc with
  | some (9, i) => s.descDone 9 i (status + min m.txs 255 * 2 ^ 8 + m.seq.toNat * 2 ^ 16)
  | some (_, i) => s.netDone i status m.txs
  | none => s

/-- A MAC frame fails: FAULTS of its destination, status FAULT, or DEADLINE where its deadline has passed first (R334). -/
def State.frameFail (s : State) (m : MacTx) : State :=
  let late := match m.deadline with | some d => s.lateFor d | none => false
  (s.dirTouch m.node (fun e => { e with failed := e.failed + 1 })).frameEnd m (if late then stDeadline else stFault)

/-- A MAC frame is delivered: done, unless a response is awaited (R334). -/
def State.frameSent (s : State) (m : MacTx) : State :=
  if m.respReq && !m.bcast then s.modFrame m.id (fun m => { m with waitResp := true }) else s.frameEnd m stDone

/-- Frames of a disabled ring's descriptors end ABORTED (R401). -/
def State.framesAbort (s : State) (r : Nat) : State :=
  let mine (m : MacTx) : Bool := match m.desc with | some (q, _) => q == r | none => false
  let s := (s.plc.queue.filter mine).foldl (fun s m => s.frameEnd m stAborted) s
  let w := s.plc.lookWait.filter mine
  w.foldl (fun s m => s.frameEnd m stAborted) (s.modPlc (fun p => { p with lookWait := p.lookWait.filter (fun m => !mine m) }))

/-! Next hop (R331) -/

/-- The usable candidates of an entry in order: context index. -/
def State.candidates (s : State) (e : DirEntry) : List Nat :=
  (List.range 3).filterMap (fun c =>
    let i := bitsAt e.nh.toNat (16 * c) 8
    if bitAt e.nh.toNat (48 + c) && (s.ctx i).valid && (s.ctx i).gen.toNat == bitsAt e.nh.toNat (16 * c + 8) 8 then some i else none)

/-- The next hop of a destination: the neighbour itself, else the candidate with the lowest metric, the lower candidate number on
equal metrics. -/
def State.nextHop (s : State) (final : BitVec 24) (node : BitVec 64) : Option Nat :=
  match s.ctxOf final with
  | some i => some i
  | none =>
    match s.dirFind node with
    | none => none
    | some e => (s.candidates e).foldl (fun (b : Option Nat) i =>
        match b with
        | none => some i
        | some j => if (s.ctx i).metric.toNat < (s.ctx j).metric.toNat then some i else some j) none

/-- A protected frame may go to a neighbour (R311, R323). -/
def NeighCtx.protReady (c : NeighCtx) : Bool := c.keyOk && !c.exhausted

/-! Access to the line (R318, R320) -/

/-- HFREF time a number of 256ths of the beacon period after its start. -/
def State.beaconAt (s : State) (n : Nat) : Nat := s.plc.bStart.getD 0 + n * s.plc.bpLen / 256

/-- The allocation in progress that names this device: the other party's link address, its end, and whether data may go: to the
receiver only once it has answered the sender with a SACK in it (R320, log 135). -/
def State.allocNow (s : State) : Option (BitVec 24 × Nat × Bool) :=
  if s.plc.bStart.isNone ∨ ¬ s.onNet then none
  else s.plc.alloc.findSome? (fun e =>
    let a := e.toNat
    let from_ := s.beaconAt (bitsAt a 48 8)
    let upTo := s.beaconAt (bitsAt a 48 8 + bitsAt a 56 8)
    if from_ ≤ s.exp.now ∧ s.exp.now < upTo then
      let turn := match s.plc.sackAt with | some t => decide (from_ ≤ t) && s.plc.sackDue.isNone | none => false
      if bitsAt a 0 24 = s.ownLaddr.toNat then some (BitVec.ofNat 24 (bitsAt a 24 24), upTo, true)
      else if bitsAt a 24 24 = s.ownLaddr.toNat then some (BitVec.ofNat 24 (bitsAt a 0 24), upTo, turn)
      else none
    else none)

/-- The end of the contention period in progress. -/
def State.contentionNow (s : State) : Option Nat :=
  match s.plc.bStart with
  | some b => if b + msCycles 2 ≤ s.exp.now ∧ s.exp.now < s.beaconAt s.plc.cpEnd.toNat then some (s.beaconAt s.plc.cpEnd.toNat) else none
  | none => none

/-! Putting a transmission on the line -/

/-- Starts a transmission with the next FSN: TXBUSY, and what goes on the line. -/
def State.airStart (s : State) (f : Fc) (info : List (BitVec 8)) (maps : List ToneMap) (t : TxNow) : State :=
  let fsn := s.plc.fsn + 1
  let f := { f with fsn := fsn.toNat, netId := s.get PLC_CTL_NETID, saddr := s.ownLaddr.toNat }
  let a := s.airFrame f info maps
  (s.modPlc (fun p => { p with fsn := fsn, out := p.out ++ [a], tx := some { t with fsn := fsn } })).setFlag PLC_STAT_TXBUSY true

/-- A transmission of this device without a neighbour's SACK and without segments of MAC frames. -/
def TxNow.plain (ftype : Nat) (nb : Option Nat) : TxNow :=
  { nb := nb, fsn := 0, ftype := ftype, nseg := 0, ackReq := false, mapped := false, segs := [], slot := 0, ended := false, cut := false,
    deadline := 0 }

/-- The line driver goes off (R53, R71, R285): the transmission on the line ends there. -/
def State.lineCut (s : State) : State :=
  match s.plc.tx with
  | some t =>
    if t.ended || t.cut then s
    else s.modPlc (fun p => { p with tx := some { t with cut := true },
                                     out := p.out.modify (p.out.length - 1) (fun a => { a with cutAt := some s.exp.now }) })
  | none => s

/-- Symbols of NSEG segments in safelight. -/
def State.slSymbols (s : State) (nrep nseg : Nat) : Nat :=
  let b := slBits s.carriers.length nrep
  if b = 0 then 0 else (4320 * codeCount 0 nseg + b - 1) / b

/-- Fields of R303 for a mapped transmission whose payload starts at an HFREF time: SLOT0, CHG0, STEP. -/
def State.slotPlan (s : State) (at_ gi : Nat) : Nat × Nat × Nat :=
  let t := symSamples gi
  let ph := at_ - s.plc.bStart.getD 0
  let k := ph * 16 / s.plc.bpLen
  (k % 4, (((k + 1) * s.plc.bpLen - 16 * ph) * 25 + 32 * t - 1) / (32 * t),
   (roundDiv ((s.plc.bpLen * 25 : Nat) : Int) (2 * t)).toNat)

/-- The link to a neighbour is used tone-mapped (R307, R334). -/
def State.useMaps (s : State) (i : Nat) : Bool :=
  let c := s.ctx i
  c.mapsValid && c.neg.isNone && decide (c.expired < 2) && s.plc.bStart.isSome && decide (0 < s.plc.bpLen)

/-- Frame-control fields of a data transmission of `n` segments (R291, R303): NSYM is 3,545 when its capacity does not suffice. -/
def State.dataFc (s : State) (dest : Option Nat) (n : Nat) (ack : Bool) : Fc :=
  let base (mode gi rate mapId nsym tspec : Nat) : Fc :=
    { ftype := 1, gi := gi, mode := mode, rate := rate, mapId := mapId, fsn := 0, netId := 0, saddr := 0,
      daddr := (match dest with | some i => (s.ctx i).laddr.toNat | none => 0xFFFFFF), nseg := n, nsym := nsym, ackReq := ack,
      tspec := tspec }
  let safe := base s.slMode 2 0 0 (s.slSymbols (if s.slMode = 1 then 4 else 8) n) 0
  match dest with
  | none => safe
  | some i =>
    if s.useMaps i then
      let c := s.ctx i
      let m := c.map 0
      let gi := m.gi.toNat
      let rate := m.rate.toNat
      let cs := s.carriers
      let cap (q : Nat) : Nat := ((allCarriers.map (mapBits cs (c.map q))).sum)
      let caps := (List.range 4).map cap
      let (s0, chg, step) := s.slotPlan (s.exp.now + sampleCycles 45056) gi
      let nsym := symCount (fun j => caps.getD (symSlot s0 chg step j) 0) (4320 * codeCount rate n)
      base 0 gi rate m.mapId.toNat nsym (s0 + min chg nsym * 2 ^ 2 + step * 2 ^ 14)
    else safe

/-- A data transmission of these fields ends by a limit, lasts at most 80 ms and holds its segments (R287, R291). -/
def State.fits (s : State) (f : Fc) (limit : Nat) : Bool :=
  decide (f.nsym < 3545) && decide (txSamples f.gi f.nsym ≤ 16384000) &&
    decide (s.exp.now + sampleCycles (txSamples f.gi f.nsym) ≤ limit)

/-- Samples of MINSPAN (R302). -/
def State.minSpan (s : State) : Nat := [0, 2048000, 4096000, 8192000].getD (s.get PLC_CTL_MINSPAN) 0

/-- How many of the queued segments a transmission carries: those of the oldest MAC frame, then more until the payload spans
MINSPAN, then as many as fit (R302). -/
def State.segsToSend (s : State) (dest : Option Nat) (base avail limit : Nat) (ack : Bool) : Nat :=
  let span (n : Nat) : Nat := (s.dataFc dest n ack).nsym * symSamples (s.dataFc dest n ack).gi
  let n := ((List.range (avail - base)).find? (fun k => decide (s.minSpan ≤ span (base + k)))).elim avail (fun k => base + k)
  (((List.range (min n 16383)).map (fun k => min n 16383 - k)).find? (fun k => s.fits (s.dataFc dest k ack) limit)).getD 0

/-- A frame is protected on a link: the neighbour's context holds a key (R310), or the descriptor asks for it (R401). -/
def MacTx.sealedFor (m : MacTx) (c : NeighCtx) : Bool := m.prot || c.keyOk

/-- A frame may go to a neighbour now: where it is protected, the context holds a key that is not exhausted (R310, R311). -/
def MacTx.mayGo (m : MacTx) (c : NeighCtx) : Bool := !m.sealedFor c || c.protReady

/-- A frame that its tag would take beyond 8 KiB (R310, log 137). -/
def MacTx.tooLong (m : MacTx) (c : NeighCtx) : Bool := m.sealedFor c && decide (8168 < m.body.length)

/-- Protects a MAC frame for a link (R310, R311): counted once per frame and link; exhaustion is logged. -/
def State.protect (s : State) (m : MacTx) (i : Nat) : State × MacTx :=
  if m.link = some i then (s, m)
  else
    let c := s.ctx i
    let n := segCount (16 + m.body.length + (if m.sealedFor c then 8 else 0))
    let keep := (List.range n).map (fun k => (k, assocGet m.txs m.todo k))
    if m.sealedFor c then
      let ctr := c.txCtr.toNat + 1
      let kid := c.keyIdx.toNat % 256
      let eui := s.wide [NET_EUI_LO, NET_EUI_HI]
      let f := ccmSeal (keyBytes c.key) (ccmNonce eui ctr kid) (m.header true ctr kid) m.body
      let s := s.modCtx i (fun c => { c with txCtr := BitVec.ofNat 32 ctr })
      let s := if ctr = 2 ^ 32 - 1 then (s.modCtx i (fun c => { c with exhausted := true })).event 0x0806 i .momentary 0 0 0 else s
      (s, { m with link := some i, frame := f, todo := keep })
    else
      (s, { m with link := some i, frame := m.header false 0 (c.keyIdx.toNat % 256) ++ m.body, todo := keep })

/-- Frames that may go to a neighbour now, in queue order. -/
def State.readyFor (s : State) (i : Nat) : List MacTx :=
  s.plc.queue.filter (fun m => !m.bcast && !m.waitResp && !m.todo.isEmpty && s.nextHop m.final m.node == some i &&
    m.mayGo (s.ctx i))

/-- Frames without a next hop fail (R331), as do those whose route cannot be looked up (R329) and those too long for their link. -/
def State.dropRouteless (s : State) : State :=
  let blind (m : MacTx) : Bool := (s.ctxOf m.final).isNone && (s.dirFind m.node).isSome && !s.dirSeen m.node
  let long (m : MacTx) : Bool := match s.nextHop m.final m.node with | some i => m.tooLong (s.ctx i) | none => false
  (s.plc.queue.filter (fun m => !m.bcast && !m.waitResp && !m.todo.isEmpty &&
      ((s.nextHop m.final m.node).isNone || blind m || long m))).foldl
    (fun s m => if blind m then s.lookupLost.frameFail m else if long m then s.frameFail m
      else (s.bump NET_NOROUTE_COUNT 1).frameFail m) s

/-- Puts segments of frames for one destination on the line. -/
def State.sendData (s : State) (dest : Option Nat) (frames : List MacTx) (limit : Nat) : State :=
  let ack := dest.isSome && frames.all (fun m => m.mtype != 0x02)
  let frames := if ack || dest.isNone then frames else frames.take 1
  let (s, frames) := frames.foldl (fun (a : State × List MacTx) m =>
    match dest with
    | some i => let (s, m) := a.1.protect m i; (s, a.2 ++ [m])
    | none => (a.1, a.2 ++ [{ m with link := none, frame := m.header false 0 0 ++ m.body }])) (s, [])
  let segs := frames.flatMap (fun m => m.todo.map (fun t => (m, t.1)))
  let base := match frames with | m :: _ => m.todo.length | [] => 0
  let n := s.segsToSend dest base segs.length limit ack
  let go := segs.take n
  let s := frames.foldl (fun s m => s.modFrame m.id (fun x => { x with link := m.link, frame := m.frame, todo := m.todo })) s
  if n = 0 then s
  else
    let ids := (go.map (fun g => g.1.id)).eraseDups
    let s := ids.foldl (fun s id =>
      let sent := go.filter (fun g => g.1.id == id)
      let again := match go.find? (fun g => g.1.id == id) with | some g => decide (0 < g.1.txs) | none => false
      let node := match go.find? (fun g => g.1.id == id) with | some g => g.1.node | none => 0
      let s := s.dirTouch node (fun e => if again then { e with retx := e.retx + 1 }
        else { e with sent := e.sent + 1 })
      s.modFrame id (fun m =>
        let l : List (Nat × Nat) := m.todo.map (fun t => if sent.any (fun g => g.2 == t.1) then (t.1, t.2 + 1) else t)
        { m with txs := m.txs + 1, todo := l })) s
    let f := s.dataFc dest n ack
    let info := go.flatMap (fun g => frameSegment g.1.seq.toNat g.1.frame g.2)
    let maps := match dest with | some i => (s.ctx i).maps | none => []
    s.airStart f info maps { TxNow.plain 1 dest with nseg := n, ackReq := ack, mapped := decide (f.mode = 0), segs := go.map (fun g => (g.1.id, g.2)) }

/-- Safelight 8× frame-control fields. -/
def Fc.safelight (ftype daddr nseg nsym tspec : Nat) (ack : Bool) : Fc :=
  { ftype := ftype, gi := 2, mode := 2, rate := 0, mapId := 0, fsn := 0, netId := 0, saddr := 0, daddr := daddr, nseg := nseg,
    nsym := nsym, ackReq := ack, tspec := tspec }

/-- Sends a tone-map report: four maps in eight segments (log 26). -/
def State.sendReport (s : State) (i : Nat) (maps : List ToneMap) (ack : Bool) : State :=
  let b := (List.range 4).flatMap (fun q => match maps[q]? with | some m => m.bytes q | none => [])
  let f := Fc.safelight 4 (s.ctx i).laddr.toNat 8 (s.slSymbols 8 8) 0 ack
  s.airStart f ((List.range 8).flatMap (frameSegment 0 b)) [] { TxNow.plain 4 (some i) with nseg := 8, ackReq := ack }

/-- The mains slot at this instant, its end, and the start of its half-cycle (R318). -/
def State.slotNow (s : State) : Option (Nat × Nat × Nat) :=
  match s.plc.bStart with
  | some b => if s.plc.bpLen = 0 then none
    else
      let k := (s.exp.now - b) * 16 / s.plc.bpLen
      some (k % 4, b + (k + 1) * s.plc.bpLen / 16, b + k / 4 * s.plc.bpLen / 4)
  | none => none

/-- The next step of a negotiation that this device can send now (R305); answers whether it sent something.  The four soundings go in
slots 0 to 3 of one half-cycle; a half-cycle that ends before the fourth is given up. -/
def State.negSend (s : State) (i limit : Nat) : State × Bool :=
  match (s.ctx i).neg with
  | none => (s, false)
  | some n =>
    let sounding (resp : Bool) : State × Bool :=
      match s.slotNow with
      | some (q, e, h) =>
        let sent := if n.half = some h then n.sent else 0
        if sent.toNat ≠ 2 ^ q - 1 ∨ min e limit < s.exp.now + sampleCycles (txSamples 2 16) then (s, false)
        else
          let s := s.modCtx i (fun c => { c with neg := some { n with sent := sent, half := some h } })
          let f := Fc.safelight 3 (s.ctx i).laddr.toNat 0 16 (q + resp.toNat * 4) false
          (s.airStart f [] [] { TxNow.plain 3 (some i) with slot := q }, true)
      | none => (s, false)
    let room := decide (s.exp.now + sampleCycles (txSamples 2 (s.slSymbols 8 8)) ≤ limit)
    if n.initiator then
      if n.sent ≠ 15 then sounding false
      else if !n.final.isEmpty && room then (s.sendReport i n.final true, true)
      else (s, false)
    else if n.heard ≠ 15 then (s, false)
    else if !n.reported then (if room then (s.sendReport i (s.reportMaps i n) false, true) else (s, false))
    else if n.sent ≠ 15 then sounding true
    else (s, false)

/-- Serves the line within a limit (R320): negotiation steps first, then, where `data` allows it, the oldest queued segment; `peer`
restricts it to one neighbour. -/
def State.serve (s : State) (peer : Option (BitVec 24)) (limit : Nat) (data : Bool) : State :=
  let s := s.dropRouteless
  let allowed (i : Nat) : Bool := match peer with | some l => (s.ctx i).laddr == l | none => true
  let negs := (List.range 256).filter (fun i => (s.ctx i).valid && (s.ctx i).neg.isSome && allowed i)
  let (s, sent) := negs.foldl (fun (a : State × Bool) i => if a.2 then a else a.1.negSend i limit) (s, false)
  if sent || !data then s
  else
    let dest (m : MacTx) : Option (Option Nat) :=
      if m.waitResp || m.todo.isEmpty then none
      else if m.bcast then (if peer.isNone then some none else none)
      else match s.nextHop m.final m.node with
        | some i => if allowed i && m.mayGo (s.ctx i) then some (some i) else none
        | none => none
    match s.plc.queue.findSome? (fun m => (dest m).map (fun d => (m, d))) with
    | some (_, none) => s.sendData none (s.plc.queue.filter (fun m => m.bcast && !m.waitResp && !m.todo.isEmpty)) limit
    | some (_, some i) => s.sendData (some i) (s.readyFor i) limit
    | none => s

/-- Something waits for the line. -/
def State.hasWork (s : State) : Bool :=
  s.plc.queue.any (fun m => !m.waitResp && !m.todo.isEmpty) || s.plc.ctxs.any (fun c => c.valid && c.neg.isSome)

/-! End of a transmission, SACK waits -/

/-- A received MAC frame that completed by a deadline has not been acted on (R39). -/
def State.arrivalPending (s : State) (deadline : BitVec 64) : Bool :=
  s.plc.ready.any (fun a => decide (tsKey a.ts ≤ tsKey deadline))

/-- Segments delivered: frames without any left are delivered. -/
def State.segsDone (s : State) (l : List (Nat × Nat)) : State :=
  let s := (l.map (·.1)).eraseDups.foldl (fun s id => s.modFrame id (fun m =>
    { m with todo := m.todo.filter (fun t => !(l.contains (id, t.1))) })) s
  (s.plc.queue.filter (fun m => m.todo.isEmpty && !m.waitResp)).foldl State.frameSent s

/-- Segments failed: those sent MAXTX times make their MAC frame fail (R334). -/
def State.segsFailed (s : State) (l : List (Nat × Nat)) : State :=
  let n := s.get NET_RETRY_MAXTX
  let bad (m : MacTx) : Bool := m.todo.any (fun t => l.contains (m.id, t.1) && decide (n ≤ t.2))
  (s.plc.queue.filter bad).foldl (fun s m => (s.bump NET_ACKTO_COUNT 1).frameFail m) s

/-- The deadline of a SACK (R333). -/
def State.sackDeadline (s : State) : BitVec 64 :=
  tsLater s.ts (roundDiv ((s.get NET_RETRY_ACKWAIT * 2 ^ 24 : Nat) : Int) 1000000).toNat

/-- The end of the last symbol (R285, R289).  A transmission that the line driver cut is not counted, and its segments failed
(log 127). -/
def State.txEnd (s : State) (clipped : Nat) (limitUs : Option Nat) : State :=
  match s.plc.tx with
  | none => s
  | some t =>
    if t.ended then s
    else
      let s := (s.setFlag PLC_STAT_TXBUSY false).bump PLC_TXCNT_TXCNT (if t.cut then 0 else 1)
      let s := if clipped = 0 then s else (s.bump PLC_CLIPCNT_CLIPCNT clipped).setFlag PLC_STAT_CLIP true
      let s := match limitUs with
        | some us => (s.setFlag PLC_STAT_ILIM true).event 0x0801 0 .momentary t.fsn.toNat us 0
        | none => s
      if t.ackReq then
        let d := s.sackDeadline
        s.modPlc (fun p => { p with tx := some { t with ended := true, deadline := d } })
      else
        let s := s.modPlc (fun p => { p with tx := none })
        if t.cut then s.segsFailed t.segs
        else match t.ftype, t.nb with
        | 1, _ =>
          let req := t.segs.any (fun g => s.plc.queue.any (fun m => m.id == g.1 && m.mtype == 0x02))
          let s := if req then
              let d := tsLater s.ts (2 * s.beaconUnits)
              s.modPlc (fun p => { p with assocDeadline := some d })
            else s
          s.segsDone t.segs
        | 3, some i => s.modCtx i (fun c => { c with neg := c.neg.map (fun n =>
            { n with sent := n.sent ||| BitVec.ofNat 4 (2 ^ t.slot), t0 := if n.begun ∨ ¬ n.initiator then n.t0 else s.ts,
                     begun := true, tPrev := s.ts }) })
        | 4, some i => s.modCtx i (fun c => { c with neg := c.neg.map (fun n => { n with reported := true, tPrev := s.ts }) })
        | _, _ => s

/-- SACK_TIMEOUT (R334, R320): the wait of a transmission expires. -/
def State.sackExpire (s : State) : State :=
  match s.plc.tx with
  | none => s
  | some t =>
    if ¬ t.ended ∨ ¬ s.passed t.deadline then s
    else
      let s := s.modPlc (fun p => { p with tx := none, cw := min 256 (2 * p.cw), txAfter := s.exp.now + usCycles 20 })
      let s := match t.nb with
        | some i => (s.modCtx i (fun c => { c with expired := c.expired + 1 })).sentSegs i (List.replicate t.nseg true)
        | none => s
      s.segsFailed t.segs

/-! Beacons (R318 to R320) -/

/-- Length of the beacon period that starts now (R318, R43): two mains periods, corrected by half the offset from the accepted
rising crossing it lies nearest to, by at most 1,638 cycles (log 28). -/
def State.periodLen (s : State) : Nat :=
  let free : Nat := 2 * s.evt.mainsNs.getD 20000000 * 16384 / 1000000
  let g := s.evt.groups.getD 0 GroupState.reset
  if s.evt.macFree ∨ g.fcyc = 0 then free
  else match g.lastRise with
    | none => free
    | some t =>
      let period : Int := ((16384000 * 2 ^ 24 / g.fcyc : Nat) : Int)
      let off : Int := ((t / 65536 : Nat) : Int) - s.exp.now
      let r := off % period
      let r := if period < 2 * r then r - period else r
      (2 * period + clampInt (-1638) 1638 (r / 2)).toNat

/-- The allocation list of a beacon (R320): negotiation steps, then links with queued segments, oldest first, each up to 20 ms. -/
def State.makeAlloc (s : State) (cpEnd : Nat) : List (BitVec 64) :=
  let negs := (List.range 256).filter (fun i => (s.ctx i).valid && (s.ctx i).neg.isSome)
  let links := s.plc.queue.filterMap (fun m =>
    if m.bcast || m.waitResp || m.todo.isEmpty then none else s.nextHop m.final m.node)
  let unit := if s.plc.bpLen = 0 then 0 else msCycles 20 * 256 / s.plc.bpLen
  let add (a : Nat × List (BitVec 64)) (i : Nat) : Nat × List (BitVec 64) :=
    let len := min unit (255 - a.1)
    if len = 0 || decide (63 ≤ a.2.length) then a
    else (a.1 + len, a.2 ++ [BitVec.ofNat 64 ((s.ctx i).laddr.toNat * 2 ^ 24 + a.1 * 2 ^ 48 + len * 2 ^ 56)])
  (((negs ++ links).eraseDups).foldl add (cpEnd, [])).2

/-- BEACON_PERIOD_START of the coordinator: the period's length, division and allocations, and the beacon. -/
def State.beaconStart (s : State) : State :=
  if s.station ∨ ¬ s.flag NET_CTL_EN ∨ ¬ s.pdOn 7 then s
  else
    let b := match s.plc.bStart with | some b => b + s.plc.bpLen | none => s.exp.now
    let s := s.reach b
    let len := s.periodLen
    let cp := (roundDiv ((s.get NET_CTL_CPLEN * 256 : Nat) : Int) 100).toNat
    let s := s.modPlc (fun p => { p with bStart := some b, bpLen := len, cpEnd := BitVec.ofNat 8 cp, bSeq := p.bSeq + 1, backoff := none })
    let al := s.makeAlloc cp
    let s := s.modPlc (fun p => { p with alloc := al })
    if ¬ s.txIdle then s
    else
      let ts := s.ts.toNat
      let tspec := ts % 2 ^ 60 + bitsAt ts 60 1 * 2 ^ 60 + len * 2 ^ 61 + cp * 2 ^ 83 + s.plc.bSeq.toNat * 2 ^ 91
      let body := bytesLE 8 al.length ++ slotBytes al
      let seg := segmentBytes 0 0 1 (body.take 512)
      s.airStart (Fc.safelight 0 0xFFFFFF 1 (s.slSymbols 8 1) tspec false) seg [] (TxNow.plain 0 none)

/-! PLC_TX and ROUTE_SET (R401, R402) -/

/-- A transmit request is refused (R285, R401). -/
def State.txRefused (s : State) : Bool :=
  !s.flag PLC_CTL_TXEN || s.flag PLC_STAT_MASKERR || !s.flag PLC_STAT_VLDOK || s.plc.overTemp || !s.onNet

/-- Queues a frame whose destination's entry was looked up; a destination without a repeater gets a context when it has none. -/
def State.enqueueTo (s : State) (m : MacTx) (e : Option DirEntry) (key : Fetch (BitVec 128)) : State :=
  match e with
  | none => s.enqueue m
  | some e =>
    let m := { m with final := e.laddr, node := e.node }
    if e.hops = 0 ∧ (s.ctxOf e.laddr).isNone then ((s.ctxFor e.laddr key).1).enqueue m else s.enqueue m

/-- PLC_TX: the descriptor is taken, its payload read and the MAC frame formed. -/
def State.plcTx (s : State) (d : Desc8) (payload : Fetch (List (BitVec 8))) (key : Fetch (BitVec 128)) : State :=
  match s.nextDesc 9 with
  | none => s
  | some i =>
    let s := s.takeDesc 9 i
    let h := d.d0.toNat
    let prot := bitAt h 0
    let len := bitsAt d.d4.toNat 0 16
    if s.txRefused then s.descDone 9 i stRefused
    else if len = 0 ∨ (if prot then 8168 else 8176) < len then s.descDone 9 i stBadarg
    else match payload with
      | .fault c a => (s.dmaFault 9 c a).descDone 9 i stFault
      | .ok l =>
        let m := { s.ownFrame 0x01 0xFFFFFF d.d2 (l.take len) with
          desc := some (9, i), deadline := if bitAt h 4 then some d.d1 else none, bcast := bitAt h 3, prot := prot && !bitAt h 3,
          resp := bitAt h 1, respReq := bitAt h 2, rseq := if bitAt h 1 then BitVec.ofNat 16 (bitsAt d.d4.toNat 16 16) else 0 }
        if m.bcast then s.enqueue m
        else if s.station ∧ d.d2 = 0 then
          match s.dirByLaddr 0 with
          | some e => s.enqueueTo { m with final := 0 } (some e) key
          | none => s.enqueue { m with final := 0, node := 0 }
        else if ¬ s.dirReady then s.descDone 9 i stBadarg
        else if s.plc.cache.any (fun e => e.1 == d.d2) then
          match s.dirFind d.d2 with
          | some e => (s.cacheUse d.d2 false).enqueueTo m (some e) key
          | none => s.descDone 9 i stBadarg
        else s.modPlc (fun p => { p with lookWait := p.lookWait ++ [m] })

/-- DIRECTORY_LOOKUP_MISS (R329): the oldest lookup that goes to host memory completes. -/
def State.lookupDone (s : State) (served : Fetch Unit) (key : Fetch (BitVec 128)) : State :=
  match s.plc.lookWait with
  | [] => s
  | m :: rest =>
    let s := s.modPlc (fun p => { p with lookWait := rest })
    match s.dmaOn, served with
    | true, .ok _ =>
      let s := s.lookupServed
      (match s.dirFind m.node with
      | some e => (s.cacheUse m.node false).enqueueTo m (some e) key
      | none => s.frameEnd m stBadarg)
    | true, .fault c a => (((s.dmaFault 19 c a).lookupLost).frameEnd m stFault)
    | false, _ => (s.lookupLost).frameEnd m stFault

/-- ROUTE_SET: a route-set frame to a repeater (R402, R403). -/
def State.opRouteSet (s : State) (d : Desc8) (buf : Fetch (List (BitVec 8))) (i : BitVec 32) : State :=
  let len := bitsAt d.d3.toNat 0 32
  if ¬ s.dirReady ∨ s.txRefused then s.netDone i stRefused 0
  else match s.dirFind d.d1 with
    | none => s.netDone i stBadarg 0
    | some e =>
      if len < 32 ∨ 8160 < len ∨ len % 32 ≠ 0 then s.netDone i stBadarg 0
      else s.netBuf i buf (fun l =>
        s.enqueue { s.ownFrame 0x04 e.laddr e.node (l.take len) with
          desc := some (12, i), prot := decide (e.keyIdx.toNat ≠ noKey) })

/-! Meanings -/

/-- PLC_TX (R401). -/
def execPlcTx (d : Desc8) (payload : Fetch (List (BitVec 8))) (key : Fetch (BitVec 128)) (s : State) :
    Host.Outcome State Fault Refusal := finish (fun s => s.plcTx d payload key) s

/-- DIRECTORY_LOOKUP_MISS (R329). -/
def execDirectoryLookupMiss (served : Fetch Unit) (key : Fetch (BitVec 128)) (s : State) : Host.Outcome State Fault Refusal :=
  finish (fun s => s.lookupDone served key) s

/-- ROUTE_SET (R403). -/
def execRouteSet (d : Desc8) (buf : Fetch (List (BitVec 8))) (s : State) : Host.Outcome State Fault Refusal :=
  finish (fun s => s.netTake 0x20 d (fun s i => s.opRouteSet d buf i)) s

/-- PLC_TX_DEADLINE_EXPIRY (R334): not while an answer that has arrived in time waits to be acted on (R39). -/
def execPlcTxDeadlineExpiry (idx : BitVec 32) (s : State) : Host.Outcome State Fault Refusal :=
  finish (fun s =>
    let due (m : MacTx) : Bool := m.desc == some (9, idx) &&
      (match m.deadline with | some d => s.passed d && !(m.waitResp && s.arrivalPending d) | none => false)
    match (s.plc.queue ++ s.plc.lookWait).find? due with
    | some m => (s.modPlc (fun p => { p with lookWait := p.lookWait.filter (fun x => x.desc != m.desc) })).frameEnd m stDeadline
    | none => s) s

/-- BEACON_PERIOD_START (R318). -/
def execBeaconPeriodStart (s : State) : Host.Outcome State Fault Refusal := finish (fun s => s.beaconStart) s

/-- TRANSMISSION_START (R289, R320): within an allocation that names this device the transmission starts; in the contention period,
with no carrier detected, a backoff of 0 to CW - 1 units of 40 µs is drawn. -/
def execTransmissionStart (backoff : Nat) (s : State) : Host.Outcome State Fault Refusal :=
  finish (fun s =>
    if ¬ s.txIdle ∨ ¬ s.hasWork then s
    else
      let s := s.reach s.plc.txAfter
      match s.allocNow, s.contentionNow with
      | some (peer, limit, data), _ => s.serve (some peer) limit data
      | none, some _ =>
        if s.flag PLC_STAT_CD ∨ s.plc.backoff.isSome then s
        else s.modPlc (fun p => { p with backoff := some (s.exp.now + backoff % p.cw * usCycles 40) })
      | none, none => s) s

/-- BACKOFF_EXPIRY (R320): the transmission starts if it ends before CPEND. -/
def execBackoffExpiry (s : State) : Host.Outcome State Fault Refusal :=
  finish (fun s =>
    match s.plc.backoff with
    | none => s
    | some t =>
      let s := s.reach t
      let s := s.modPlc (fun p => { p with backoff := none })
      match s.contentionNow with
      | some limit => if s.txIdle then s.serve none limit true else s
      | none => s) s

/-- TRANSMISSION_END (R285). -/
def execTransmissionEnd (clipped : Nat) (limitUs : Option Nat) (s : State) : Host.Outcome State Fault Refusal :=
  finish (fun s => s.txEnd clipped limitUs) s

/-- SACK_TIMEOUT (R334). -/
def execSackTimeout (s : State) : Host.Outcome State Fault Refusal := finish (fun s => s.sackExpire) s

/-- LINE_DRIVER_OVERTEMP (R285). -/
def execLineDriverOvertemp (s : State) : Host.Outcome State Fault Refusal :=
  finish (fun s => if s.plc.overTemp ∨ ¬ s.pdOn 7 then s
    else (s.lineCut.modPlc (fun p => { p with overTemp := true })).event 0x0802 0 .start 0 0 0) s

/-- LINE_DRIVER_COOLED (R285). -/
def execLineDriverCooled (s : State) : Host.Outcome State Fault Refusal :=
  finish (fun s => if s.plc.overTemp then (s.modPlc (fun p => { p with overTemp := false })).event 0x0802 0 .stop 0 0 0 else s) s

end Sys2Proof.Machine
end

