-- ==== Sys2Proof/Machine/Link.lean ====
section
/-!
DEFINITION. The host interface (R380 to R411): rings and doorbells, completions, DMA reads, deadlines of taken commands, and
the loss of the PCI Express function.
-/

namespace Sys2Proof.Machine

/-- Changes the host-interface state. -/
def State.modHif (s : State) (f : HifState → HifState) : State := { s with hif := f s.hif }

/-! Taken commands that are given up (R39, R396, R405) -/

/-- Forgets the DMA reads that serve a command. -/
def State.dropReads (s : State) (src : CmdSrc) : State :=
  s.modHif (fun f => { f with dmaReads := f.dmaReads.filter (fun r => match r.2 with
    | .coef c | .corr c | .cvu c => decide (c ≠ src)) })

/-- A taken command is withdrawn: nothing of it happens any more, and no completion is written here. -/
def State.withdraw (s : State) (t : Taken) : State :=
  let s := match t.wait with
    | .coefDma .. | .corrDma _ => s.dropReads t.hdr.src
    | .corrBoundary n => s.modChan n (fun c => { c with corrNext := none })
    | .snapshot => s.snapDrop t.hdr.src
    | .calWindow p => s.modLdg (fun l => { l with cals := l.cals.filter (fun w => !(w.point == p && decide (w.src = t.hdr.src))) })
    | .fcvSeq => s.runDrop t.hdr.src
    | .cvu u => (s.setScan u none).dropReads t.hdr.src
    | .rtcStep => s.dropStep
    | _ => s
  (s.untake t).rtcPend

/-- COMMAND_DEADLINE_EXPIRY (R39, R396): a waiting command whose deadline the clock has passed by more than 4 µs completes with
DEADLINE.  A SYNC and a capture still take effect; a calibration window follows R163, a scan R379. -/
def State.expireCommand (s : State) (src : CmdSrc) : State :=
  match s.taken.find? (fun t => decide (t.hdr.src = src) && t.hdr.dlv && judgedLater t.op && s.passed t.hdr.deadline) with
  | none => s
  | some t =>
    let fin (s : State) (p0 p1 : Nat) : State := if t.muted then s else s.complete t.op t.hdr stDeadline p0 p1 0
    match t.wait with
    | .late | .sync => fin (s.untake t) 0 0
    | .rtcCapture => fin ((s.untake t).modRtc (fun r => { r with capture := true })) 0 0
    | .calWindow p => s.calExpire t p
    | .cvu u =>
      let (s, units, val) := s.scanHalt u
      fin (s.withdraw t) (units * 2 ^ 32) val
    | _ => fin (s.withdraw t) 0 0

/-! Rings (R385 to R390) -/

/-- The enabled ring's index and status registers start afresh (R386). -/
def State.ringStart (s : State) (r : Nat) : State :=
  let s := ((s.wr (HIF_RCIDX r) 0).wr (HIF_RPIDX r) 0).put (HIF_RSTAT_SHORT r) 0
  let s := (s.setFlag (HIF_RSTAT_RUN r) true).modRing r (fun a =>
    { a with irqCount := 0, irqSince := none, dropCnt := 0, posted := [], open_ := [] })
  s.statusRing r

/-- The ring stops after the descriptor in progress (R386); frames of PLC_TX and NET descriptors end ABORTED (R401). -/
def State.ringStop (s : State) (r : Nat) : State :=
  let s := if 4 ≤ r ∧ r ≤ 7 then s.smpReturn r else s
  let s := if r = 9 ∨ r = 12 then s.framesAbort r else s
  let s := if r = 0 then s.modHif (fun f => { f with fetched := [] }) else s
  ((s.setFlag (HIF_RSTAT_RUN r) false).modRing r (fun a => { a with posted := [], open_ := [] })).statusRing r

/-- HIF_RCFGr: a change of EN starts or stops the ring (R386). -/
def State.wrRcfg (w : WriteBy) (r : Nat) (v : BitVec 32) (s : State) : State :=
  let t := s.storeWrite w (HIF_RCFG r) v
  if t.flag (HIF_RCFG_EN r) = s.flag (HIF_RCFG_EN r) then t
  else if t.flag (HIF_RCFG_EN r) then t.ringStart r
  else t.ringStop r

/-- The P of a ring as a doorbell read shows it (R385, R387): a P more than the ring's size ahead of C stops the ring. -/
def State.ringDoorbell (s : State) (r : Nat) (p : BitVec 32) : State :=
  if !s.ringRun r then s
  else if 2 ^ s.get (HIF_RCFG_LOG2SIZE r) < (p - s.ringC r).toNat then
    (((s.ringStop r).setFlag (HIF_RSTAT_RERR r) true).statusRing r).event 0x0B02 r .momentary p.toNat (s.ringC r).toNat 0
  else s.wr (HIF_RPIDX r) p

/-- Buffer descriptors fetched for a device ring, up to P; a fetch that ends in a DMA fault ends the list (R382). -/
def State.ringPost (s : State) (r : Nat) : List (Fetch BufDesc) → State
  | [] => s
  | .ok d :: t =>
    if s.ringRun r && decide ((s.ring r).posted.length < s.ringOwned r) then
      (s.modRing r (fun a => { a with posted := a.posted ++ [d] })).ringPost r t
    else s
  | .fault c a :: _ => s.dmaFault r c a

/-- Rings whose buffers come from the host as buffer descriptors (R384, R397). -/
def bufferRings : List Nat := [3, 4, 5, 6, 7, 8, 10, 11]

/-- Command descriptors fetched, up to P (R392). -/
def State.fetchCmds (s : State) : List (Fetch Desc8) → State
  | [] => s
  | .ok d :: t =>
    let n := s.hif.fetched.length
    if s.ringRun 0 && decide (n < s.ringOwned 0) then
      (s.modHif (fun f => { f with fetched := f.fetched ++ [(s.ringC 0 + BitVec.ofNat 32 n, d)] })).fetchCmds t
    else s
  | .fault c a :: _ => s.dmaFault 0 c a

/-- A kick, or the routine read of a boundary: a doorbell read starts, or one further read follows that in flight (R387).  None
starts while the device issues no DMA (R381). -/
def State.doorbell (s : State) : State :=
  if s.pdOn 9 && s.flag HIF_STAT_LINKUP && s.flag HIF_STAT_BME && s.get HIF_STAT_DSTATE == 0 then
    s.modHif (fun f => if f.dbInFlight then { f with dbAgain := true } else { f with dbInFlight := true })
  else s

/-- MODTIME of a ring expires: its vector is signalled (R390). -/
def State.moderationEnd (s : State) (r : Nat) : State :=
  match (s.ring r).irqSince with
  | some t =>
    let m := s.get (HIF_RMOD_MODTIME r)
    if m = 0 ∨ ¬ s.flag (HIF_RCFG_IEN r) then s
    else
      let s := s.reach (t + usCycles m)
      (s.modRing r (fun a => { a with irqCount := 0, irqSince := none })).signal (s.get (HIF_RCFG_VEC r))
  | none => s

/-- The oldest waiting completion goes into the next CPL descriptor (R393). -/
def State.completionWrite (s : State) : State :=
  match s.hif.cplQ with
  | [] => s
  | c :: t =>
    if s.ringRun 1 ∧ s.dmaOn ∧ 0 < s.ringOwned 1 then
      ((s.hostWrite (.mem (s.descAddr 1 (s.ringC 1)) c.slots)).modHif (fun f => { f with cplQ := t })).returnDescs 1 1
    else s

/-! DMA reads of commands (R382) -/

/-- A DMA read for a command ends: its data is used, or its command ends with FAULT (R145, R159, R379). -/
def State.readDone (s : State) (id : Nat) (data : Fetch (List (BitVec 64))) : State :=
  match s.hif.dmaReads.find? (fun r => r.1 == id) with
  | none => s
  | some (_, use) =>
    let s := s.modHif (fun f => { f with dmaReads := f.dmaReads.filter (fun r => r.1 != id) })
    let loaded (src : CmdSrc) : Option Taken := s.taken.find? (fun t => decide (t.hdr.src = src) && (match t.wait with
      | .coefDma .. | .corrDma _ => true
      | _ => false))
    match use, data with
    | .coef src, .ok d | .corr src, .ok d =>
      match loaded src with
      | some t => s.coefArrived t d
      | none => s
    | .coef src, .fault c a | .corr src, .fault c a =>
      let s := s.dmaFault 20 c a
      match loaded src with
      | some t => s.done t stFault 0 0 0
      | none => s
    | .cvu src, d =>
      match (List.range 4).find? (fun u => match s.scan u with | some q => decide (q.src = src) | none => false), d with
      | some u, .ok d => s.setScan u ((s.scan u).map (fun q => { q with data := some ((slotBytes d).take q.args.len) }))
      | some u, .fault c a => (s.dmaFault 20 c a).stopScan u stFault
      | none, .ok _ => s
      | none, .fault c a => s.dmaFault 20 c a

/-! Loss of the host interface (R79, R381, R405) -/

/-- Registers of the HIF block and the MSI-X table and PBA. -/
def hifRegister (off : Nat) : Bool := (0x0800 ≤ off && off < 0x0D00) || (0xE000 ≤ off && off < 0xE900)

/-- Commands that still take effect at a loss of the host interface; every other one is withdrawn (R405). -/
def keptOps : List Nat := [0x01, 0x02, 0x11, 0x12, 0x13, 0x20, 0x23, 0x30, 0x31, 0x32, 0x40, 0x60, 0x61, 0x70, 0x71, 0x72]

/-- Settles the commands of the CMD ring; none of them completes (R405). -/
def State.settleRing (s : State) : State :=
  let ring (t : Taken) : Bool := match t.hdr.src with | .ring _ => true | _ => false
  let s := (s.taken.filter (fun t => ring t && (t.wait == Wait.late || !keptOps.contains t.op.toNat))).foldl
    (fun s t => s.withdraw t) s
  { s with taken := s.taken.map (fun t => if ring t then { t with muted := true } else t) }

/-- Reads of host memory for mailbox commands end as DMA faults do: FAULT (R379, R409). -/
def State.readsLost (s : State) : State :=
  s.hif.dmaReads.foldl (fun s r => match r.2 with
    | .coef src | .corr src =>
      match s.taken.find? (fun t => decide (t.hdr.src = src) && (match t.wait with | .coefDma .. | .corrDma _ => true | _ => false)) with
      | some t => s.done t stFault 0 0 0
      | none => s
    | .cvu src =>
      match (List.range 4).find? (fun u => match s.scan u with | some q => decide (q.src = src) | none => false) with
      | some u => s.stopScan u stFault
      | none => s) s

/-- Records of a ring that are discarded count as dropped (R405). -/
def State.dropMany (s : State) (r n : Nat) : State := State.each n (fun _ s => s.dropRecord r) s

/-- PE_PERST_N, a hot reset or a link down, with the reach of R78: the HIF block is reset, taken ring commands are settled, and
what waits on chip for the host is discarded (R381, R405). -/
def State.hifLost (s : State) : State :=
  let up := s.flag HIF_STAT_LINKUP
  let waiting := s.ldg.ldgQ.length
  let s := s.modHif (fun f => { f with dmaStopped := true })
  let s := ((s.framesAbort 9).framesAbort 12).settleRing.readsLost
  let held := s.ldg.ldgQ.filter (fun w => match w.src with | some (.mailbox _) => true | _ => false)
  let ldgN := waiting - held.length
  let smpN := (List.range 4).map (fun i => (s.smpFill (4 + i)).fill.blocks)
  let rxN := s.plc.rxQ.length
  let s := { s with regs := s.regs.filter (fun e => !hifRegister e.1)
                    plc := { s.plc with rxQ := [] } }
  let s := s.modLdg (fun l => { l with ldgQ := held, dropped := l.dropped || l.ldgQ.any LdgWait.auto })
  let s := s.modHif (fun f => { f with
    rings := List.replicate 16 RingAux.reset
    dmaStopped := false
    dbInFlight := false
    dbAgain := false
    fetched := []
    cplQ := []
    hb := 0
    linkLost := f.linkLost || up
    dmaReads := []
    smp := f.smp.map (fun x =>
      { fill := { used := 0, blocks := 0, expno := 0, ts := 0 }, droppedBefore := x.droppedBefore + x.fill.blocks })
    latchPcie := []
    stagePcie := [] })
  let s := ((s.dropMany 3 ldgN).dropMany 10 rxN)
  let s := (smpN.zipIdx).foldl (fun s x => s.dropMany (4 + x.2) x.1) s
  if up then s.event 0x0B03 0 .start 0 0 0 else s

/-- PCI Express link training completes, from READY on (R82, R405): LINKUP, SPEED and WIDTH, and the end of a link-down event. -/
def State.linkUp (s : State) (speed width : Nat) : State :=
  if !s.pdOn 9 || !s.ready || s.flag HIF_STAT_LINKUP || !(speed == 1 || speed == 2) || !(width == 1 || width == 2) then s
  else
    let s := ((s.setFlag HIF_STAT_LINKUP true).put HIF_STAT_SPEED speed).put HIF_STAT_WIDTH width
    if s.hif.linkLost then (s.modHif (fun f => { f with linkLost := false })).event 0x0B03 0 .stop 0 0 0 else s

/-! Meanings -/

/-- RING_ENABLE (R386). -/
def execRingEnable (p : Port) (r : Nat) (v : BitVec 32) (s : State) : Host.Outcome State Fault Refusal :=
  finish (State.wrRcfg (.port p) r v) s

/-- RING_DISABLE (R386). -/
def execRingDisable (p : Port) (r : Nat) (v : BitVec 32) (s : State) : Host.Outcome State Fault Refusal :=
  finish (State.wrRcfg (.port p) r v) s

/-- DB_KICK (R387): any write starts a doorbell read. -/
def execDbKick (_p : Port) (_v : BitVec 32) (s : State) : Host.Outcome State Fault Refusal :=
  finish (fun s => s.doorbell) s

/-- INTERRUPT_MODERATION_TIMEOUT (R390). -/
def execInterruptModerationTimeout (r : Nat) (s : State) : Host.Outcome State Fault Refusal :=
  finish (fun s => s.moderationEnd r) s

/-- COMMAND_DEADLINE_EXPIRY (R39). -/
def execCommandDeadlineExpiry (src : CmdSrc) (s : State) : Host.Outcome State Fault Refusal :=
  finish (fun s => s.expireCommand src) s

/-- DMA_READ_DONE (R382). -/
def execDmaReadDone (id : Nat) (data : Fetch (List (BitVec 64))) (s : State) : Host.Outcome State Fault Refusal :=
  finish (fun s => s.readDone id data) s

/-- PE_PERST_N (R405): PE_PERST_N, a hot reset or a link down. -/
def execPePerstN (_cause : LinkLoss) (s : State) : Host.Outcome State Fault Refusal :=
  finish (fun s => if s.pdOn 9 then s.hifLost else s) s

/-- PCIE_LINK_UP (R405). -/
def execPcieLinkUp (speed width : Nat) (s : State) : Host.Outcome State Fault Refusal :=
  finish (fun s => s.linkUp speed width) s

/-- BUS_MASTER_ENABLE (R381): D0 with Bus Master Enable; DMA resumes at the next doorbell read. -/
def execBusMasterEnable (s : State) : Host.Outcome State Fault Refusal :=
  finish (fun s =>
    if s.pdOn 9 ∧ s.flag HIF_STAT_LINKUP then (s.put HIF_STAT_DSTATE 0).setFlag HIF_STAT_BME true else s) s

/-- BUS_MASTER_DISABLE (R381): D3hot, or Bus Master Enable cleared: no DMA and no MSI-X message any more. -/
def execBusMasterDisable (d3hot : Bool) (bme : Bool) (s : State) : Host.Outcome State Fault Refusal :=
  finish (fun s =>
    if s.pdOn 9 ∧ s.flag HIF_STAT_LINKUP then
      let s := (s.put HIF_STAT_DSTATE (if d3hot then 3 else 0)).setFlag HIF_STAT_BME bme
      if d3hot ∨ ¬ bme then s.modHif (fun f => { f with dmaStopped := true }) else s
    else s) s

end Sys2Proof.Machine
end

