-- ==== Sys2Proof/Machine/Plc.lean ====
section
/-!
DEFINITION. The powerline's receiving side: requests for reception (R308), received transmissions (R289 to R293, R307, R309), MAC
frames (R310, R311, R332, R400), beacons, time distribution and association (R314 to R321), route sets (R403).
-/

namespace Sys2Proof.Machine

/-! Reception (R308) -/

/-- A request for reception: it takes the converter, or is counted in PLC_RXMISS while FCV_CAL holds it. -/
def State.rxRequest (s : State) (detected : Bool) : State :=
  if ¬ (s.pdOn 6 ∧ s.pdOn 7) ∨ ¬ s.flag PLC_CTL_RXEN ∨ s.flag PLC_STAT_MASKERR ∨ s.flag PLC_STAT_TXBUSY then s
  else
    let s := if detected then s.setFlag PLC_STAT_CD true else s
    let (s, ok) := s.receive
    if ok then s.setFlag PLC_STAT_RXBUSY true else s.bump PLC_RXMISS_RXMISS 1

/-- Reception releases the converter (R44). -/
def State.rxRelease (s : State) : State :=
  if s.fcv.reception then ((s.receiveEnd).setFlag PLC_STAT_RXBUSY false).setFlag PLC_STAT_CD false
  else s.setFlag PLC_STAT_CD false

/-- The HFREF time of a timestamp near this instant. -/
def State.hfAt (s : State) (t : BitVec 64) : Nat :=
  ((s.exp.now : Int) + signedOf 60 ((tsKey t + 2 ^ 60 - tsKey s.ts) % 2 ^ 60) * 125 / 128).toNat

/-- The key read at an allocation. -/
def rxKey (r : RxIn) : Fetch (BitVec 128) := r.keys.headD (.ok 0)

/-- Erased symbols of a transmission (R299): the two of the frame control, then those of the payload. -/
def State.rxErased (s : State) (r : RxIn) : List Bool × List Bool :=
  if !s.flag PLC_RXCFG_IMPEN then ([false, false], r.syms.map (fun _ => false))
  else
    let l := erasedSyms (s.get PLC_RXCFG_IMPTH) [] (r.fcSyms.take 2 ++ r.syms)
    (l.take (min 2 r.fcSyms.length), l.drop (min 2 r.fcSyms.length))

/-- Frame control of a received transmission (R291): counted; discarded for its CRC, NETID or DADDR.  The device does not receive while
it transmits (R285). -/
def State.rxHead (s : State) (r : RxIn) : State × Option Fc :=
  if ¬ s.flag PLC_STAT_RXBUSY ∨ s.flag PLC_STAT_TXBUSY then (s, none)
  else
    let s := (s.reach (s.hfAt r.tsEnd)).bump PLC_ERASYM_ERASYM ((s.rxErased r).1.filter id).length
    if !fcOk r.fc then (s.bump PLC_FCERR_FCERR 1, none)
    else
      let s := s.bump PLC_RXCNT_RXCNT 1
      let f := fcRead r.fc
      if f.netId ≠ s.get PLC_CTL_NETID ∨ ¬ s.flag NET_CTL_EN ∨
        ¬ (f.daddr = 0xFFFFFF ∨ (s.onNet ∧ f.daddr = s.ownLaddr.toNat)) then (s, none)
      else (s, some f)

/-- The sender's context, allocated when it has none; HEARD of the context and of the directory entry (R322, R323). -/
def State.rxFrom (s : State) (r : RxIn) (f : Fc) : State × Option Nat :=
  match s.ctxFor (BitVec.ofNat 24 f.saddr) (rxKey r) with
  | (s, some i) =>
    let s := s.modCtx i (fun c => { c with heard := r.tsEnd })
    (s.dirTouch (s.ctx i).eui (fun e => { e with heard := r.tsEnd }), some i)
  | (s, none) => (s, none)

/-- Header and valid data of an accepted segment (R293). -/
def segRead (x : BitVec 64 × List (BitVec 8)) : Nat × Nat × Nat × List (BitVec 8) :=
  let h := x.1.toNat
  (bitsAt h 0 16, bitsAt h 16 4, bitsAt h 20 4 + 1, x.2.take (bitsAt h 24 9 + 1))

/-- Coded bits of each payload symbol as it was sent (R295, R296, R303). -/
def State.rxCaps (s : State) (i : Nat) (f : Fc) : List Nat :=
  let cs := s.carriers
  if f.mode = 0 then
    let caps := (List.range 4).map (fun q => (allCarriers.map (mapBits cs ((s.ctx i).map q))).sum)
    (List.range f.nsym).map (fun j => caps.getD (symSlot (bitsAt f.tspec 0 2) (bitsAt f.tspec 2 12) (bitsAt f.tspec 14 14) j) 0)
  else List.replicate f.nsym (slBits cs.length (if f.mode = 1 then 4 else 8))

/-- The payload of an accepted transmission is received (R293, R299, R301, R309): erased symbols and failed segments are counted, the
channel is tracked.  Answers the segments, none where one failed. -/
def State.rxPayload (s : State) (r : RxIn) (f : Fc) (i : Nat) : State × List RxSeg :=
  let er := s.rxErased r
  let erased := (List.range f.nsym).map (fun k => er.2.getD k false)
  let sound : SymIn := { ovr := false, blocks := [], quots := [], err := 0 }
  let syms := (r.fcSyms.take 2).zip er.1 ++ (List.range f.nsym).map (fun k => (r.syms.getD k sound, erased.getD k false))
  let noise := if f.mode = 0 then some r.noise else none
  let track := syms.foldl (fun k y => Track.symbol noise k y.1 y.2) { est := r.est, prev := none, fast := 0, steps := 0 }
  let words := if erased.any id || !r.snrMet then
      decodedWords f.rate f.fsn f.nseg (f.mode != 0) (s.rxCaps i f) erased r.snrMet r.undecoded
    else []
  let segs := (List.range f.nseg).map (fun k => if segDecoded f.rate words k then r.segs.getD k none else none)
  let s := (s.bump PLC_ERASYM_ERASYM (erased.filter id).length).bump PLC_SEGERR_SEGERR (segs.filter Option.isNone).length
  (s.modPlc (fun p => { p with track := track }), segs)

/-- Puts an accepted segment into its MAC frame; a complete frame is ready (R293, R310). -/
def State.assemble (s : State) (i : Nat) (safelight : Bool) (ts : BitVec 64) (x : BitVec 64 × List (BitVec 8)) : State :=
  let (seq, idx, cnt, data) := segRead x
  let is (a : Assembly) : Bool := a.nb == i && a.seq.toNat == seq && a.count == cnt
  let a : Assembly := (s.plc.asm.find? is).getD
    { nb := i, seq := BitVec.ofNat 16 seq, count := cnt, parts := [], safelight := false, ts := ts }
  let a := { a with parts := assocPut a.parts idx data, safelight := a.safelight || safelight, ts := ts }
  let rest := s.plc.asm.filter (fun b => !is b)
  if a.parts.length = cnt then s.modPlc (fun p => { p with asm := rest, ready := p.ready ++ [a] })
  else s.modPlc (fun p => { p with asm := rest ++ [a] })

/-- Segments received on a link, each failed or not, oldest first; too many failed ones start a renegotiation (R306). -/
def State.rxSegs (s : State) (i q : Nat) (mapped : Bool) (l : List Bool) : State :=
  let bad := (l.filter id).length
  let s := s.modCtx i (fun c =>
    { c with rxHist := (l.reverse ++ c.rxHist).take 256,
             maps := if mapped then c.maps.modify q (fun m =>
               { m with segs := m.segs + BitVec.ofNat 32 l.length, failed := m.failed + BitVec.ofNat 32 bad }) else c.maps })
  let n := ((s.ctx i).rxHist.filter id).length
  if s.get PLC_LINKCFG_SERTH * 256 < n * 100 then s.negStart i else s

/-- A received data transmission (R289, R307, R309). -/
def State.rxData (s : State) (r : RxIn) (f : Fc) : State :=
  match s.rxFrom r f with
  | (s, none) => s
  | (s, some i) =>
    let c := s.ctx i
    let mapped := decide (f.mode = 0)
    let mismatch := mapped && (!c.mapsValid || (c.map 0).mapId.toNat != f.mapId)
    let (s, segs) := if mismatch then (s, List.replicate f.nseg none) else s.rxPayload r f i
    let failed := (List.range f.nseg).filter (fun k => (segs.getD k none).isNone)
    let s := segs.foldl (fun (s : State) x => match x with | some x => s.assemble i (!mapped) r.tsEnd x | none => s) s
    let s := s.rxSegs i (bitsAt f.tspec 0 2) (mapped && !mismatch) (segs.map (fun x => x.isNone))
    let inv := if mismatch then some 1 else if mapped && decide (0 < f.nseg ∧ f.nseg ≤ 2 * failed.length) then some 0 else none
    if f.ackReq ∧ f.daddr ≠ 0xFFFFFF then
      let d : SackDue :=
        { laddr := BitVec.ofNat 24 f.saddr, fsn := BitVec.ofNat 16 f.fsn, failed := failed, mapInv := inv, nb := i,
          at_ := s.hfAt r.tsEnd + usCycles 60 }
      s.modPlc (fun p => { p with sackDue := some d })
    else s

/-- SACK_TRANSMIT (R309): 60 µs after the end of the transmission it answers, the SACK names the failed segments; MAPINV invalidates the link's maps as it is sent; the responder of a
negotiation takes the final maps into use (R305). -/
def State.sendSack (s : State) : State :=
  match s.plc.sackDue with
  | none => s
  | some d =>
    let s := (s.modPlc (fun p => { p with sackDue := none })).reach d.at_
    if ¬ s.txAble ∨ s.plc.tx.isSome then s
    else
      let s := if s.flag PLC_STAT_RXBUSY then s.rxRelease else s
      let more := d.failed.filter (fun k => 112 ≤ k)
      let low := (d.failed.filter (fun k => k < 112)).foldl (fun n k => n + 2 ^ (k + 2)) 0
      let bytes := (more.foldl max 112 - 112) / 8 + 1
      let data := bytesLE bytes (more.foldl (fun n k => n + 2 ^ (k - 112)) 0)
      let nseg := if more.isEmpty then 0 else segCount bytes
      let mode := s.slMode
      let f : Fc := { Fc.safelight 2 d.laddr.toNat nseg (if nseg = 0 then 0 else s.slSymbols (if mode = 1 then 4 else 8) nseg)
        (d.mapInv.isSome.toNat + (!more.isEmpty).toNat * 2 + low) false with
        mode := mode, netId := s.get PLC_CTL_NETID, saddr := s.ownLaddr.toNat, fsn := d.fsn.toNat }
      let a := s.airFrame f ((List.range nseg).flatMap (frameSegment 0 data)) []
      let t := { TxNow.plain 2 (some d.nb) with fsn := d.fsn }
      let s := (s.modPlc (fun p => { p with out := p.out ++ [a], tx := some t, sackAt := some s.exp.now })).setFlag PLC_STAT_TXBUSY true
      let s := match d.mapInv with
        | some cause => (s.invalidateMaps d.nb cause d.fsn.toNat).negStart d.nb
        | none => s
      match (s.ctx d.nb).neg with
      | some n => if !n.initiator && !n.final.isEmpty then s.mapsInUse d.nb n.final else s
      | none => s

/-! SACKs, soundings, reports -/

/-- Failed segments a SACK names (R291, R309). -/
def sackFailed (f : Fc) (segs : List RxSeg) (n : Nat) : List Nat :=
  let more := natLE (((segs.filterMap id).map (fun x => (segRead x).2.2.2)).flatten)
  (List.range n).filter (fun k => if k < 112 then bitAt f.tspec (k + 2) else bitAt f.tspec 1 && bitAt more (k - 112))

/-- A received SACK (R309, R320, R334): it answers the transmission whose FSN it carries, and has arrived by its deadline. -/
def State.rxSack (s : State) (r : RxIn) (f : Fc) : State :=
  match s.rxFrom r f with
  | (s, none) => s
  | (s, some i) =>
    let (s, segs) := s.rxPayload r f i
    match s.plc.tx with
    | some t =>
      if t.ended && t.nb == some i && t.fsn.toNat == f.fsn && decide (tsKey r.tsEnd ≤ tsKey t.deadline) then
        let s := s.modPlc (fun p => { p with tx := none, cw := 16 })
        let s := s.modCtx i (fun c => { c with expired := 0 })
        let failed := sackFailed f segs t.nseg
        let s := if bitAt f.tspec 0 then (s.invalidateMaps i 0 f.fsn).negStart i else s
        let s := s.sentSegs i ((List.range t.nseg).map (fun k => failed.contains k))
        if t.ftype = 4 then
          match (s.ctx i).neg with
          | some n => if failed.isEmpty then s.mapsInUse i n.final else s
          | none => s
        else
          let ok := (List.range t.nseg).filter (fun k => !failed.contains k)
          let s := s.segsDone (ok.map (fun k => t.segs.getD k (0, 0)))
          s.segsFailed (failed.map (fun k => t.segs.getD k (0, 0)))
      else s
    | none => s

/-- A received sounding (R305): the end with the lower EUI-64 stays initiator when both began. -/
def State.rxSounding (s : State) (r : RxIn) (m : SoundIn) (f : Fc) : State :=
  match s.rxFrom r f with
  | (s, none) => s
  | (s, some i) =>
    let s := (s.rxPayload r f i).1
    let q := bitsAt f.tspec 0 2
    let put (n : Negotiation) : State :=
      let n := { n with t0 := if n.heard = 0 ∧ ¬ n.initiator then r.tsEnd else n.t0 }.measure q m
      let n := if n.heard = 15 ∧ ¬ n.initiator then { n with tPrev := r.tsEnd } else n
      (s.modCtx i (fun c => { c with neg := some n })).negFinal i
    let eui := s.wide [NET_EUI_LO, NET_EUI_HI]
    match (s.ctx i).neg, bitAt f.tspec 2 with
    | none, false => put (s.newNeg false 1)
    | none, true => s
    | some n, true => if n.initiator then put n else s
    | some n, false => if n.initiator then (if eui < (s.ctx i).eui.toNat then s else put (s.newNeg false 1)) else put n

/-- A received tone-map report (R305): the responder's loadings, or the initiator's final maps. -/
def State.rxReport (s : State) (r : RxIn) (f : Fc) : State :=
  match s.rxFrom r f with
  | (s, none) => s
  | (s, some i) =>
    let (s, segs) := s.rxPayload r f i
    let failed := (List.range f.nseg).filter (fun k => (segs.getD k none).isNone)
    let b := ((segs.filterMap id).map (fun x => (segRead x).2.2.2)).flatten
    let maps := (List.range 4).map (fun q => mapOf ((b.drop (912 * q)).take 912))
    let s := if failed.isEmpty then
        match (s.ctx i).neg with
        | some n =>
          if n.initiator then
            (s.modCtx i (fun c => { c with neg := some { n with other := maps.map (fun m => m.load), tPrev := r.tsEnd } })).negFinal i
          else s.modCtx i (fun c => { c with neg := some { n with final := maps, tPrev := r.tsEnd } })
        | none => s
      else s
    let d : SackDue :=
      { laddr := BitVec.ofNat 24 f.saddr, fsn := BitVec.ofNat 16 f.fsn, failed := failed, mapInv := none, nb := i,
        at_ := s.hfAt r.tsEnd + usCycles 60 }
    if f.ackReq then s.modPlc (fun p => { p with sackDue := some d }) else s

/-! Time distribution (R321) -/

/-- A beacon disciplines the clock of a station that is master of its cascade. -/
def State.timeFrom (s : State) (r : RxIn) (f : Fc) : State :=
  if ¬ s.flag NET_CTL_TDEN ∨ ¬ s.station ∨ bitAt f.tspec 60 ∨ ¬ s.flag GLB_STRAP_MSTR then s
  else
    let d := signedOf 60 ((bitsAt f.tspec 0 60 + 2 ^ 60 - tsKey r.tsFirst) % 2 ^ 60)
    let s := s.putI NET_TDOFF_TDOFF (clampInt (-(2 ^ 31)) (2 ^ 31 - 1) d)
    let run := if d.natAbs * 100000 < 2 ^ 24 then min 8 (s.plc.lockRun + 1) else 0
    let s := (s.modPlc (fun p => { p with lockRun := run })).setFlag NET_STAT_TDLOCK (decide (run = 8))
    if s.get NET_TDCFG_STEPTH * 2 ^ 24 ≤ d.natAbs * 1000 then s.stepBy d else s.slewTo (slewOver d) 0

/-! Beacons and association (R314 to R319) -/

/-- A station that is enabled and not associated queues an association request, unless one waits (R316). -/
def State.associate (s : State) : State :=
  if s.station && !s.flag NET_STAT_ASSOC && s.plc.assocReq.isNone then
    let body := slotBytes [BitVec.ofNat 64 (s.wide [NET_EUI_LO, NET_EUI_HI])]
    let seq := s.plc.macSeq
    (s.enqueue (s.ownFrame 0x02 0 0 body)).modPlc (fun p => { p with assocReq := some seq, assocDeadline := none })
  else s

/-- A received beacon (R314, R317 to R319, R321). -/
def State.rxBeacon (s : State) (r : RxIn) (f : Fc) : State :=
  if ¬ s.station then
    let sec := s.rtc.sec
    let due := match s.plc.conflictAt with | some t => decide (t + 10 ≤ sec) | none => true
    if due then
      let eui := match s.ctxOf (BitVec.ofNat 24 f.saddr) with | some i => (s.ctx i).eui.toNat | none => 0
      (s.modPlc (fun p => { p with conflictAt := some sec })).event 0x0843 0 .momentary eui 0 0
    else s
  else
    let (s, i) := s.rxFrom r f
    let (s, segs) := s.rxPayload r f (i.getD 0)
    let body := match segs.getD 0 none with | some x => x.2 | none => []
    let al := (bytesToSlots 63 (body.drop 8)).take (natLE (body.take 8))
    let s := s.modPlc (fun p =>
      { p with bStart := some (s.hfAt r.tsFirst), bpLen := bitsAt f.tspec 61 22, cpEnd := BitVec.ofNat 8 (bitsAt f.tspec 83 8),
               bSeq := BitVec.ofNat 8 (bitsAt f.tspec 91 8), alloc := al, backoff := none })
    let s := s.put NET_STAT_MISSED 0
    (s.timeFrom r f).associate

/-- A missed beacon (R317): the eighth in a row disassociates the station. -/
def State.beaconMiss (s : State) : State :=
  match s.plc.bStart with
  | none => s
  | some b =>
    if ¬ s.station ∨ ¬ s.flag NET_CTL_EN ∨ ¬ s.pdOn 7 then s
    else
      let b := b + s.plc.bpLen
      let s := s.reach (b + msCycles 2)
      let n := s.get NET_STAT_MISSED + 1
      let s := (s.modPlc (fun p => { p with bStart := some b, alloc := [] })).put NET_STAT_MISSED (min n 15)
      if 8 ≤ n ∧ s.flag NET_STAT_ASSOC then
        ((s.setFlag NET_STAT_ASSOC false).event 0x0841 0 .momentary (s.get NET_LADDR_LADDR) 0 0).associate
      else s

/-- The coordinator answers an association request (R316). -/
def State.answerAssoc (s : State) (seq : BitVec 16) (body : List (BitVec 8)) : State :=
  let node := BitVec.ofNat 64 (natLE (body.take 8))
  if (s.dirFind node).isSome ∧ ¬ s.dirSeen node then s.lookupLost
  else match s.dirFind node with
  | some e =>
    if e.state = 1 ∨ e.state = 2 ∨ e.state = 3 then
      let m := { s.ownFrame 0x03 e.laddr node (slotBytes [BitVec.ofNat 64 (e.laddr.toNat + e.keyIdx.toNat * 2 ^ 32)]) with
        bcast := true, resp := true, rseq := seq }
      (s.dirMod node true (fun e => { e with state := 2 })).enqueue m
    else s.event 0x0842 0 .momentary node.toNat 0 0
  | none => s.event 0x0842 0 .momentary node.toNat 0 0

/-- A station takes the response to its request, arrived by the deadline (R316). -/
def State.takeAssoc (s : State) (nb : Nat) (rseq : BitVec 16) (ts : BitVec 64) (body : List (BitVec 8)) (key : Fetch (BitVec 128)) :
    State :=
  let n := natLE (body.take 8)
  match s.plc.assocReq, s.plc.assocDeadline with
  | some q, some d =>
    if s.station && !s.flag NET_STAT_ASSOC && q == rseq && decide (tsKey ts ≤ tsKey d) then
      let s := (s.put NET_LADDR_LADDR (n % 2 ^ 24)).setFlag NET_STAT_ASSOC true
      let s := s.modPlc (fun p => { p with assocReq := none, assocDeadline := none })
      let s := (s.modCtx nb (fun c => { c with keyIdx := BitVec.ofNat 16 (n / 2 ^ 32) })).readKey nb key
      (s.event 0x0840 0 .momentary (n % 2 ^ 24) (s.wide [NET_EUI_LO, NET_EUI_HI]) 0).negStart nb
    else s
  | _, _ => s

/-! MAC frames (R310, R311, R332, R400, R403) -/

/-- A discarded protected frame (R311): counted, logged once per second and neighbour. -/
def State.secDiscard (s : State) (i kind ctr : Nat) : State :=
  let s := if kind = 0 then s.bump PLC_SECERR_TAGFAIL 1 else s.bump PLC_SECERR_REPLAY 1
  if (s.ctx i).secAt = some s.rtc.sec then s
  else (s.modCtx i (fun c => { c with secAt := some s.rtc.sec })).event 0x0805 i .momentary kind ctr 0

/-- Clear bytes after the header of a complete MAC frame, once accepted (R310, R311, R323). -/
def State.openFrame (s : State) (i : Nat) (frame : List (BitVec 8)) : State × Option (List (BitVec 8)) :=
  let h := natLE (frame.take 16)
  let c := s.ctx i
  if frame.length < 16 then (s, none)
  else if ¬ bitAt h 8 then (s, if c.keyIdx.toNat = noKey then some (frame.drop 16) else none)
  else if ¬ c.keyOk then (s, none)
  else
    let ctr := bitsAt h 64 32
    match ccmOpen (keyBytes c.key) (ccmNonce c.eui.toNat ctr (bitsAt h 96 8)) frame with
    | none => (s.secDiscard i 0 ctr, none)
    | some p =>
      if ctr ≤ c.rxCtr.toNat then (s.secDiscard i 1 ctr, none)
      else (s.modCtx i (fun c => { c with rxCtr := BitVec.ofNat 32 ctr }), some p)

/-- A data frame for this device waits for a PLC_RX descriptor (R400). -/
def State.rxRecord (s : State) (a : Assembly) (h : Nat) (body : List (BitVec 8)) : State :=
  let orig := bitsAt h 16 24
  let frame := bytesLE 16 h ++ body
  let src := match s.dirByLaddr (BitVec.ofNat 24 orig) with | some e => e.node | none => 0
  let flags := bitsAt h 0 8 + bitsAt h 8 3 * 2 ^ 8 + (decide (bitsAt h 40 24 = 0xFFFFFF)).toNat * 2 ^ 11 +
    a.safelight.toNat * 2 ^ 12 + frame.length * 2 ^ 32
  let slots := [BitVec.ofNat 64 flags, src, BitVec.ofNat 64 (orig + (s.ctx a.nb).laddr.toNat * 2 ^ 24 + a.nb * 2 ^ 48), a.ts,
    BitVec.ofNat 64 (a.seq.toNat + bitsAt h 112 16 * 2 ^ 16), 0, 0, 0]
  if 16 ≤ s.plc.rxQ.length then s.dropRecord 10
  else s.modPlc (fun p => { p with rxQ := p.rxQ ++ [{ mtype := BitVec.ofNat 8 h, slots := slots, frame := frame, ts := a.ts }] })

/-- A response completes the frame it answers, if it arrived by the deadline (R334). -/
def State.takeResponse (s : State) (orig : Nat) (rseq : Nat) (ts : BitVec 64) : State :=
  let is (m : MacTx) : Bool := m.waitResp && m.final.toNat == orig && m.seq.toNat == rseq &&
    (match m.deadline with | some d => decide (tsKey ts ≤ tsKey d) | none => true)
  match s.plc.queue.find? is with
  | some m => s.frameEnd m stDone
  | none => s

/-- A repeater forwards a MAC frame (R332). -/
def State.forward (s : State) (h : Nat) (body : List (BitVec 8)) : State :=
  if bitsAt h 104 3 = 0 then s.bump NET_HOPDROP_COUNT 1
  else
    let final := BitVec.ofNat 24 (bitsAt h 40 24)
    let node := match s.dirByLaddr final with | some e => e.node | none => 0
    s.enqueue { s.ownFrame (BitVec.ofNat 8 h) final node body with
      prot := bitAt h 8, resp := bitAt h 9, respReq := false, rseq := BitVec.ofNat 16 (bitsAt h 112 16),
      orig := BitVec.ofNat 24 (bitsAt h 16 24), hopLim := BitVec.ofNat 3 (bitsAt h 104 3 - 1) }

/-- One entry of a route-set frame (R331, R403): candidates become this repeater's own neighbour indices. -/
def State.routeEntry (s : State) (keys : List (Fetch (BitVec 128))) (l : List (BitVec 8)) : State :=
  let slot (k : Nat) : Nat := natLE ((l.drop (8 * k)).take 8)
  let node := BitVec.ofNat 64 (slot 0)
  let cands := [bitsAt (slot 2) 0 24, bitsAt (slot 2) 24 24, bitsAt (slot 3) 0 24]
  let (s, nh) := (List.range 3).foldl (fun (a : State × Nat) c =>
    if bitAt (slot 3) (56 + c) then
      match a.1.ctxFor (BitVec.ofNat 24 (cands.getD c 0)) (keys.getD c (.ok 0)) with
      | (s, some i) => (s, a.2 + i * 2 ^ (16 * c) + (s.ctx i).gen.toNat * 2 ^ (16 * c + 8) + 2 ^ (48 + c))
      | (s, none) => (s, a.2)
    else a) (s, 0)
  let n := slot 1
  let set (e : DirEntry) : DirEntry :=
    { e with laddr := BitVec.ofNat 24 n, hops := BitVec.ofNat 3 (n / 2 ^ 24), keyIdx := BitVec.ofNat 16 (n / 2 ^ 32),
             nh := BitVec.ofNat 64 nh }
  if (s.dirFind node).isSome then s.dirMod node true set
  else
    let (s, st) := s.dirAdd (set { entryOf node [] with state := 1 })
    if st = stDone then s else s.bump NET_CTXFULL_COUNT 1

/-- The entries of a route-set payload. -/
def State.routeEntries (keys : List (Fetch (BitVec 128))) : Nat → List (BitVec 8) → State → State
  | 0, _, s => s
  | n + 1, l, s => if l.length < 32 then s else State.routeEntries keys n (l.drop 32) (s.routeEntry keys (l.take 32))

/-- A complete MAC frame (R310): accepted or discarded, then delivered, consumed or forwarded. -/
def State.macFrame (s : State) (a : Assembly) (keys : List (Fetch (BitVec 128))) : State :=
  let frame := (a.parts.map (·.2)).flatten
  match s.openFrame a.nb frame with
  | (s, none) => s
  | (s, some body) =>
    let h := natLE (frame.take 16)
    let mtype := bitsAt h 0 8
    let orig := bitsAt h 16 24
    let final := bitsAt h 40 24
    let s := match s.dirByLaddr (BitVec.ofNat 24 orig) with
      | some e => s.dirTouch e.node (fun e => { e with recvd := e.recvd + 1, heard := a.ts })
      | none => s
    if mtype = 3 then s.takeAssoc a.nb (BitVec.ofNat 16 (bitsAt h 112 16)) a.ts body (keys.headD (.ok 0))
    else if final = s.ownLaddr.toNat ∨ final = 0xFFFFFF then
      if mtype = 1 then
        let s := if bitAt h 9 then s.takeResponse orig (bitsAt h 112 16) a.ts else s
        s.rxRecord a h body
      else if mtype = 2 then (if s.station then s else s.answerAssoc a.seq body)
      else if mtype = 4 then
        (if s.station && s.flag NET_CTL_RPT && s.dirReady then State.routeEntries keys (body.length / 32) body s else s)
      else s
    else if s.station && s.flag NET_CTL_RPT then s.forward h body
    else s

/-- The oldest complete MAC frame is verified and acted on. -/
def State.macNext (s : State) (keys : List (Fetch (BitVec 128))) : State :=
  match s.plc.ready with
  | [] => s
  | a :: rest => (s.modPlc (fun p => { p with ready := rest })).macFrame a keys

/-- Every complete MAC frame is acted on. -/
def State.macAll (keys : List (Fetch (BitVec 128))) : Nat → State → State
  | 0, s => s
  | n + 1, s => State.macAll keys n (s.macNext keys)

/-- A received transmission by its type. -/
def State.rxTake (s : State) (r : RxIn) (ftype : Nat) (f : State → Fc → State) : State :=
  match s.rxHead r with
  | (s, some c) => if c.ftype = ftype then f s c else s
  | (s, none) => s

/-- A data transmission whose MAC frames are acted on at once. -/
def State.rxNow (s : State) (r : RxIn) : State :=
  let s := s.rxTake r 1 (fun s f => s.rxData r f)
  State.macAll r.keys s.plc.ready.length s

/-! Meanings -/

/-- CARRIER_DETECTION (R308): the energy exceeds the noise-floor estimate by CDTH × 0.5 dB. -/
def execCarrierDetection (s : State) (energy : Nat := 1) (noise : Nat := 0) : Host.Outcome State Fault Refusal :=
  finish (fun s => if exceedsBy energy noise (5 * s.get PLC_RXCFG_CDTH) then s.rxRequest true else s) s

/-- SCHEDULED_RECEIVE (R308). -/
def execScheduledReceive (s : State) : Host.Outcome State Fault Refusal := finish (fun s => s.rxRequest false) s

/-- RECEPTION_RELEASE (R44). -/
def execReceptionRelease (s : State) : Host.Outcome State Fault Refusal := finish (fun s => s.rxRelease) s

/-- TRANSMISSION_RECEIVED (R289). -/
def execTransmissionReceived (r : RxIn) (s : State) : Host.Outcome State Fault Refusal :=
  finish (fun s => s.rxTake r 1 (fun s f => s.rxData r f)) s

/-- BEACON (R319). -/
def execBeacon (r : RxIn) (s : State) : Host.Outcome State Fault Refusal :=
  finish (fun s => s.rxTake r 0 (fun s f => s.rxBeacon r f)) s

/-- SACK (R309). -/
def execSack (r : RxIn) (s : State) : Host.Outcome State Fault Refusal :=
  finish (fun s => s.rxTake r 2 (fun s f => s.rxSack r f)) s

/-- SOUNDING (R305). -/
def execSounding (r : RxIn) (m : SoundIn) (s : State) : Host.Outcome State Fault Refusal :=
  finish (fun s => s.rxTake r 3 (fun s f => s.rxSounding r m f)) s

/-- TONE_MAP_REPORT (R305). -/
def execToneMapReport (r : RxIn) (s : State) : Host.Outcome State Fault Refusal :=
  finish (fun s => s.rxTake r 4 (fun s f => s.rxReport r f)) s

/-- ASSOCIATION_REQUEST (R316). -/
def execAssociationRequest (r : RxIn) (s : State) : Host.Outcome State Fault Refusal := finish (fun s => s.rxNow r) s

/-- ASSOCIATION_RESPONSE (R316). -/
def execAssociationResponse (r : RxIn) (s : State) : Host.Outcome State Fault Refusal := finish (fun s => s.rxNow r) s

/-- ROUTE_SET_FRAME (R403). -/
def execRouteSetFrame (r : RxIn) (s : State) : Host.Outcome State Fault Refusal := finish (fun s => s.rxNow r) s

/-- MAC_FRAME_COMPLETE (R310). -/
def execMacFrameComplete (s : State) : Host.Outcome State Fault Refusal := finish (fun s => s.macNext []) s

/-- PLC_RX_RECORD_WRITE (R400). -/
def execPlcRxRecordWrite (s : State) : Host.Outcome State Fault Refusal :=
  finish (fun s =>
    match s.plc.rxQ with
    | [] => s
    | r :: rest =>
      let data := slotBytes r.slots ++ r.frame
      match s.skipShort 10 data.length r.mtype.toNat s.evt.newest r.ts ((s.ring 10).posted.length + 1) with
      | (s, true) =>
        (match (s.ring 10).posted with
        | b :: _ =>
          ((s.hostWrite (.bytes b.addr data)).returnBuf 10 data.length 0 r.mtype.toNat s.evt.newest r.ts).modPlc
            (fun p => { p with rxQ := rest })
        | [] => s)
      | (s, false) => s) s

/-- SACK_TRANSMIT (R309). -/
def execSackTransmit (s : State) : Host.Outcome State Fault Refusal := finish (fun s => s.sendSack) s

/-- BEACON_MISSED (R317). -/
def execBeaconMissed (s : State) : Host.Outcome State Fault Refusal := finish (fun s => s.beaconMiss) s

/-- NODE_LOST (R317): nothing heard from an associated node for LOSTTO beacon periods. -/
def execNodeLost (nodeid : BitVec 64) (s : State) : Host.Outcome State Fault Refusal :=
  finish (fun s =>
    match s.dirFind nodeid with
    | some e =>
      if ¬ s.station ∧ e.state = 2 ∧ tsKey e.heard + s.get NET_CTL_LOSTTO * s.beaconUnits ≤ tsKey s.ts then
        (s.dirMod nodeid true (fun e => { e with state := 3 })).event 0x0841 0 .momentary e.laddr.toNat 1 0
      else s
    | none => s) s

/-- ASSOCIATION_RESPONSE_TIMEOUT (R316): the station asks again in the next contention period, unless an answer that has arrived in time
waits to be acted on (R39). -/
def execAssociationResponseTimeout (s : State) : Host.Outcome State Fault Refusal :=
  finish (fun s =>
    match s.plc.assocDeadline with
    | some d => if s.passed d ∧ ¬ s.arrivalPending d then (s.modPlc (fun p => { p with assocReq := none, assocDeadline := none })).associate else s
    | none => s) s

end Sys2Proof.Machine
end

