-- ==== Sys2Proof/Machine/Safe.lean ====
section
/-!
DEFINITION. The safety monitor's own work (R416 to R420), the effects of double-bit errors on the engines, the powerline and the
contact sheet (R420), and FN_REINIT (R429, R430) but for the Tozar Link.
-/

namespace Sys2Proof.Machine

/-- The monitor has ended its start-up diagnostics (R54, R426). -/
def State.monStarted (s : State) : Bool :=
  s.pdOn 5 && (s.pwr.phase == .restoring || s.pwr.phase == .image || s.pwr.phase == .internalSync || s.pwr.phase == .done)

/-- SAF_STAT.RUN and FAULT_N follow (R57). -/
def State.monUpdate (s : State) : State := (s.setFlag SAF_STAT_RUN (s.flag SAF_CTL_EN && s.monStarted)).faultUpdate

/-- SAF_CTL: settings until LOCK is set; while EN = 1 the monitor holds CVU3, where a host scan ends ABORTED (R378, R416). -/
def State.wrSafCtl (w : WriteBy) (v : BitVec 32) (s : State) : State :=
  let t := s.storeWrite w SAF_CTL v
  if t.flag SAF_CTL_EN = s.flag SAF_CTL_EN then t
  else
    let t := t.modSaf (fun f => { f with wdtAt := s.exp.now, dueSeg := if f.reinit.isSome then f.dueSeg else [] })
    let t := if t.flag SAF_CTL_EN ∧ (t.scan 3).isSome then t.stopScan 3 stAborted else t
    t.monUpdate

/-! Discards outside the comparison (R420, R429) -/

/-- An exposure is discarded for every open point, with the developer's totals to the withheld registers. -/
def State.discardExpo (s : State) (x : Expo) : State :=
  let s := (x.points.filter (fun p => !bitAt x.resolved.toNat p)).foldl (fun s p =>
    match x.result p with
    | some pd => s.resolvePoint x p .discarded pd.incs pd
    | none => s.resolvePoint x p .discarded (noDev p).incs (noDev p)) s
  let s := x.openCh.foldl (fun s n => s.unconfirm x n) s
  s.modExpo x.slot.expno (fun y => { y with compared := true, replaying := false })

/-- A memory error found by a read, with its effect on its user (R420). -/
def State.eccAct (s : State) (e : EccIn) : State :=
  let s' := s.eccFound e
  if !e.double then s'
  else match e.mem with
    | .engine =>
      match s'.exp.pipe with
      | x :: _ => (s'.discardExpo x).sweep.publish
      | [] => s'
    | .neighbour =>
      match s'.plc.queue with
      | m :: _ => s'.frameFail m
      | [] => s'
    | .sheet i => s'.sheetHurt i
    | _ => s'

/-! FN_REINIT SAFETY (R430) -/

/-- Segments whose domain is on: their passes are made (R416). -/
def State.segmentOn (s : State) (e : Nat) : Bool :=
  if e = 56 then s.pdOn 2 else if e = 57 then s.pdOn (regDomain FLT_CTL) else if e = 58 then s.pdOn (regDomain (MET_CFG 0))
  else if e = 61 ∨ e = 62 then s.pdOn 3 else s.pdOn 5

/-- Entries of the monitor's segments. -/
def segments : List Nat := [56, 57, 58, 59, 60, 61, 62, 63]

/-- Number of the last exposure that ended; open when none has (log 30). -/
def State.lastNumber (s : State) : State × BitVec 72 :=
  match s.exp.lastEnded with
  | some (n, _) => (s, n)
  | none => ({ s with free := s.free + 1 }, Config.noExposure s.free)

/-- A FN_REINIT is done: its completion and the event (R429, R431). -/
def State.reinitDone (s : State) (t : Taken) (target : Nat) (n : BitVec 72) : State :=
  let s := (s.reinitShow target stDone).event 0x0605 target .momentary (n.toNat % 2 ^ 64) (n.toNat / 2 ^ 64) 0
  s.done t stDone target (n.toNat % 2 ^ 64) 0

/-- The diagnostics of FN_REINIT SAFETY begin: the entries are rebuilt from one pass, and a second pass of every segment is due. -/
def State.safetyBegin (s : State) : State :=
  let s := s.rebuildRefs.modSaf (fun f => { f with
    failedSeg := [], kavAgain := none,
    reinit := f.reinit.map (fun r => { r with begun := true, boundaries := 0 }) })
  s.modSaf (fun f => { f with dueSeg := segments.filter s.segmentOn })

/-- Every check has passed: DONE at this boundary, and the safe state ends. -/
def State.safetyEnd (s : State) (n : BitVec 72) : State :=
  let s := ((s.modSaf (fun f => { f with reinit := none })).setFlag SAF_STAT_REINIT false).setFlag SAF_STAT_STARTFAIL false
  let s := (s.taken.filter (fun t => t.wait == Wait.reinitSafety)).foldl (fun s t => s.reinitDone t 6 n) s
  s.leaveSafe.faultUpdate

/-- FN_REINIT SAFETY at the boundary that ends exposure n: it begins there, or completes once every check has passed, by the fourth
boundary after that one. -/
def State.safetyBoundary (s : State) (n : BitVec 72) : State :=
  match s.saf.reinit with
  | none => s
  | some r =>
    if !r.begun then s.safetyBegin
    else if r.vectorsOk && r.clocksOk && s.saf.dueSeg.isEmpty then s.safetyEnd n
    else if 3 ≤ r.boundaries then
      s.safetyFail (if !r.vectorsOk then dKav else if !r.clocksOk then dClock else dScan)
    else s.modSaf (fun f => { f with reinit := some { r with boundaries := r.boundaries + 1 } })

/-- While no exposure runs no boundary comes: FN_REINIT SAFETY completes as soon as every check has passed. -/
def State.safetyIdle (s : State) : State :=
  match s.saf.reinit with
  | some r =>
    if s.exp.running || !(r.begun && r.vectorsOk && r.clocksOk && s.saf.dueSeg.isEmpty) then s
    else
      let (s, n) := s.lastNumber
      s.safetyEnd n
  | none => s

/-- FN_REINIT with target SAFETY (R430). -/
def State.cmdReinitSafety (s : State) (h : CmdHdr) : State :=
  if s.flag PWR_STAT_ASBUSY || s.saf.reinit.isSome then (s.reinitShow 6 stRefused).complete 0x60 h stRefused 0 0 0
  else
    let s := s.modSaf (fun f => { f with strikes := List.replicate 14 [],
                                         reinit := some { begun := false, boundaries := 0, vectorsOk := false, clocksOk := false } })
    let s := ((s.put SAF_LASTING_LASTING 0).setFlag SAF_STAT_REINIT true).keep 0x60 h .reinitSafety
    if s.exp.running then s else s.safetyBegin

/-! Known answers, clocks, scans (R416 to R419) -/

/-- FN_REINIT SAFETY once its checks run; until the boundary at which they begin the monitor goes on as before (R430). -/
def State.checksRun (s : State) : Option SafReinit :=
  match s.saf.reinit with
  | some r => if r.begun then some r else none
  | none => none

/-- The vector of this exposure's slot, or the 32 vectors of FN_REINIT SAFETY (R418, R430). -/
def State.kavRun (s : State) (ok : Bool) : State :=
  match s.checksRun with
  | some r =>
    if r.vectorsOk then s
    else if ok then (s.modSaf (fun f => { f with reinit := some { r with vectorsOk := true }, kavDone := true })).safetyIdle
    else ((s.bump SAF_KAV_FAILS 1).strike dKav 0).safetyFail dKav
  | none =>
    if !s.monStarted || !s.exp.running || s.saf.kavDone || !s.kavOpen then s
    else
      let v := s.kavVector
      let s := s.modSaf (fun f => { f with kavDone := true, kavAgain := if ok then none else some v })
      let s := s.put SAF_KAV_NEXT (if ok then s.exp.cur.toNat % 32 else v)
      if ok then s else (s.bump SAF_KAV_FAILS 1).strike dKav v

/-- The millisecond's cross-check of FCLK, filter clock and HFREF, the last only with LFCLK verified (R419). -/
def State.clockRun (s : State) (fclkOk filtOk hfOk : Bool) : State :=
  if !s.monStarted then s
  else
    let s := s.reach (s.saf.clkAt + msCycles 1)
    let s := s.modSaf (fun f => { f with clkAt := s.exp.now })
    let hfBad := !hfOk && s.flag PWR_STAT_LFOK
    if fclkOk && filtOk && !hfBad then
      match s.checksRun with
      | some r => (s.modSaf (fun f => { f with reinit := some { r with clocksOk := true } })).safetyIdle
      | none => s
    else
      let t := s.strike dClock (if !fclkOk then 0 else if !filtOk then 1 else 2)
      if s.checksRun.isSome then t.safetyFail dClock else t

/-- The segments due at the start of exposure n (R416): those of every exposure, those whose last pass failed, and the others when
n is a multiple of SCANPER. -/
def State.scanDue (s : State) (n : BitVec 72) : State :=
  if s.checksRun.isSome then s
  else if !s.flag SAF_CTL_EN || !s.monStarted then s.modSaf (fun f => { f with dueSeg := [] })
  else
    let per := s.get SAF_SCAN_SCANPER
    let due := segments.filter (fun e => s.segmentOn e &&
      ([59, 60, 63].contains e || s.saf.failedSeg.contains e || (per != 0 && n.toNat % per == 0)))
    s.modSaf (fun f => { f with dueSeg := due })

/-- A scan pass of a segment ends: `upset` is what the memory sums to beyond what was written (R416, R417, R376). -/
def State.scanRun (s : State) (e : Nat) (upset : BitVec 36) (stable : Bool) (ecc : List EccIn) : State :=
  let again := s.checksRun.isSome
  if !s.saf.dueSeg.contains e || !(s.flag SAF_CTL_EN || again) then s
  else
    let s := s.modSaf (fun f => { f with dueSeg := f.dueSeg.erase e })
    let s := ecc.foldl (fun s x => s.eccAct x) s
    let (ref, sbe, dbe) := refRead (s.refEntry e)
    let val := s.segmentSum e + upset
    let fail (s : State) : State := s.modSaf (fun f => { f with failedSeg := if f.failedSeg.contains e then f.failedSeg else f.failedSeg ++ [e] })
    if dbe then ((fail (s.put (CVU_STAT_VERDICT 3) 4)).bump (CVU_CNT_MISM 3) 1).strikeLasting dScan e
    else
      let s := if sbe then (s.setRef e ref).bump (CVU_CNT_REFCOR 3) 1 else s
      if val = ref then
        ((s.put (CVU_STAT_VERDICT 3) 0).modSaf (fun f => { f with failedSeg := f.failedSeg.filter (· ≠ e) })).safetyIdle
      else
        let s := (s.put (CVU_STAT_VERDICT 3) (if stable then 3 else 2)).bump (CVU_CNT_MISM 3) 1
        let s := (fail s).strike dScan e
        if again then s.safetyFail dScan else s

/-! FN_REINIT of the other functions (R429) -/

/-- 0x01 MFE: every started channel restarts from the zero state. -/
def State.reinitMfe (s : State) : State :=
  State.each 96 (fun n s => if (s.chan n).started then s.restartAny n else s) s

/-- 0x02 FLT: half-band and compensation histories are cleared, with the correction history (R152), and every channel passes its settle
count. -/
def State.reinitFlt (s : State) : State :=
  State.each 96 (fun n s => if (s.chan n).started then
      let k := s.settleOf n
      ((s.modChan n (fun c => { c with delay := [], settle := k })).clearHist n).modBrk (n / 2) (fun b => { b with hOld := [], lOld := [] })
    else s) s

/-- 0x03 DEV: networks and resonators are cleared with NETSET for 600 exposures; `held`: the exposures it discards. -/
def State.reinitDev (s : State) (held : List Expo) : State :=
  let s := held.foldl (fun s x => match s.expo x.slot.expno with
    | some y => s.discardExpo y
    | none => s) s
  let started := (List.range 96).filter (fun n => (s.chan n).started)
  (s.modLdg (fun l => { l with nets := [], netset := started.foldl (fun a n => assocPut a n 600) l.netset })).sweep.publish

/-- 0x04 FIX: the exposure the fixer holds, the oldest it has not recomputed, is discarded. -/
def State.reinitFix (s : State) (held : List Expo) : State :=
  match held.find? (fun x => x.fix.isNone) with
  | some x => (s.discardExpo x).sweep.publish
  | none => s

/-- 0x05 EVT: window engine and event logic as at a reset of PD5 (R210, R214, R218). -/
def State.reinitEvt (s : State) : State :=
  let s := State.each 8 (fun g s => s.abandonWindow g) s
  let mine (c : BitVec 16) : Bool := c.toNat / 2 ^ 8 == 2 || c.toNat / 2 ^ 8 == 3
  let s := s.modEvt (fun v => { v with
    groups := List.replicate 8 GroupState.reset, samples := [], unconf := [],
    rp := List.replicate 32 Pickup.reset, oc := List.replicate 96 Pickup.reset,
    active := v.active.filter (fun a => !mine a.1), pulses := v.pulses.filter (fun a => !mine a.1) })
  let s := State.each 8 (fun g s => s.wr (EVT_VGSTAT g) (regReset (EVT_VGSTAT g))) s
  let s := State.each 3 (fun i s => s.wr (EVT_OCNOW i) 0) (s.wr EVT_RPNOW 0)
  State.each 8 (fun n s => s.tripFollow n) s

/-- 0x07 FCV: converter and sequencer; UNCAL = 1; a held contact sheet is discarded. -/
def State.reinitFcv (s : State) : State :=
  if !s.pdOn 6 then s
  else (((s.fcvStop.fcvDo (fun f => f)).setFlag FCV_STAT_UNCAL true).setFlag FCV_CSCTL_ARM false)

/-- 0x08 PLC: baseband and MAC; contexts and directory are kept, tone maps invalidated; descriptors in progress end ABORTED (log
31). -/
def State.reinitPlc (s : State) : State :=
  if !s.pdOn 7 then s
  else
    let s := ((s.framesAbort 9).framesAbort 12).rxRelease
    let unmap (c : NeighCtx) : NeighCtx := { c with maps := c.maps.map (fun (m : ToneMap) => { m with valid := false }), neg := none }
    let s := s.modPlc (fun p => { PlcState.reset with
      ctxs := p.ctxs.map unmap, dir := p.dir, newDir := p.newDir, copied := p.copied, initBusy := p.initBusy,
      cache := p.cache, rxQ := p.rxQ, out := p.out, overTemp := p.overTemp, refusedVld := p.refusedVld })
    ((s.setFlag PLC_STAT_TXBUSY false).setFlag PLC_STAT_RXBUSY false).setFlag PLC_STAT_CD false

/-- 0x0A LDGW: ledger writer and FRAM interface; a proof in progress is abandoned and tried again (R246). -/
def State.reinitLdgw (s : State) : State :=
  match s.prf.phase, s.prf.job with
  | .idle, _ => s
  | _, some j => (s.modPrf (fun p => { p with due := j :: p.due })).writerIdle
  | _, none => s.writerIdle

/-- 0x0B CVU: host scans of CVU0 to CVU2 end ABORTED (R374). -/
def State.reinitCvu (s : State) : State :=
  State.each 3 (fun u s => if (s.scan u).isSome then s.stopScan u stAborted else s) s

/-- Targets 0x01 to 0x05; `held`: exposures not resolved that ended before the boundary. -/
def State.reinitAt (s : State) (target : Nat) (held : List Expo) : State :=
  if target = 1 then s.reinitMfe else if target = 2 then s.reinitFlt else if target = 3 then s.reinitDev held
  else if target = 4 then s.reinitFix held else if target = 5 then s.reinitEvt else s

/-- Targets reinitialised at once. -/
def State.reinitNow (s : State) (target : Nat) : State :=
  if target = 7 then s.reinitFcv else if target = 8 then s.reinitPlc else if target = 10 then s.reinitLdgw
  else if target = 11 then s.reinitCvu else if target = 12 then s.hifLost else s

/-- FN_REINIT with a target other than SAFETY and TZL (R429). -/
def State.cmdReinit (s : State) (h : CmdHdr) (target : Nat) : State :=
  let ring := match h.src with | .ring _ => true | _ => false
  if target = 0 ∨ 12 < target then (s.reinitShow target stBadarg).complete 0x60 h stBadarg 0 0 0
  else if s.flag PWR_STAT_ASBUSY || (target == 12 && ring) then (s.reinitShow target stRefused).complete 0x60 h stRefused 0 0 0
  else if target ≤ 5 ∧ s.exp.running then s.keep 0x60 h (.reinit (BitVec.ofNat 8 target))
  else
    let t : Taken := { op := 0x60, hdr := h, wait := .reinit (BitVec.ofNat 8 target), muted := false }
    let (s, n) := s.lastNumber
    let s := { s with taken := s.taken ++ [t] }
    (if target ≤ 5 then s.reinitAt target s.exp.pipe else s.reinitNow target).reinitDone t target n

/-! Meanings -/

/-- FN_REINIT_SAFETY (R430). -/
def execFnReinitSafety (h : CmdHdr) (s : State) : Host.Outcome State Fault Refusal :=
  finish (fun s => s.take 0x60 h (fun s => s.cmdReinitSafety h)) s

/-- KAV_VECTOR (R418). -/
def execKavVector (ok : Bool) (s : State) : Host.Outcome State Fault Refusal := finish (fun s => s.kavRun ok) s

/-- CLOCK_CHECK (R419). -/
def execClockCheck (fclkOk filtOk hfOk : Bool) (s : State) : Host.Outcome State Fault Refusal :=
  finish (fun s => s.clockRun fclkOk filtOk hfOk) s

/-- SCAN_PASS_DONE (R416). -/
def execScanPassDone (entry : Nat) (upset : BitVec 36) (stable : Bool) (ecc : List EccIn) (s : State) :
    Host.Outcome State Fault Refusal := finish (fun s => s.scanRun entry upset stable ecc) s

end Sys2Proof.Machine
end

