-- ==== Sys2Proof/Machine/Tozar.lean ====
section
/-!
DEFINITION. The Tozar Link (R432 to R449): ports, enumeration, cascades, remote accesses, mirrored pairs, and FN_REINIT TZL.
-/

namespace Sys2Proof.Machine

/-- Changes the Tozar Link state. -/
def State.modTzl (s : State) (f : TzlState → TzlState) : State := { s with tzl := f s.tzl }

/-- Sends a frame or character. -/
def State.tzSend (s : State) (x : TzOut) : State := s.modTzl (fun t => { t with out := t.out ++ [x] })

/-- A cascade slave: MSTR = 0 (R436). -/
def State.tzSlave (s : State) : Bool := s.tzl.mode == 1 && !s.flag GLB_STRAP_MSTR

/-- The master of a cascade (R435). -/
def State.tzMaster (s : State) : Bool := s.tzl.mode == 1 && s.flag GLB_STRAP_MSTR

/-- A mirrored pair's port is trained: side 0 uses its downstream port, side 1 its upstream port (R444). -/
def State.mirLinked (s : State) : Bool := if s.tzl.side then s.flag TZL_STAT_UPTRN else s.flag TZL_STAT_DNTRN

/-- The device takes its boundaries and time from another one: a slave that is not islanded (R436, R442), or a standby on a
trained link (R444). -/
def State.follows (s : State) : Bool :=
  (s.tzSlave && !s.flag TZL_STAT_ISLAND) || (s.mirStandby && s.tzl.enumerated && s.mirLinked)

/-- Highest exposure number recorded or issued (R435, R437). -/
def State.highest (s : State) : BitVec 72 := if s.exp.running then s.exp.cur else s.exp.next - 1

/-- CF and TRIP balls are released (R446, R447). -/
def State.mirRelease (s : State) : State :=
  let s := State.each 16 (fun n s => s.cfRelease n) s
  State.each 8 (fun n s => (s.tripBall n false).modTrip n (fun t => { t with driven := false })) s

/-- MODE and MIRSIDE take effect: at a reset of PD9, at FN_REINIT TZL, and at the end of autostart (R436, R444). -/
def State.tzlModeTake (s : State) : State :=
  let mode : BitVec 2 := if s.flag GLB_STRAP_MSTR then BitVec.ofNat 2 (s.get TZL_CTL_MODE) else 1
  let side := s.flag TZL_CTL_MIRSIDE
  if mode = s.tzl.mode ∧ side = s.tzl.side then s
  else
    let s := s.modTzl (fun t => { TzlState.reset with mode := mode, side := side, events := t.events, out := t.out })
    let s := s.modTzl (fun t => { t with waiting := mode == 1 && !s.flag GLB_STRAP_MSTR })
    let s := (((s.setFlag TZL_STAT_UPTRN false).setFlag TZL_STAT_DNTRN false).setFlag TZL_STAT_ACTIVE false).setFlag
      TZL_STAT_ISLAND false
    let s := (s.put TZL_STAT_POS 0).put TZL_STAT_NDEV 0
    if mode = 2 then s.mirRelease else s

/-! Ports (R434) -/

/-- Flag of a port. -/
def portFlag : TzPort → Fld
  | .up => TZL_STAT_UPTRN
  | .down => TZL_STAT_DNTRN

/-- INDEX of a port in event 0x0C01. -/
def portIndex : TzPort → Nat
  | .up => 0
  | .down => 1

/-- A port that the mode in effect uses (R435, R444). -/
def State.portUsed (s : State) (p : TzPort) : Bool :=
  s.pdOn 9 && (s.tzl.mode == 1 || (s.tzl.mode == 2 && (match p with | .up => s.tzl.side | .down => !s.tzl.side)))

/-- A mirrored device becomes active (R444, R447): CF and TRIP balls are driven from their next slot or decision. -/
def State.becomeActive (s : State) : State :=
  ((s.modTzl (fun t => { t with enumerated := true, takeover := none, masterTs := none })).setFlag TZL_STAT_ACTIVE true).setFlag
    TZL_MIRCTL_HANDOVER false

/-- A port is trained (R434): the master enumerates (R435); side 0 of a mirrored pair becomes active if the roles are open (R444). -/
def State.portUp (s : State) (p : TzPort) : State :=
  if !s.portUsed p || s.flag (portFlag p) then s
  else
    let lost := match p with | .up => s.tzl.upLost | .down => s.tzl.dnLost
    let s := s.setFlag (portFlag p) true
    let s := s.modTzl (fun t => match p with | .up => { t with upLost := false } | .down => { t with dnLost := false })
    let s := if lost then s.event 0x0C01 (portIndex p) .stop 0 0 0 else s
    if s.tzMaster ∧ p = .down then s.tzSend (.enumeration 0 s.highest)
    else if s.tzl.mode = 2 ∧ ¬ s.tzl.enumerated then
      if s.tzl.side then s.modTzl (fun t => { t with enumerated := true }) else s.becomeActive
    else s

/-- Cause code of a port loss (R449). -/
def lossCode : TzLoss → Nat
  | .codes => 0
  | .comma => 1
  | .frames => 2

/-- The slave becomes islanded (R442): it meters on its own boundaries and its own clock. -/
def State.becomeIsland (s : State) : State :=
  let s := s.setFlag TZL_STAT_ISLAND true
  let s := s.modTzl (fun t => { t with masterTs := none, timeSet := false, cut := s.exp.running })
  (s.slewTo 0 0).event 0x0C03 (s.get TZL_STAT_POS) .start 0 0 0

/-- A trained port declares loss (R434). -/
def State.portDown (s : State) (p : TzPort) (cause : TzLoss) : State :=
  if !s.flag (portFlag p) then s
  else
    let s := s.setFlag (portFlag p) false
    let s := s.modTzl (fun t => match p with | .up => { t with upLost := true } | .down => { t with dnLost := true })
    let s := s.event 0x0C01 (portIndex p) .start (lossCode cause) 0 0
    let s := if cause = .frames then s.bump TZL_CRCERR_CRCERR 4 else s
    if s.tzSlave && p == TzPort.up && s.tzl.enumerated && !s.flag TZL_STAT_ISLAND then s.becomeIsland else s

/-- Receptions that failed their CRC before a frame came through are counted (R433). -/
def State.crcFailed (s : State) (bad : Nat) : State := if s.pdOn 9 then s.bump TZL_CRCERR_CRCERR (min bad 3) else s

/-! Cascades (R435 to R443) -/

/-- The enumeration frame (R435): a slave takes its position and passes the frame on; the master learns the number of devices. -/
def State.enumerate (s : State) (pos ndev : Nat) : State :=
  if s.tzMaster then
    if s.flag TZL_STAT_DNTRN ∧ 1 ≤ ndev ∧ ndev ≤ 8 then (s.put TZL_STAT_NDEV ndev).modTzl (fun t => { t with enumerated := true })
    else s
  else if s.tzSlave && s.flag TZL_STAT_UPTRN then
    if 7 ≤ pos then s.event 0x0C02 0 .momentary pos 0 0
    else ((s.put TZL_STAT_POS (pos + 1)).modTzl (fun t => { t with enumerated := true })).tzSend (.enumeration (pos + 1) s.highest)
  else s

/-- A cascade start (R437): the first exposure from the next boundary on carries `first`; a slave's wait or island ends. -/
def State.cascadeStart (s : State) (first : BitVec 72) : State :=
  let own : BitVec 72 := s.highest + 1
  let n := if first.toNat < own.toNat then own else first
  if s.tzMaster && s.tzl.enumerated then
    if s.exp.running then s.modTzl (fun t => { t with jump := some n }) else s.modExp (fun e => { e with next := n })
  else if s.tzSlave && s.tzl.enumerated && s.flag TZL_STAT_UPTRN then
    let isl := s.flag TZL_STAT_ISLAND
    let s := if isl then (s.setFlag TZL_STAT_ISLAND false).event 0x0C03 (s.get TZL_STAT_POS) .stop (n.toNat % 2 ^ 64) (n.toNat / 2 ^ 64) 0
      else s
    let s := s.modTzl (fun t => { t with waiting := false, timeSet := false })
    if s.exp.running then s.modTzl (fun t => { t with jump := some n, cut := isl }) else s.modExp (fun e => { e with next := n })
  else s

/-- A slave's resolution frame (R440): a slave on its way passes it on; at the master its events go to the window, fixed increments of
paired points to R169, a snapshot record to its place (R441). -/
def State.resolution (s : State) (f : ResFrame) : State :=
  if s.tzSlave && s.tzl.enumerated && s.flag TZL_STAT_UPTRN && s.flag TZL_STAT_DNTRN then s.tzSend (.resolution { f with bad := 0 })
  else if !(s.tzMaster && s.tzl.enumerated && s.flag TZL_STAT_DNTRN) then s
  else
    let s := f.events.foldl (fun (s : State) e =>
      if s.tzl.events.length < 256 then s.modTzl (fun t => { t with events := t.events ++ [(f.pos, e)] })
      else s.bump TZL_EVSTAT_DROP 1) s
    let s := s.expireLatent
    let s := match s.expo f.expno with
      | some x =>
        if x.slot.pairC.isSome && effOf x.slot.eff PAIR_CTL_PARTNER == f.pos then
          f.points.foldl (fun (s : State) (q : Nat × Bool × List Nat) =>
            if !(q.2.1 && s.pairPrimary x.slot q.1 && !bitAt x.resolved.toNat q.1) then s
            else
              let s := s.modPair (fun p => { p with recvd := p.recvd ++ [(f.expno, q.1, q.2.2)] })
              match x.pairWait.find? (fun (w : Nat × Verdict × List Nat) => w.1 == q.1) with
              | some w => s.pairDecide x q.1 w.2.2 w.2.1 ((x.result q.1).getD (noDev q.1)) false
              | none => s) s
        else s
      | none => s
    let s := s.sweep.settlePipe 3
    match f.record with
    | none => s
    | some l =>
      if !s.flag TZL_CTL_CASREC then s
      else if s.tzl.cascade.any (fun c => c.expno.toNat == recordExpno l && c.left.contains f.pos) then
        (s.modTzl (fun t => { t with cascade := t.cascade.map (fun c =>
          if c.expno.toNat = recordExpno l then { c with got := c.got ++ [(f.pos, l)] } else c) })).cascadeSend
      else s.modTzl (fun t => { t with early := t.early ++ [(f.pos, l)] })

/-- A slave's record of the oldest cascade snapshot has not arrived within 5 ms of this device's own (R441, log 138). -/
def State.recordMissing (s : State) (pos : Nat) : State :=
  match s.tzl.cascade with
  | c :: rest =>
    if c.left.contains pos && !c.got.any (fun g => g.1 == pos) then
      let s := s.reach (c.at_ + msCycles 5)
      let s := s.event 0x0C05 pos .momentary (c.expno.toNat % 2 ^ 64) 0 0
      (s.modTzl (fun t => { t with cascade := { c with left := c.left.erase pos } :: rest })).cascadeSend
    else s
  | [] => s

/-! Remote accesses (R441) -/

/-- TZL_RADDR: RD starts a remote read unless one runs. -/
def State.wrRaddr (w : WriteBy) (v : BitVec 32) (s : State) : State :=
  let s := s.storeWrite w TZL_RADDR v
  if !(s.writable w TZL_RADDR && decide (w ≠ .image) && bitAt v.toNat 31) || s.flag TZL_RSTAT_BUSY then s
  else
    let pos := s.get TZL_RADDR_POS
    let off : BitVec 16 := BitVec.ofNat 16 (4 * s.get TZL_RADDR_OFFSET)
    let s := (s.setFlag TZL_RSTAT_BUSY true).setFlag TZL_RSTAT_RDY false
    (s.modTzl (fun t => { t with remote := some (false, pos, off, 0) })).tzSend (.remote pos off none)

/-- TZL_RDATA: a write starts a remote write of the value unless an access runs. -/
def State.wrRdata (w : WriteBy) (v : BitVec 32) (s : State) : State :=
  if !s.writable w TZL_RDATA || s.flag TZL_RSTAT_BUSY then s
  else
    let s := s.storeWrite w TZL_RDATA v
    let pos := s.get TZL_RADDR_POS
    let off : BitVec 16 := BitVec.ofNat 16 (4 * s.get TZL_RADDR_OFFSET)
    let s := (s.setFlag TZL_RSTAT_BUSY true).setFlag TZL_RSTAT_RDY false
    (s.modTzl (fun t => { t with remote := some (true, pos, off, v) })).tzSend (.remote pos off (some v))

/-- A remote access ends: a read with its data, either with none when the position is absent or the link lost. -/
def State.remoteDone (s : State) (data : Option (BitVec 32)) : State :=
  match s.tzl.remote with
  | none => s
  | some (write, pos, _, _) =>
    let s := (s.modTzl (fun t => { t with remote := none })).setFlag TZL_RSTAT_BUSY false
    let here := s.tzMaster && s.flag TZL_STAT_DNTRN && decide (pos < s.get TZL_STAT_NDEV)
    match data with
    | none => s.setFlag TZL_RSTAT_ERR true
    | some d =>
      if !here then s.setFlag TZL_RSTAT_ERR true
      else if write then s
      else (s.wr TZL_RDATA d).setFlag TZL_RSTAT_RDY true

/-! FN_REINIT TZL (R443) -/

/-- FN_REINIT with target TZL: MODE and MIRSIDE take effect and both ports retrain.  In a cascade the command waits for the cascade
start; outside one nothing is left to wait for. -/
def State.cmdReinitTzl (s : State) (h : CmdHdr) : State :=
  if s.flag PWR_STAT_ASBUSY then (s.reinitShow 9 stRefused).complete 0x60 h stRefused 0 0 0
  else
    let s := ((s.tzlModeTake).setFlag TZL_STAT_UPTRN false).setFlag TZL_STAT_DNTRN false
    let s := s.modTzl (fun t => { t with masterTs := none, reinitAt := s.exp.now })
    if s.tzl.mode = 1 then s.keep 0x60 h .reinitTzl
    else
      let t : Taken := { op := 0x60, hdr := h, wait := .reinitTzl, muted := false }
      let (s, n) := s.lastNumber
      ({ s with taken := s.taken ++ [t] }).reinitDone t 9 n

/-- The first boundary of the rejoined cascade has come: DONE with its first exposure number. -/
def State.reinitTzlDone (s : State) (first : BitVec 72) : State :=
  (s.taken.filter (fun t => t.wait == Wait.reinitTzl)).foldl (fun s t => s.reinitDone t 9 first) s

/-- The boundary has not come within 10 ms. -/
def State.reinitTzlLate (s : State) (lowest : Nat) : State :=
  if s.taken.any (fun t => t.wait == Wait.reinitTzl) then
    ((s.reach (s.tzl.reinitAt + msCycles 10)).reinitShow 9 stFault).doneAll (fun t => t.wait == Wait.reinitTzl) stFault (fun _ => (9, lowest, 0))
  else s

/-! Mirrored pairs (R444 to R448) -/

/-- One point of a mirror frame enters the standby's ledger, and is compared with its own increments (R445). -/
def State.mirTake (s : State) (e : BitVec 72) (p : Nat) (fixed : Bool) (l : List Nat) : State :=
  let s := s.freezePoint p e.toNat
  let s := if fixed then (s.ledgerTake p l).cfResolve e p l else (s.withhold p l).cfResolve e p []
  match s.tzl.own.find? (fun o => o.1 == e && o.2.1 == p) with
  | some (_, _, incs) =>
    let s := s.modTzl (fun t => { t with own := t.own.filter (fun o => !(o.1 == e && o.2.1 == p)) })
    if fixed && incs != l then s.mirDiffer e p else s
  | none =>
    if s.exp.pipe.any (fun y => y.slot.expno == e && bitAt y.slot.running.toNat p && !bitAt y.resolved.toNat p) then
      s.modTzl (fun t => { t with mirGot := t.mirGot ++ [(e, p, fixed, l)] })
    else s

/-- 2.5 ms in units of 2^-24 s (R447). -/
def mirLife : Nat := 41943

/-- The deadline of a mirror frame: 2.5 ms after the end timestamp of its exposure (R447). -/
def mirDue (ts : BitVec 64) : BitVec 64 := BitVec.ofNat 64 (tsKey ts + mirLife)

/-- A mirror frame reaches the standby (R445, R447); one that comes after its deadline has not arrived (R38). -/
def State.mirFrame (s : State) (f : MirFrame) : State :=
  let old := match s.tzl.mirLast with | some k => decide (f.expno.toNat ≤ k.toNat) | none => false
  let late := s.tzl.sums.any (fun c => c.1 == f.expno && s.lateFor (mirDue c.2.2))
  if !(s.mirStandby && s.tzl.enumerated && s.mirLinked) || old || late then s
  else
    let e := f.expno
    let small := decide (f.counts.length ≤ 8)
    let s := s.modTzl (fun t => { t with small := small, mirLast := some e })
    let given (p : Nat) : Bool × List Nat := match f.points.find? (fun q => q.1 == p) with
      | some q => q.2
      | none => (true, [])
    let s := State.each (if small then 12 else 32) (fun p s => s.mirTake e p (given p).1 (given p).2) s
    let s := f.releases.foldl (fun (s : State) (r : Nat × Nat × Nat) =>
      if r.1 < 32 ∧ r.2.1 < 10 then (s.releaseOne r.1 r.2.1 r.2.2 e).wheld r.1 else s) s
    let s := State.each (if small then 8 else 16) (fun j s => s.pinQuantity j (f.counts.getD j 0)) s
    let s := match s.tzl.sums.find? (fun c => c.1 == e) with
      | some (_, v, _) => if v = f.sum36 then s else s.event 0x0C06 255 .momentary (e.toNat % 2 ^ 64) 0 0
      | none => s
    let s := s.modTzl (fun t => { t with
      sums := t.sums.filter (fun c => decide (e.toNat < c.1.toNat))
      countsNow := t.countsNow.filter (fun c => decide (e.toNat < c.1.toNat))
      takeover := if f.handover then some 1 else t.takeover })
    s.sweep

/-- The deadline of a mirror frame that has not come passes: takeover is armed (R447). -/
def State.mirDeadline (s : State) : State :=
  if s.mirStandby && s.tzl.takeover.isNone &&
      s.tzl.sums.any (fun c => s.passed (mirDue c.2.2)) then
    s.modTzl (fun t => { t with takeover := some 0 })
  else s

/-- Takeover (R447): the standby's own increments of the exposures whose frames are missing, its outputs, K28.3, and the event. -/
def State.takeOver (s : State) : State :=
  match s.tzl.takeover with
  | none => s
  | some cause =>
    if !s.mirStandby then s
    else
      let n := match s.exp.lastEnded with | some (e, _) => e | none => 0
      let s := s.tzl.own.foldl (fun (s : State) (o : BitVec 72 × Nat × List Nat) =>
        ((s.freezePoint o.2.1 o.1.toNat).ledgerTake o.2.1 o.2.2).cfResolve o.1 o.2.1 o.2.2) s
      let s := (s.modTzl (fun t => { t with
        own := [], mirGot := [], sums := t.sums.filter (fun c => s.exp.pipe.any (fun y => y.slot.expno == c.1)) })).becomeActive
      let s := (s.faultUpdate.tzSend .k283).event 0x0C04 s.tzl.side.toNat .momentary cause.toNat (n.toNat % 2 ^ 64) 0
      if s.mirLinked then s else (s.setFlag TZL_STAT_DUAL true).event 0x0C07 0 .momentary 0 0 0

/-- An active device that receives K28.3 releases CF, TRIP and FAULT_N and becomes the standby (R447). -/
def State.yieldActive (s : State) : State :=
  if s.tzl.mode = 2 ∧ s.flag TZL_STAT_ACTIVE then
    let s := (s.setFlag TZL_STAT_ACTIVE false).setFlag TZL_MIRCTL_HANDOVER false
    let s := s.mirRelease.modSaf (fun f => { f with faultN := false })
    s.modTzl (fun t => { t with enumerated := true, relNow := [], mirLast := s.exp.lastResolved.map (·.1) })
  else s

/-- TZL_MIRCTL: the active device hands over (R447). -/
def State.wrMirctl (w : WriteBy) (v : BitVec 32) (s : State) : State :=
  if s.writable w TZL_MIRCTL && decide (w ≠ .image) && bitAt v.toNat 0 && s.tzl.mode == 2 && s.flag TZL_STAT_ACTIVE then
    s.setFlag TZL_MIRCTL_HANDOVER true
  else s

/-- TZL_EVPOP: any write removes the forwarded event shown (R440). -/
def State.wrEvpopTzl (s : State) : State := if s.pdOn 9 then s.modTzl (fun t => { t with events := t.events.tail }) else s

/-- The event window's registers (R440). -/
def State.tzlShow (s : State) (off : Nat) : Option (BitVec 32) :=
  if off = TZL_EVSTAT then
    let v := s.get TZL_EVSTAT_DROP * 2 ^ 24 + s.tzl.events.length
    some (BitVec.ofNat 32 (match s.tzl.events with | [] => v | (p, _) :: _ => v + p * 2 ^ 17 + 2 ^ 16))
  else if TZL_EVT 0 ≤ off ∧ off ≤ TZL_EVT 15 then
    some (match s.tzl.events with | [] => 0 | (_, l) :: _ => l.getD ((off - TZL_EVT 0) / 4) 0)
  else none

/-! Meanings -/

/-- PORT_TRAINED (R434). -/
def execPortTrained (port : TzPort) (s : State) : Host.Outcome State Fault Refusal := finish (fun s => s.portUp port) s

/-- PORT_LOSS (R434, R442). -/
def execPortLoss (port : TzPort) (cause : TzLoss) (s : State) : Host.Outcome State Fault Refusal :=
  finish (fun s => s.portDown port cause) s

/-- ENUMERATION_FRAME (R435). -/
def execEnumerationFrame (pos ndev : Nat) (s : State) (bad : Nat := 0) : Host.Outcome State Fault Refusal :=
  finish (fun s => (s.crcFailed bad).enumerate pos ndev) s

/-- CASCADE_START (R437). -/
def execCascadeStart (first : BitVec 72) (s : State) : Host.Outcome State Fault Refusal :=
  finish (fun s => s.cascadeStart first) s

/-- ECHO_FRAME (R438). -/
def execEchoFrame (delay : BitVec 16) (s : State) (bad : Nat := 0) : Host.Outcome State Fault Refusal :=
  finish (fun s =>
    let s := s.crcFailed bad
    if (s.tzSlave && s.flag TZL_STAT_UPTRN) || (s.mirStandby && s.mirLinked) then s.put TZL_DELAY_DELAY delay.toNat else s) s

/-- RESOLUTION_FRAME (R440). -/
def execResolutionFrame (f : ResFrame) (s : State) : Host.Outcome State Fault Refusal :=
  finish (fun s => (s.crcFailed f.bad).resolution f) s

/-- CASCADE_RECORD_MISSING (R441). -/
def execCascadeRecordMissing (pos : Nat) (s : State) : Host.Outcome State Fault Refusal := finish (fun s => s.recordMissing pos) s

/-- TZL_EVPOP (R440). -/
def execTzlEvpop (_p : Port) (_v : BitVec 32) (s : State) : Host.Outcome State Fault Refusal := finish (fun s => s.wrEvpopTzl) s

/-- REMOTE_READ (R441). -/
def execRemoteRead (p : Port) (v : BitVec 32) (s : State) : Host.Outcome State Fault Refusal := finish (State.wrRaddr (.port p) v) s

/-- REMOTE_WRITE (R441). -/
def execRemoteWrite (p : Port) (v : BitVec 32) (s : State) : Host.Outcome State Fault Refusal := finish (State.wrRdata (.port p) v) s

/-- REMOTE_ACCESS_DONE (R441). -/
def execRemoteAccessDone (data : Option (BitVec 32)) (s : State) : Host.Outcome State Fault Refusal :=
  finish (fun s => s.remoteDone data) s

/-- FN_REINIT_TZL (R443). -/
def execFnReinitTzl (h : CmdHdr) (s : State) : Host.Outcome State Fault Refusal :=
  finish (fun s => s.take 0x60 h (fun s => s.cmdReinitTzl h)) s

/-- FN_REINIT_TZL_TIMEOUT (R443). -/
def execFnReinitTzlTimeout (lowest : Nat) (s : State) : Host.Outcome State Fault Refusal :=
  finish (fun s => s.reinitTzlLate lowest) s

/-- MIRROR_FRAME (R445). -/
def execMirrorFrame (f : MirFrame) (s : State) : Host.Outcome State Fault Refusal :=
  finish (fun s => (s.crcFailed f.bad).mirFrame f) s

/-- MIRROR_FRAME_DEADLINE (R447). -/
def execMirrorFrameDeadline (s : State) : Host.Outcome State Fault Refusal := finish (fun s => s.mirDeadline) s

/-- K28_3 (R447). -/
def execK283 (s : State) : Host.Outcome State Fault Refusal := finish (fun s => s.yieldActive) s

/-- MIRROR_SIDE_TIMEOUT (R444): side 0 was not trained within 100 ms of side 1's READY. -/
def execMirrorSideTimeout (s : State) : Host.Outcome State Fault Refusal :=
  finish (fun s =>
    if s.tzl.mode = 2 ∧ s.tzl.side ∧ s.ready ∧ ¬ s.flag TZL_STAT_UPTRN ∧ ¬ s.tzl.enumerated then
      (s.reach (s.pwr.readyAt + msCycles 100)).becomeActive
    else s) s

/-- HANDOVER (R447). -/
def execHandover (p : Port) (v : BitVec 32) (s : State) : Host.Outcome State Fault Refusal := finish (State.wrMirctl (.port p) v) s

end Sys2Proof.Machine
end

