-- ==== Sys2Proof/Machine/Cmds.lean ====
section
/-!
DEFINITION. SYNC requests (R137, R138), FN_REINIT by target (R429), and the one dispatch of a command descriptor that the CMD ring,
the mailbox and image records share (R391, R392, R396).
-/

namespace Sys2Proof.Machine

/-! SYNC (R137, R138) -/

/-- A SYNC is recognised: its sync edge comes 128 MCLK periods later, unless an earlier one still waits for its own, which absorbs
it. -/
def State.syncRequest (s : State) (src : BitVec 3) : State :=
  if s.exp.syncAt.isSome then s
  else
    let t := s.exp.now + (if s.effGet PWR_CTL_MCLKLP = 1 then 256 else 128)
    (s.modExp (fun e => { e with syncAt := some t, syncSrc := src })).setFlag FLT_STAT_SYNCPEND true

/-- The SYNC command: refused while autostart runs (R138) and on a device that follows another's boundaries (R137). -/
def State.cmdSync (s : State) (h : CmdHdr) : State :=
  if s.flag PWR_STAT_ASBUSY || s.tzSlave || s.follows || !s.pdOn 3 then s.complete 0x20 h stRefused 0 0 0
  else (s.keep 0x20 h .sync).syncRequest 2

/-- A rising edge on the SYNC ball, high for 4 HFREF cycles (R137). -/
def State.syncBall (s : State) : State :=
  if !s.pdOn 3 || !s.ready || !s.flag FLT_CTL_SYNCPIN || s.flag PWR_STAT_ASBUSY || s.tzSlave || s.follows then s
  else s.syncRequest 1

/-! Dispatch (R391, R394, R396) -/

/-- FN_REINIT by target (R429, R430, R443). -/
def State.cmdFnReinit (s : State) (h : CmdHdr) (a0 : BitVec 64) : State :=
  let target := a0.toNat % 2 ^ 8
  if target = 6 then s.cmdReinitSafety h else if target = 9 then s.cmdReinitTzl h else s.cmdReinit h target

/-- The body of a command by its opcode; an unknown or reserved opcode completes with BADARG (R394). -/
def State.runCommand (s : State) (op : BitVec 8) (h : CmdHdr) (a0 a1 a2 a3 : BitVec 64) : State :=
  match op.toNat with
  | 0x00 => s.complete op h stDone 0 0 0
  | 0x01 => s.cmdMp h a0 true
  | 0x02 => s.cmdMp h a0 false
  | 0x10 => if a0.toNat / 2 ^ 8 % 4 = 2 then s.cmdCorrLoad h a0 a1 else s.cmdCoefLoad h a0 a1
  | 0x11 => s.cmdCoefSwap h a0
  | 0x12 => s.cmdFilt op h a0 false
  | 0x13 => s.cmdFilt op h a0 true
  | 0x20 => s.cmdSync h
  | 0x21 => s.cmdSnapshot h a0 a1 a2
  | 0x22 => s.cmdCalWindow h a0 a1 a2 a3
  | 0x23 => s.cmdRelease h a0 a1 a2
  | 0x30 => s.cmdRtcCapture h
  | 0x31 => s.cmdRtcSet h a0 a1 a2
  | 0x32 => s.cmdRtcAdjust h a0 a1 a2
  | 0x40 => s.cmdFcvCal h
  | 0x41 => s.cmdFcvSeq h a0 a1
  | 0x50 => s.cmdCvuScan h a0 a1 a2
  | 0x60 => s.cmdFnReinit h a0
  | 0x61 => s.cmdPwrCycle h a0
  | 0x70 => s.cmdProofNow h
  | 0x71 => s.cmdSeal h
  | 0x72 => s.cmdUnseal h
  | _ => s.complete op h stBadarg 0 0 0

/-- The header of a descriptor from a source (R391). -/
def descHdr (src : CmdSrc) (d : Desc8) : CmdHdr :=
  { src := src, tag := (d.d0 >>> 32).truncate 32, dlv := bitAt d.d0.toNat 8, deadline := d.d1 }

/-- Takes a command descriptor (R392, R395). -/
def State.command (s : State) (src : CmdSrc) (d : Desc8) : State :=
  let op : BitVec 8 := d.d0.truncate 8
  let h := descHdr src d
  s.take op h (fun s => s.runCommand op h d.d2 d.d3 d.d4 d.d5)

/-- Takes fetched descriptors of the CMD ring in index order while fewer than 64 commands are open (R392). -/
def State.takeFetched : Nat → State → State
  | 0, s => s
  | fuel + 1, s =>
    match s.hif.fetched with
    | (i, d) :: _ => if s.canTake (descHdr (.ring i) d) then (s.command (.ring i) d).takeFetched fuel else s
    | [] => s

/-- Takes what may be taken. -/
def State.takeCommands (s : State) : State := s.takeFetched s.hif.fetched.length

/-! Meanings -/

/-- SYNC (R137). -/
def execSync (h : CmdHdr) (s : State) : Host.Outcome State Fault Refusal :=
  finish (fun s => s.take 0x20 h (fun s => s.cmdSync h)) s

/-- SYNC_PIN (R137). -/
def execSyncPin (s : State) : Host.Outcome State Fault Refusal := finish (fun s => s.syncBall) s

/-- FN_REINIT (R429). -/
def execFnReinit (h : CmdHdr) (a0 : BitVec 64) (s : State) : Host.Outcome State Fault Refusal :=
  finish (fun s => s.take 0x60 h (fun s => s.cmdFnReinit h a0)) s

/-- COMPLETION_WRITE (R393): a returned command makes room for fetched ones (R392). -/
def execCompletionWrite (s : State) : Host.Outcome State Fault Refusal :=
  finish (fun s => s.completionWrite.takeCommands) s

/-- DOORBELL_READ_DONE (R387): the read in flight ends with the page or a DMA fault; P of every running ring follows, fetched
descriptors are kept, and commands are taken. -/
def execDoorbellReadDone (page : Fetch (List (BitVec 32))) (cmds : List (Fetch Desc8)) (posted : List Posted) (s : State) :
    Host.Outcome State Fault Refusal :=
  finish (fun s =>
    if !s.hif.dbInFlight then s
    else
      let again := s.hif.dbAgain
      let s := s.modHif (fun f => { f with dbInFlight := again, dbAgain := false })
      match page with
      | .fault c a => s.dmaFault 16 c a
      | .ok l =>
        let s := s.modHif (fun f => { f with dmaStopped := false })
        let s := State.each 16 (fun r s => s.ringDoorbell r (l.getD (16 * r) 0)) s
        let s := posted.foldl (fun (s : State) (q : Posted) => if bufferRings.contains q.ring then s.ringPost q.ring q.descs else s) s
        (s.fetchCmds cmds).takeCommands) s

end Sys2Proof.Machine
end

