-- ==== Sys2Proof/Machine/Power.lean ====
section
/-!
DEFINITION. Power domains, supply monitors, reset sources, the rows of start-up up to the restore, device states, power fail, and
the wake sources (R68 to R90, R353, R354, R361, R426, R427).
-/

namespace Sys2Proof.Machine

/-- Changes the power state. -/
def State.modPwr (s : State) (f : PwrState → PwrState) : State := { s with pwr := f s.pwr }

/-- Codes of PWR_STAT.STATE (R85). -/
def stRun : Nat := 0
def stMeter : Nat := 1
def stStandby : Nat := 2
def stTrans : Nat := 3
def stPfhold : Nat := 4

/-- PWR_STAT.STATE. -/
def State.devState (s : State) : Nat := s.get PWR_STAT_STATE

/-- Sets PWR_STAT.STATE; in RUN and METER an LFCLK not verified is replaced by HFREF / 500, up to the first tick edge after it is
verified (R77). -/
def State.setState (s : State) (st : Nat) : State :=
  let s := s.put PWR_STAT_STATE st
  if (st = stRun ∨ st = stMeter) ∧ ¬ s.flag PWR_STAT_LFOK then s.setFlag PWR_STAT_LFSUB true else s

/-! Loss of domains (R13, R70, R78) -/

/-- PD2 to PD9 lose their contents, the capture latch in PD5 among them (R346): what lies in the FRAM, in PD0 and PD1, and what has
already left the device, stays.  A PWR_CYCLE in progress is dropped with the command. -/
def State.coreReset (s : State) : State :=
  let cyc := s.taken.any (fun t => match t.wait with | .pwrCycle _ => true | _ => false)
  let stp := s.taken.any (fun t => t.wait == Wait.rtcStep)
  let hif : HifState := { HifState.reset with
    out := s.hif.out, latchHspi := s.hif.latchHspi, stageHspi := s.hif.stageHspi, hspiOut := s.hif.hspiOut,
    pcieRead := s.hif.pcieRead }
  let s := (s.resetRegs (fun d => decide (2 ≤ d))).put PWR_STAT_PDON 3
  let s := ((s.putWide [RTC_CAPSEC_LO, RTC_CAPSEC_HI] 0).put RTC_CAPFRAC_CAP 0).setFlag RTC_STAT_CAPVALID false
  let s := { s with
    taken := []
    exp := { ExpState.reset with now := s.exp.now, edgeAt := s.exp.edgeAt, lfAt := s.exp.lfAt }
    ldg := LdgState.reset
    evt := EvtState.reset
    pio := PioState.reset
    fcv := FcvState.reset
    cvu := CvuState.reset
    plc := { PlcState.reset with out := s.lineCut.plc.out }
    prf := { PrfState.reset with fram := s.prf.fram, sealN := s.prf.sealN }
    hif := hif
    saf := { SafState.reset with wdtEvent := s.saf.wdtEvent }
    tzl := { TzlState.reset with out := s.tzl.out } }
  let s := s.modRtc (fun r => { r with capture := false, step := if stp then none else r.step })
  let s := s.rtcPend
  if cyc then (s.setFlag RTC_PWRCTL_CYC false).showPwr 0 else s

/-- A reset that reaches PD1 to PD9 (R78): metering stops with STOPCAUSE 1 (R254), and PD0 alone keeps its contents.  The cause is
shown at the release (R90). -/
def State.resetDevice (s : State) (cause : BitVec 7) : State :=
  let s := if s.pdOn 5 then s.bkStop 1 else s
  let s := s.coreReset.resetRegs (fun d => decide (1 ≤ d))
  let s := s.modHif (fun f => { f with latchHspi := [], stageHspi := [] })
  s.modPwr (fun p => { PwrState.reset with
    cause := p.cause ||| cause, monNow := p.monNow, ovAt := p.ovAt, bankFault := p.bankFault, bank33 := p.bank33, tapReset := p.tapReset })

/-- A reset of PD2 to PD9 alone (R81): a power-fail sequence or PFHOLD ends at it. -/
def State.resetCore (s : State) : State :=
  let s := if s.pdOn 5 then s.bkStop 1 else s
  let s := s.coreReset.setFlag GLB_STAT_READY false
  let s := ((s.setFlag PWR_STAT_PFAIL false).setFlag PWR_STAT_ASBUSY false).setState stTrans
  s.modPwr (fun p => { p with
    phase := .inReset, change := .none, wake := false, want := none, stopRan := false, pd1Kept := true, cause := p.cause ||| 2, pfRunning := false })

/-- A backup-domain reset (R361): the registers of PD0 take their reset values, BKPOR among them. -/
def State.resetBackup (s : State) (osfCause : Nat) : State :=
  let r : RtcState := { RtcState.reset with vbLow := s.rtc.vbLow, onBattery := s.rtc.onBattery }
  (({ s with rtc := r }).resetRegs (fun d => decide (d = 0))).setOsf osfCause

/-! PD6 to PD8 (R69, R86) -/

/-- VLD lies in its range (R71). -/
def State.vldIn (s : State) : Bool := !bitAt s.pwr.monNow.toNat 7 && !bitAt s.pwr.monNow.toNat 8

/-- PD8 follows PD7 and the VLD monitor (R69); while VLD is out of range transmissions are refused, with an event (R71, R313). -/
def State.ldrvUpdate (s : State) : State :=
  let on := s.pdOn 7 && s.vldIn
  let s := (if on then s else s.lineCut).setPd 8 on
  if !s.pdOn 7 then s
  else
    let s := s.setFlag PLC_STAT_VLDOK s.vldIn
    if s.vldIn then
      if s.plc.refusedVld then (s.modPlc (fun p => { p with refusedVld := false })).event 0x0807 0 .stop 0 0 0 else s
    else if s.plc.refusedVld then s
    else (s.modPlc (fun p => { p with refusedVld := true })).event 0x0807 0 .start 0 0 0

/-- Fast-converter work stops, transmission is aborted, and the MAC falls silent (R86): descriptors of PLC_TX and NET end ABORTED. -/
def State.stopFcvPlc (s : State) : State :=
  let s := if s.pdOn 6 then s.fcvStop else s
  if !s.pdOn 7 then s
  else
    let s := (((s.lineCut.framesAbort 9).framesAbort 12).rehashAbort 1).rxRelease
    let n := s.plc.rxQ.length
    let s := if s.plc.refusedVld then s.event 0x0807 0 .stop 0 0 0 else s
    (s.dropMany 10 n).modPlc (fun p => { PlcState.reset with out := p.out })

/-- PD6 to PD8 are switched off. -/
def State.offFcvPlc (s : State) : State :=
  let s := s.stopFcvPlc.resetRegs (fun d => decide (6 ≤ d) && decide (d ≤ 8))
  ((s.setPd 6 false).setPd 7 false).setPd 8 false

/-- PD6 and PD7 are switched on, then PD8 when VLD is in range. -/
def State.onFcvPlc (s : State) : State := ((s.setPd 6 true).setPd 7 true).ldrvUpdate.maskShow

/-! Start-up (R73 to R75, R81, R82) -/

/-- PD2 to PD5 and PD9 are released from reset (R70, R85). -/
def State.coreUp (s : State) : State :=
  let s := ((((s.setPd 2 true).setPd 3 true).setPd 4 true).setPd 5 true).setPd 9 true
  let s := s.put PWR_BANK_BANK33 (s.pwr.bank33.toNat &&& (0xFFF - s.pwr.bankFault.toNat))
  let s := if s.flag GLB_STRAP_MSTR then s else s.put TZL_CTL_MODE 1
  s.tzlModeTake

/-- Start-up enters its next row. -/
def State.phaseNext (s : State) (p : Phase) : State := s.modPwr (fun w => { w with phase := p })

/-- A reset is released (R78, R82, R90); in STANDBY, VDDC and VDDA are back (R70).  Causes are shown, straps are sampled unless PD1 kept running (R64, R81), and source selection
starts, or the memories are written at once where HFREF and the PLL never stopped (R81). -/
def State.release (s : State) (mstr autostart : Bool) : State :=
  if s.pwr.phase == .standby then s.modPwr (fun p => { p with coreLow := false })
  else if s.pwr.phase != .inReset && s.pwr.phase != .backup then s
  else
    let kept := s.pwr.pd1Kept
    let s := s.wr PWR_RSTCAUSE (s.rd PWR_RSTCAUSE ||| s.pwr.cause.zeroExtend 32)
    let s := (s.modRtc (fun r => { r with onBattery := false })).chargerState
    let s := if s.flag RTC_PWRCTL_CYC ∧ s.rtc.supplyFell then
        ((s.setFlag RTC_PWRCTL_CYC false).modRtc (fun r => { r with supplyFell := false, lowAt := none })).showPwr s.offend
      else s
    let s := if kept then s else (s.setFlag GLB_STRAP_MSTR mstr).setFlag GLB_STRAP_AUTOSTART autostart
    let s := s.modPwr (fun p => { p with cause := 0, pd1Kept := false, coreLow := false })
    let go := kept && s.flag PWR_STAT_HFOK && s.flag PWR_STAT_PLLLOCK
    let s := if go then s
      else ((s.setFlag PWR_STAT_HFOK false).setFlag PWR_STAT_PLLLOCK false).setFlag PWR_STAT_LFOK false
    s.coreUp.phaseNext (if go then .memInit else .sourceSelect)

/-- A row of start-up, taken in its phase and not once a power-fail sequence runs (R82, R87). -/
def State.startRow (s : State) (p : List Phase) (f : State → State) : State :=
  if p.contains s.pwr.phase && !s.pwr.pfRunning then f s else s

/-- The start-up diagnostics have run (R426): the monitor takes up its work, or finds the start-up failure. -/
def State.diagDone (s : State) (failed : Option (Nat × BitVec 64)) : State :=
  let s := s.phaseNext .restoring
  match failed with
  | none => s.monUpdate
  | some (d, detail) =>
    (((s.setFlag SAF_STAT_STARTFAIL true).event 0x0606 d .momentary detail.toNat 0 0).enterSafe d).monUpdate

/-! Device states (R85, R86) -/

/-- A kind of proof is due or being written. -/
def State.proofOpen (s : State) (kind : BitVec 8) : Bool :=
  s.prf.due.any (fun j => j.kind == kind) || (match s.prf.job with | some j => j.kind == kind | none => false)

/-- A change of device state begins: TRANS (R86).  From RUN to METER the converter and the powerline stop at once; a contact sheet
ends at every change to METER or STANDBY (R279). -/
def State.changeTo (s : State) (c : Change) : State :=
  let s := (s.put PWR_STAT_STATE stTrans).modPwr (fun p => { p with change := c, stopRan := s.exp.running })
  if c = .toMeter then s.stopFcvPlc else if c = .toStandby ∧ s.pdOn 6 then s.sheetDrop else s

/-- A TARGET is taken up in RUN and METER (R86), unless a power fail was recognised (R87); one that names the current state has no
effect. -/
def State.takeTarget (s : State) (t : Nat) : State :=
  if s.flag PWR_STAT_PFAIL then s
  else if s.devState = stRun then
    if t = 1 then s.changeTo .toMeter else if t = 2 then s.changeTo .toStandby else s
  else if s.devState = stMeter then
    if t = 0 then s.changeTo .toRun else if t = 2 then s.changeTo .toStandby else s
  else s

/-- TRANS ends (R86): a TARGET written during it is taken up. -/
def State.transEnd (s : State) : State :=
  match s.pwr.want with
  | some t => (s.modPwr (fun p => { p with want := none })).takeTarget t.toNat
  | none => s

/-- STANDBY ends (R86): start-up runs from source selection, then autostart whatever the strap.  PD2 to PD9 stay in reset while VDDC or
VDDA is absent (R70). -/
def State.wakeUp (s : State) : State :=
  if s.devState != stStandby || s.flag PWR_STAT_PFAIL then s
  else
    let s := (s.put PWR_STAT_STATE stTrans).modPwr (fun p => { p with wake := true, change := .none, want := none })
    if s.pwr.coreLow then s.modPwr (fun p => { p with phase := .inReset, pd1Kept := true })
    else s.coreUp.phaseNext .sourceSelect

/-- A wake from STANDBY ends with its autostart (R86, log 128): in METER, or RUN if the last TARGET written was 0. -/
def State.wakeEnd (s : State) : State :=
  if !s.pwr.wake then s
  else
    let t := match s.pwr.want with
      | some t => t.toNat
      | none => if s.get PWR_CTL_TARGET = 0 then 0 else 1
    ((s.modPwr (fun p => { p with wake := false, want := none })).setState stMeter).takeTarget t

/-- PWR_CTL: the settings, and a TARGET that starts a change of state (R86), is kept during TRANS, or ends STANDBY. -/
def State.wrPwrCtl (w : WriteBy) (v : BitVec 32) (s : State) : State :=
  let s := s.storeWrite w PWR_CTL v
  let t := v.toNat % 4
  if !s.writable w PWR_CTL || t = 3 then s
  else if s.devState = stStandby then (if t = 2 then s else s.wakeUp)
  else if s.devState = stTrans then s.modPwr (fun p => { p with want := some (BitVec.ofNat 2 t) })
  else s.takeTarget t

/-- STANDBY is entered: PD2 to PD9 are off, and commands taken through the mailbox end ABORTED (log 33). -/
def State.enterStandby (s : State) : State :=
  let s := s.stopFcvPlc.doneAll (fun t => match t.hdr.src with | .mailbox _ => true | _ => false) stAborted (fun _ => (0, 0, 0))
  let s := s.coreReset
  let s := (((s.setFlag PWR_STAT_HFOK false).setFlag PWR_STAT_PLLLOCK false).setFlag PWR_STAT_LFOK false).setFlag PWR_STAT_LFSUB false
  let s := (s.setFlag PWR_STAT_ASBUSY false).put PWR_STAT_STATE stStandby
  s.modPwr (fun p => { p with change := .none, phase := .standby, wake := false, stopRan := false })

/-- The switching that a change of state waits for is complete (R86): PDON and STATE follow, and the latest TARGET is taken up. -/
def State.switchDone (s : State) : State :=
  match s.pwr.change with
  | .none => s
  | .toMeter => ((s.offFcvPlc.setState stMeter).modPwr (fun p => { p with change := .none })).transEnd
  | .toRun => ((s.onFcvPlc.setState stRun).modPwr (fun p => { p with change := .none })).transEnd
  | .toStandby =>
    if s.exp.running || s.proofOpen 3 || s.prf.phase != .idle then s
    else
      let w := s.pwr.want
      let s := s.enterStandby.modPwr (fun p => { p with want := none })
      match w with
      | some t => if t = 2 then s else s.wakeUp
      | none => s

/-! Power fail (R87 to R89) -/

/-- The emergency proof (R252): accumulation stops at the last exposure resolved for every point, everything later is excluded, and
the proof takes the slot of the next sequence, also that of a proof it abandons. -/
def State.emergencyStart (s : State) : State :=
  let s := s.bkStop 0
  let old : BitVec 72 × BitVec 64 := match s.exp.lastEnded, s.prf.restored with
    | none, some (e, t, _) => (e, t)
    | _, _ => match s.exp.pipe with
      | x :: _ => (x.slot.expno - 1, match s.prf.restored with | some (_, t, _) => t | none => 0)
      | [] => (s.exp.cur - 1, match s.prf.restored with | some (_, t, _) => t | none => 0)
  let (e, ts) := s.exp.lastResolved.getD old
  let later := s.exp.pipe.filter (fun x => decide (e.toNat < x.slot.expno.toNat))
  let latent := s.exp.pipe.any (fun x => x.latent != 0 && !x.closed)
  let (frozen, kept) := (later.flatMap (fun x => x.before)).foldl
    (fun (a : BitVec 32 × List (Nat × BitVec 108)) b =>
      if bitAt a.1.toNat b.1 then a else (a.1 ||| BitVec.ofNat 32 (2 ^ b.1), a.2 ++ b.2)) (0, [])
  let s := s.writerIdle.proofBegin
    { kind := 2, expno := e, ts := ts, pinq := s.pio.pinq, cmds := [], cycle := none, frozen := frozen, kept := kept }
    (2 + (if latent then 4 else 0))
  s.modExp (fun x => { x with running := false, pipe := [], syncAt := none })

/-- What a recognised power fail ends in the ledger's commands and queues: waiting SNAPSHOTs, PROOF_NOW, UNSEAL and PWR_CYCLE complete
with ABORTED (R199, R251, R357), queued journal entries are lost (R260), and an identity not yet written leaves the device sealed
with AUDIT unchanged (R263). -/
def State.ledgerAbort (s : State) : State :=
  let aborted (t : Taken) : Bool := match t.wait with
    | .proofNow | .snapshot | .unseal | .pwrCycle _ => true
    | _ => false
  let cyc := s.taken.any (fun t => match t.wait with | .pwrCycle _ => true | _ => false)
  let s := s.doneAll aborted stAborted (fun _ => (0, 0, 0))
  let s := if cyc then (s.setFlag RTC_PWRCTL_CYC false).showPwr 0 else s
  let opening (j : IdentityJob) : Bool := match j with | .unseal _ => true | _ => false
  let n := (s.prf.idJobs.filter opening).length
  let s := s.putWide [LDG_AUDIT_LO, LDG_AUDIT_HI] ((s.sealAudit + 2 ^ 36 - n) % 2 ^ 36)
  let s := s.modPrf (fun p => { p with
    due := [], nowReq := [], cycleReq := none, journal := [], idJobs := p.idJobs.filter (fun j => !opening j) })
  (s.modLdg (fun l => { l with snaps := [], ldgQ := [], autoSnap := none })).busyFlag

/-- Host scans of every unit end ABORTED at a power fail (R379). -/
def State.scansAbort (s : State) : State :=
  State.each 4 (fun u s => if (s.scan u).isSome then s.stopScan u stAborted else s) s

/-- A power fail is recognised (R87, R89).  It writes an emergency proof only while metering runs, or in place of the standby proof. -/
def State.pfStart (s : State) : State :=
  if s.flag PWR_STAT_PFAIL || !s.pd1On then s
  else
    let proof := s.pdOn 5 && !s.flag PWR_STAT_ASBUSY &&
      (s.exp.running || (s.pwr.change == .toStandby && s.pwr.stopRan))
    let s := s.setFlag PWR_STAT_PFAIL true
    let s := (if s.pdOn 5 then s.scansAbort.ledgerAbort.pinsEnd else s).offFcvPlc
    let s := if proof then s.emergencyStart else s.modExp (fun x => { x with running := false, pipe := [], syncAt := none })
    (s.setFlag PWR_STAT_ASBUSY false).modPwr (fun p => { p with pfRunning := true, change := .none, wake := false, want := none })

/-- The sequence ends (R87): the emergency proof, if one was written, is completed, PD2 to PD5 and PD9 are switched off, and the
device holds in PFHOLD. -/
def State.pfEnd (s : State) : State :=
  if !s.pwr.pfRunning || s.devState = stPfhold then s
  else
    let s := match s.prf.job with
      | some j => if j.kind = 2 then s.proofTrailer else s
      | none => s
    let s := (s.coreReset.setFlag PWR_STAT_LFSUB false).put PWR_STAT_STATE stPfhold
    s.phaseNext .done

/-! Supply monitors (R71, R72) -/

/-- Bit of PWR_MON of a monitor, and 16 + k for a bank. -/
def monBit : Monitor → Nat
  | .pfVddio => 1
  | .pfVddc => 2
  | .pfVdda => 3
  | .ovVddc => 4
  | .ovVdda => 5
  | .ovVddio => 6
  | .vldUv => 7
  | .vldOv => 8
  | .bank k _ => 16 + k

/-- An overvoltage counts one strike (R71). -/
def State.ovStrike (s : State) (i : Nat) : State :=
  (s.modPwr (fun p => { p with ovAt := p.ovAt.set (i - 4) s.exp.now })).strike dSupply i

/-- A bank supply leaves both windows (R71): LOSS on every started channel of the bank, MCLKOk and CALSELk released. -/
def State.bankFail (s : State) (k : Nat) : State :=
  let s := if s.pdOn 2 then (s.setFlag (MFE_BANK_MCLKON k) false).calselForce k else s
  (List.range 8).foldl (fun s i =>
    if !s.pdOn 2 then s
    else
      let n := 8 * k + i
      (s.declareLoss n 2).modChan n (fun c => { c with byBank := c.lost })) s

/-- A filtered crossing of a bank monitor, or its return at a level (R71). -/
def State.bankCross (s : State) (k : Nat) (v33 beyond : Bool) : State :=
  if bitAt s.pwr.bankFault.toNat k = beyond ∧ (beyond ∨ bitAt s.pwr.bank33.toNat k = v33) then s
  else
    let was := bitAt s.pwr.bankFault.toNat k
    let b : BitVec 12 := BitVec.ofNat 12 (2 ^ k)
    let s := s.modPwr (fun p => { p with
      bankFault := if beyond then p.bankFault ||| b else p.bankFault &&& ~~~b
      bank33 := if beyond then p.bank33 else if v33 then p.bank33 ||| b else p.bank33 &&& ~~~b })
    if !s.pd1On then s
    else
      let s := s.put PWR_BANK_BANK33 (s.pwr.bank33.toNat &&& (0xFFF - s.pwr.bankFault.toNat))
      let s := if beyond then s.wr PWR_BANK (s.rd PWR_BANK ||| BitVec.ofNat 32 (2 ^ k)) else s
      let s := if was = beyond then s else s.event 0x0501 (16 + k) (if beyond then .start else .stop) 0 0 0
      if beyond then s.bankFail k else if s.pdOn 2 then s.calselForce k else s

/-- A filtered crossing of a supply monitor, or its return (R71): its flag, its event and its response. -/
def State.monitorCross (s : State) (m : Monitor) (beyond : Bool) : State :=
  match m with
  | .bank k v33 => if k < 12 then s.bankCross k v33 beyond else s
  | _ =>
    let i := monBit m
    if bitAt s.pwr.monNow.toNat i = beyond then s
    else
      let b : BitVec 9 := BitVec.ofNat 9 (2 ^ i)
      let s := s.modPwr (fun p => { p with monNow := if beyond then p.monNow ||| b else p.monNow &&& ~~~b })
      if !s.pd1On then s
      else
        let s := if beyond then s.wr PWR_MON (s.rd PWR_MON ||| BitVec.ofNat 32 (2 ^ i)) else s
        let s := s.event 0x0501 i (if beyond then .start else .stop) 0 0 0
        match m with
        | .pfVddio => if beyond ∧ s.flag PWR_CTL_INTMON then s.pfStart else s
        | .pfVddc | .pfVdda => if beyond then s.pfStart else s
        | .ovVddc | .ovVdda | .ovVddio => if beyond then s.ovStrike i else s
        | .vldUv | .vldOv => s.ldrvUpdate
        | .bank _ _ => s

/-- A power fail is recognised at its source (R87): the ball, or a power-fail monitor, whose crossing it is. -/
def State.powerFail (s : State) (src : PfSource) : State :=
  if !s.pd1On then s
  else match src with
    | .pin =>
      let s := if s.flag PWR_STAT_PFAIL then s else s.event 0x0501 0 .start 0 0 0
      (s.setFlag PWR_MON_PF_PIN true).pfStart
    | .vddio => if bitAt s.pwr.monNow.toNat 1 then (if s.flag PWR_CTL_INTMON then s.pfStart else s) else s.monitorCross .pfVddio true
    | .vddc => if bitAt s.pwr.monNow.toNat 2 then s.pfStart else s.monitorCross .pfVddc true
    | .vdda => if bitAt s.pwr.monNow.toNat 3 then s.pfStart else s.monitorCross .pfVdda true

/-- VDDIO falls below its reset threshold (R71, R78, R360): PD0 goes over to VBKUP; a retention threshold crossed as well resets it. -/
def State.powerOff (s : State) : State :=
  if s.pwr.phase == .backup then s
  else
    let cyc := s.rtc.lowAt.isSome
    let s := s.resetDevice (if cyc then 34 else 2)
    let s := (s.modRtc (fun r => { r with onBattery := true, supplyFell := r.supplyFell || cyc })).chargerState
    let s := s.phaseNext .backup
    if s.rtc.vbLow then s.resetBackup 3 else s

/-! Alarm and periodic wake (R352 to R354) -/

/-- A wake source of the clock (R353, R354): it ends STANDBY where PWR_WAKE enables it, and system power returns where `on` says so
(R358). -/
def State.clockWake (s : State) (enabled on : Bool) : State :=
  let s := if on && s.flag RTC_PWRCTL_OFF then s.releasePwron else s
  if enabled then s.wakeUp else s

/-- The alarm value in ticks. -/
def State.alarmTicks (s : State) : Nat := s.wide [RTC_ALMSEC_LO, RTC_ALMSEC_HI] % 2 ^ 36 * 32768 + s.get RTC_ALMFRAC_ALM

/-- The alarm fires at this tick edge (R352, R353). -/
def State.alarm (s : State) : State :=
  let a := s.alarmTicks
  let now := s.ticks
  if !s.flag RTC_ALMCTL_ARMED || s.rtc.armAge = 0 || now < a then s
  else
    let skipped := (match s.rtc.jumped with | some b => decide (b < a) && decide (a < now) | none => false) ||
      (decide (s.rtc.armAge = 1) && decide (a < now))
    let s := ((s.setFlag RTC_ALMCTL_ARMED false).setFlag RTC_ALMCTL_FIRED true).setFlag RTC_ALMCTL_SKIPPED
      (skipped || s.flag RTC_ALMCTL_SKIPPED)
    let s := if s.pdOn 5 then s.event 0x0910 0 .momentary skipped.toNat 0 0 else s.modRtc (fun r => { r with deferred := some skipped })
    s.clockWake (s.flag PWR_WAKE_ALARM) (s.flag RTC_PWRCTL_ALMON)

/-- A periodic wake that is due occurs (R354). -/
def State.periodic (s : State) : State :=
  if !s.rtc.perDue then s
  else
    let s := (s.modRtc (fun r => { r with perDue := false })).setFlag RTC_PERSTAT_WAKE true
    s.clockWake (s.flag PWR_WAKE_PERIODIC) (s.flag RTC_PWRCTL_PERON)

/-! Restore (R82, R255, R353, R427, R472) -/

/-- The mailbox command that a reset of PD2 to PD9 alone took with it completes ABORTED (R472). -/
def State.mailboxAbort (s : State) : State :=
  if !s.flag MBX_STAT_BUSY || s.taken.any (fun t => match t.hdr.src with | .mailbox _ => true | _ => false) then s
  else
    let h : CmdHdr := { src := .mailbox .pcie, tag := s.rd (MBX_CMD 1), dlv := false, deadline := 0 }
    s.complete ((s.rd (MBX_CMD 0)).truncate 8) h stAborted 0 0 0

/-- The newest valid proof is restored, what start-up must log is logged, and READY is reached (R82, R84).  TRANS ends here after a
reset (log 128). -/
def State.restoreAll (s : State) : State :=
  let s := (s.restoreIdentity.restoreProof).modPrf (fun p => { p with lqDriven := true })
  let s := match s.saf.wdtEvent with
    | some t => (s.modSaf (fun f => { f with wdtEvent := none })).event 0x0603 0 .momentary t.toNat 0 0
    | none => s
  let s := match s.rtc.deferred with
    | some k => (s.modRtc (fun r => { r with deferred := none })).event 0x0910 0 .momentary k.toNat 1 0
    | none => s
  let s := ((s.setFlag GLB_STAT_READY true).modPwr (fun p => { p with readyAt := s.exp.now })).mailboxAbort
  let auto := s.flag GLB_STRAP_AUTOSTART || s.pwr.wake
  let s := (s.setFlag PWR_STAT_ASBUSY auto).phaseNext (if auto then .image else .done)
  if s.pwr.wake then s
  else
    let t := match s.pwr.want with
      | some t => t.toNat
      | none => if s.get PWR_CTL_TARGET = 0 then 0 else 1
    ((s.modPwr (fun p => { p with want := none })).setState stMeter).takeTarget t

/-! Meanings -/

/-- TARGET_METER (R86). -/
def execTargetMeter (p : Port) (v : BitVec 32) (s : State) : Host.Outcome State Fault Refusal :=
  finish (State.wrPwrCtl (.port p) v) s

/-- TARGET_RUN (R86). -/
def execTargetRun (p : Port) (v : BitVec 32) (s : State) : Host.Outcome State Fault Refusal :=
  finish (State.wrPwrCtl (.port p) v) s

/-- TARGET_STANDBY (R86). -/
def execTargetStandby (p : Port) (v : BitVec 32) (s : State) : Host.Outcome State Fault Refusal :=
  finish (State.wrPwrCtl (.port p) v) s

/-- STANDBY_WAKE (R86): by the alarm or the periodic wake that has occurred and is enabled, or by a TARGET write through HSPI. -/
def execStandbyWake (cause : WakeCause) (s : State) : Host.Outcome State Fault Refusal :=
  finish (fun s => match cause with
    | .alarm => if s.flag PWR_WAKE_ALARM ∧ s.flag RTC_ALMCTL_FIRED then s.wakeUp else s
    | .periodic => if s.flag PWR_WAKE_PERIODIC ∧ s.flag RTC_PERSTAT_WAKE then s.wakeUp else s
    | .target v => if s.devState = stStandby then s.wrPwrCtl (.port .hspi) v else s) s

/-- DOMAIN_SWITCH_COMPLETE (R86). -/
def execDomainSwitchComplete (s : State) : Host.Outcome State Fault Refusal := finish (fun s => s.switchDone) s

/-- POWER_FAIL (R87). -/
def execPowerFail (src : PfSource) (s : State) : Host.Outcome State Fault Refusal := finish (fun s => s.powerFail src) s

/-- EMERGENCY_PROOF_COMPLETE (R87, R250). -/
def execEmergencyProofComplete (s : State) : Host.Outcome State Fault Refusal := finish (fun s => s.pfEnd) s

/-- POWER_FAIL_RECOVERY (R87): PFAIL_N is high, and VDDIO, VDDC and VDDA have been in range for 10 ms, in PFHOLD with PFRST = 1. -/
def execPowerFailRecovery (s : State) : Host.Outcome State Fault Refusal :=
  finish (fun s =>
    if s.devState = stPfhold ∧ s.flag PWR_CTL_PFRST ∧ s.pwr.monNow &&& 0x7E = 0 then s.resetDevice 64 else s) s

/-- SUPPLY_MONITOR_CROSSING (R71). -/
def execSupplyMonitorCrossing (m : Monitor) (beyond : Bool) (s : State) : Host.Outcome State Fault Refusal :=
  finish (fun s => s.monitorCross m beyond) s

/-- OVERVOLTAGE_REPEAT (R71): a strike for each further millisecond beyond an overvoltage threshold. -/
def execOvervoltageRepeat (m : Monitor) (s : State) : Host.Outcome State Fault Refusal :=
  finish (fun s => match m with
    | .ovVddc | .ovVdda | .ovVddio =>
      if bitAt s.pwr.monNow.toNat (monBit m) then (s.reach (s.pwr.ovAt.getD (monBit m - 4) 0 + msCycles 1)).ovStrike (monBit m) else s
    | _ => s) s

/-- POWER_ON (R78): VDDIO below its reset threshold. -/
def execPowerOn (s : State) : Host.Outcome State Fault Refusal := finish (fun s => s.powerOff) s

/-- VDDC_VDDA_RESET (R81): in STANDBY both supplies may be absent (R69), and while another reset is asserted it adds its cause (R90). -/
def execVddcVddaReset (s : State) : Host.Outcome State Fault Refusal :=
  finish (fun s =>
    if s.pwr.phase == .backup then s
    else if s.pwr.phase == .standby then s.modPwr (fun p => { p with coreLow := true })
    else if s.pwr.phase == .inReset then
      (if s.pwr.wake then s else s.modPwr (fun p => { p with cause := p.cause ||| 2 }))
    else s.resetCore) s

/-- RESET_N (R78): low for 1 µs or more. -/
def execResetN (s : State) : Host.Outcome State Fault Refusal :=
  finish (fun s => if s.pwr.phase == .backup then s else s.resetDevice 4) s

/-- TRST_N (R78): the JTAG TAP controller only. -/
def execTrstN (s : State) : Host.Outcome State Fault Refusal :=
  finish (fun s => s.modPwr (fun p => { p with tapReset := true })) s

/-- BACKUP_DOMAIN_RESET (R361): first power-up of PD0, or the retention monitor with VDDIO below its reset threshold. -/
def execBackupDomainReset (firstPower : Bool) (s : State) : Host.Outcome State Fault Refusal :=
  finish (fun s =>
    if firstPower then
      let s := ((s.resetDevice 2).modRtc (fun r => { r with onBattery := true })).phaseNext .backup
      s.resetBackup 0
    else if s.rtc.onBattery then (s.modRtc (fun r => { r with vbLow := true })).resetBackup 3 else s) s

/-- SOFTRST (R453): GLB_CTL written with KEY 0xD5 and SOFTRST 1 makes a device reset. -/
def State.wrGlbCtl (v : BitVec 32) (s : State) : State :=
  if s.pd1On ∧ v.toNat / 2 ^ 24 = 0xD5 ∧ bitAt v.toNat 0 then s.resetDevice 8 else s

/-- SOFTRST (R78). -/
def execSoftrst (_p : Port) (v : BitVec 32) (s : State) : Host.Outcome State Fault Refusal := finish (State.wrGlbCtl v) s

/-- WATCHDOG_EXPIRY (R427): not restarted within TIMEOUT.  The monitor restarts it each millisecond while no exposure runs. -/
def execWatchdogExpiry (s : State) : Host.Outcome State Fault Refusal :=
  finish (fun s =>
    if s.flag SAF_CTL_EN && s.flag SAF_CTL_WDTEN && s.monStarted && s.exp.running && !s.flag PWR_STAT_PFAIL then
      let t := s.get SAF_WDT_TIMEOUT
      let s := s.reach (s.saf.wdtAt + msCycles t)
      (s.modSaf (fun f => { f with wdtEvent := some (BitVec.ofNat 16 t) })).resetDevice 16
    else s) s

/-- RESET_RELEASE (R82). -/
def execResetRelease (mstr autostart : Bool) (s : State) : Host.Outcome State Fault Refusal :=
  finish (fun s => s.release mstr autostart) s

/-- HFREF_SOURCE_SELECTED (R73): 1,000 edges or more on REFIN in 100 µs make it the source. -/
def execHfrefSourceSelected (edges : Nat) (s : State) : Host.Outcome State Fault Refusal :=
  finish (fun s => s.startRow [.sourceSelect, .hfRetry] (fun s =>
    (s.setFlag PWR_STAT_HFSRC (decide (1000 ≤ edges))).phaseNext .hfWait)) s

/-- HFREF_GOOD (R74). -/
def execHfrefGood (s : State) : Host.Outcome State Fault Refusal :=
  finish (fun s => s.startRow [.hfWait] (fun s => (s.setFlag PWR_STAT_HFOK true).phaseNext .pllWait)) s

/-- HFREF_RETRY (R74): not good within 10 ms; source selection is retried. -/
def execHfrefRetry (s : State) : Host.Outcome State Fault Refusal :=
  finish (fun s => s.startRow [.hfWait] (fun s => s.phaseNext .hfRetry)) s

/-- PLL_LOCK (R75). -/
def execPllLock (s : State) : Host.Outcome State Fault Refusal :=
  finish (fun s => s.startRow [.pllWait] (fun s => (s.setFlag PWR_STAT_PLLLOCK true).phaseNext .memInit)) s

/-- MEMORY_INITIALISED (R82): every on-chip memory is written, and the monitor's reference entries with it (R417). -/
def execMemoryInitialised (s : State) : Host.Outcome State Fault Refusal :=
  finish (fun s => s.startRow [.memInit] (fun s => s.rebuildRefs.phaseNext .diag)) s

/-- STARTUP_DIAGNOSTICS (R426): `failed` names the diagnostic and the vector, segment or check. -/
def execStartupDiagnostics (failed : Option (Nat × BitVec 64)) (s : State) : Host.Outcome State Fault Refusal :=
  finish (fun s => s.startRow [.diag] (fun s => s.diagDone failed)) s

/-- RESTORE (R255). -/
def execRestore (s : State) : Host.Outcome State Fault Refusal :=
  finish (fun s => s.startRow [.restoring] (fun s => s.restoreAll)) s

/-- LFCLK_CHECK (R77): measured against HFREF; in RUN and METER an LFCLK not verified is replaced. -/
def execLfclkCheck (ok : Bool) (s : State) : Host.Outcome State Fault Refusal :=
  finish (fun s =>
    if !s.flag PWR_STAT_HFOK then s
    else
      let s := s.setFlag PWR_STAT_LFOK ok
      if !ok && (s.devState == stRun || s.devState == stMeter) then s.setFlag PWR_STAT_LFSUB true else s) s

/-- VBKUP_LOW (R350, R351, R361): on VDDIO it sets VBLOW; on VBKUP it resets the backup domain, which sets OSF.  VBLOW clears when
VBKUP returns. -/
def execVbkupLow (below : Bool) (s : State) : Host.Outcome State Fault Refusal :=
  finish (fun s =>
    if below = s.rtc.vbLow then s
    else
      let s := s.modRtc (fun r => { r with vbLow := below })
      if s.rtc.onBattery ∧ below then s.resetBackup 2
      else if below ∨ s.flag RTC_STAT_VBLOW then
        (s.setFlag RTC_STAT_VBLOW below).event 0x0913 0 (if below then .start else .stop) 0 0 0
      else s) s

end Sys2Proof.Machine
end

