-- ==== Sys2Proof/Machine/Write.lean ====
section
/-!
DEFINITION. Register access as a whole: which effect a write of each register has (R8 to R12, R383), what a read returns (R9, R12),
the mailbox (R408 to R411), and HSPI frames (R406, R407).
-/

namespace Sys2Proof.Machine

/-! Registers whose write does more than store fields -/

/-- NET_SEED0 to NET_SEED3 (R326): staged words, taken together at the write of the lowest one; they read 0. -/
def State.wrSeed (w : WriteBy) (i : Nat) (v : BitVec 32) (s : State) : State :=
  if !s.writable w (NET_SEED 0) then s
  else if i ≠ 0 then s.stage w (NET_SEED i) v
  else
    let st := s.staged w
    let s := [1, 2, 3].foldl (fun (s : State) j => match storeFind st (NET_SEED j) with
      | some x => s.wr (NET_SEED j) x
      | none => s) s
    (s.setStaged w (([1, 2, 3].map (fun j => NET_SEED j)).foldl assocDel st)).wr (NET_SEED 0) v

/-- HIF_CTL: HB counts from the moment DBEN is set (R388). -/
def State.wrHifCtl (w : WriteBy) (v : BitVec 32) (s : State) : State :=
  let t := s.storeWrite w HIF_CTL v
  if t.flag HIF_CTL_DBEN && !s.flag HIF_CTL_DBEN then t.modHif (fun f => { f with hb := 0 }) else t

/-- FLT_CTL: a grain that differs from the present one waits for the boundary (R143). -/
def State.wrFltCtl (w : WriteBy) (v : BitVec 32) (s : State) : State :=
  let t := s.storeWrite w FLT_CTL v
  t.setFlag FLT_STAT_GRAINPEND (t.get FLT_CTL_GRAIN != t.get FLT_STAT_GRAINNOW)

/-- PAIR_CTL: CAPBASE is set by a host write unless the device is sealed (R168). -/
def State.wrPairCtl (w : WriteBy) (v : BitVec 32) (s : State) : State :=
  let t := s.storeWrite w PAIR_CTL v
  if bitAt v.toNat 2 && decide (w ≠ .image) && !s.sealed && s.writable w PAIR_CTL then t.setFlag PAIR_CTL_CAPBASE true else t

/-- Vector control of the MSI-X table: unmasking a vector that is pending sends its message (R390). -/
def State.wrMsixCtl (w : WriteBy) (i : Nat) (v : BitVec 32) (s : State) : State :=
  let s := s.storeWrite w (MSIX_CTL i) v
  let pend := (s.rd MSIX_PBA).toNat
  if !s.flag (MSIX_CTL_MASK i) && bitAt pend i && s.dmaOn then
    (s.wr MSIX_PBA (BitVec.ofNat 32 (pend - 2 ^ i))).emit (.msix (BitVec.ofNat 5 i))
  else s

/-! Mailbox (R408, R411) -/

/-- The descriptor in MBX_CMD0 to MBX_CMD15. -/
def State.mbxDesc (s : State) : Desc8 :=
  let d (i : Nat) : BitVec 64 := BitVec.ofNat 64 (s.wide [MBX_CMD (2 * i), MBX_CMD (2 * i + 1)])
  { d0 := d 0, d1 := d 1, d2 := d 2, d3 := d 3, d4 := d 4, d5 := d 5, d6 := d 6, d7 := d 7 }

/-- GO: the descriptor is taken, or OVERRUN while a command runs; before READY nothing is taken (R82, R408). -/
def State.mbxGo (s : State) (p : Port) : State :=
  if s.flag MBX_STAT_BUSY then s.setFlag MBX_STAT_OVERRUN true else s.command (.mailbox p) s.mbxDesc

/-- MBX_CTL: IRQEN and EVIRQ, and GO. -/
def State.wrMbxCtl (p : Port) (v : BitVec 32) (s : State) : State :=
  let s := s.storeWrite (.port p) MBX_CTL v
  if bitAt v.toNat 0 then s.mbxGo p else s

/-- MBX_CMD: ignored with OVERRUN while a command runs. -/
def State.wrMbxCmd (p : Port) (off : Nat) (v : BitVec 32) (s : State) : State :=
  if s.flag MBX_STAT_BUSY then s.setFlag MBX_STAT_OVERRUN true else s.storeWrite (.port p) off v

/-- The mailbox shows an event while ring 2 does not run (R411). -/
def State.evtShown (s : State) : Option Event := if s.ringRun 2 then none else s.evt.queue.head?

/-- MBX_EVTPOP: removes the event shown. -/
def State.wrEvtpop (s : State) : State :=
  match s.evtShown with
  | some _ => { s with evt := { s.evt with queue := s.evt.queue.tail, dropPend := false } }
  | none => s

/-! Writes (R8 to R12, R83, R383) -/

/-- A write of a register of the GLB, PWR, HIF or MSI-X block. -/
def State.writeLow (w : WriteBy) (off : Nat) (v : BitVec 32) (s : State) : State :=
  if off = GLB_CTL then s.wrGlbCtl v
  else if off = PWR_CTL then s.wrPwrCtl w v
  else if 0x0800 ≤ off ∧ off < 0x0C00 ∧ (off - 0x0800) % 0x40 = 8 then s.wrRcfg w ((off - 0x0800) / 0x40) v
  else if off = HIF_CTL then s.wrHifCtl w v
  else if 0xE000 ≤ off ∧ off < 0xE200 ∧ off % 16 = 12 then s.wrMsixCtl w ((off - 0xE000) / 16) v
  else s.plainWrite w off v

/-- A write of a register of the MFE, FLT, PIO or LDG block. -/
def State.writeMeter (w : WriteBy) (off : Nat) (v : BitVec 32) (s : State) : State :=
  if MFE_BANK 0 ≤ off ∧ off ≤ MFE_BANK 11 then s.wrBank w ((off - MFE_BANK 0) / 4) v
  else if off = FLT_CTL then s.wrFltCtl w v
  else if off = PAIR_CTL then s.wrPairCtl w v
  else if PIO_TRCFG 0 ≤ off ∧ off < PIO_TRCFG 8 then
    let n := (off - PIO_TRCFG 0) / 0x20
    let o := (off - PIO_TRCFG 0) % 0x20
    if o = 0 then s.wrTrcfg w n v else if o ≤ 0x10 then s.wrTrsrc w n (o / 4 - 1) v else s.plainWrite w off v
  else if off = PIO_TRHOST then s.wrTrhost w v
  else if off = PIO_TRACK then s.wrTrack v
  else if off = LDG_FADDR then s.wrFaddr w v
  else s.plainWrite w off v

/-- A write of a register of the FCV, PLC or NET block. -/
def State.writeLine (w : WriteBy) (off : Nat) (v : BitVec 32) (s : State) : State :=
  if off = FCV_URG then s.wrUrg w v
  else if off = FCV_CALCTL then s.wrCalctl w v
  else if off = FCV_CSCTL then s.wrCsctl w v
  else if FCV_CSTRG 0 ≤ off ∧ off ≤ FCV_CSTRG 3 then s.wrCstrg w ((off - FCV_CSTRG 0) / 4) v
  else if PLC_MASK 0 ≤ off ∧ off ≤ PLC_MASK 52 then s.wrMask w ((off - PLC_MASK 0) / 4) v
  else if NET_SEED 0 ≤ off ∧ off ≤ NET_SEED 3 then s.wrSeed w ((off - NET_SEED 0) / 4) v
  else if off = NET_DIRCTL then s.wrDirctl w v
  else s.plainWrite w off v

/-- A write of a register of the RTC block. -/
def State.writeClock (w : WriteBy) (off : Nat) (v : BitVec 32) (s : State) : State :=
  if off = RTC_CTL then s.wrRtcCtl v
  else if RTC_STGSEC_LO ≤ off ∧ off ≤ RTC_STEPTICK then s.wrRtcGuarded w off v
  else if off = RTC_SLEW then s.wrRtcSlew v
  else if RTC_ALMSEC_LO ≤ off ∧ off ≤ RTC_ALMFRAC then s.wrRtcGuarded w off v
  else if off = RTC_ALMCTL then s.wrAlmctl w v
  else if off = RTC_PER then s.wrRtcPer w v
  else if off = RTC_TCCFG then s.wrTccfg w v
  else if off = RTC_BKCFG then s.wrBkcfg w v
  else if off = RTC_PWRCTL then s.wrPwrctl w v
  else if off = RTC_TCHG then s.wrTchg w v
  else if RTC_RAM 0 ≤ off ∧ off ≤ RTC_RAM 23 then s.wrRam w off v
  else s.plainWrite w off v

/-- A write of a register of the CVU, SAF or TZL block. -/
def State.writeHigh (w : WriteBy) (off : Nat) (v : BitVec 32) (s : State) : State :=
  if 0x6000 ≤ off ∧ off < 0x6100 ∧ off % 0x40 = 0 then s.wrCvuCtl ((off - 0x6000) / 0x40) v
  else if off = CVU_REFDATA_LO then s.wrRefdata w v
  else if off = CVU_REFFLIP then s.wrRefflip w v
  else if off = SAF_CTL then s.wrSafCtl w v
  else if off = TZL_RADDR then (if w = .image then s.plainWrite w off v else s.wrRaddr w v)
  else if off = TZL_RDATA then s.wrRdata w v
  else if off = TZL_EVPOP then s.wrEvpopTzl
  else if off = TZL_MIRCTL then (if w = .image then s else s.wrMirctl w v)
  else s.plainWrite w off v

/-- A write of a register of the mailbox block. -/
def State.writeMbx (p : Port) (off : Nat) (v : BitVec 32) (s : State) : State :=
  if off = DB_KICK then s.doorbell
  else if off = MBX_CTL then s.wrMbxCtl p v
  else if off = MBX_EVTPOP then s.wrEvtpop
  else if MBX_CMD 0 ≤ off ∧ off ≤ MBX_CMD 15 then s.wrMbxCmd p off v
  else s.plainWrite (.port p) off v

/-- Offsets of the MSI-X table and PBA, which PCI Express alone reaches (R383). -/
def msixOff (off : Nat) : Bool := 0xE000 ≤ off && off < 0xF000

/-- A 32-bit write of a register by its offset (R8, R10, R383). -/
def State.writeReg (w : WriteBy) (off : Nat) (v : BitVec 32) (s : State) : State :=
  if off % 4 ≠ 0 ∨ (regRow off).isNone ∨ (msixOff off ∧ w = .port .hspi) ∨ ¬ s.pd1On then s
  else if off = LDG_FDATA then s.wrFdata w v
  else if !s.writable w off then s
  else if off < 0x1000 then s.writeLow w off v
  else if off < 0x4000 then s.writeMeter w off v
  else if off < 0x5800 then s.writeLine w off v
  else if off < 0x6000 then s.writeClock w off v
  else if off < 0x8000 then s.writeHigh w off v
  else if off < 0xF000 then s.writeLow w off v
  else match w with
    | .port p => s.writeMbx p off v
    | .image => s

/-! Reads (R9 to R12, R383) -/

/-- The current value of a register: the stored one, or what the present state makes of it; write-only fields read 0. -/
def State.readValue (s : State) (off : Nat) : BitVec 32 :=
  let n (x : Nat) : BitVec 32 := BitVec.ofNat 32 x
  if off = RTC_SEC_LO then n s.rtc.sec
  else if off = RTC_SEC_HI then n (s.rtc.sec / 2 ^ 32)
  else if off = RTC_FRAC then n s.rtc.tick
  else if off = RTC_CAL0 then (calendarOf s.rtc.sec).1
  else if off = RTC_CAL1 then (calendarOf s.rtc.sec).2
  else if off = CVU_STAT 3 then s.rd off ||| n (8 * s.monitorHolds.toNat)
  else if off = RTC_TCCORR then n (unsignedOf 18 s.corrTotal)
  else if off = RTC_CTL then n s.rtcAsked
  else if off = GLB_IRQSUM then n s.irqSum
  else if off = HIF_INFL then n (s.takenRing + s.hif.cplQ.length * 2 ^ 16)
  else if off = EVT_STAT then n ((s.rd EVT_STAT).toNat / 2 ^ 16 * 2 ^ 16 + s.evt.queue.length)
  else if off = MBX_EVTSTAT then n (s.evtShown.isSome.toNat * 2 ^ 16 + s.evt.queue.length)
  else if MBX_EVT 0 ≤ off ∧ off ≤ MBX_EVT 15 then
    match s.evtShown with
    | some e => (slotWords32 (e.slots s.evt.dropPend)).getD ((off - MBX_EVT 0) / 4) 0
    | none => 0
  else if off = CVU_REFDATA_HI then n ((refRead (s.refEntry (s.get CVU_REFSEL_IDX))).1.toNat / 2 ^ 32)
  else match s.tzlShow off, s.pairShow off with
    | some x, _ => x
    | none, some x => x
    | none, none =>
      match regRow off with
      | some r => s.rd off &&& ~~~ n (accessMask r .wo)
      | none => 0

/-- Upper words latched for a port (R12). -/
def State.latched (s : State) : Port → List (Nat × BitVec 32)
  | .pcie => s.hif.latchPcie
  | .hspi => s.hif.latchHspi

/-- Latches upper words for a port. -/
def State.latch (s : State) (p : Port) (l : List (Nat × BitVec 32)) : State :=
  match p with
  | .pcie => s.modHif (fun f => { f with latchPcie := l.foldl (fun a e => assocPut a e.1 e.2) f.latchPcie })
  | .hspi => s.modHif (fun f => { f with latchHspi := l.foldl (fun a e => assocPut a e.1 e.2) f.latchHspi })

/-- Clears the RC fields of a register that was read (R9, R11). -/
def State.readClear (s : State) (off : Nat) : State :=
  match regRow off with
  | some r =>
    let m := accessMask r .rc
    if m = 0 then s else s.wr off (s.rd off &&& ~~~ BitVec.ofNat 32 m)
  | none => s

/-- A 32-bit read of a register through a port: the new state and the value returned. -/
def State.readReg (s : State) (p : Port) (off : Nat) : State × BitVec 32 :=
  if off % 4 ≠ 0 ∨ (regRow off).isNone ∨ (msixOff off ∧ p = .hspi) ∨ ¬ s.pdOn (regDomain off) ∨ ¬ s.pd1On then (s, 0)
  else if off = LDG_FDATA then s.rdFdata
  else if RTC_RAM 0 ≤ off ∧ off ≤ RTC_RAM 23 then s.readRam ((off - RTC_RAM 0) / 4) 0
  else if (lowestOf off).isSome then (s, ((storeFind (s.latched p) off).getD 0))
  else
    let v := if off = CVU_REFDATA_LO then s.rdRefdata.2.truncate 32 else s.readValue off
    let up := (upperWords off).map (fun o => (o, s.readValue o))
    let s := if off = CVU_REFDATA_LO then s.rdRefdata.1 else s
    ((if up.isEmpty then s else s.latch p up).readClear off, v)

/-- A read whose value goes to the port it came through. -/
def State.portAnswer (r : State × BitVec 32) (p : Port) : State :=
  match p with
  | .pcie => r.1.modHif (fun f => { f with pcieRead := r.2 })
  | .hspi => r.1.modHif (fun f => { f with hspiOut := (bytesLE 4 r.2.toNat).reverse })

/-- A read through a port (R8): 32 bits wide; of another width, which PCI Express alone can ask for, it returns 0 and reads
nothing, so that it clears and latches nothing either (DEDUCED, log 126). -/
def State.readWidth (s : State) (p : Port) (width : Nat) (read : State → State × BitVec 32) : State :=
  State.portAnswer (if width = 32 ∨ p = .hspi then read s else (s, 0)) p

/-! HSPI frames (R406) -/

/-- The status byte of a read frame. -/
def State.hspiStatus (s : State) : BitVec 8 :=
  BitVec.ofNat 8 (s.ready.toNat + 2 * s.irqN.toNat + 4 * s.get MBX_STAT_BUSY + 8 * s.get MBX_STAT_DONE +
    16 * s.get PWR_STAT_STATE)

/-- Registers read one after another, most significant byte first; the offset wraps. -/
def State.hspiRead : Nat → Nat → State → List (BitVec 8) → State × List (BitVec 8)
  | 0, _, s, acc => (s, acc)
  | n + 1, off, s, acc =>
    let r := s.readReg .hspi off
    State.hspiRead n ((off + 4) % 2 ^ 16) r.1 (acc ++ (bytesLE 4 r.2.toNat).reverse)

/-- Registers written one after another; a soft reset makes the device ignore the rest of the frame (R453). -/
def State.hspiWrite : List (BitVec 32) → Nat → State → State
  | [], _, s => s
  | v :: t, off, s =>
    let s := s.writeReg (.port .hspi) off v
    if s.pd1On then State.hspiWrite t ((off + 4) % 2 ^ 16) s else s

/-! Meanings -/

/-- HSPI_READ_FRAME (R406). -/
def execHspiReadFrame (instr : BitVec 8) (addr : BitVec 16) (n : Nat) (s : State) : Host.Outcome State Fault Refusal :=
  finish (fun s =>
    if !s.pd1On || instr != 0x0B || addr.toNat % 4 != 0 then s.modHif (fun f => { f with hspiOut := [] })
    else
      let r := State.hspiRead n addr.toNat s [s.hspiStatus]
      r.1.modHif (fun f => { f with hspiOut := r.2 })) s

/-- HSPI_WRITE_FRAME (R406). -/
def execHspiWriteFrame (instr : BitVec 8) (addr : BitVec 16) (words : List (BitVec 32)) (s : State) :
    Host.Outcome State Fault Refusal :=
  finish (fun s =>
    if !s.pd1On || instr != 0x02 || addr.toNat % 4 != 0 then s else State.hspiWrite words addr.toNat s) s

/-- REGISTER_WRITE (R9): 32 bits wide, or without effect (R8). -/
def execRegisterWrite (p : Port) (off : BitVec 16) (width : Nat) (v : BitVec 32) (s : State) : Host.Outcome State Fault Refusal :=
  finish (fun s => if width = 32 then State.writeReg (.port p) off.toNat v s else s) s

/-- LOWEST_WORD_WRITE (R12). -/
def execLowestWordWrite (p : Port) (off : BitVec 16) (v : BitVec 32) (s : State) : Host.Outcome State Fault Refusal :=
  finish (fun s => if (upperWords off.toNat).isEmpty then s else State.writeReg (.port p) off.toNat v s) s

/-- LOWEST_WORD_READ (R12). -/
def execLowestWordRead (p : Port) (off : BitVec 16) (s : State) (width : Nat := 32) : Host.Outcome State Fault Refusal :=
  finish (fun s => if (upperWords off.toNat).isEmpty then s else s.readWidth p width (fun s => s.readReg p off.toNat)) s

/-- RC_REGISTER_READ (R9). -/
def execRcRegisterRead (p : Port) (off : BitVec 16) (s : State) (width : Nat := 32) : Host.Outcome State Fault Refusal :=
  finish (fun s => match regRow off.toNat with
    | some r => if accessMask r .rc = 0 then s else s.readWidth p width (fun s => s.readReg p off.toNat)
    | none => s) s

/-- LDG_FDATA_READ (R244). -/
def execLdgFdataRead (p : Port) (s : State) (width : Nat := 32) : Host.Outcome State Fault Refusal :=
  finish (fun s => s.readWidth p width (fun s => s.readReg p LDG_FDATA)) s

/-- RTC_RAM_READ (R355). -/
def execRtcRamRead (p : Port) (w : Nat) (flips : BitVec 36) (s : State) (width : Nat := 32) : Host.Outcome State Fault Refusal :=
  finish (fun s => if w < 24 ∧ s.pd1On then s.readWidth p width (fun s => s.readRam w flips) else s) s

/-- IRQEN_WRITE (R454): a bit that is 1 already counts as a rise when it is enabled, as `finish` sees it. -/
def execIrqenWrite (p : Port) (v : BitVec 32) (s : State) : Host.Outcome State Fault Refusal :=
  finish (State.writeReg (.port p) GLB_IRQEN v) s

/-- MBX_GO (R408). -/
def execMbxGo (p : Port) (v : BitVec 32) (s : State) : Host.Outcome State Fault Refusal :=
  finish (fun s => if s.pd1On then s.wrMbxCtl p v else s) s

/-- MBX_EVTPOP (R411). -/
def execMbxEvtpop (_p : Port) (_v : BitVec 32) (s : State) : Host.Outcome State Fault Refusal := finish (fun s => s.wrEvtpop) s

end Sys2Proof.Machine
end

