-- ==== Sys2Proof/Machine/Start.lean ====
section
/-!
DEFINITION. Configuration images (R257 to R259) and autostart's reading of them (R82, R83).
-/

namespace Sys2Proof.Machine

/-- A record of a configuration image (R258): registers, a coefficient bank, a correction table, a command. -/
inductive ImgRec where
  | reg (off : Nat) (values : List (BitVec 32))
  | coef (ch bank t : Nat) (l : List Int)
  | corr (ch : Nat) (l : List Int)
  | cmd (d : Desc8)
  deriving DecidableEq, Repr

/-- FRAM address of an image slot (R243). -/
def imageAddr (slot : Nat) : Nat := if slot = 0 then 0x1000 else 0x19000

/-- Opcodes an image may carry (R258). -/
def imageOps : List Nat := [0x01, 0x11, 0x13, 0x21]

/-- Offsets a REG record may name (R258). -/
def imageOff (o : Nat) : Bool :=
  o == PWR_CTL || (decide (0x1000 ≤ o) && decide (o < 0x4000)) || (decide (0x6800 ≤ o) && decide (o < 0x7800))

/-- 36-bit values packed in 5 bytes each (R257). -/
def packed : Nat → List (BitVec 8) → List Nat
  | 0, _ => []
  | n + 1, l => natLE (l.take 5) % 2 ^ 36 :: packed n (l.drop 5)

/-- The record of a type and its payload; none when the type or what it holds is not allowed (R258, R259). -/
def imageRec (type : Nat) (p : List (BitVec 8)) : Option ImgRec :=
  let byte (i : Nat) : Nat := (p.getD i 0).toNat
  if type = 1 then
    let o := natLE (p.take 2)
    let c := natLE ((p.drop 2).take 2)
    if p.length < 4 + 4 * c ∨ o % 4 ≠ 0 ∨ ¬ (List.range c).all (fun i => imageOff (o + 4 * i)) then none
    else some (.reg o ((List.range c).map (fun i => BitVec.ofNat 32 (natLE ((p.drop (4 + 4 * i)).take 4)))))
  else if type = 2 then
    let t := byte 2
    if p.length < 3 + 5 * t then none
    else some (.coef (byte 0) (byte 1) t ((packed t (p.drop 3)).map (fun x => signedOf 36 x)))
  else if type = 3 then
    if p.length < 262 then none
    else
      let w := packed 52 (p.drop 2)
      some (.corr (byte 0) ((byte 1 : Int) :: (w.zipIdx.map (fun (e : Nat × Nat) =>
        if e.2 = 0 ∨ (e.2 - 1) % 3 = 1 then (e.1 : Int) else signedOf 36 e.1))))
  else if type = 4 then
    if p.length < 64 ∨ ¬ imageOps.contains (byte 0) then none
    else
      let q := bytesToSlots 8 p
      let d (i : Nat) : BitVec 64 := q.getD i 0
      some (.cmd { d0 := d 0, d1 := d 1, d2 := d 2, d3 := d 3, d4 := d 4, d5 := d 5, d6 := d 6, d7 := d 7 })
  else none

/-- The records of an image from an offset on, up to END, which ends at the image's length. -/
def imageRecs : Nat → List (BitVec 8) → Option (List ImgRec)
  | 0, _ => none
  | fuel + 1, l =>
    let type := natLE (l.take 1)
    let len := natLE ((l.drop 4).take 4)
    if len < 8 ∨ len % 8 ≠ 0 ∨ l.length < len then none
    else if type = 0 then (if l.length = len then some [] else none)
    else match imageRec type ((l.take len).drop 8), imageRecs fuel (l.drop len) with
      | some r, some t => some (r :: t)
      | _, _ => none

/-- An image's header is one: MAGIC and VERSION (R257). -/
def State.imageHead (s : State) (slot : Nat) : Bool :=
  s.framNat (imageAddr slot) 4 == 0x49435644 && s.framNat (imageAddr slot + 4) 2 == 1

/-- ISEQ of an image. -/
def State.imageSeq (s : State) (slot : Nat) : Nat := s.framNat (imageAddr slot + 0x10) 4

/-- The records of a valid image (R259). -/
def State.imageValid (s : State) (slot : Nat) : Option (List ImgRec) :=
  let a := imageAddr slot
  let len := s.framNat (a + 0x18) 8
  let ser := s.framNat (a + 8) 8
  if ¬ s.imageHead slot ∨ ¬ (ser = 0 ∨ ser = s.wide [GLB_SERIAL_LO, GLB_SERIAL_HI]) ∨ 98304 < len ∨ len < 0x48 then none
  else
    let b := s.framBytes a len
    let z := b.take 0x28 ++ List.replicate 8 0 ++ b.drop 0x30
    if s.framNat (a + 0x28) 4 ≠ crc32c z then none else imageRecs (len / 8) (b.drop 0x40)

/-- The image to read next: the newer one first, then the other (R259). -/
def State.imagePick (s : State) : Option Nat :=
  let first := match s.imageHead 0, s.imageHead 1 with
    | true, true => if newer32 (s.imageSeq 1) (s.imageSeq 0) then 1 else 0
    | false, true => 1
    | _, _ => 0
  [first, 1 - first].find? (fun i => !s.prf.imagesTried.contains i)

/-- Applies one record; answers whether its action succeeded (R259). -/
def State.imageApply (s : State) (r : ImgRec) : State × Bool :=
  match r with
  | .reg o l => ((l.zipIdx).foldl (fun (s : State) (e : BitVec 32 × Nat) => s.writeReg .image (o + 4 * e.2) e.1) s, true)
  | .coef n bank t l =>
    if !s.filterChan n || t == 0 || decide (64 < t) || decide (1 < bank) || (s.loadJudge n bank).isSome then (s, false)
    else (s.loadBank n bank l, true)
  | .corr n l =>
    if !s.filterChan n || tableBad (s.roleNow n == 1) l || (s.chan n).corrNext.isSome || (s.chan n).corrHeld.isSome then (s, false)
    else (s.corrEffect n l none, true)
  | .cmd d =>
    let t := (s.modPrf (fun p => { p with imageStatus := stDone })).command .image d
    (t, t.prf.imageStatus == stDone)

/-- Applies the records in order; answers the index of one that failed. -/
def State.imageRun (s : State) (i : Nat) : List ImgRec → State × Option Nat
  | [] => (s, none)
  | r :: t =>
    let a := s.imageApply r
    if a.2 then a.1.imageRun (i + 1) t else (a.1, some i)

/-- Autostart ends, and with it a wake (R86): staged words that no lowest word followed are dropped (R259), MODE and MIRSIDE take effect (R436), and the blocks
take writes again. -/
def State.autoEnd (s : State) : State :=
  let s := (s.setStaged .image []).setFlag PWR_STAT_ASBUSY false
  ((s.modPrf (fun p => { p with imagesTried := [] })).tzlModeTake.phaseNext .done).wakeEnd

/-- MCLKO balls stay released in a mirrored pair, also while autostart is to bring it up: the board clocks the modulators (R444). -/
def State.boardClock (s : State) : Bool :=
  s.tzl.mode == 2 || (s.flag PWR_STAT_ASBUSY && s.flag GLB_STRAP_MSTR && s.get TZL_CTL_MODE == 2)

/-- MCLKO of every bank with a started channel is driven, 2 ms ahead of the internal SYNC (R82). -/
def State.mclkoAhead (s : State) : State :=
  State.each 12 (fun k s =>
    let any := (List.range 8).any (fun i => s.flag (MFE_CH_EN (8 * k + i)) && s.get (MFE_CH_ROLE (8 * k + i)) != 0)
    if any && s.bankOk k && !s.boardClock then s.setFlag (MFE_BANK_MCLKON k) true else s) s

/-- AUTOSTART reads one image (R82, R259): a valid one is applied, and the internal SYNC or, on a cascade slave, the master's boundary
is awaited; a rejected one is logged, and after the second autostart ends without metering (R83). -/
def State.autoImage (s : State) : State :=
  match s.imagePick with
  | none => (s.event 0x0502 0 .momentary 0 0 0).autoEnd
  | some slot =>
    match s.imageValid slot with
    | none =>
      let s := (s.event 0x0906 slot .momentary 0 0 0).modPrf (fun p => { p with imagesTried := p.imagesTried ++ [slot] })
      if s.imagePick.isSome then s else (s.event 0x0502 0 .momentary 0 0 0).autoEnd
    | some l =>
      let r := s.imageRun 0 l
      match r.2 with
      | some i => (r.1.event 0x0906 slot .momentary 1 i 0).autoEnd
      | none =>
        if r.1.flag GLB_STRAP_MSTR then r.1.mclkoAhead.phaseNext .internalSync else r.1.autoEnd

/-! Meanings -/

/-- AUTOSTART_IMAGE_READ (R259). -/
def execAutostartImageRead (s : State) : Host.Outcome State Fault Refusal :=
  finish (fun s => s.startRow [.image] (fun s => s.autoImage)) s

end Sys2Proof.Machine
end

