-- ==== Sys2Proof/Machine/Bound.lean ====
section
/-!
DEFINITION. Exposure boundaries (R24 to R28): what every block does there, whether the boundary is the regular one, a sync edge
(R137 to R139), autostart's internal SYNC (R82) or another device's marker (R439).
-/

namespace Sys2Proof.Machine

/-! Channels (R93, R96, R98, R99, R109) -/

/-- The channel at fault when a pair's ROLE and OVRTH fields are not those of a bracketed pair although one has a bracket role
(R99). -/
def State.pairFault (s : State) (m : Nat) : Option Nat :=
  let a := s.get (MFE_CH_ROLE (2 * m))
  let b := s.get (MFE_CH_ROLE (2 * m + 1))
  if a = 3 ∧ b = 4 then (if s.get (MFE_CH_OVRTH (2 * m + 1)) < 35 then some (2 * m + 1) else none)
  else if a = 3 ∨ a = 4 then some (2 * m) else if b = 3 ∨ b = 4 then some (2 * m + 1) else none

/-- The role a channel is to have from this boundary on; 0: it is not to run (R98, R99).  A refused pair keeps what it has. -/
def State.wantRole (s : State) (n : Nat) : BitVec 3 :=
  let m := n / 2
  let role : BitVec 3 := BitVec.ofNat 3 (s.get (MFE_CH_ROLE n))
  match s.pairFault m with
  | some _ =>
    if s.flag (MFE_CH_EN (if (s.brk m).on then 2 * m else n)) && ((s.chan n).started || (s.chan n).held) then (s.chan n).role else 0
  | none =>
    if s.flag (MFE_CH_EN (if s.get (MFE_CH_ROLE (2 * m)) = 3 then 2 * m else n)) then role else 0

/-- A refused pair would start or change role (R99): 2m's EN starts the pair, and that of input 2m + 1 counts only where it is neither
the high-gain member of a pair that runs nor a BRK_HI input. -/
def State.pairWould (s : State) (m : Nat) : Bool :=
  let differs (c : Nat) := !((s.chan c).started || (s.chan c).held) || (s.chan c).role.toNat != s.get (MFE_CH_ROLE c)
  if s.flag (MFE_CH_EN (2 * m)) then differs (2 * m) || ((s.brk m).on && differs (2 * m + 1))
  else s.flag (MFE_CH_EN (2 * m + 1)) && !(s.brk m).on && s.get (MFE_CH_ROLE (2 * m + 1)) != 4 && differs (2 * m + 1)

/-- Refused starts and role changes are shown and logged at the boundary that finds them (R99): once for settings that stay. -/
def State.roleRefusals (s : State) (first : Bool) : State :=
  State.each 48 (fun m s =>
    match s.pairFault m with
    | none => s
    | some n =>
      let same (c : Nat) := s.get (MFE_CH_ROLE c) == s.effGet (MFE_CH_ROLE c) && s.flag (MFE_CH_EN c) == (s.effGet (MFE_CH_EN c) == 1) &&
        s.get (MFE_CH_OVRTH c) == s.effGet (MFE_CH_OVRTH c)
      if s.pairWould m && (first || !(same (2 * m) && same (2 * m + 1))) then
        ((s.setFlag MFE_STAT_ROLEERR true).put MFE_STAT_ERRCH n).event 0x0102 n .momentary (s.get (MFE_CH_ROLE n)) 0 0
      else s) s

/-- A channel starts, or changes its role, at this boundary: E is loaded from its seed (R98, R135). -/
def State.chanStart (s : State) (n : Nat) (role : BitVec 3) : State :=
  let seed := s.getI (FLT_DCSEED_DCSEED n)
  let s := s.put (FLT_DCEST_DCEST n) (unsignedOf 32 seed)
  (s.modChan n (fun c => { c with started := true, held := false, role := role, dcE := seed * 2 ^ 34, frz := 0 })).restart n

/-- A channel stops: a stream loss of it ends with the boundary's timestamp (R98, R109). -/
def State.chanStop (s : State) (n : Nat) (ts : BitVec 64) : State :=
  (s.endLoss n ts).modChan n (fun c => { c with started := false, held := false, role := 0 })

/-- One channel takes up what `want` says; `driven` are the banks whose MCLKO was driven before this boundary (R93, R98). -/
def State.chanStep (s : State) (want : List (BitVec 3)) (driven : Nat) (ts : BitVec 64) (n : Nat) : State :=
  let c := s.chan n
  let w := want.getD n 0
  let k := n / 8
  if w = 0 then (if c.started then s.chanStop n ts else s.modChan n (fun c => { c with held := false, role := 0 }))
  else if c.started then (if c.role = w then s else s.chanStart n w)
  else if !s.bankOk k then (s.chanStart n w).declareLoss n 2
  else if bitAt driven k || s.boardClock then s.chanStart n w
  else (s.setFlag (MFE_BANK_MCLKON k) true).modChan n (fun c => { c with held := true, role := w })

/-- MCLKO and HOLD of a bank follow its channels: driven again once the supply has returned, released with the last channel
(R93). -/
def State.bankStep (s : State) (k : Nat) : State :=
  let of (f : ChState → Bool) := (List.range 8).any (fun i => f (s.chan (8 * k + i)))
  let started := of ChState.started
  let held := of ChState.held
  let on := !s.boardClock && s.bankOk k && (started || held)
  (s.setFlag (MFE_BANK_MCLKON k) on).setFlag (MFE_BANK_HOLD k) held

/-- A pair starts or ends as a pair with its members (R99, R113, R121). -/
def State.brkStep (s : State) (m : Nat) : State :=
  let a := s.chan (2 * m)
  let b := s.chan (2 * m + 1)
  let pair := a.started && a.role == roleBrkLo && b.started && b.role == roleBrkHi
  if pair && !(s.brk m).on then
    ((s.modBrk m (fun x => { x with on := true })).setFlag (MFE_BRKST_HGLOSS m) b.lost).restartPair m
  else if !pair && (s.brk m).on then
    let s := s.modBrk m (fun x => { BrkState.reset with toLg := x.toLg, toHg := x.toHg })
    ((s.setFlag (MFE_BRKST_HGLOSS m) false).setFlag (MFE_BRKST_TRKACT m) false).setFlag (MFE_BRKST_SEL m) true
  else s

/-- A lost channel recovers after a whole exposure without cause for loss (R109, R121). -/
def State.recover (s : State) (driven : Nat) (ts : BitVec 64) (n : Nat) : State :=
  let c := s.chan n
  let fed := !c.byBank || (s.bankOk (n / 8) && (bitAt driven (n / 8) || s.boardClock))
  if !(c.started && c.lost && !c.lostNow && !c.runSeen && fed) then s
  else
    let m := n / 2
    let s := s.endLoss n ts
    if (s.brk m).on && c.role == roleBrkHi then
      let s := (s.restart n).setFlag (MFE_BRKST_HGLOSS m) false
      let k := s.settleOf n
      s.modBrk m (fun b => { b with hSettle := k, hOld := [], count := 0 })
    else s.restartAny n

/-- A PHASE that changed restarts the bank's channels (R96); `old` are the settings before the boundary. -/
def State.phaseStep (s : State) (old : List (Nat × BitVec 32)) (k : Nat) : State :=
  if effOf old (MFE_BANK_PHASE k) = s.effGet (MFE_BANK_PHASE k) then s
  else (List.range 8).foldl (fun (s : State) i => if (s.chan (8 * k + i)).started then s.restartAny (8 * k + i) else s) s

/-- Every started channel restarts from the zero state (R142). -/
def State.restartAll (s : State) : State :=
  let s := State.each 96 (fun n s => if (s.chan n).started && !(s.brk (n / 2)).on then s.restart n else s) s
  State.each 48 (fun m s => if (s.brk m).on then s.restartPair m else s) s

/-- Every channel restarts, and the edge is recorded (R139). -/
def State.syncNow (s : State) (src : BitVec 3) : State :=
  let s := (s.restartAll.bump FLT_SYNCCNT_SYNCCNT 1).putWide [FLT_SYNCTS_LO, FLT_SYNCTS_HI] s.ts.toNat
  s.put FLT_STAT_LASTSRC src.toNat

/-- A new grain or MCLKLP is taken up (R76, R143): whether one changed. -/
def State.grainStep (s : State) : State × Bool :=
  let g := s.get FLT_CTL_GRAIN
  let changed := g != s.get FLT_STAT_GRAINNOW || s.get PWR_CTL_MCLKLP != s.effGet PWR_CTL_MCLKLP
  ((s.put FLT_STAT_GRAINNOW g).setFlag FLT_STAT_GRAINPEND false, changed)

/-- The front end at a boundary: settings take effect, then role refusals, starts and stops, recoveries, PHASE changes and a SYNC.
Answers the source of the SYNC, if any, and whether grain or rate changed. -/
def State.frontStep (s : State) (ts : BitVec 64) (first : Bool) (src : Option (BitVec 3)) : State × Option (BitVec 3) × Bool :=
  let old := s.exp.eff
  let s := s.roleRefusals first
  let (s, changed) := s.grainStep
  let s := s.modExp (fun e => { e with eff := s.regs })
  let driven := (List.range 12).foldl (fun a k => if s.flag (MFE_BANK_MCLKON k) then a + 2 ^ k else a) 0
  let s := State.each 96 (fun n s => s.recover driven ts n) s
  let s := State.each 96 (fun n s => s.modChan n (fun c => { c with lostNow := false })) s
  let want := (List.range 96).map s.wantRole
  let s := State.each 96 (fun n s => s.chanStep want driven ts n) s
  let s := State.each 12 (fun k s => s.bankStep k) s
  let s := State.each 48 (fun m s => s.brkStep m) s
  let s := State.each 12 (fun k s => s.phaseStep old k) s
  match (if src.isNone && changed then some 3 else src) with
  | some k => (s.syncNow k, some k, changed)
  | none => (if s.tzl.cut then s.restartAll else s, none, false)

/-- Windows in progress are abandoned at a change of grain or rate and at a zero-state restart of VCH0, but not at a SYNC by ball or
command (R210). -/
def State.windowStep (s : State) (sync : Option (BitVec 3)) (changed : Bool) : State :=
  let own : Bool := match sync with | some k => k == 1 || k == 2 | none => false
  State.each 8 (fun g s =>
    let v := s.effGet (VGDEF_VCH0 g)
    let again := s.effGet (VGDEF_NV g) != 0 && (s.chan v).started && (s.chan v).bits.isEmpty
    if changed || (!own && again) then s.abandonWindow g else s) s

/-! Metering points (R176, R177) -/

/-- MP_START and MP_STOP at their boundary (R176). -/
def State.mpStep (s : State) (mask : Nat) (start : Bool) : State :=
  (bitsOf 32 mask).foldl (fun (s : State) p =>
    if bitAt s.runMask p = start then s
    else
      let s := s.modLdg (fun l => { l with
        running := if start then l.running ||| bit32 p else l.running &&& ~~~(bit32 p)
        chErrLogged := assocDel l.chErrLogged p })
      s.setFlag (MET_STAT_RUN p) start) s

/-- The role R176 requires of a channel for a point. -/
def roleFits (eff : List (Nat × BitVec 32)) (p n role : Nat) : Bool :=
  if (pointCurrents eff p).contains n then role == 2 || role == 3 else role == 1

/-- Channels of running points that stop, change role or lose the required role count as LOSS until the point starts again; each
change is logged (R177).  `before`: started channels and their roles before the boundary, `ran`: points that ran before it. -/
def State.chErr (s : State) (before : List (Bool × Nat)) (ran : Nat) : State :=
  (bitsOf 32 s.runMask).foldl (fun (s : State) p =>
    (pointChans s.exp.eff p).foldl (fun (s : State) n =>
      let c := s.chan n
      let bad := assocGet 0 s.ldg.chErrLogged p
      let role := if c.started || c.held then c.role.toNat else s.get (MFE_CH_ROLE n)
      let b := before.getD n (false, 0)
      let changed := bitAt ran p && b.1 && (!c.started || role != b.2)
      if !(changed || (!bitAt bad n && !roleFits s.exp.eff p n role)) then s
      else
        let s := if bitAt bad n then s
          else s.modLdg (fun l => { l with chErrLogged := assocPut l.chErrLogged p (bad + 2 ^ n) })
        (s.setFlag (MET_STAT_CHERR p) true).event 0x0103 p .momentary n 0 0) s) s

/-! Taken commands -/

/-- A taken command that acts at a boundary (R396): `n` the exposure that ends there, `held` those before it that are not resolved,
`sync` whether a SYNC by ball or command takes effect.  One whose deadline has passed is withdrawn; a SYNC still took effect. -/
def State.cmdBoundary (s : State) (n : BitVec 72) (held : List Expo) (sync : Bool) (t : Taken) : State :=
  let late := t.hdr.dlv && s.lateFor t.hdr.deadline
  let act (f : State → State) : State := if late then s.done t stDone 0 0 0 else (f s).done t stDone 0 0 0
  match t.wait with
  | .mpStart m => act (fun s => s.mpStep m.toNat true)
  | .mpStop m => act (fun s => s.mpStep m.toNat false)
  | .filtStart c => act (fun s => s.filtOn c)
  | .filtStop c => act (fun s => s.filtOff c)
  | .corrBoundary c => if late then (s.modChan c (fun x => { x with corrNext := none })).done t stDone 0 0 0 else act (fun s => match (s.chan c).corrNext with | some l => s.corrEffect c l (some n.toNat) | none => s)
  | .swap c => if s.taken.contains t then s.swapBoundary t c else s
  | .sync => if sync then s.done t stDone s.ts.toNat 0 0 else s
  | .reinit k => if k.toNat ≤ 5 then (s.reinitAt k.toNat held).reinitDone t k.toNat n else s
  | _ => s

/-! Status page, bracket statistics, watchdog -/

/-- The boundary fields of the status page (R388), then the boundary's doorbell read (R387). -/
def State.pageBoundary (s : State) (n : BitVec 72) (ts : BitVec 64) : State :=
  if !s.flag HIF_CTL_DBEN then s
  else
    let s := if s.dmaOn then
        let s := s.modHif (fun f => { f with hb := f.hb + 1 })
        let w := s.hif.hb.toNat + s.sealed.toNat * 2 ^ 32 + s.inSafe.toNat * 2 ^ 33 + (s.flag PWR_STAT_ASBUSY).toNat * 2 ^ 34
        s.hostWrite (.mem (s.statusAddr 0x400) (slot128 n.toNat ++ [ts, BitVec.ofNat 64 w]))
      else s
    s.doorbell

/-- At the end of a proof interval, switches beyond CHATLIM are logged, and the interval's counts start again (R122, log 19). -/
def State.chatBoundary (s : State) (n : BitVec 72) : State :=
  if n.toNat % max 1 (s.get LDG_CTL_PINT) ≠ 0 then s
  else State.each 48 (fun m s =>
    let b := s.brk m
    let lim := s.effGet (MFE_BRKCFG_CHATLIM m)
    let s := if lim ≠ 0 ∧ lim < b.toLg then s.event 0x0105 m .momentary b.toLg b.toHg 0 else s
    s.modBrk m (fun x => { x with toLg := 0, toHg := 0 })) s

/-- The monitor restarts the watchdog (R427). -/
def State.wdtRestart (s : State) : State := s.modSaf (fun f => { f with wdtAt := s.exp.now })

/-- The safety monitor at the boundary that ends exposure n (R416, R418, R427, R430). -/
def State.monitorBoundary (s : State) (n : BitVec 72) : State :=
  let settled := s.exp.pipe.all (fun y => decide (n.toNat ≤ y.slot.expno.toNat))
  let s := if settled && s.saf.dueSeg.isEmpty && s.saf.kavDone then s.wdtRestart else s
  let s := s.safetyBoundary n
  let s := s.modSaf (fun f => { f with kavDone := false })
  s.put SAF_KAV_NEXT (s.saf.kavAgain.getD (n.toNat % 32))

/-! The boundary -/

/-- What a mirrored device keeps of an exposure for its mirror frame (R445). -/
def State.mirrorKeep (s : State) (n : BitVec 72) (ts : BitVec 64) (counts : List Nat) : State :=
  if s.tzl.mode ≠ 2 then s
  else
    let v : BitVec 36 := BitVec.ofNat 36 (sum36 0 ((List.range 3072).map (fun i => s.regionWord 0 i)))
    s.modTzl (fun t => { t with sums := t.sums ++ [(n, v, ts)], countsNow := t.countsNow ++ [(n, counts)] })

/-- The exposure in progress ends at HFREF time `t` (R24, R25). -/
def State.endExposure (s : State) (b : BoundaryIn) (t : Nat) : State :=
  let n := s.exp.cur
  let counts := s.pio.pin.map (fun p => p.count + p.late)
  let s := State.each 16 (fun j s => s.pinBoundary j ((b.pin2.find? (fun e => e.1 == j)).map (·.2))) s
  let s := s.mirrorKeep n s.ts counts
  (s.closeExposure b t).releaseBoundary n

/-- The next exposure begins (R26, R437): numbered one higher, or as a cascade start or another device says. -/
def State.beginExposure (s : State) (t : Nat) (num : Option (BitVec 72)) : State :=
  let was := s.exp.running
  let n := num.getD (s.tzl.jump.getD (if was then s.exp.cur + 1 else s.exp.next))
  let again := s.tzl.jump.isSome || !was
  let s := s.modExp (fun e => { e with running := true, cur := n, startAt := t, startTs := s.ts })
  let s := s.modTzl (fun z => { z with jump := none })
  if again then s.reinitTzlDone n else s

/-- Metering stops at this boundary on the way to STANDBY (R86, R254). -/
def State.stopExposures (s : State) : State :=
  (s.bkStop 2).modExp (fun e => { e with running := false, next := e.cur + 1, syncAt := none })

/-- No run of exposures begins in a power fail or on the way to STANDBY (R86, R87). -/
def State.noRun (s : State) : Bool := !s.exp.running && (s.flag PWR_STAT_PFAIL || s.pwr.change == Change.toStandby)

/-- The blocks take up the exposure that begins (R164, R166, R222, R239, R416, R439, R445); `sync` and `snaps` are what its marker
says beside its number and start. -/
def State.blocksBegin (s : State) (b : BoundaryIn) (sync : Option Nat) (snaps : List (BitVec 32 × Bool × Bool)) : State :=
  let n := s.exp.cur
  let s := s.calBegin.pairBoundary n.toNat s.settleOf (instantsIn (effG s.exp.eff) 32768) b.dPair b.partner
  let s := State.each 12 (fun k s => s.calselForce k) s
  let s := State.each 16 (fun c s => s.cfBoundary c) s
  let s := State.each 16 (fun j s => s.pinStart j) s
  let s := (s.bkBoundary n).scanDue n
  let send := (s.tzMaster && s.tzl.enumerated && s.flag TZL_STAT_DNTRN) ||
    (s.tzl.mode == 2 && s.flag TZL_STAT_ACTIVE && s.mirLinked)
  if send then s.tzSend (.boundary { expno := n, ts := s.ts, sync := sync, snaps := snaps }) else s

/-- An exposure boundary at HFREF time `t`: `src` a SYNC that takes effect there, `num` the number another device gives the exposure
that begins.  While none runs it starts the first exposure of a run. -/
def State.boundary (s : State) (b : BoundaryIn) (t : Nat) (src : Option (BitVec 3)) (num : Option (BitVec 72)) : State :=
  let s := (s.reach t).expireLatent
  let was := s.exp.running
  let stopping := was && s.pwr.change == Change.toStandby
  let n := s.exp.cur
  let ts := s.ts
  let prev := s.exp.lastEnded
  let held := s.exp.pipe
  let before := s.exp.chans.map (fun c => (c.started, c.role.toNat))
  let ran := s.runMask
  let own : Bool := match src with | some k => k == 1 || k == 2 | none => false
  let syncLen : Option Nat := if src.isSome && was then some (t - s.exp.startAt) else none
  let snaps := if was then s.snapAsks n stopping else []
  let s := if was && own then s.calSync else s
  let s := if was then s.endExposure b t else s
  let s := if was then s.netsetStep else s
  let s := if stopping then s else (s.beginExposure t num).refillSlot
  let s := if was ∨ stopping then s else s.startAccount
  let (s, sync, changed) := s.frontStep ts (!was) src
  let s := s.modTzl (fun z => { z with cut := false })
  let s := if changed ∧ was then s.calAbort n else s
  let last : BitVec 72 := match s.exp.lastEnded with | some (e, _) => e | none => s.exp.cur - 1
  let s := s.taken.foldl (fun (s : State) c => s.cmdBoundary last held own c) s
  let s := (s.windowStep sync changed).chErr before ran
  let s := s.netsetShow
  let s := if !was then s
    else
      let s := ((s.snapBoundary n ts prev stopping).proofBoundary n ts prev stopping).seqBoundary n
      ((s.chatBoundary n).pickupsOff n ts).monitorBoundary n
  let s := if stopping then s.stopExposures else s.blocksBegin b syncLen snaps
  let s := if was then State.each 16 (fun c s => s.cfDue c t ran) s else s.wdtRestart
  let s := s.takeOver
  if was then s.pageBoundary n ts else s

/-! Meanings -/

/-- EXPOSURE_BOUNDARY (R24): the regular one of a run that counts its own boundaries, unless a sync edge comes no later. -/
def execExposureBoundary (b : BoundaryIn) (s : State) : Host.Outcome State Fault Refusal :=
  finish (fun s =>
    let t := s.exp.startAt + 32768
    let first := match s.exp.syncAt with | some e => decide (e ≤ t) | none => false
    if !s.exp.running || s.follows || first then s else s.boundary b t none none) s

/-- TAKEOVER (R447): the first boundary after the trigger, on the standby's own timing. -/
def execTakeover (s : State) (b : BoundaryIn := .empty) : Host.Outcome State Fault Refusal :=
  finish (fun s =>
    if s.exp.running && s.mirStandby && s.tzl.takeover.isSome then s.boundary b (s.exp.startAt + 32768) none none else s) s

/-- SYNC_EDGE (R139): the SYNC recognised takes effect, unless a regular boundary comes before it. -/
def execSyncEdge (b : BoundaryIn) (s : State) : Host.Outcome State Fault Refusal :=
  finish (fun s =>
    match s.exp.syncAt with
    | none => s
    | some t =>
      if s.noRun || (s.exp.running && decide (s.exp.startAt + 32768 < t)) then s
      else
        let k := s.exp.syncSrc
        let s := (s.modExp (fun e => { e with syncAt := none })).setFlag FLT_STAT_SYNCPEND false
        s.boundary b t (some k) none) s

/-- INTERNAL_SYNC (R82, R137): the configuration image is applied; the first exposure begins, and autostart ends. -/
def execInternalSync (s : State) : Host.Outcome State Fault Refusal :=
  finish (fun s => s.startRow [.internalSync] (fun s =>
    let none_ : BoundaryIn := { chans := [], pin2 := [], flips := [], ecc := [], dPair := [], partner := none }
    (if s.exp.running || s.noRun then s else s.boundary none_ s.exp.now (some 3) none).autoEnd)) s

/-- HFREF time of a marker's boundary, and whether it is a SYNC of the other device (R25, R439): 32,768 cycles after the last one, or
earlier as the marker says; now for the first one. -/
def State.markerAt (s : State) (m : Marker) : Nat × Bool :=
  if !s.exp.running || s.tzl.masterTs.isNone then (s.exp.now, true)
  else match m.sync with
    | some d => (s.exp.startAt + min d 32768, true)
    | none => (s.exp.startAt + 32768, false)

/-- Snapshots the master takes at this boundary are taken here too, for its host (R441). -/
def State.snapFor (s : State) (l : List (BitVec 32 × Bool × Bool)) : State :=
  if !s.tzSlave || !s.exp.running then s
  else
    let of (x : BitVec 32 × Bool × Bool) : SnapReq :=
      { src := none, up := true, mask := x.1, latent := x.2.2, auto := x.2.1, expno := none, ts := 0, pinq := [], frozen := 0,
        kept := [] }
    s.modLdg (fun g => { g with snaps := g.snaps ++ l.map of })

/-- The clock follows the other device's (R439): set at the first trusted boundary, slewed after it. -/
def State.followTime (s : State) (ts : BitVec 64) : State :=
  if !s.tzl.timeSet then
    (if bitAt ts.toNat 60 then s else (s.setTime (tsKey ts / 512) 0).modTzl (fun t => { t with timeSet := true }))
  else
    let off : Int := (tsKey ts : Int) - s.rtcKey
    s.slewTo (slewOver off) 0

/-- BOUNDARY_MARKER (R439): a slave or standby takes its boundary, number and time from the other device. -/
def execBoundaryMarker (b : BoundaryIn) (expno : BitVec 72) (ts : BitVec 64) (s : State) (sync : Option Nat := none)
    (snaps : List (BitVec 32 × Bool × Bool) := []) : Host.Outcome State Fault Refusal :=
  finish (fun s =>
    let m : Marker := { expno := expno, ts := ts, sync := sync, snaps := snaps }
    if !(s.follows && s.pdOn 5 && s.pwr.phase == .done) || s.noRun || (s.tzl.mode == 1 && !(s.tzl.enumerated && !s.tzl.waiting)) then s
    else
      let (t, edge) := s.markerAt m
      let s := s.reach t
      let s := ((s.modTzl (fun z => { z with masterTs := some (m.ts, s.exp.now) })).followTime m.ts).snapFor m.snaps
      let s := if s.tzSlave && s.flag TZL_STAT_DNTRN then s.tzSend (.boundary m) else s
      s.boundary b t (if edge then some 4 else none) (some m.expno)) s

end Sys2Proof.Machine
end

