-- ==== Sys2Proof/Machine/Tick.lean ====
section
/-!
DEFINITION. The edges of LFCLK (R337) and everything that falls due at a tick edge: commit, step, alarm, periodic wake, capture and the
end of a slew (R342 to R346, R352 to R354).
-/

namespace Sys2Proof.Machine

/-- The pending captures latch SEC and TICK (R346); RTC_CAPTURE completes with the timestamp slot. -/
def State.captureEdge (s : State) : State :=
  if s.pdOn 5 ∧ (s.rtc.capture ∨ s.taken.any (fun t => t.wait == Wait.rtcCapture)) then
    let slot := mkTs (!s.hfOn) (s.flag RTC_STAT_OSF) (s.ticks * 512)
    let s := (s.putWide [RTC_CAPSEC_LO, RTC_CAPSEC_HI] s.rtc.sec).put RTC_CAPFRAC_CAP s.rtc.tick
    let s := (s.modRtc (fun r => { r with capture := false })).setFlag RTC_STAT_CAPVALID true
    s.doneAll (fun t => t.wait == Wait.rtcCapture) stDone (fun _ => (slot.toNat, 0, 0))
  else s

/-- The time at a tick edge (R337, R342 to R344): it advances, and the pending commit or step takes effect. -/
def State.edgeTime (s : State) : State := s.lfEdge.commitEdge.stepEdge

/-- What sees the time of a tick edge (R343, R346, R352, R354): the alarm, the periodic wake and the capture. -/
def State.edgeDue (s : State) : State := s.captureEdge.alarm.periodic

/-- One LFCLK edge and, where it is a tick edge, all that is due at it (R337). -/
def State.lfclkEdge (s : State) : State := if s.lfTicks = 0 then s.lfEdge else s.edgeTime.edgeDue

/-- The next tick edge: an LFCLK edge at which no tick is made goes before it (R337). -/
def State.beforeTick (s : State) : State := if s.lfTicks = 0 then s.lfEdge else s

/-- A capture waits for its edge (R346). -/
def State.capturePending (s : State) : Bool :=
  s.pdOn 5 && (s.rtc.capture || s.taken.any (fun t => t.wait == Wait.rtcCapture))

/-- The alarm fires at the tick edge that comes next (R352). -/
def State.alarmNext (s : State) : Bool :=
  let t := s.beforeTick.edgeTime
  t.flag RTC_ALMCTL_ARMED && decide (t.alarmTicks ≤ t.ticks)

/-- TICK_EDGE (R337). -/
def execTickEdge (s : State) : Host.Outcome State Fault Refusal := finish (fun s => s.lfclkEdge) s

/-- COMMIT_TAKES_EFFECT (R342): the tick edge that follows the request. -/
def execCommitTakesEffect (s : State) : Host.Outcome State Fault Refusal :=
  finish (fun s => if s.commitPending then s.beforeTick.lfclkEdge else s) s

/-- STEP_TAKES_EFFECT (R344): the tick edge that follows the request. -/
def execStepTakesEffect (s : State) : Host.Outcome State Fault Refusal :=
  finish (fun s => if s.rtc.step.isSome then s.beforeTick.lfclkEdge else s) s

/-- CAPTURE_LATCH (R346): the tick edge that follows the request. -/
def execCaptureLatch (s : State) : Host.Outcome State Fault Refusal :=
  finish (fun s => if s.capturePending then s.beforeTick.lfclkEdge else s) s

/-- SLEW_END (R345): the tick edge at which the duration of the slew has elapsed. -/
def execSlewEnd (s : State) : Host.Outcome State Fault Refusal :=
  finish (fun s => if s.beforeTick.slewEnds s.beforeTick.lfTicks then s.beforeTick.lfclkEdge else s) s

/-- ALARM_FIRES (R352): the tick edge at which the armed alarm fires. -/
def execAlarmFires (s : State) : Host.Outcome State Fault Refusal :=
  finish (fun s => if s.alarmNext then s.beforeTick.lfclkEdge else s) s

/-- PERIODIC_WAKE (R354): the tick edge at which a periodic wake is due. -/
def execPeriodicWake (s : State) : Host.Outcome State Fault Refusal :=
  finish (fun s => if s.beforeTick.edgeTime.rtc.perDue then s.beforeTick.lfclkEdge else s) s

end Sys2Proof.Machine
end

