-- ==== Sys2Proof/Machine/Dispatch.lean ====
section
/-!
DEFINITION. One arm per command: the meaning it calls.
-/

namespace Sys2Proof.Machine

def exec (i : Instr) (s : State) : Host.Outcome State Fault Refusal :=
  match i with
  | .nop h => Sys2Proof.Machine.execNop h s
  | .mpStart h a0 => Sys2Proof.Machine.execMpStart h a0 s
  | .mpStop h a0 => Sys2Proof.Machine.execMpStop h a0 s
  | .coefLoad h a0 a1 => Sys2Proof.Machine.execCoefLoad h a0 a1 s
  | .coefLoadCorr h a0 a1 => Sys2Proof.Machine.execCoefLoadCorr h a0 a1 s
  | .coefSwap h a0 => Sys2Proof.Machine.execCoefSwap h a0 s
  | .filtStart h a0 => Sys2Proof.Machine.execFiltStart h a0 s
  | .filtStop h a0 => Sys2Proof.Machine.execFiltStop h a0 s
  | .sync h => Sys2Proof.Machine.execSync h s
  | .snapshot h a0 a1 a2 => Sys2Proof.Machine.execSnapshot h a0 a1 a2 s
  | .snapshotAuto h a0 a1 a2 => Sys2Proof.Machine.execSnapshotAuto h a0 a1 a2 s
  | .calWindow h a0 a1 a2 a3 => Sys2Proof.Machine.execCalWindow h a0 a1 a2 a3 s
  | .withheldRelease h a0 a1 a2 => Sys2Proof.Machine.execWithheldRelease h a0 a1 a2 s
  | .rtcCapture h => Sys2Proof.Machine.execRtcCapture h s
  | .rtcSet h a0 a1 a2 => Sys2Proof.Machine.execRtcSet h a0 a1 a2 s
  | .rtcAdjustStep h a0 a1 a2 => Sys2Proof.Machine.execRtcAdjustStep h a0 a1 a2 s
  | .rtcAdjustSlew h a0 a1 a2 => Sys2Proof.Machine.execRtcAdjustSlew h a0 a1 a2 s
  | .fcvCal h => Sys2Proof.Machine.execFcvCal h s
  | .fcvSeq h a0 a1 => Sys2Proof.Machine.execFcvSeq h a0 a1 s
  | .cvuScan h a0 a1 a2 => Sys2Proof.Machine.execCvuScan h a0 a1 a2 s
  | .fnReinit h a0 => Sys2Proof.Machine.execFnReinit h a0 s
  | .fnReinitSafety h => Sys2Proof.Machine.execFnReinitSafety h s
  | .fnReinitTzl h => Sys2Proof.Machine.execFnReinitTzl h s
  | .pwrCycle h a0 => Sys2Proof.Machine.execPwrCycle h a0 s
  | .proofNow h => Sys2Proof.Machine.execProofNow h s
  | .seal h => Sys2Proof.Machine.execSeal h s
  | .unseal h => Sys2Proof.Machine.execUnseal h s
  | .commandDeadlineExpiry src => Sys2Proof.Machine.execCommandDeadlineExpiry src s
  | .plcTx d payload key => Sys2Proof.Machine.execPlcTx d payload key s
  | .dirAdd d buf => Sys2Proof.Machine.execDirAdd d buf s
  | .dirSet d buf => Sys2Proof.Machine.execDirSet d buf s
  | .dirRemove d => Sys2Proof.Machine.execDirRemove d s
  | .dirRead d => Sys2Proof.Machine.execDirRead d s
  | .ctxRead d => Sys2Proof.Machine.execCtxRead d s
  | .ctxWrite d buf => Sys2Proof.Machine.execCtxWrite d buf s
  | .ctxWriteRekey d buf key => Sys2Proof.Machine.execCtxWriteRekey d buf key s
  | .ctxFree d => Sys2Proof.Machine.execCtxFree d s
  | .reneg d => Sys2Proof.Machine.execReneg d s
  | .routeSet d buf => Sys2Proof.Machine.execRouteSet d buf s
  | .dbKick p v => Sys2Proof.Machine.execDbKick p v s
  | .doorbellReadDone page cmds posted => Sys2Proof.Machine.execDoorbellReadDone page cmds posted s
  | .mbxGo p v => Sys2Proof.Machine.execMbxGo p v s
  | .mbxEvtpop p v => Sys2Proof.Machine.execMbxEvtpop p v s
  | .tzlEvpop p v => Sys2Proof.Machine.execTzlEvpop p v s
  | .softrst p v => Sys2Proof.Machine.execSoftrst p v s
  | .targetMeter p v => Sys2Proof.Machine.execTargetMeter p v s
  | .targetRun p v => Sys2Proof.Machine.execTargetRun p v s
  | .targetStandby p v => Sys2Proof.Machine.execTargetStandby p v s
  | .standbyWake cause => Sys2Proof.Machine.execStandbyWake cause s
  | .rtcCtlCommit p v => Sys2Proof.Machine.execRtcCtlCommit p v s
  | .commitTakesEffect => Sys2Proof.Machine.execCommitTakesEffect s
  | .rtcCtlStep p v => Sys2Proof.Machine.execRtcCtlStep p v s
  | .stepTakesEffect => Sys2Proof.Machine.execStepTakesEffect s
  | .rtcCtlCapture p v => Sys2Proof.Machine.execRtcCtlCapture p v s
  | .captureLatch => Sys2Proof.Machine.execCaptureLatch s
  | .tickEdge => Sys2Proof.Machine.execTickEdge s
  | .rtcSlew p v => Sys2Proof.Machine.execRtcSlew p v s
  | .slewEnd => Sys2Proof.Machine.execSlewEnd s
  | .almctlArm p v => Sys2Proof.Machine.execAlmctlArm p v s
  | .almctlDisarm p v => Sys2Proof.Machine.execAlmctlDisarm p v s
  | .alarmFires => Sys2Proof.Machine.execAlarmFires s
  | .periodicWake => Sys2Proof.Machine.execPeriodicWake s
  | .temperatureMeasurement t => Sys2Proof.Machine.execTemperatureMeasurement t s
  | .tccfgWrite p v => Sys2Proof.Machine.execTccfgWrite p v s
  | .tchgWrite p v => Sys2Proof.Machine.execTchgWrite p v s
  | .bkmodeChange p v => Sys2Proof.Machine.execBkmodeChange p v s
  | .rtcRamRead p w flips width => Sys2Proof.Machine.execRtcRamRead p w flips s width
  | .rcRegisterRead p off width => Sys2Proof.Machine.execRcRegisterRead p off s width
  | .lowestWordRead p off width => Sys2Proof.Machine.execLowestWordRead p off s width
  | .lowestWordWrite p off v => Sys2Proof.Machine.execLowestWordWrite p off v s
  | .registerWrite p off width v => Sys2Proof.Machine.execRegisterWrite p off width v s
  | .ldgFaddrWrite p v => Sys2Proof.Machine.execLdgFaddrWrite p v s
  | .ldgFdataRead p width => Sys2Proof.Machine.execLdgFdataRead p s width
  | .ldgFdataWrite p v => Sys2Proof.Machine.execLdgFdataWrite p v s
  | .framPortAccessDone => Sys2Proof.Machine.execFramPortAccessDone s
  | .urgentConversion p v => Sys2Proof.Machine.execUrgentConversion p v s
  | .urgentConversionDone convs => Sys2Proof.Machine.execUrgentConversionDone convs s
  | .load p v => Sys2Proof.Machine.execLoad p v s
  | .loadApplied => Sys2Proof.Machine.execLoadApplied s
  | .csArm p v => Sys2Proof.Machine.execCsArm p v s
  | .csDisarm p v => Sys2Proof.Machine.execCsDisarm p v s
  | .force p v => Sys2Proof.Machine.execForce p v s
  | .captureTrigger convs => Sys2Proof.Machine.execCaptureTrigger convs s
  | .postTriggerComplete convs => Sys2Proof.Machine.execPostTriggerComplete convs s
  | .fcapRecordWrite => Sys2Proof.Machine.execFcapRecordWrite s
  | .remoteRead p v => Sys2Proof.Machine.execRemoteRead p v s
  | .remoteWrite p v => Sys2Proof.Machine.execRemoteWrite p v s
  | .remoteAccessDone data => Sys2Proof.Machine.execRemoteAccessDone data s
  | .handover p v => Sys2Proof.Machine.execHandover p v s
  | .suspend p u v => Sys2Proof.Machine.execSuspend p u v s
  | .refflip p v => Sys2Proof.Machine.execRefflip p v s
  | .referenceEntryWrite p v => Sys2Proof.Machine.execReferenceEntryWrite p v s
  | .ack p v => Sys2Proof.Machine.execAck p v s
  | .hostTrip p v => Sys2Proof.Machine.execHostTrip p v s
  | .tripDisable p n v => Sys2Proof.Machine.execTripDisable p n v s
  | .init p v => Sys2Proof.Machine.execInit p v s
  | .rehash p v => Sys2Proof.Machine.execRehash p v s
  | .abort p v => Sys2Proof.Machine.execAbort p v s
  | .rehashBucketCopy => Sys2Proof.Machine.execRehashBucketCopy s
  | .ringEnable p r v => Sys2Proof.Machine.execRingEnable p r v s
  | .ringDisable p r v => Sys2Proof.Machine.execRingDisable p r v s
  | .irqenWrite p v => Sys2Proof.Machine.execIrqenWrite p v s
  | .calfrcWrite p k v => Sys2Proof.Machine.execCalfrcWrite p k v s
  | .hspiReadFrame instr addr n => Sys2Proof.Machine.execHspiReadFrame instr addr n s
  | .hspiWriteFrame instr addr words => Sys2Proof.Machine.execHspiWriteFrame instr addr words s
  | .exposureBoundary b => Sys2Proof.Machine.execExposureBoundary b s
  | .developmentDone u => Sys2Proof.Machine.execDevelopmentDone u s
  | .fixerComparison u => Sys2Proof.Machine.execFixerComparison u s
  | .replayDone u => Sys2Proof.Machine.execReplayDone u s
  | .latentDeadline => Sys2Proof.Machine.execLatentDeadline s
  | .syncPin => Sys2Proof.Machine.execSyncPin s
  | .syncEdge b => Sys2Proof.Machine.execSyncEdge b s
  | .streamLoss ch => Sys2Proof.Machine.execStreamLoss ch s
  | .bracketSwitch m sample => Sys2Proof.Machine.execBracketSwitch m sample s
  | .bracketReturn m sample => Sys2Proof.Machine.execBracketReturn m sample s
  | .zeroCrossing g rising => Sys2Proof.Machine.execZeroCrossing g rising s
  | .frequencyRangeTimeout g => Sys2Proof.Machine.execFrequencyRangeTimeout g s
  | .macFreeRun => Sys2Proof.Machine.execMacFreeRun s
  | .windowWrite g => Sys2Proof.Machine.execWindowWrite g s
  | .halfCycleDecision g => Sys2Proof.Machine.execHalfCycleDecision g s
  | .eventRecordWrite => Sys2Proof.Machine.execEventRecordWrite s
  | .cfSlot n => Sys2Proof.Machine.execCfSlot n s
  | .tripReadback levels => Sys2Proof.Machine.execTripReadback levels s
  | .mintripExpiry n => Sys2Proof.Machine.execMintripExpiry n s
  | .momentarySourceExpiry code index => Sys2Proof.Machine.execMomentarySourceExpiry code index s
  | .pinChangeAccepted j level at_ both => Sys2Proof.Machine.execPinChangeAccepted j level at_ both s
  | .missingPulse j => Sys2Proof.Machine.execMissingPulse j s
  | .proofWriteStart => Sys2Proof.Machine.execProofWriteStart s
  | .proofWriteDone => Sys2Proof.Machine.execProofWriteDone s
  | .proofReadbackDone ok => Sys2Proof.Machine.execProofReadbackDone ok s
  | .sealN high => Sys2Proof.Machine.execSealN high s
  | .journalWrite => Sys2Proof.Machine.execJournalWrite s
  | .snapshotCopy => Sys2Proof.Machine.execSnapshotCopy s
  | .ledgerRecordWrite => Sys2Proof.Machine.execLedgerRecordWrite s
  | .completionWrite => Sys2Proof.Machine.execCompletionWrite s
  | .interruptModerationTimeout r => Sys2Proof.Machine.execInterruptModerationTimeout r s
  | .calWindowEnd point => Sys2Proof.Machine.execCalWindowEnd point s
  | .fcvCalDone temp factors bad => Sys2Proof.Machine.execFcvCalDone temp factors bad s
  | .sequenceRun q => Sys2Proof.Machine.execSequenceRun q s
  | .sequenceRunEnd convs => Sys2Proof.Machine.execSequenceRunEnd convs s
  | .carrierDetection energy noise => Sys2Proof.Machine.execCarrierDetection s energy noise
  | .scheduledReceive => Sys2Proof.Machine.execScheduledReceive s
  | .receptionRelease => Sys2Proof.Machine.execReceptionRelease s
  | .transmissionReceived r => Sys2Proof.Machine.execTransmissionReceived r s
  | .beacon r => Sys2Proof.Machine.execBeacon r s
  | .sack r => Sys2Proof.Machine.execSack r s
  | .sounding r m => Sys2Proof.Machine.execSounding r m s
  | .toneMapReport r => Sys2Proof.Machine.execToneMapReport r s
  | .associationRequest r => Sys2Proof.Machine.execAssociationRequest r s
  | .associationResponse r => Sys2Proof.Machine.execAssociationResponse r s
  | .routeSetFrame r => Sys2Proof.Machine.execRouteSetFrame r s
  | .macFrameComplete => Sys2Proof.Machine.execMacFrameComplete s
  | .plcRxRecordWrite => Sys2Proof.Machine.execPlcRxRecordWrite s
  | .beaconPeriodStart => Sys2Proof.Machine.execBeaconPeriodStart s
  | .transmissionStart backoff => Sys2Proof.Machine.execTransmissionStart backoff s
  | .transmissionEnd clipped limitUs => Sys2Proof.Machine.execTransmissionEnd clipped limitUs s
  | .sackTransmit => Sys2Proof.Machine.execSackTransmit s
  | .backoffExpiry => Sys2Proof.Machine.execBackoffExpiry s
  | .sackTimeout => Sys2Proof.Machine.execSackTimeout s
  | .beaconMissed => Sys2Proof.Machine.execBeaconMissed s
  | .nodeLost nodeid => Sys2Proof.Machine.execNodeLost nodeid s
  | .negotiationStepTimeout index => Sys2Proof.Machine.execNegotiationStepTimeout index s
  | .refreshInterval index => Sys2Proof.Machine.execRefreshInterval index s
  | .lineDriverOvertemp => Sys2Proof.Machine.execLineDriverOvertemp s
  | .lineDriverCooled => Sys2Proof.Machine.execLineDriverCooled s
  | .directoryWriteback => Sys2Proof.Machine.execDirectoryWriteback s
  | .directoryLookupMiss served key => Sys2Proof.Machine.execDirectoryLookupMiss served key s
  | .powerFail src => Sys2Proof.Machine.execPowerFail src s
  | .emergencyProofComplete => Sys2Proof.Machine.execEmergencyProofComplete s
  | .powerFailRecovery => Sys2Proof.Machine.execPowerFailRecovery s
  | .supplyMonitorCrossing m beyond => Sys2Proof.Machine.execSupplyMonitorCrossing m beyond s
  | .overvoltageRepeat m => Sys2Proof.Machine.execOvervoltageRepeat m s
  | .vbkupLow below => Sys2Proof.Machine.execVbkupLow below s
  | .powerOn => Sys2Proof.Machine.execPowerOn s
  | .vddcVddaReset => Sys2Proof.Machine.execVddcVddaReset s
  | .resetN => Sys2Proof.Machine.execResetN s
  | .backupDomainReset firstPower => Sys2Proof.Machine.execBackupDomainReset firstPower s
  | .trstN => Sys2Proof.Machine.execTrstN s
  | .pePerstN cause => Sys2Proof.Machine.execPePerstN cause s
  | .busMasterEnable => Sys2Proof.Machine.execBusMasterEnable s
  | .resetRelease mstr autostart => Sys2Proof.Machine.execResetRelease mstr autostart s
  | .hfrefSourceSelected edges => Sys2Proof.Machine.execHfrefSourceSelected edges s
  | .hfrefGood => Sys2Proof.Machine.execHfrefGood s
  | .hfrefRetry => Sys2Proof.Machine.execHfrefRetry s
  | .pllLock => Sys2Proof.Machine.execPllLock s
  | .memoryInitialised => Sys2Proof.Machine.execMemoryInitialised s
  | .startupDiagnostics failed => Sys2Proof.Machine.execStartupDiagnostics failed s
  | .restore => Sys2Proof.Machine.execRestore s
  | .autostartImageRead => Sys2Proof.Machine.execAutostartImageRead s
  | .internalSync => Sys2Proof.Machine.execInternalSync s
  | .lfclkCheck ok => Sys2Proof.Machine.execLfclkCheck ok s
  | .oscillatorStop => Sys2Proof.Machine.execOscillatorStop s
  | .pwronLow => Sys2Proof.Machine.execPwronLow s
  | .offend => Sys2Proof.Machine.execOffend s
  | .void => Sys2Proof.Machine.execVoid s
  | .portTrained port => Sys2Proof.Machine.execPortTrained port s
  | .portLoss port cause => Sys2Proof.Machine.execPortLoss port cause s
  | .enumerationFrame pos ndev bad => Sys2Proof.Machine.execEnumerationFrame pos ndev s bad
  | .cascadeStart first => Sys2Proof.Machine.execCascadeStart first s
  | .echoFrame delay bad => Sys2Proof.Machine.execEchoFrame delay s bad
  | .boundaryMarker b expno ts sync snaps => Sys2Proof.Machine.execBoundaryMarker b expno ts s sync snaps
  | .resolutionFrame f => Sys2Proof.Machine.execResolutionFrame f s
  | .cascadeRecordMissing pos => Sys2Proof.Machine.execCascadeRecordMissing pos s
  | .mirrorFrame f => Sys2Proof.Machine.execMirrorFrame f s
  | .mirrorFrameDeadline => Sys2Proof.Machine.execMirrorFrameDeadline s
  | .takeover b => Sys2Proof.Machine.execTakeover s b
  | .k283 => Sys2Proof.Machine.execK283 s
  | .kavVector ok => Sys2Proof.Machine.execKavVector ok s
  | .clockCheck fclkOk filtOk hfOk => Sys2Proof.Machine.execClockCheck fclkOk filtOk hfOk s
  | .scanPassDone entry upset stable ecc => Sys2Proof.Machine.execScanPassDone entry upset stable ecc s
  | .watchdogExpiry => Sys2Proof.Machine.execWatchdogExpiry s
  | .cvuFirstPassDone u => Sys2Proof.Machine.execCvuFirstPassDone u s
  | .cvuRescanDone u => Sys2Proof.Machine.execCvuRescanDone u s
  | .associationResponseTimeout => Sys2Proof.Machine.execAssociationResponseTimeout s
  | .plcTxDeadlineExpiry idx => Sys2Proof.Machine.execPlcTxDeadlineExpiry idx s
  | .mirrorSideTimeout => Sys2Proof.Machine.execMirrorSideTimeout s
  | .fnReinitTzlTimeout lowest => Sys2Proof.Machine.execFnReinitTzlTimeout lowest s
  | .directoryInitDone => Sys2Proof.Machine.execDirectoryInitDone s
  | .identityWriteDone => Sys2Proof.Machine.execIdentityWriteDone s
  | .cfPulseEdge n => Sys2Proof.Machine.execCfPulseEdge n s
  | .pcieLinkUp speed width => Sys2Proof.Machine.execPcieLinkUp speed width s
  | .busMasterDisable d3hot bme => Sys2Proof.Machine.execBusMasterDisable d3hot bme s
  | .domainSwitchComplete => Sys2Proof.Machine.execDomainSwitchComplete s
  | .dmaReadDone id data => Sys2Proof.Machine.execDmaReadDone id data s

end Sys2Proof.Machine
end

