-- ==== Sys2Proof/Machine/Step.lean ====
section
/-!
DEFINITION. One step of the block: the command at the front of the queue is executed with the queue's rest; on an empty
queue one HFREF cycle passes.
-/

namespace Sys2Proof.Machine

/-- A state with a command that a word spells put at the front of its queue.  No row of the table has bits, so no word
spells a command and the state is unchanged. -/
def State.withFetchWord (s : State) (nbits w : Nat) : State :=
  match Sys2Proof.decodeTableWord nbits w with
  | some i => { s with pending := i :: s.pending }
  | none => s

/-- One step: take the front command; on an empty queue time advances by one HFREF cycle (DESIGN CHOICE, log 3). -/
def step (s : State) : Host.Outcome State Fault Refusal :=
  match s.pending with
  | [] => .next { s with exp := { s.exp with now := s.exp.now + 1 } }
  | i :: rest => exec i { s with pending := rest }

end Sys2Proof.Machine
end

