-- ==== Sys2Proof/Safety.lean ====
section
/-!
DEFINITION. The terms statements use: the canonical form of memory and the invariant of the machine, what the end of every command
may change, the parts of the state a command leaves unchanged, how a host command is taken and answered, and the commands that
may reach the FRAM or the ledger.
-/

namespace Sys2Proof.Machine

/-! Memory and the invariant -/

/-- The canonical form of the FRAM: addresses strictly rising, no entry 0, which is what an unlisted byte reads as (log 11). -/
def Memory.wf (m : List Host.Cell) : Bool := storeWf (fun _ => 0) m

/-- What holds between commands: the stores are in canonical form, at most 256 events wait on chip (R219), and no event decided
waits to be numbered. -/
def State.Inv (s : State) : Prop :=
  storeWf regReset s.regs = true ∧ Memory.wf s.prf.fram = true ∧ s.evt.queue.length ≤ 256 ∧ s.evt.now = []

/-- The arrays of the state have the lengths the spec gives them: 96 channels, 48 brackets, 8 voltage groups, 16 CF and 8 TRIP outputs,
16 pulse inputs, 4 check-value units with 64 references, 4 sequences, 16 rings and 256 neighbour contexts; the journal's place is in
its ring of 128 (R260), and TICK is below 32,768 (R336). -/
def State.Sizes (s : State) : Prop :=
  s.exp.chans.length = 96 ∧ s.exp.brk.length = 48 ∧ s.evt.groups.length = 8 ∧ s.pio.cf.length = 16 ∧ s.pio.trip.length = 8 ∧
    s.pio.pin.length = 16 ∧ s.pio.pinq.length = 16 ∧ s.cvu.scans.length = 4 ∧ s.cvu.refs.length = 64 ∧
    s.fcv.runSeq.length = 4 ∧ s.hif.rings.length = 16 ∧ s.plc.ctxs.length = 256 ∧ s.prf.jpos < 128 ∧
    s.rtc.tick < 32768

/-! What a command leaves unchanged -/

/-- Registers that the end of every command may change beside the command's own: the count of dropped events (R219), pending
vectors (R390), status and count of the trip outputs (R229), and the status of the fast converter and the count of missed
triggers, which a decided event changes (R280, R281). -/
def endReg (off : Nat) : Bool :=
  off == EVT_DROPCNT || off == MBX_IRQPEND || off == MSIX_PBA || off == FCV_STAT || off == FCV_CSMISS ||
    (List.range 8).any (fun n => off == PIO_TRSTAT n || off == PIO_TRCNT n)

/-- A part of the state beside the registers. -/
inductive Part where
  /-- Time bases, exposures, front end and filters. -/
  | exposure
  /-- Ledger registers, running points, snapshots, windows, pairing. -/
  | ledger
  /-- The backup domain. -/
  | clock
  /-- Powerline modem and network. -/
  | powerline
  /-- Check-value units and their references. -/
  | checks
  /-- Strikes and diagnostics of the safety monitor. -/
  | safety
  /-- Power and start-up. -/
  | power
  /-- Commands taken and not completed. -/
  | taken
  /-- Calibration pulses. -/
  | pulses
  /-- Pulse inputs and their quantity registers. -/
  | inputs
  /-- Window engine and event sources. -/
  | windows
  /-- The FRAM, byte by byte. -/
  | fram
  /-- Ledger writer: proofs, journal, identity, ports. -/
  | writer
  /-- Fast converter, but for what a decided event that triggers a contact sheet sets (R280). -/
  | converter
  /-- Tozar Link, but for events a slave has not forwarded. -/
  | link
  /-- Host interface, but for the record of writes and messages issued. -/
  | host
  deriving DecidableEq, Repr

/-- The fast converter without what a triggering event sets (R280). -/
def FcvState.apart (f : FcvState) : FcvState :=
  { f with trigQ := [], trig := none, cs := .off, csSeq := 0, post := [], muxLeft := 0, ovrLeft := 0 }

/-- A part is the same in two states. -/
def Part.Same (s t : State) : Part → Prop
  | .exposure => t.exp = s.exp
  | .ledger => t.ldg = s.ldg
  | .clock => t.rtc = s.rtc
  | .powerline => t.plc = s.plc
  | .checks => t.cvu = s.cvu
  | .safety => t.saf = s.saf
  | .power => t.pwr = s.pwr
  | .taken => t.taken = s.taken
  | .pulses => t.pio.cf = s.pio.cf
  | .inputs => t.pio.pin = s.pio.pin ∧ t.pio.pinq = s.pio.pinq
  | .windows =>
    t.evt.groups = s.evt.groups ∧ t.evt.samples = s.evt.samples ∧ t.evt.unconf = s.evt.unconf ∧ t.evt.rp = s.evt.rp ∧
      t.evt.oc = s.evt.oc ∧ t.evt.lossWait = s.evt.lossWait ∧ t.evt.macFree = s.evt.macFree ∧ t.evt.mainsNs = s.evt.mainsNs ∧
      t.evt.newest = s.evt.newest
  | .fram => ∀ a, t.framByte a = s.framByte a
  | .writer => ({ t.prf with fram := [] } : PrfState) = { s.prf with fram := [] }
  | .converter => t.fcv.apart = s.fcv.apart
  | .link => ({ t.tzl with fwd := [] } : TzlState) = { s.tzl with fwd := [] }
  | .host => ({ t.hif with out := [] } : HifState) = { s.hif with out := [] }

/-- The frame of a command: every part but the named ones, every register but the named ones and those of `endReg`, and the
queue of waiting commands are the same. -/
def State.Frame (s t : State) (parts : List Part) (offs : List Nat) : Prop :=
  (∀ p, p ∉ parts → Part.Same s t p) ∧ (∀ off, off ∉ offs → endReg off = false → t.rd off = s.rd off) ∧
    t.pending = s.pending

/-! Commands by what they may reach -/

/-- Commands that may write the FRAM (R242 to R263): the ledger writer's, the ports', and those that take another command, enter a
register write, or reset the domain while a write is in progress. -/
def mayWriteFram : Instr → Bool
  | .seal .. | .unseal .. | .doorbellReadDone .. | .mbxGo .. | .softrst .. | .lowestWordWrite .. | .registerWrite .. |
    .framPortAccessDone .. | .hspiWriteFrame .. | .exposureBoundary .. | .syncEdge .. | .proofWriteStart .. |
    .proofWriteDone .. | .sealN .. | .journalWrite .. | .completionWrite .. | .powerFail .. |
    .emergencyProofComplete .. | .powerFailRecovery .. | .supplyMonitorCrossing .. | .powerOn .. | .vddcVddaReset .. |
    .resetN .. | .backupDomainReset .. | .restore .. | .autostartImageRead .. | .internalSync .. | .boundaryMarker .. |
    .takeover .. | .watchdogExpiry .. | .identityWriteDone .. | .domainSwitchComplete .. => true
  | _ => false

/-- Commands that may change a ledger register (R190 to R193): those that fix, discard or release, restore or reset, and those that
take another command or enter a register write. -/
def mayChangeLedger : Instr → Bool
  | .withheldRelease .. | .fnReinit .. | .doorbellReadDone .. | .mbxGo .. | .softrst .. | .lowestWordWrite .. |
    .registerWrite .. | .hspiWriteFrame .. | .exposureBoundary .. | .developmentDone .. | .fixerComparison .. |
    .replayDone .. | .latentDeadline .. | .syncEdge .. | .completionWrite .. | .emergencyProofComplete .. |
    .powerFailRecovery .. | .powerOn .. | .vddcVddaReset .. | .resetN .. | .backupDomainReset .. | .restore .. |
    .autostartImageRead .. | .internalSync .. | .boundaryMarker .. | .resolutionFrame .. | .mirrorFrame .. |
    .takeover .. | .scanPassDone .. | .watchdogExpiry .. | .domainSwitchComplete .. => true
  | _ => false

/-! Host commands (R391 to R396, R408) -/

/-- Offsets of the mailbox's completion registers. -/
def mbxCplRegs : List Nat := (List.range 16).map (fun i => MBX_CPL i)

/-- Offsets of the mailbox's data window. -/
def mbxDataRegs : List Nat := (List.range 512).map (fun i => MBX_DATA i)

/-- Registers that answering a host command may change. -/
def cplRegs : List Nat := MBX_STAT :: mbxCplRegs

/-- Registers that taking and answering a host command may change. -/
def hostRegs : List Nat := [HIF_RCIDX 0, MBX_STAT] ++ mbxCplRegs

/-- A command is taken and finds the blocks it acts on: its source has it next (R392, R408), its deadline has not passed (R395),
and start-up has passed RESTORE (log 32). -/
def State.Accepts (s : State) (h : CmdHdr) : Prop :=
  s.canTake h = true ∧ (h.dlv = true → s.passed h.deadline = false) ∧ s.serving = true

/-- The completion a command of the ring gives at once (R393). -/
def State.completion (s : State) (idx : BitVec 32) (op : BitVec 8) (h : CmdHdr) (status p0 p1 p2 : Nat) : Completion :=
  { op := op, status := BitVec.ofNat 8 status, mailbox := false, tag := h.tag, cmdIdx := idx, ts := s.ts,
    p0 := BitVec.ofNat 64 p0, p1 := BitVec.ofNat 64 p1, p2 := BitVec.ofNat 64 p2, expno := s.evt.newest }

/-- A command is answered in one step from `s` to `t` (R392 to R394, R408): from the ring, C advances and the completion joins the
queue; from the mailbox, DONE is set, BUSY is clear and MBX_CPL0 and MBX_CPL1 hold OPCODE, STATUS and TAG; a record of an image
leaves only its status. -/
def State.Answered (s t : State) (op : BitVec 8) (h : CmdHdr) (status p0 p1 p2 : Nat) : Prop :=
  t.taken = s.taken ∧
  match h.src with
  | .ring idx =>
    t.hif.cplQ = s.hif.cplQ ++ [s.completion idx op h status p0 p1 p2] ∧ t.rd (HIF_RCIDX 0) = s.rd (HIF_RCIDX 0) + 1
  | .mailbox _ =>
    t.flag MBX_STAT_BUSY = false ∧ t.flag MBX_STAT_DONE = true ∧
      t.rd (MBX_CPL 0) = BitVec.ofNat 32 (op.toNat + status * 2 ^ 8 + 2 ^ 16) ∧ t.rd (MBX_CPL 1) = h.tag
  | .image => t.prf.imageStatus = status

/-- A command is taken in one step from `s` to `t` and waits (R392, R408): C has advanced, or the mailbox is busy. -/
def State.Waits (s t : State) (op : BitVec 8) (h : CmdHdr) (w : Wait) : Prop :=
  t.taken = s.taken ++ [{ op := op, hdr := h, wait := w, muted := false }] ∧
  match h.src with
  | .ring _ => t.hif.cplQ = s.hif.cplQ ∧ t.rd (HIF_RCIDX 0) = s.rd (HIF_RCIDX 0) + 1
  | .mailbox _ => t.flag MBX_STAT_BUSY = true ∧ t.flag MBX_STAT_DONE = false
  | .image => True

/-- A taken command can be answered: it is not muted (R405), and its deadline, if it has one that is still judged, has not passed
(R38). -/
def State.InTime (s : State) (x : Taken) : Prop :=
  x.muted = false ∧ (x.hdr.dlv = true → s.lateFor x.hdr.deadline = false)

/-- A taken command returns its completion in one step from `s` to `t` (R393, R394, R408). -/
def State.Returns (s t : State) (x : Taken) (status p0 p1 p2 : Nat) : Prop :=
  t.taken = s.taken.erase x ∧
  match x.hdr.src with
  | .ring idx => t.hif.cplQ = s.hif.cplQ ++ [s.completion idx x.op x.hdr status p0 p1 p2]
  | .mailbox _ =>
    t.flag MBX_STAT_BUSY = false ∧ t.flag MBX_STAT_DONE = true ∧
      t.rd (MBX_CPL 0) = BitVec.ofNat 32 (x.op.toNat + status * 2 ^ 8 + 2 ^ 16) ∧ t.rd (MBX_CPL 1) = x.hdr.tag
  | .image => t.prf.imageStatus = status

/-- OPCODE and header of a row that is a host command, where its arguments select that row (R391, R396). -/
def commandOf : Instr → Option (BitVec 8 × CmdHdr)
  | .nop h => some (0x00, h)
  | .mpStart h _ => some (0x01, h)
  | .mpStop h _ => some (0x02, h)
  | .coefLoad h a0 _ => if a0.toNat / 2 ^ 8 % 4 = 2 then none else some (0x10, h)
  | .coefLoadCorr h a0 _ => if a0.toNat / 2 ^ 8 % 4 = 2 then some (0x10, h) else none
  | .coefSwap h _ => some (0x11, h)
  | .filtStop h _ => some (0x12, h)
  | .filtStart h _ => some (0x13, h)
  | .sync h => some (0x20, h)
  | .snapshot h _ a1 _ => if bitAt a1.toNat 1 then none else some (0x21, h)
  | .snapshotAuto h _ a1 _ => if bitAt a1.toNat 1 then some (0x21, h) else none
  | .calWindow h _ _ _ _ => some (0x22, h)
  | .withheldRelease h _ _ _ => some (0x23, h)
  | .rtcCapture h => some (0x30, h)
  | .rtcSet h _ _ _ => some (0x31, h)
  | .rtcAdjustStep h a0 _ _ => if bitAt a0.toNat 0 then none else some (0x32, h)
  | .rtcAdjustSlew h a0 _ _ => if bitAt a0.toNat 0 then some (0x32, h) else none
  | .fcvCal h => some (0x40, h)
  | .fcvSeq h _ _ => some (0x41, h)
  | .cvuScan h _ _ _ => some (0x50, h)
  | .fnReinit h _ => some (0x60, h)
  | .fnReinitSafety h => some (0x60, h)
  | .fnReinitTzl h => some (0x60, h)
  | .pwrCycle h _ => some (0x61, h)
  | .proofNow h => some (0x70, h)
  | .seal h => some (0x71, h)
  | .unseal h => some (0x72, h)
  | _ => none

/-- Registers a strike may change (R421 to R424), the answer of an FN_REINIT SAFETY it ends among them. -/
def strikeRegs : List Nat :=
  (List.range 14).map (fun d => SAF_STRK d) ++ [SAF_LASTING, SAF_STAT, SAF_SSEXP, SAF_REINIT] ++
    (List.range 16).map (fun n => PIO_CFSTAT n) ++ cplRegs

/-- An event can be decided and queued: PD5 is on and an on-chip place is free (R219), and the trigger slots select events that may
trigger (R280). -/
def State.CanLog (s : State) : Prop :=
  s.pdOn 5 = true ∧ s.evt.now = [] ∧ s.evt.queue.length < 256 ∧ s.evt.last.Nodup ∧
    ∀ k, k < 4 → s.flag (FCV_CSTRG_SEN k) = true → sheetCodes.contains (s.get (FCV_CSTRG_CODE k)) = true

/-- An event is the newest one queued (R219, R220): it took the next sequence number and waits on chip. -/
def State.Logs (s t : State) (code index : Nat) (edge : EvEdge) (p0 p1 p2 : Nat) : Prop :=
  t.evt.seq = s.evt.seq + 1 ∧
    ∃ e ∈ t.evt.queue, e.code = BitVec.ofNat 16 code ∧ e.index = BitVec.ofNat 8 index ∧ e.edge = edge ∧
      e.p0 = BitVec.ofNat 64 p0 ∧ e.p1 = BitVec.ofNat 64 p1 ∧ e.p2 = BitVec.ofNat 64 p2

/-! Tick edges (R337) -/

/-- Parts of the state that a tick edge may change while the device is not in STANDBY, with all that falls due at it: a step of the time
moves deadlines and strikes (R40, R421), and host commands are answered. -/
def tickParts : List Part := [.exposure, .clock, .powerline, .link, .safety, .taken, .host, .writer]

/-- Registers that a tick edge may change while the device is not in STANDBY (R77, R336 to R346, R352 to R358). -/
def tickRegs : List Nat :=
  [RTC_STAT, RTC_SLEW, RTC_ALMCTL, RTC_PERSTAT, RTC_PWRCTL, RTC_RAM 16, RTC_RAM 17, RTC_RAM 18, RTC_CAPSEC_LO, RTC_CAPSEC_HI,
    RTC_CAPFRAC, PWR_STAT] ++ cplRegs

/-- The exposure state without the instants that an LFCLK edge notes and the deadlines that a step moves (R40). -/
def ExpState.still (x : ExpState) : ExpState := { x with now := 0, edgeAt := 0, lfAt := 0, pipe := [] }

/-! Powerline reception (R289, R291, R310) -/

/-- A transmission in reception is accepted (R285, R291): this device does not transmit, the frame control is `f`, it is addressed to this
device or to all, and its sender has neighbour context i. -/
def State.Hears (s : State) (r : RxIn) (f : Fc) (i : Nat) : Prop :=
  s.flag PLC_STAT_RXBUSY = true ∧ s.flag PLC_STAT_TXBUSY = false ∧ fcOk r.fc = true ∧ f = fcRead r.fc ∧ f.netId = s.get PLC_CTL_NETID ∧
    s.flag NET_CTL_EN = true ∧ (f.daddr = 0xFFFFFF ∨ (s.onNet = true ∧ f.daddr = s.ownLaddr.toNat)) ∧
    s.ctxOf (BitVec.ofNat 24 f.saddr) = some i

/-- A safelight transmission brings one whole unprotected MAC frame, in one segment of MAC sequence `seq`, from a neighbour without a
key (R293, R310), with no impulse to erase (R299) and at an SNR that decodes (R301), and no other frame is being put together. -/
def State.HearsFrame (s : State) (r : RxIn) (i seq : Nat) (frame : List (BitVec 8)) : Prop :=
  ∃ f x, s.Hears r f i ∧ f.ftype = 1 ∧ f.mode ≠ 0 ∧ f.nseg = 1 ∧ r.segs = [some x] ∧ r.snrMet = true ∧
    s.flag PLC_RXCFG_IMPEN = false ∧ segRead x = (seq, 0, 1, frame) ∧
    16 ≤ frame.length ∧ bitAt (natLE (frame.take 16)) 8 = false ∧ (s.ctx i).keyIdx.toNat = noKey ∧ s.plc.asm = [] ∧
    s.plc.ready = []

/-- Registers that accepting a transmission may change. -/
def rxRegs : List Nat := [PLC_RXCNT, PLC_ERASYM, PLC_SEGERR]

/-- Registers that completing a PLC_TX or NET descriptor may change (R401). -/
def descRegs : List Nat := [HIF_RCIDX 9, HIF_RCIDX 12]

/-! Register writes (R9) -/

/-- What a write through a port leaves in a register, field by field (R9, R150, R261). -/
def State.stored (s : State) (off : Nat) (v : BitVec 32) : BitVec 32 :=
  match regRow off with
  | some r => BitVec.ofNat 32 (r.fields.foldl (writeField false s.sealed (s.lockMask off) v) (s.rd off).toNat)
  | none => s.rd off

/-- Some registers whose write does no more than store their fields: of MFE, MET, HIF and SAF. -/
def plainRegs : List Nat :=
  (List.range 96).map (fun n => MFE_CH n) ++ (List.range 32).map (fun p => MET_CFG p) ++
    (List.range 16).map (fun r => HIF_RMOD r) ++ (List.range 14).map (fun d => SAF_DIAGCFG d)

/-- A register whose read does no more than return its value and clear its RC fields. -/
def plainRead (off : Nat) : Prop :=
  off % 4 = 0 ∧ msixOff off = false ∧ off ≠ LDG_FDATA ∧ ¬ (RTC_RAM 0 ≤ off ∧ off ≤ RTC_RAM 23) ∧ lowestOf off = none ∧
    upperWords off = [] ∧ endReg off = false

end Sys2Proof.Machine
end

