-- ==== Sys2Proof/Certificates/Slice0/Obligations.lean ====
section
/-!
DEFINITION. The statements for the provers: one definition per statement, grouped by the part of the spec it is about.
-/

open Sys2Proof Sys2Proof.Machine

/-! ## The machine as a whole -/

/-- A step takes the command at the front of the queue and executes it with the queue's rest. On an empty queue one HFREF cycle
passes and nothing else changes: the model's choice (log 3). -/
def Obligations.StepRunsFrontCommand : Prop :=
  (∀ (c : Instr) (rest : List Instr) (s : State), s.pending = c :: rest → step s = exec c { s with pending := rest }) ∧
  (∀ s : State, s.pending = [] → step s = .next { s with exp := { s.exp with now := s.exp.now + 1 } })

/-- Every command completes in every state: none faults and none is refused. No command changes the queue of waiting commands: a
step leaves exactly its rest. -/
def Obligations.EveryCommandCompletes : Prop :=
  (∀ (c : Instr) (s : State), ∃ t, exec c s = .next t) ∧
  (∀ (c : Instr) (s t : State), exec c s = .next t → t.pending = s.pending)

/-- The invariant holds after reset, and so do the sizes. -/
def Obligations.ResetMeetsInvariant : Prop := State.reset.Inv ∧ State.reset.Sizes

/-- Every step keeps the invariant: the register store and the FRAM stay canonical, at most 256 events wait on chip, and every
decided event has been queued. -/
def Obligations.StepKeepsInvariant : Prop := ∀ s t : State, s.Inv → step s = .next t → t.Inv

/-- Every step keeps the lengths of the state's arrays and the ranges of its counters. -/
def Obligations.StepKeepsSizes : Prop := ∀ s t : State, s.Sizes → step s = .next t → t.Sizes

/-- After reset every register reads its reset value, every byte of the FRAM 0 (log 11), every ledger register 0; no exposure, no
command and no event waits, and the first exposure will be numbered 0. -/
def Obligations.ResetStateIsAsStated : Prop :=
  (∀ off, State.reset.rd off = regReset off) ∧ (∀ a, State.reset.framByte a = 0) ∧
    (∀ p i, State.reset.ledgerReg p i = 0) ∧ State.reset.exp.running = false ∧ State.reset.exp.next = 0 ∧
    State.reset.exp.pipe = [] ∧ State.reset.taken = [] ∧ State.reset.pending = [] ∧ State.reset.evt.queue = [] ∧
    State.reset.pwr.phase = .inReset

/-- A command that is not one of `mayWriteFram` leaves every byte of the FRAM as it reads. -/
def Obligations.FramChangesOnlyByItsWriters : Prop :=
  ∀ (c : Instr) (s t : State), mayWriteFram c = false → exec c s = .next t → ∀ a, t.framByte a = s.framByte a

/-- A command that is not one of `mayChangeLedger` leaves every ledger and withheld register. -/
def Obligations.LedgerChangesOnlyByItsCommands : Prop :=
  ∀ (c : Instr) (s t : State), mayChangeLedger c = false → exec c s = .next t → ∀ p i, t.ledgerReg p i = s.ledgerReg p i

/-! ## Host commands of the metering path (R137, R145 to R149, R159, R162, R176, R193, R196) -/

/-- R176, R396: NOP completes DONE at taking; MP_START of points whose definitions hold and MP_STOP wait for the next boundary.
R176: MP_START of a point whose definition is not valid starts none, sets DEFERR of that point and completes BADARG. R83, R150,
R176: while the device is sealed or autostart runs, metering-point and filter commands are REFUSED without effect. -/
def Obligations.PointCommandsWaitForBoundary : Prop :=
  (∀ (s : State) (h : CmdHdr) (a0 : BitVec 64),
     (s.canTake h = true → (h.dlv = true → s.passed h.deadline = false) → ∃ t, exec (.nop h) s = .next t ∧
       s.Answered t 0x00 h stDone 0 0 0 ∧ s.Frame t [.host, .writer] hostRegs) ∧
     (s.Accepts h → s.locked h = false → (∀ p, p < 32 → bitAt a0.toNat p = true → s.pointOk p = true) →
       ∃ t, exec (.mpStart h a0) s = .next t ∧ s.Waits t 0x01 h (.mpStart (a0.truncate 32)) ∧
         s.Frame t [.taken, .host] hostRegs) ∧
     (s.Accepts h → s.locked h = false → ∃ t, exec (.mpStop h a0) s = .next t ∧
       s.Waits t 0x02 h (.mpStop (a0.truncate 32)) ∧ s.Frame t [.taken, .host] hostRegs)) ∧
  (∀ (s : State) (h : CmdHdr) (a0 : BitVec 64), s.Accepts h → s.locked h = false →
     (∃ p, p < 32 ∧ bitAt a0.toNat p = true ∧ s.pointOk p = false) → ∃ t, exec (.mpStart h a0) s = .next t ∧
       s.Answered t 0x01 h stBadarg 0 0 0 ∧
       (∀ p, p < 32 → bitAt a0.toNat p = true → s.pointOk p = false → t.flag (MET_STAT_DEFERR p) = true) ∧
       s.Frame t [.host, .writer] ((List.range 32).map (fun p => MET_STAT p) ++ hostRegs)) ∧
  (∀ (s : State) (h : CmdHdr) (a0 : BitVec 64), s.Accepts h → s.locked h = true →
     (∃ t, exec (.mpStart h a0) s = .next t ∧ s.Answered t 0x01 h stRefused 0 0 0 ∧ s.Frame t [.host, .writer] hostRegs) ∧
     (∃ t, exec (.mpStop h a0) s = .next t ∧ s.Answered t 0x02 h stRefused 0 0 0 ∧ s.Frame t [.host, .writer] hostRegs) ∧
     (s.filterChan (a0.toNat % 2 ^ 7) = true →
       (∃ t, exec (.coefSwap h a0) s = .next t ∧ s.Answered t 0x11 h stRefused 0 0 0 ∧ s.Frame t [.host, .writer] hostRegs) ∧
       (∃ t, exec (.filtStop h a0) s = .next t ∧ s.Answered t 0x12 h stRefused 0 0 0 ∧ s.Frame t [.host, .writer] hostRegs) ∧
       (s.taps (a0.toNat % 2 ^ 7) (s.actBank (a0.toNat % 2 ^ 7)) ≠ 0 → ∃ t, exec (.filtStart h a0) s = .next t ∧
         s.Answered t 0x13 h stRefused 0 0 0 ∧ s.Frame t [.host, .writer] hostRegs)))

/-- R145, R146, R149, R159, R409: COEF_LOAD of an idle bank waits for its data, which the mailbox's window holds already; COEF_SWAP
exchanges the banks at once while the filter is stopped and waits for the boundary while it runs; FILT_START and FILT_STOP act at
once while no exposure runs and wait for the boundary otherwise. R148: COEF_SWAP during a fade or while another is pending, and
COEF_LOAD to the fading-out bank, are REFUSED and counted in FLT_SWREF of the channel; the fade or the pending swap goes on; other
refusals of COEF_LOAD, and COEF_SWAP while sealed, are not counted. -/
def Obligations.FilterCommandsActOrWait : Prop :=
  (∀ (s : State) (h : CmdHdr) (a0 a1 : BitVec 64) (n : Nat), s.Accepts h → s.locked h = false → n = a0.toNat % 2 ^ 7 →
     s.filterChan n = true → s.Sizes →
     (∀ bank len, bank = a0.toNat / 2 ^ 8 % 4 → bank ≤ 1 → len = a0.toNat / 2 ^ 16 % 2 ^ 7 → 1 ≤ len → len ≤ 64 →
       a1.toNat % 8 = 0 → s.loadJudge n bank = none →
       (windowOffset h a1.toNat = none → s.dmaOn = true → ∃ t, exec (.coefLoad h a0 a1) s = .next t ∧
         s.Waits t 0x10 h (.coefDma n bank len) ∧ t.hif.dmaReads = s.hif.dmaReads ++ [(s.hif.dmaNext, .coef h.src)] ∧
         s.Frame t [.taken, .host] hostRegs) ∧
       (∀ o, windowOffset h a1.toNat = some o → o + 8 * len ≤ 2048 → (h.dlv = true → s.lateFor h.deadline = false) →
         (∀ x ∈ s.taken, x.hdr ≠ h) → ∃ t, exec (.coefLoad h a0 a1) s = .next t ∧ s.Answered t 0x10 h stDone 0 0 0 ∧
           t.taps n bank = len ∧
           (if bank = 0 then (t.chan n).bankA else (t.chan n).bankB) = coefSlots (bytesToSlots len (s.windowBytes o (8 * len))) ∧
           s.Frame t [.exposure, .checks] (FLT_CH n :: hostRegs))) ∧
     (a0.toNat / 2 ^ 8 % 4 = 2 → a1.toNat % 8 = 0 → windowOffset h a1.toNat = none → s.dmaOn = true →
       ∃ t, exec (.coefLoadCorr h a0 a1) s = .next t ∧ s.Waits t 0x10 h (.corrDma n) ∧
         t.hif.dmaReads = s.hif.dmaReads ++ [(s.hif.dmaNext, .corr h.src)] ∧ s.Frame t [.taken, .host] hostRegs) ∧
     (s.flag (FLT_CH_FADING n) = false → s.swapPending n = false → s.taps n (1 - s.actBank n) ≠ 0 →
       (s.flag (FLT_CH_FRUN n) = true → ∃ t, exec (.coefSwap h a0) s = .next t ∧ s.Waits t 0x11 h (.swap n) ∧
         s.Frame t [.taken, .host] hostRegs) ∧
       (s.flag (FLT_CH_FRUN n) = false → ∃ t, exec (.coefSwap h a0) s = .next t ∧ s.Answered t 0x11 h stDone 0 0 0 ∧
         t.actBank n = 1 - s.actBank n ∧ s.Frame t [.host, .writer] (FLT_CH n :: hostRegs))) ∧
     (s.taps n (s.actBank n) ≠ 0 →
       (s.exp.running = true → ∃ t, exec (.filtStart h a0) s = .next t ∧ s.Waits t 0x13 h (.filtStart n) ∧
         s.Frame t [.taken, .host] hostRegs) ∧
       (s.exp.running = false → s.flag (FLT_CH_FRUN n) = false → ∃ t, exec (.filtStart h a0) s = .next t ∧
         s.Answered t 0x13 h stDone 0 0 0 ∧ t.flag (FLT_CH_FRUN n) = true ∧ (t.chan n).hist = [] ∧
         (t.chan n).filtSettle = s.taps n (s.actBank n) ∧
         s.Frame t [.exposure, .ledger, .host, .writer] (FLT_CH n :: hostRegs))) ∧
     (s.exp.running = true → ∃ t, exec (.filtStop h a0) s = .next t ∧ s.Waits t 0x12 h (.filtStop n) ∧
       s.Frame t [.taken, .host] hostRegs) ∧
     (s.exp.running = false → s.swapPending n = false → ∃ t, exec (.filtStop h a0) s = .next t ∧
       s.Answered t 0x12 h stDone 0 0 0 ∧ t.flag (FLT_CH_FRUN n) = false ∧
       s.Frame t [.exposure, .host, .writer] (FLT_CH n :: hostRegs))) ∧
  (∀ (s : State) (h : CmdHdr) (a0 a1 : BitVec 64) (n bank : Nat), s.Accepts h → n = a0.toNat % 2 ^ 7 → s.filterChan n = true →
     bank = a0.toNat / 2 ^ 8 % 4 → bank ≤ 1 →
     (s.locked h = false → s.flag (FLT_CH_FADING n) = true ∨ s.swapPending n = true →
       ∃ t, exec (.coefSwap h a0) s = .next t ∧ s.Answered t 0x11 h stRefused 0 0 0 ∧
         t.get (FLT_SWREF_SWREF n) = min (s.get (FLT_SWREF_SWREF n) + 1) (2 ^ (FLT_SWREF_SWREF n).width - 1) ∧
         s.Frame t [.host, .writer] (FLT_SWREF n :: hostRegs)) ∧
     (1 ≤ a0.toNat / 2 ^ 16 % 2 ^ 7 → a0.toNat / 2 ^ 16 % 2 ^ 7 ≤ 64 → a1.toNat % 8 = 0 →
       windowBad h a1.toNat (8 * (a0.toNat / 2 ^ 16 % 2 ^ 7)) = false →
       (s.locked h = false → s.flag (FLT_CH_FRUN n) = true → s.flag (FLT_CH_FADING n) = true → bank ≠ s.actBank n →
         ∃ t, exec (.coefLoad h a0 a1) s = .next t ∧ s.Answered t 0x10 h stRefused 0 0 0 ∧
           t.get (FLT_SWREF_SWREF n) = min (s.get (FLT_SWREF_SWREF n) + 1) (2 ^ (FLT_SWREF_SWREF n).width - 1) ∧
           s.Frame t [.host, .writer] (FLT_SWREF n :: hostRegs)) ∧
       (s.locked h = true ∨ (s.flag (FLT_CH_FRUN n) = true ∧ (bank = s.actBank n ∨
           (s.flag (FLT_CH_FADING n) = false ∧ s.swapPending n = true))) →
         ∃ t, exec (.coefLoad h a0 a1) s = .next t ∧ s.Answered t 0x10 h stRefused 0 0 0 ∧ s.Frame t [.host, .writer] hostRegs)) ∧
     (s.locked h = true → ∃ t, exec (.coefSwap h a0) s = .next t ∧ s.Answered t 0x11 h stRefused 0 0 0 ∧
       s.Frame t [.host, .writer] hostRegs))

/-- R137: a SYNC command and an enabled SYNC ball request a sync edge 128 MCLK periods after recognition, shown by SYNCPEND. -/
def Obligations.SyncRequestsWaitForEdge : Prop :=
  ∀ (s : State) (h : CmdHdr), s.flag PWR_STAT_ASBUSY = false → s.tzSlave = false → s.follows = false → s.pdOn 3 = true →
    s.exp.syncAt = none →
    (s.Accepts h → ∃ t, exec (.sync h) s = .next t ∧ s.Waits t 0x20 h .sync ∧
      t.exp = { s.exp with syncAt := some (s.exp.now + (if s.effGet PWR_CTL_MCLKLP = 1 then 256 else 128)), syncSrc := 2 } ∧
      t.flag FLT_STAT_SYNCPEND = true ∧ s.Frame t [.exposure, .taken, .host] (FLT_STAT :: hostRegs)) ∧
    (s.ready = true → s.flag FLT_CTL_SYNCPIN = true → ∃ t, exec .syncPin s = .next t ∧
      t.exp = { s.exp with syncAt := some (s.exp.now + (if s.effGet PWR_CTL_MCLKLP = 1 then 256 else 128)), syncSrc := 1 } ∧
      t.flag FLT_STAT_SYNCPEND = true ∧ s.Frame t [.exposure] [FLT_STAT])

/-- R162, R193, R196, R198: a SNAPSHOT and a CAL_WINDOW in order join their lists and wait; automatic snapshots start and stop at
once; a release waits while exposures run. A snapshot that is due is copied to a record. -/
def Obligations.LedgerCommandsWait : Prop :=
  ∀ (s : State) (h : CmdHdr) (a0 a1 a2 a3 : BitVec 64),
    (s.Accepts h → bitAt a1.toNat 1 = false → (a0.truncate 32 : BitVec 32) ≠ 0 → s.asBusyFor h = false →
      ∃ t, exec (.snapshot h a0 a1 a2) s = .next t ∧ s.Waits t 0x21 h .snapshot ∧
        (∃ r : SnapReq, t.ldg.snaps = s.ldg.snaps ++ [r] ∧ r.src = some h.src ∧ r.mask = a0.truncate 32 ∧ r.auto = false ∧
          (s.exp.running = true → r.latent = bitAt a1.toNat 0 ∧ r.expno = none) ∧
          (s.exp.running = false → r.expno = some s.lastCovered.1 ∧ r.ts = s.lastCovered.2 ∧ r.pinq = s.pio.pinq)) ∧
        s.Frame t [.ledger, .taken, .host] hostRegs) ∧
    (s.Accepts h → bitAt a1.toNat 1 = true → bitAt a1.toNat 0 = false → s.asBusyFor h = false →
      (a2.toNat % 2 ^ 19 = 0 → ∃ t, exec (.snapshotAuto h a0 a1 a2) s = .next t ∧ s.Answered t 0x21 h stDone 0 0 0 ∧
        t.ldg = { s.ldg with autoSnap := none } ∧ s.Frame t [.ledger, .host, .writer] hostRegs) ∧
      (1 ≤ a2.toNat % 2 ^ 19 → a2.toNat % 2 ^ 19 ≤ 500000 → (a0.truncate 32 : BitVec 32) ≠ 0 →
        ∃ t, exec (.snapshotAuto h a0 a1 a2) s = .next t ∧ s.Answered t 0x21 h stDone 0 0 0 ∧
          t.ldg = { s.ldg with autoSnap := some (a2.toNat % 2 ^ 19, a0.truncate 32) } ∧
          s.Frame t [.ledger, .host, .writer] hostRegs)) ∧
    (∀ p, p = a0.toNat % 32 → s.Accepts h → s.pointOk p = true → a0.toNat / 2 ^ 16 % 2 ^ 16 ≠ 0 →
      (bitAt a0.toNat 8 = true ∨
        (if s.exp.running = true then s.exp.cur.toNat + 1 else s.exp.next.toNat) ≤ (a1.toNat + 2 ^ 64 * a2.toNat) % 2 ^ 72) →
      a3.toNat % 64 = 0 → windowBad h a3.toNat 576 = false → (∀ w ∈ s.ldg.cals, w.point ≠ p) → s.ldg.cals.length < 4 →
      ∃ t, exec (.calWindow h a0 a1 a2 a3) s = .next t ∧ s.Waits t 0x22 h (.calWindow p) ∧
        (∃ w, t.ldg.cals = s.ldg.cals ++ [w] ∧ w.point = p ∧ w.count = a0.toNat / 2 ^ 16 % 2 ^ 16 ∧ w.addr = a3 ∧
          w.ended = false ∧
          w.first = BitVec.ofNat 72 (if bitAt a0.toNat 8 = true then
            (if s.exp.running = true then s.exp.cur.toNat + 1 else s.exp.next.toNat) else a1.toNat + 2 ^ 64 * a2.toNat)) ∧
        s.Frame t [.ledger, .taken, .host] hostRegs) ∧
    (∀ (qs : BitVec 10) (amount : BitVec 108), s.Accepts h → s.exp.running = true → qs = BitVec.ofNat 10 (a0.toNat / 2 ^ 16) →
      amount = BitVec.ofNat 108 (a1.toNat + 2 ^ 64 * a2.toNat) → qs ≠ 0 → (amount = 0 ∨ (bitsOf 10 qs.toNat).length = 1) →
      ∃ t, exec (.withheldRelease h a0 a1 a2) s = .next t ∧ s.Waits t 0x23 h (.release (a0.toNat % 32) qs amount none) ∧
        s.Frame t [.taken, .host] hostRegs) ∧
    (∀ (r : SnapReq) (rest : List SnapReq) (e : BitVec 72), s.ldg.snaps = r :: rest → r.expno = some e → r.up = false →
      s.snapReady r e = true → ∃ t, exec .snapshotCopy s = .next t ∧ t.ldg.snaps = rest ∧
        (∃ w, t.ldg.ldgQ = s.ldg.ldgQ ++ [w] ∧ w.src = r.src ∧ w.auto = r.auto ∧ w.record.expno = e ∧ w.record.ts = r.ts ∧
          w.record.mpmask = r.mask ∧ w.record.pinq = r.pinq ∧ w.record.audit = s.ldg.audit) ∧ s.Frame t [.ledger] [])

/-- R193: without exposures a release of all of a withheld total takes effect at once: the withheld total reads 0, its amount is
added to the total released and AUDIT counts it. -/
def Obligations.ReleaseMovesWithheldEnergy : Prop :=
  ∀ (s : State) (h : CmdHdr) (a0 : BitVec 64) (p q : Nat), s.Accepts h → s.exp.running = false → s.exp.pipe = [] →
    (h.dlv = true → s.lateFor h.deadline = false) → (∀ x ∈ s.taken, x.hdr ≠ h) →
    p = a0.toNat % 32 → q < 10 → a0.toNat / 2 ^ 16 % 2 ^ 10 = 2 ^ q → ∃ t, exec (.withheldRelease h a0 0 0) s = .next t ∧
      t.ledgerReg p (40 + q) = 0 ∧ t.ledgerReg p (30 + q) = s.ledgerReg p (30 + q) + s.ledgerReg p (40 + q) ∧
      (∀ p' i, ¬ (p' = p ∧ (i = 30 + q ∨ i = 40 + q)) → i < 50 → t.ledgerReg p' i = s.ledgerReg p' i) ∧
      t.ldg.audit = s.ldg.audit + 1 ∧
      s.Answered t 0x23 h stDone (s.ldg.audit + 1).toNat (s.lastCovered.1.toNat % 2 ^ 64) (s.lastCovered.1.toNat / 2 ^ 64)

/-- R199: LEDGER_RECORD_WRITE completes: the oldest record goes to the next LDG descriptor with the next sequence number, and its
command completes DONE; without a descriptor automatic records are dropped and counted, and the others wait. -/
def Obligations.LedgerRecordsAreWritten : Prop :=
  ∀ s : State,
    (∀ (w : LdgWait) (rest : List LdgWait) (b : BufDesc) (bs : List BufDesc), s.ldg.ldgQ = w :: rest →
      s.ringRun 3 = true → s.dmaOn = true → (s.ring 3).posted = b :: bs → 25984 ≤ b.size.toNat → s.tzl.cascade = [] →
      s.slavePositions = [] →
      (w.src = none → ∃ t, exec .ledgerRecordWrite s = .next t ∧ t.ldg.ldgQ = rest ∧ t.ldg.snapSeq = s.ldg.snapSeq + 1 ∧
        t.ringC 3 = s.ringC 3 + 1 ∧ (∃ data, HostWrite.mem b.addr data ∈ t.hif.out ∧ data.length = 3241) ∧
        s.Frame t [.ledger, .host] [HIF_RCIDX 3]) ∧
      (∀ (src : CmdSrc) (x : Taken), w.src = some src → s.waiting src .snapshot = some x → s.InTime x →
        ∃ t, exec .ledgerRecordWrite s = .next t ∧ t.ldg.ldgQ = rest ∧ t.ldg.snapSeq = s.ldg.snapSeq + 1 ∧
          t.ringC 3 = s.ringC 3 + 1 ∧
          s.Returns t x stDone (s.ldg.snapSeq.toNat + (s.ringC 3).toNat * 2 ^ 32) (w.record.expno.toNat % 2 ^ 64)
            (w.record.expno.toNat / 2 ^ 64) ∧
          s.Frame t [.ledger, .taken, .host, .writer] (HIF_RCIDX 3 :: cplRegs))) ∧
    ((s.ring 3).posted = [] → s.tzl.cascade = [] → ∃ t, exec .ledgerRecordWrite s = .next t ∧
      t.ldg.ldgQ = s.ldg.ldgQ.filter (fun w => !w.auto) ∧ t.ldg.snapSeq = s.ldg.snapSeq ∧
      t.get (HIF_RDROP_DROP 3) =
        min (s.get (HIF_RDROP_DROP 3) + (s.ldg.ldgQ.filter LdgWait.auto).length) (2 ^ (HIF_RDROP_DROP 3).width - 1) ∧
      s.Frame t [.ledger, .host] [HIF_RDROP 3])

/-- R163: CAL_WINDOW_END completes: the record of an ended calibration window is written to its place, in host memory or in the data
window of the mailbox, and its command completes, ABORTED where a change ended the window early. -/
def Obligations.CalWindowEndWritesItsRecord : Prop :=
  ∀ s : State,
    (∀ (w : CalWin) (rest : List CalWin) (x : Taken), s.ldg.cals = w :: rest → w.ended = true → s.calTaken w = some x →
      s.InTime x → windowBad x.hdr w.addr.toNat 576 = false → (windowOffset x.hdr w.addr.toNat = none → s.dmaOn = true) →
      ∃ t, exec (.calWindowEnd w.point) s = .next t ∧ t.ldg.cals = rest ∧
        s.Returns t x (if bitAt w.flags.toNat 2 then stAborted else stDone) w.nexp w.ndisc w.flags.toNat ∧
        (windowOffset x.hdr w.addr.toNat = none → HostWrite.mem w.addr w.slots ∈ t.hif.out) ∧
        s.Frame t [.ledger, .taken, .host, .writer] (mbxDataRegs ++ cplRegs))

/-! ## Fast converter and check-value units (R270 to R284, R363 to R379) -/

/-- R276: FCV_CAL takes the converter at once; at its end, 1,048,576 FCLK cycles later at the earliest, the factors are stored and
UNCAL is cleared, or a factor out of range leaves them and the command completes FAULT; the die temperature is stored either way.
R273, R274, R275: FCV_SEQ puts a run of the sequence among those due; the first run due starts when no higher owner holds the
converter, and the result registers beyond NSLOT read 0. A conversion of the run is discarded, enters the sum of its slot, or
completes the slot, whose word is in the result register; the last slot ends the run, whose block is written and whose command
completes. R272, R277: FCV_URG.GO takes an idle converter with the settings written, or is dropped and counted and reads 0; the
result of an urgent conversion is in FCV_URGRES and GO 0; LOAD waits until neither reception nor a triggered capture holds the
converter and clears UNCAL. -/
def Obligations.ConverterRuns : Prop :=
  (∀ s : State,
     (∀ h : CmdHdr, s.Accepts h → s.pdOn 6 = true → s.fcv.cal = none → ∃ t, exec (.fcvCal h) s = .next t ∧
       s.Waits t 0x40 h .fcvCal ∧ t.fcv.cal = some h.src ∧ t.flag FCV_STAT_CALRUN = true ∧ t.get FCV_STAT_OWNER = 0 ∧
       s.Frame t [.converter, .taken, .host] (FCV_STAT :: hostRegs)) ∧
     (∀ (src : CmdSrc) (x : Taken) (temp : BitVec 16) (factors : List (BitVec 24)) (s' : State), s.fcv.cal = some src →
       s' = s.reach ((s.fcv.calAt + 1048576) / 25) → s.waiting src .fcvCal = some x → s'.InTime x →
       (∃ t, exec (.fcvCalDone temp factors none) s = .next t ∧ s'.Returns t x stDone temp.toNat 0 0 ∧ t.fcv.cal = none ∧
         t.flag FCV_STAT_UNCAL = false ∧ t.flag FCV_STAT_CALRUN = false ∧ t.get FCV_CALTEMP_CALTEMP = temp.toNat ∧
         (∀ i, i < 24 → t.get (FCV_CALF_CALF i) = (factors.getD i 0).toNat) ∧
         s'.Frame t [.converter, .taken, .host, .writer]
           ([FCV_STAT, FCV_CALTEMP] ++ (List.range 24).map (fun i => FCV_CALF i) ++ cplRegs)) ∧
       (∀ i, ∃ t, exec (.fcvCalDone temp factors (some i)) s = .next t ∧ s'.Returns t x stFault temp.toNat 0 0 ∧
         t.fcv.cal = none ∧ t.flag FCV_STAT_UNCAL = s.flag FCV_STAT_UNCAL ∧ t.get FCV_CALTEMP_CALTEMP = temp.toNat ∧
         s'.Frame t [.converter, .taken, .host, .writer] ([FCV_STAT, FCV_CALTEMP] ++ cplRegs)))) ∧
  (∀ s : State,
     (∀ (h : CmdHdr) (a0 a1 : BitVec 64), s.Accepts h → s.pdOn 6 = true → s.asBusyFor h = false → a0.toNat % 256 ≤ 3 →
       a1.toNat % 64 = 0 → windowBad h a1.toNat 144 = false → ∃ t, exec (.fcvSeq h a0 a1) s = .next t ∧
         s.Waits t 0x41 h .fcvSeq ∧ t.fcv.due.length = s.fcv.due.length + 1 ∧
         (∃ r ∈ t.fcv.due, r.s = a0.toNat % 256 ∧ r.cmd = some (h.src, a1) ∧ r.started = false) ∧
         s.Frame t [.converter, .taken, .host] hostRegs) ∧
     (∀ (r : SeqRun) (rest : List SeqRun), s.fcv.due = r :: rest → s.fcv.run = none → s.fcvOwner = 4 ∨ s.fcvOwner = 7 → r.s < 4 →
       ∃ t, exec (.sequenceRun r.s) s = .next t ∧ t.fcv.due = rest ∧ t.get FCV_STAT_OWNER = 3 ∧
         t.fcv.run = some { r with started := true, tsFirst := s.ts, seq := s.fcv.runSeq.getD r.s 0,
                                   nslot := s.get (FCV_SEQCFG_NSLOT r.s), idx := 0 } ∧
         t.fcv.slot = some (s.seqSlot r.s 0) ∧
         (∀ i, i < 16 → s.get (FCV_SEQCFG_NSLOT r.s) ≤ i → t.rd (FCV_RES r.s i) = 0) ∧
         s.Frame t [.converter] (FCV_STAT :: (List.range 16).map (fun i => FCV_RES r.s i))) ∧
     (∀ (r : SeqRun) (q : SlotRun) (v : Conv) (x : Tagged) (drop : Nat), s.fcv.run = some r → s.fcvOwner = 3 → r.s < 4 →
       s.fcv.slot = some q → x = (s.convert q.input q.sub q.pga v).2 → drop = (if x.change && q.skip then 2 else q.drop) →
       (drop ≠ 0 → ∃ t, exec (.sequenceRunEnd [v]) s = .next t ∧ t.fcv.run = some r ∧
         t.fcv.slot = some { q with drop := drop - 1 } ∧ s.Frame t [.converter, .exposure] []) ∧
       (drop = 0 → q.acc.n + 1 < 2 ^ q.avg → ∃ t, exec (.sequenceRunEnd [v]) s = .next t ∧ t.fcv.run = some r ∧
         t.fcv.slot = some { q with drop := 0, acc := q.acc.add x } ∧ s.Frame t [.converter, .exposure] []) ∧
       (∀ (s' : State) (w : BitVec 32), drop = 0 → 2 ^ q.avg ≤ q.acc.n + 1 → s' = s.reach ((s.fcv.next + 11) / 25) →
         w = SlotRun.word { q with acc := q.acc.add x } → r.idx < 16 →
         (r.idx + 1 < r.nslot → s'.runLate r = none →
           ∃ t, exec (.sequenceRunEnd [v]) s = .next t ∧ t.rd (FCV_RES r.s r.idx) = w ∧ t.fcv.run = some { r with idx := r.idx + 1 } ∧
             t.fcv.slot = some (s.seqSlot r.s (r.idx + 1)) ∧ s'.Frame t [.converter] [FCV_RES r.s r.idx]) ∧
         (r.nslot ≤ r.idx + 1 → r.cmd = none → ∃ t, exec (.sequenceRunEnd [v]) s = .next t ∧ t.fcv.run = none ∧
           t.rd (FCV_RES r.s r.idx) = w ∧ s'.Frame t [.converter] [FCV_STAT, FCV_RES r.s r.idx]) ∧
         (∀ src addr y, r.nslot ≤ r.idx + 1 → r.cmd = some (src, addr) → s.waiting src .fcvSeq = some y → s'.InTime y →
           windowBad y.hdr addr.toNat 144 = false → (windowOffset y.hdr addr.toNat = none → s.dmaOn = true) →
           ∃ t, exec (.sequenceRunEnd [v]) s = .next t ∧ t.fcv.run = none ∧ s'.Returns t y stDone r.seq.toNat 0 0 ∧
             t.rd (FCV_RES r.s r.idx) = w ∧
             (windowOffset y.hdr addr.toNat = none → HostWrite.mem addr
               ([r.tsFirst, r.seq] ++ (List.range 16).map (fun i =>
                 (if i = r.idx then w else s.rd (FCV_RES r.s i)).zeroExtend 64)) ∈ t.hif.out) ∧
             s'.Frame t [.converter, .taken, .host, .writer] ([FCV_STAT, FCV_RES r.s r.idx] ++ mbxDataRegs ++ cplRegs))))) ∧
  (∀ (s : State) (p : Port) (v : BitVec 32),
     (s.writable (.port p) FCV_URG = true → bitAt v.toNat 31 = true → s.fcvOwner = 7 → ∃ t,
       exec (.urgentConversion p v) s = .next t ∧ t.fcv.urgent = true ∧ t.flag FCV_URG_GO = true ∧
         t.get FCV_STAT_OWNER = 5 ∧ t.fcv.slot = some t.urgentSlot ∧ s.Frame t [.converter] [FCV_URG, FCV_STAT]) ∧
     (s.writable (.port p) FCV_URG = true → bitAt v.toNat 31 = true → s.fcvOwner ≠ 7 → ∃ t,
       exec (.urgentConversion p v) s = .next t ∧ t.flag FCV_URG_GO = false ∧
         t.get FCV_URGDROP_URGDROP = min (s.get FCV_URGDROP_URGDROP + 1) (2 ^ 32 - 1) ∧
         s.Frame t [] [FCV_URG, FCV_URGDROP]) ∧
     (∀ (q : SlotRun) (c : Conv) (x : Tagged) (s' : State), s.fcvOwner = 5 → s.fcv.slot = some q →
       x = (s.convert q.input q.sub q.pga c).2 → (x.change && q.skip) = false → q.drop = 0 → 2 ^ q.avg ≤ q.acc.n + 1 →
       s' = s.reach ((s.fcv.next + 11) / 25) → ∃ t, exec (.urgentConversionDone [c]) s = .next t ∧
         t.rd FCV_URGRES = SlotRun.word { q with acc := q.acc.add x } ∧ t.flag FCV_URG_GO = false ∧ t.fcv.urgent = false ∧
         s'.Frame t [.converter] [FCV_URG, FCV_URGRES, FCV_STAT]) ∧
     (s.writable (.port p) FCV_CALCTL = true → bitAt v.toNat 0 = true → ∃ t, exec (.load p v) s = .next t ∧
       t.flag FCV_CALCTL_LOAD = true ∧ s.Frame t [] [FCV_CALCTL]) ∧
     (s.flag FCV_CALCTL_LOAD = true → s.fcvOwner ≠ 1 → s.fcvOwner ≠ 2 → ∃ t, exec .loadApplied s = .next t ∧
       t.flag FCV_STAT_UNCAL = false ∧ t.flag FCV_CALCTL_LOAD = false ∧ s.Frame t [] [FCV_CALCTL, FCV_STAT]))

/-- R278 to R282: ARM fills and disarms the contact-sheet buffer; FORCE, a level crossing and, at its decision, a selected event
trigger an armed capture; the record is held with its last post-trigger sample, goes to the next FCAP descriptor that holds it and,
with AUTO, the capture is armed again. -/
def Obligations.ContactSheetsAreTaken : Prop :=
  ∀ (s : State) (p : Port) (v : BitVec 32), s.evt.now = [] →
    (s.writable (.port p) FCV_CSCTL = true → bitAt v.toNat 30 = true → bitAt v.toNat 31 = false → s.fcv.cs = .off → ∃ t,
      exec (.csArm p v) s = .next t ∧ t.fcv.cs = .armed ∧ t.fcv.ring = [] ∧ t.flag FCV_STAT_ARMED = true ∧
        s.Frame t [.converter] [FCV_CSCTL, FCV_STAT]) ∧
    (s.writable (.port p) FCV_CSCTL = true → bitAt v.toNat 30 = false → bitAt v.toNat 31 = false → s.fcv.cs = .armed → ∃ t,
      exec (.csDisarm p v) s = .next t ∧ t.fcv.cs = .off ∧ t.flag FCV_STAT_ARMED = false ∧
        s.Frame t [.converter] [FCV_CSCTL, FCV_STAT]) ∧
    (s.writable (.port p) FCV_CSCTL = true → bitAt v.toNat 30 = true → bitAt v.toNat 31 = true → s.fcv.cs = .armed → ∃ t,
      exec (.force p v) s = .next t ∧ t.fcv.cs = .post ∧ t.flag FCV_STAT_CAPT = decide (s.fcvOwner = 4) ∧
        (∃ g, t.fcv.trig = some g ∧ g.source = 2 ∧ g.ts = s.ts ∧ g.seq = s.fcv.csSeq ∧
          g.delayed = decide (s.fcvOwner = 1 ∨ s.fcvOwner = 3)) ∧
        s.Frame t [.converter] [FCV_CSCTL, FCV_STAT]) ∧
    (∀ (c : Conv) (x : Tagged) (a : ConvSum) (y : Int) (q : CsSample), s.fcv.cs = .armed → s.fcvOwner = 4 →
      s.fcv.post = [] → s.fcv.ring.getLast? = some q → s.fcv.trig = none →
      x = (s.convert (s.get FCV_CSCTL_INPUT) (s.get FCV_CSCTL_SUB) (s.get FCV_CSCTL_PGA) c).2 →
      a = (s.fcv.part.getD ConvSum.zero).add x → 2 ^ s.get FCV_CSCTL_DEC ≤ a.n → a.settle = false →
      y = signedOf 14 (unsignedOf 14 (roundDiv a.sum (2 ^ s.get FCV_CSCTL_DEC))) → s.get FCV_CSPRE_PRE < 65535 →
      s.flag FCV_CSLVL_LEN = true →
      (if s.flag FCV_CSLVL_SLOPE then y ≤ signedOf 14 (s.get FCV_CSLVL_LEVEL) ∧ signedOf 14 (s.get FCV_CSLVL_LEVEL) < q.value
       else signedOf 14 (s.get FCV_CSLVL_LEVEL) ≤ y ∧ q.value < signedOf 14 (s.get FCV_CSLVL_LEVEL)) →
      ∃ t, exec (.captureTrigger [c]) s = .next t ∧ t.fcv.cs = .post ∧ t.flag FCV_STAT_CAPT = true ∧
        (∃ g, t.fcv.trig = some g ∧ g.source = 1 ∧ g.at_ = a.at_ ∧ g.pre = s.get FCV_CSPRE_PRE) ∧ t.fcv.post.length = 1 ∧
        s.Frame t [.converter, .exposure] [FCV_STAT]) ∧
    (∀ (ch k : Nat), s.exp.running = false → ch < 96 → (s.chan ch).started = true → (s.chan ch).lost = false → (s.chan ch).held = false →
      s.pdOn 5 = true → s.pdOn 6 = true → s.fcv.cs = .armed → k < 4 → s.flag (FCV_CSTRG_SEN k) = true → s.get (FCV_CSTRG_CODE k) = 0x0101 →
      s.flag (FCV_CSTRG_ANYIDX k) = true → (∀ j, j < 4 → s.flag (FCV_CSTRG_SEN j) = true → s.get (FCV_CSTRG_CODE j) = 0x0101) →
      s.Sizes → ∃ t, exec (.streamLoss ch) s = .next t ∧ t.fcv.cs = .post ∧
        (∃ g, t.fcv.trig = some g ∧ g.source = 0 ∧ g.code = 0x0101 ∧ g.index = BitVec.ofNat 8 ch ∧ g.seq = s.fcv.csSeq)) ∧
    (∀ (g : CsTrig) (c : Conv) (x : Tagged) (a : ConvSum), s.fcv.cs = .post → s.fcv.trig = some g → s.fcvOwner = 2 →
      x = (s.convert (s.get FCV_CSCTL_INPUT) (s.get FCV_CSCTL_SUB) (s.get FCV_CSCTL_PGA) c).2 →
      a = (s.fcv.part.getD ConvSum.zero).add x → 2 ^ s.get FCV_CSCTL_DEC ≤ a.n → g.at_ ≤ a.at_ →
      (s.fcv.post.length + 1 = 65536 - g.pre → ∃ t, exec (.postTriggerComplete [c]) s = .next t ∧ t.fcv.cs = .held ∧
        t.fcv.trig = some g ∧ t.fcv.post.length = 65536 - g.pre ∧ t.flag FCV_STAT_HELD = true ∧
        s.Frame t [.converter, .exposure] [FCV_STAT]) ∧
      (s.fcv.post.length + 1 < 65536 - g.pre → ∃ t, exec (.postTriggerComplete [c]) s = .next t ∧ t.fcv.cs = .post ∧
        t.fcv.post.length = s.fcv.post.length + 1 ∧ t.flag FCV_STAT_CAPT = true ∧
        s.Frame t [.converter, .exposure] [FCV_STAT])) ∧
    (∀ (g : CsTrig) (pre : List CsSample) (cut : Bool) (b : BufDesc) (bs : List BufDesc), s.fcv.cs = .held → s.fcv.trig = some g →
      preSamples g.pre s.fcv.ring s.fcv.post = (pre, cut) → s.ringRun 11 = true → s.dmaOn = true → (s.ring 11).posted = b :: bs →
      256 + 2 * (pre.length + s.fcv.post.length) ≤ b.size.toNat → ∃ t, exec .fcapRecordWrite s = .next t ∧
        t.ringC 11 = s.ringC 11 + 1 ∧ HostWrite.mem b.addr (s.sheetHeader g pre cut) ∈ t.hif.out ∧
        HostWrite.bytes (b.addr + 256) ((pre ++ s.fcv.post).flatMap (fun w => bytesLE 2 w.word.toNat)) ∈ t.hif.out ∧
        t.fcv.trig = none ∧ t.fcv.cs = (if s.flag FCV_CSCTL_AUTO && s.flag FCV_CSCTL_ARM then .armed else .off) ∧
        s.Frame t [.converter, .host] [HIF_RCIDX 11, FCV_CSCTL, FCV_STAT])

/-- R370, R371, R374, R376: a CVU_SCAN in order waits for its unit's scan; the first pass ends with NO_REFERENCE, MATCH or
REFERENCE_FAULT, or with a rescan of the whole range, which ends UNSTABLE or STABLE_MISMATCH; SUSPEND ends a scan ABORTED with the
units fed so far, of a running scan a free value (log 136), and its running value. R375: a write of CVU_REFDATA_LO stores the
selected reference entry with valid check bits; CVU_REFFLIP.GO inverts the named stored bits of it; neither changes an entry that
the safety monitor holds. -/
def Obligations.CheckValueScans : Prop :=
  (∀ s : State, s.Sizes →
     (∀ (h : CmdHdr) (a0 a1 a2 : BitVec 64) (u : Nat) (a : ScanArgs), s.Accepts h → scanArgs a0 a1 a2 = (u, a) →
       s.scanBad u a = false → (a.space = 2 → windowBad h a.start a.len = false) → s.scanRefused u a = false →
       (a.space = 2 → windowOffset h a.start = none → s.dmaOn = true) → ∃ t, exec (.cvuScan h a0 a1 a2) s = .next t ∧
         s.Waits t 0x50 h (.cvu u) ∧ (∃ q, t.scan u = some q ∧ q.args = a ∧ q.first = none ∧ q.waiting = s.flag (CVU_STAT_HELD u)) ∧
         t.flag (CVU_STAT_BUSY u) = (!s.flag (CVU_STAT_HELD u)) ∧ t.rd (CVU_POS u) = 0 ∧
         t.wide [CVU_RUN_LO u, CVU_RUN_HI u] = (s.cvuPass u { a with len := 0 } []).1 ∧
         s.Frame t [.checks, .taken, .host] ([CVU_POS u, CVU_STAT u, CVU_RUN_LO u, CVU_RUN_HI u] ++ hostRegs)) ∧
     (∀ (p : Port) (u : Nat) (v : BitVec 32) (q : Scan) (x : Taken) (n val : Nat), bitAt v.toNat 0 = true → s.pdOn 5 = true →
       s.scan u = some q → ¬ (u = 3 ∧ s.monitorHolds = true) → s.scanCmd u = some x → s.InTime x →
       n = (if s.scanRuns u q then min (Config.unitsFed s.free) q.args.len else (s.rd (CVU_POS u)).toNat) →
       val = (if s.scanRuns u q then (s.cvuPass u { q.args with len := n } (q.data.getD [])).1
         else s.wide [CVU_RUN_LO u, CVU_RUN_HI u]) →
       ∃ t, exec (.suspend p u v) s = .next t ∧ t.scan u = none ∧ t.flag (CVU_STAT_BUSY u) = false ∧
         s.Returns t x stAborted (n * 2 ^ 32) val 0 ∧
         s.Frame t [.checks, .taken, .host, .writer] ([CVU_STAT u, CVU_POS u, CVU_RUN_LO u, CVU_RUN_HI u] ++ cplRegs)) ∧
     (∀ (u : Nat) (q : Scan) (x : Taken) (val : BitVec 36), s.scan u = some q → s.scanRuns u q = true → q.first = none → s.regionOn q.args = true → s.scanCmd u = some x → s.InTime x →
       val = (s.cvuPass u q.args (q.data.getD [])).2 →
       (q.args.refIdx = none → ∃ t, exec (.cvuFirstPassDone u) s = .next t ∧ t.scan u = none ∧ t.get (CVU_STAT_VERDICT u) = 1 ∧
         s.Returns t x stDone (1 + q.args.len * 2 ^ 32) val.toNat 0 ∧
         s.Frame t [.checks, .taken, .host, .writer]
           ([CVU_STAT u, CVU_POS u, CVU_RUN_LO u, CVU_RUN_HI u] ++ cplRegs)) ∧
       (∀ i sbe, q.args.refIdx = some i → refRead (s.refEntry i) = (val, sbe, false) →
         ∃ t, exec (.cvuFirstPassDone u) s = .next t ∧ t.scan u = none ∧ t.get (CVU_STAT_VERDICT u) = 0 ∧
           s.Returns t x stDone (8 * sbe.toNat + q.args.len * 2 ^ 32) val.toNat 0 ∧
           s.Frame t [.checks, .taken, .host, .writer]
             ([CVU_STAT u, CVU_POS u, CVU_RUN_LO u, CVU_RUN_HI u, CVU_CNT u] ++ cplRegs)) ∧
       (∀ i ref sbe, q.args.refIdx = some i → refRead (s.refEntry i) = (ref, sbe, true) →
         ∃ t, exec (.cvuFirstPassDone u) s = .next t ∧ t.scan u = none ∧ t.get (CVU_STAT_VERDICT u) = 4 ∧
           s.Returns t x stDone (4 + q.args.len * 2 ^ 32) val.toNat 0 ∧
           s.Frame t [.checks, .taken, .host, .writer]
             ([CVU_STAT u, CVU_POS u, CVU_RUN_LO u, CVU_RUN_HI u, CVU_CNT u] ++ cplRegs)) ∧
       (∀ i ref sbe, q.args.refIdx = some i → refRead (s.refEntry i) = (ref, sbe, false) → val ≠ ref →
         ∃ t, exec (.cvuFirstPassDone u) s = .next t ∧ t.taken = s.taken ∧ t.flag (CVU_STAT_RESCAN u) = true ∧
           (∃ q', t.scan u = some q' ∧ q'.args = q.args ∧ q'.first = some (q.args.len, val) ∧ q'.ref = ref) ∧
           s.Frame t [.checks, .host] [CVU_STAT u, CVU_POS u, CVU_RUN_LO u, CVU_RUN_HI u, CVU_CNT u])) ∧
     (∀ (u : Nat) (q : Scan) (x : Taken) (units : Nat) (v1 v2 : BitVec 36) (verdict : Nat), s.scan u = some q →
       s.scanRuns u q = true → q.first = some (units, v1) → s.regionOn q.args = true → s.scanCmd u = some x →
       s.InTime x → v2 = (s.cvuPass u q.args (q.data.getD [])).2 → verdict = (if v2 = v1 then 2 else 3) →
       ∃ t, exec (.cvuRescanDone u) s = .next t ∧ t.scan u = none ∧ t.get (CVU_STAT_VERDICT u) = verdict ∧
         s.Returns t x stDone (verdict + 8 * q.refCor.toNat + units * 2 ^ 32) v1.toNat v2.toNat ∧
         s.Frame t [.checks, .taken, .host, .writer]
           ([CVU_STAT u, CVU_POS u, CVU_RUN_LO u, CVU_RUN_HI u, CVU_CNT u] ++ cplRegs))) ∧
  (∀ (s : State) (p : Port) (v : BitVec 32) (i : Nat), s.Sizes → s.pdOn 5 = true → i = s.get CVU_REFSEL_IDX →
     (s.monitorHolds = false ∨ i < 56 →
       (∀ hi, storeFind (s.staged (.port p)) CVU_REFDATA_HI = some hi → ∃ t, exec (.referenceEntryWrite p v) s = .next t ∧
         t.refEntry i = { value := BitVec.ofNat 36 (v.toNat + hi.toNat % 16 * 2 ^ 32), flips := 0 } ∧
         (∀ j, j ≠ i → t.refEntry j = s.refEntry j) ∧ s.Frame t [.checks, .host] []) ∧
       (s.writable (.port p) CVU_REFFLIP = true → bitAt v.toNat 31 = true → ∃ t, exec (.refflip p v) s = .next t ∧
         (t.refEntry i).value = (s.refEntry i).value ∧
         (t.refEntry i).flips = (s.refEntry i).flips ^^^
           ((if fieldOf v CVU_REFFLIP_BITA < 43 then BitVec.ofNat 43 (2 ^ fieldOf v CVU_REFFLIP_BITA) else 0) ^^^
            (if fieldOf v CVU_REFFLIP_BITB < 43 then BitVec.ofNat 43 (2 ^ fieldOf v CVU_REFFLIP_BITB) else 0)) ∧
         (∀ j, j ≠ i → t.refEntry j = s.refEntry j) ∧ s.Frame t [.checks] [CVU_REFFLIP])) ∧
     (s.monitorHolds = true → 56 ≤ i →
       (∃ t, exec (.referenceEntryWrite p v) s = .next t ∧ (∀ j, t.refEntry j = s.refEntry j)) ∧
       (∃ t, exec (.refflip p v) s = .next t ∧ (∀ j, t.refEntry j = s.refEntry j))))

/-! ## The ledger writer (R244 to R264, R357) -/

/-- R251, R357: PROOF_NOW and PWR_CYCLE wait for the proof at the next boundary while exposures run; without exposures PWR_CYCLE
completes DONE at once with LDG_SEQ; CYC is 1 in both cases. R262, R263: SEAL and a high SEAL_N seal the device at once and an
identity write follows; UNSEAL with SEAL_N low adds 1 to AUDIT first, and the device is unsealed when its identity is written; with
SEAL_N high UNSEAL is REFUSED. -/
def Obligations.ProofCommandsAndSeal : Prop :=
  (∀ (s : State) (h : CmdHdr) (a0 : BitVec 64) (off : BitVec 24), s.Accepts h →
     (s.exp.running = true → s.flag PWR_STAT_ASBUSY = false → ∃ t, exec (.proofNow h) s = .next t ∧
       s.Waits t 0x70 h .proofNow ∧ t.prf.nowReq = s.prf.nowReq ++ [h.src] ∧ s.Frame t [.writer, .taken, .host] hostRegs) ∧
     (off = a0.truncate 24 → s.flag RTC_BKCFG_BKMODE = true → s.flag RTC_PWRCTL_CYC = false →
       (26 ≤ off.toNat ∨ (off = 0 ∧ (s.flag RTC_PWRCTL_ALMON = true ∨ s.flag RTC_PWRCTL_PERON = true))) →
       (s.exp.running = true → ∃ t, exec (.pwrCycle h a0) s = .next t ∧ s.Waits t 0x61 h (.pwrCycle off) ∧
         t.prf.cycleReq = some h.src ∧ t.flag RTC_PWRCTL_CYC = true ∧
         s.Frame t [.writer, .taken, .host] ([RTC_PWRCTL, RTC_RAM 16, RTC_RAM 17, RTC_RAM 18] ++ hostRegs)) ∧
       (s.exp.running = false → ∃ t, exec (.pwrCycle h a0) s = .next t ∧
         s.Answered t 0x61 h stDone (s.get LDG_SEQ_SEQ) 0 0 ∧ t.rtc.cycle = some off ∧ t.flag RTC_PWRCTL_CYC = true ∧
         s.Frame t [.clock, .writer, .host] ([RTC_PWRCTL, RTC_RAM 16, RTC_RAM 17, RTC_RAM 18] ++ hostRegs)))) ∧
  (∀ s : State,
     (∀ h : CmdHdr, s.Accepts h → s.sealed = false → ∃ t, exec (.seal h) s = .next t ∧ s.Waits t 0x71 h .seal ∧
       t.sealed = true ∧ t.flag LDG_STAT_BUSY = true ∧ t.prf.idJobs = s.prf.idJobs ++ [.seal (some h.src) 0] ∧
       s.Frame t [.fram, .writer, .taken, .host] (LDG_STAT :: hostRegs)) ∧
     (∀ h : CmdHdr, s.Accepts h → s.sealed = true → ∃ t, exec (.seal h) s = .next t ∧ s.Answered t 0x71 h stDone 0 0 0 ∧
       s.Frame t [.host, .writer] hostRegs) ∧
     (s.pdOn 5 = true → s.sealed = false → ∃ t, exec (.sealN true) s = .next t ∧ t.sealed = true ∧
       t.flag LDG_STAT_SEALN = true ∧ t.prf.idJobs = s.prf.idJobs ++ [.seal none 1] ∧ s.Frame t [.fram, .writer] [LDG_STAT]) ∧
     (s.pdOn 5 = true → ∃ t, exec (.sealN false) s = .next t ∧ t.flag LDG_STAT_SEALN = false ∧ t.prf.sealN = false ∧
       t.sealed = s.sealed ∧ s.Frame t [.writer] [LDG_STAT]) ∧
     (∀ h : CmdHdr, s.Accepts h → s.prf.sealN = false → s.flag PWR_STAT_ASBUSY = false → s.sealed = true →
       ∃ t, exec (.unseal h) s = .next t ∧ s.Waits t 0x72 h .unseal ∧ t.sealAudit = (s.sealAudit + 1) % 2 ^ 36 ∧
         t.sealed = true ∧ t.prf.idJobs = s.prf.idJobs ++ [.unseal h.src] ∧
         s.Frame t [.writer, .taken, .host] ([LDG_AUDIT_LO, LDG_AUDIT_HI, LDG_STAT] ++ hostRegs)) ∧
     (∀ h : CmdHdr, s.Accepts h → s.prf.sealN = true → ∃ t, exec (.unseal h) s = .next t ∧
       s.Answered t 0x72 h stRefused 0 0 0 ∧ s.Frame t [.fram, .writer, .host] hostRegs) ∧
     (∀ (c : CmdSrc) (n : BitVec 64) (rest : List IdentityJob) (x : Taken), s.prf.phase = .idle →
       s.prf.idJobs = .seal (some c) n :: rest → s.waiting c .seal = some x → s.InTime x →
       ∃ t, exec .identityWriteDone s = .next t ∧ t.prf.idJobs = rest ∧ t.prf.gen = s.prf.gen + 1 ∧ s.Returns t x stDone 0 0 0 ∧
         s.Frame t [.fram, .writer, .taken, .host] (LDG_STAT :: cplRegs)) ∧
     (∀ (c : CmdSrc) (rest : List IdentityJob) (x : Taken), s.prf.phase = .idle → s.prf.idJobs = .unseal c :: rest →
       s.waiting c .unseal = some x → s.InTime x → ∃ t, exec .identityWriteDone s = .next t ∧ t.prf.idJobs = rest ∧
         t.prf.gen = s.prf.gen + 1 ∧ t.sealed = false ∧ s.Returns t x stDone s.sealAudit 0 0 ∧
         s.Frame t [.fram, .writer, .taken, .host] (LDG_STAT :: cplRegs)))

/-- R246, R248, R249: the oldest proof due is written to the slot of its sequence once its exposures are resolved; with VERIFY its
trailer is followed by a readback, which is retried once. No byte outside the slot changes. R250, R251: a proof that is read back
right, or written without VERIFY, is completed: LDG_SEQ and LDG_LASTEXP show it, the bookkeeping names it, the writer is idle, and a
PROOF_NOW it serves completes DONE with its sequence. -/
def Obligations.ProofIsWrittenToItsSlot : Prop :=
  (∀ s : State,
     (∀ (j : ProofJob) (rest : List ProofJob), s.prf.due = j :: rest → s.writerBusy = false → s.coveredTo j.expno = true →
       ∃ t, exec .proofWriteStart s = .next t ∧ t.prf.phase = .writing ∧ t.prf.due = rest ∧ t.prf.job = some j ∧
         (∃ r, t.prf.record = some r ∧ r.kind = j.kind ∧ r.expno = j.expno ∧ r.ts = j.ts ∧ r.seq = s.prf.nextSeq ∧
           r.audit = s.ldg.audit ∧ r.pinq = j.pinq ∧ r.mpmask = 0xFFFFFFFF) ∧
         t.flag LDG_STAT_BUSY = true ∧ t.flag (CVU_STAT_HELD (s.get LDG_CTL_CVU)) = true ∧
         (∀ a, a < proofSlot s.prf.nextSeq ∨ proofSlot s.prf.nextSeq + 0x6548 ≤ a → t.framByte a = s.framByte a) ∧
         s.Frame t [.fram, .writer, .checks] [LDG_STAT, CVU_STAT (s.get LDG_CTL_CVU)]) ∧
     (∀ (j : ProofJob) (r : LedgerRecord), s.prf.phase = .writing → s.prf.job = some j → s.prf.record = some r → j.kind ≠ 2 →
       s.flag LDG_CTL_VERIFY = true → ∃ t, exec .proofWriteDone s = .next t ∧ t.prf.phase = .readback ∧
         (∀ i, i < 0x6548 → t.framByte (proofSlot r.seq + i) = (s.proofBytes r).getD i 0) ∧
         (∀ a, a < proofSlot r.seq ∨ proofSlot r.seq + 0x6548 ≤ a → t.framByte a = s.framByte a) ∧
         s.Frame t [.fram, .writer] []) ∧
     (∀ (j : ProofJob) (r : LedgerRecord), s.prf.phase = .readback → s.prf.job = some j → s.prf.record = some r →
       s.prf.attempt < 2 → ∃ t, exec (.proofReadbackDone false) s = .next t ∧ t.prf.phase = .writing ∧ t.prf.attempt = 2 ∧
         s.Frame t [.writer] [])) ∧
  (∀ (s : State) (c : Instr) (j : ProofJob) (r : LedgerRecord), s.prf.job = some j → s.prf.record = some r → j.kind ≠ 2 →
     j.cycle = none →
     ((c = .proofWriteDone ∧ s.prf.phase = .writing ∧ s.flag LDG_CTL_VERIFY = false) ∨
       (c = .proofReadbackDone true ∧ s.prf.phase = .readback)) →
     (j.cmds = [] → ∃ t, exec c s = .next t ∧ t.prf.phase = .idle ∧ t.prf.nextSeq = r.seq + 1 ∧ t.rd LDG_SEQ = r.seq ∧
       t.wide [LDG_LASTEXP_LO, LDG_LASTEXP_MID, LDG_LASTEXP_HI] = r.expno.toNat ∧ t.bkLastseq = r.seq ∧
       t.bkLastexp = r.expno.toNat ∧
       s.Frame t [.fram, .writer, .checks, .clock] ([LDG_SEQ, LDG_LASTEXP_LO, LDG_LASTEXP_MID, LDG_LASTEXP_HI, LDG_STAT,
         RTC_RAM 0, RTC_RAM 1, RTC_RAM 2, RTC_RAM 3, RTC_RAM 6, CVU_STAT 0, CVU_STAT 1, CVU_STAT 2])) ∧
     (∀ (src : CmdSrc) (x : Taken), j.cmds = [src] → s.waiting src .proofNow = some x → s.InTime x →
       ∃ t, exec c s = .next t ∧ t.prf.phase = .idle ∧ t.rd LDG_SEQ = r.seq ∧ s.Returns t x stDone r.seq.toNat 0 0))

/-- R260: the oldest queued journal entry is written over the oldest entry of the ring, and no other byte of the FRAM changes. R244:
LDG_FADDR starts a read of its word; LDG_FDATA returns the word and starts the next read, or 0 with EARLY; a word written there
inside the image slots is queued, elsewhere discarded with DENY; an access completes once the writer leaves the FRAM. From a power
fail on reads give 0 and writes set DENY; a read of another width than 32 bits gives 0 and starts nothing. -/
def Obligations.JournalAndFramPort : Prop :=
  (∀ (s : State) (e : JournalEntry) (rest : List JournalEntry), s.writerBusy = false → s.prf.journal = e :: rest →
     s.prf.jpos < 128 → ∃ t, exec .journalWrite s = .next t ∧ t.prf.journal = rest ∧ t.prf.jseq = s.prf.jseq + 1 ∧
       t.prf.jpos = (s.prf.jpos + 1) % 128 ∧
       (∀ i, i < 64 → t.framByte (0x3E000 + 64 * s.prf.jpos + i) = (e.bytes s.prf.jseq).getD i 0) ∧
       (∀ a, a < 0x3E000 + 64 * s.prf.jpos ∨ 0x3E000 + 64 * s.prf.jpos + 64 ≤ a → t.framByte a = s.framByte a) ∧
       s.Frame t [.fram, .writer] []) ∧
  (∀ (s : State) (p : Port),
     (∀ v : BitVec 32, s.writable (.port p) LDG_FADDR = true → ∃ t, exec (.ldgFaddrWrite p v) s = .next t ∧
       t.get LDG_FADDR_ADDR = fieldOf v LDG_FADDR_ADDR ∧ t.flag LDG_FSTAT_RDY = false ∧
       PortAccess.read (4 * fieldOf v LDG_FADDR_ADDR) ∈ t.prf.port ∧
       s.Frame t [.writer, .checks] [LDG_FADDR, LDG_FSTAT]) ∧
     (s.pd1On = true → s.pdOn 5 = true → ∃ t, exec (.ldgFdataRead p 32) s = .next t ∧
       t.get LDG_FADDR_ADDR = (s.get LDG_FADDR_ADDR + 1) % 2 ^ 16 ∧ t.flag LDG_FSTAT_RDY = false ∧
       (p = .pcie → t.hif.pcieRead = (if s.flag LDG_FSTAT_RDY && !s.flag PWR_STAT_PFAIL then s.prf.portData else 0)) ∧
       (s.flag LDG_FSTAT_RDY = false → s.flag PWR_STAT_PFAIL = false → t.flag LDG_FSTAT_EARLY = true) ∧
       s.Frame t [.writer, .checks, .host] [LDG_FADDR, LDG_FSTAT]) ∧
     (∀ width, width ≠ 32 → ∃ t, exec (.ldgFdataRead .pcie width) s = .next t ∧ t.hif.pcieRead = 0 ∧ s.Frame t [.host] []) ∧
     (∀ (v : BitVec 32) (a : Nat), s.pdOn 5 = true → a = 4 * s.get LDG_FADDR_ADDR →
       (0x1000 ≤ a → a < 0x31000 → s.sealed = false → s.flag PWR_STAT_ASBUSY = false → s.flag PWR_STAT_PFAIL = false →
         s.portWrites < 16 → ∃ t, exec (.ldgFdataWrite p v) s = .next t ∧ PortAccess.write a v ∈ t.prf.port ∧
           t.get LDG_FADDR_ADDR = (s.get LDG_FADDR_ADDR + 1) % 2 ^ 16 ∧ t.flag LDG_FSTAT_DENY = s.flag LDG_FSTAT_DENY ∧
           s.Frame t [.writer, .checks] [LDG_FADDR, LDG_FSTAT]) ∧
       (a < 0x1000 ∨ 0x31000 ≤ a ∨ s.sealed = true ∨ s.flag PWR_STAT_PFAIL = true → ∃ t, exec (.ldgFdataWrite p v) s = .next t ∧
         t.flag LDG_FSTAT_DENY = true ∧ t.portWrites = s.portWrites ∧ s.Frame t [.writer, .checks] [LDG_FADDR, LDG_FSTAT])) ∧
     (∀ (a : Nat) (v : BitVec 32) (rest : List PortAccess), s.writerBusy = false → s.flag PWR_STAT_PFAIL = true →
       s.prf.port = .write a v :: rest → ∃ t, exec .framPortAccessDone s = .next t ∧ t.prf.port = rest ∧
         t.flag LDG_FSTAT_DENY = true ∧ s.Frame t [.writer] [LDG_FSTAT]) ∧
     (∀ (a : Nat) (rest : List PortAccess), s.writerBusy = false → s.flag PWR_STAT_PFAIL = false →
       (s.prf.port = .read a :: rest → ∃ t, exec .framPortAccessDone s = .next t ∧ t.prf.port = rest ∧
         t.prf.portData = BitVec.ofNat 32 (s.framNat a 4) ∧ t.flag LDG_FSTAT_RDY = true ∧ s.Frame t [.writer] [LDG_FSTAT]) ∧
       (∀ v, s.prf.port = .write a v :: rest → ∃ t, exec .framPortAccessDone s = .next t ∧ t.prf.port = rest ∧
         (∀ i, i < 4 → t.framByte (a + i) = (bytesLE 4 v.toNat).getD i 0) ∧
         (∀ b, b < a ∨ a + 4 ≤ b → t.framByte b = s.framByte b) ∧ s.Frame t [.fram, .writer] [LDG_FSTAT])))

/-! ## The host interface (R8 to R12, R38, R39, R380 to R411, R454) -/

/-- R392, R395, R408: a host command that its source cannot have taken changes nothing, and one whose deadline has passed completes
DEADLINE with no other effect. R39, R396: a waiting command whose deadline the clock has passed by more than 4 µs completes
DEADLINE; where it waits for a boundary nothing else of it happens, and a scan reports the units fed, of a running scan a free value
(log 136), and its running value. -/
def Obligations.ExpiredCommandsEndWithDeadline : Prop :=
  (∀ (c : Instr) (op : BitVec 8) (h : CmdHdr) (s : State), commandOf c = some (op, h) →
     (s.canTake h = false → ∃ t, exec c s = .next t ∧ s.Frame t [] []) ∧
     (s.canTake h = true → h.dlv = true → s.passed h.deadline = true → ∃ t, exec c s = .next t ∧
       s.Answered t op h stDeadline 0 0 0 ∧ s.Frame t [.host, .writer] hostRegs)) ∧
  (∀ (s : State) (x : Taken), x ∈ s.taken → (∀ y ∈ s.taken, y.hdr.src = x.hdr.src → y = x) → x.muted = false →
     x.hdr.dlv = true → judgedLater x.op = true → s.passed x.hdr.deadline = true →
     ((∀ p, x.wait ≠ .calWindow p) → (∀ u, x.wait ≠ .cvu u) →
       ∃ t, exec (.commandDeadlineExpiry x.hdr.src) s = .next t ∧ s.Returns t x stDeadline 0 0 0 ∧
       ((match x.wait with | .mpStart _ | .mpStop _ | .swap _ | .filtStart _ | .filtStop _ | .sync | .late => true | _ => false) = true →
         s.Frame t [.taken, .host, .writer] (RTC_STAT :: cplRegs))) ∧
     (∀ (u : Nat) (q : Scan) (n val : Nat), x.wait = .cvu u → u < 4 → s.Sizes → s.scan u = some q →
       n = (if s.scanRuns u q then min (Config.unitsFed s.free) q.args.len else (s.rd (CVU_POS u)).toNat) →
       val = (if s.scanRuns u q then (s.cvuPass u { q.args with len := n } (q.data.getD [])).1
         else s.wide [CVU_RUN_LO u, CVU_RUN_HI u]) →
       ∃ t, exec (.commandDeadlineExpiry x.hdr.src) s = .next t ∧ s.Returns t x stDeadline (n * 2 ^ 32) val 0 ∧ t.scan u = none))

/-- A command on blocks that are off or start is REFUSED with no other effect: the model's reading (log 32). -/
def Obligations.CommandOnBlockThatIsOffIsRefused : Prop :=
  ∀ (c : Instr) (op : BitVec 8) (h : CmdHdr) (s : State), commandOf c = some (op, h) → coreOps.contains op.toNat = true →
    s.canTake h = true → (h.dlv = true → s.passed h.deadline = false) → s.serving = false → ∃ t, exec c s = .next t ∧
      s.Answered t op h stRefused 0 0 0 ∧ s.Frame t [.host, .writer] hostRegs

/-- R8, R9, R150, R383: a 32-bit write leaves a register's fields as their access types, the seal and the locks say; a write of
another width, or of a register that is not powered or is locked by autostart, changes nothing. R9, R261: a channel's ROLE takes a
value of 0 to 6 while the device is not sealed and keeps its value otherwise. -/
def Obligations.RegisterWriteStoresFields : Prop :=
  (∀ (s : State) (p : Port) (off : BitVec 16) (v : BitVec 32), off.toNat ∈ plainRegs →
     (s.writable (.port p) off.toNat = true → ∃ t, exec (.registerWrite p off 32 v) s = .next t ∧
       t.rd off.toNat = s.stored off.toNat v ∧ s.Frame t [.checks] [off.toNat]) ∧
     (s.writable (.port p) off.toNat = false → ∃ t, exec (.registerWrite p off 32 v) s = .next t ∧ s.Frame t [] []) ∧
     (∀ width, width ≠ 32 → ∃ t, exec (.registerWrite p off width v) s = .next t ∧ s.Frame t [] [])) ∧
  (∀ (s : State) (p : Port) (n : Nat) (v : BitVec 32), n < 96 → s.writable (.port p) (MFE_CH n) = true →
     ∃ t, exec (.registerWrite p (BitVec.ofNat 16 (MFE_CH n)) 32 v) s = .next t ∧
       t.get (MFE_CH_ROLE n) =
         (if s.sealed = false ∧ fieldOf v (MFE_CH_ROLE n) ≤ 6 then fieldOf v (MFE_CH_ROLE n) else s.get (MFE_CH_ROLE n)) ∧
       t.get (MFE_CH_OVRTH n) = (if s.sealed = false then fieldOf v (MFE_CH_OVRTH n) else s.get (MFE_CH_OVRTH n)))

/-- R9, R11, R12: a read of an RC register returns its value and clears its RC fields; a write of the lowest word of a wide quantity
takes its staged upper word with it, and a read of one latches its upper word for that port. R8: a read of another width returns 0
and neither clears nor latches. -/
def Obligations.ReadsAndWideAccesses : Prop :=
  ∀ (s : State) (p : Port) (off : BitVec 16), s.pd1On = true → s.pdOn (regDomain off.toNat) = true →
    (∀ r, regRow off.toNat = some r → plainRead off.toNat → accessMask r .rc ≠ 0 →
      ∃ t, exec (.rcRegisterRead p off 32) s = .next t ∧
        t.rd off.toNat = s.rd off.toNat &&& ~~~ BitVec.ofNat 32 (accessMask r .rc) ∧
        (p = .pcie → t.hif.pcieRead = s.readValue off.toNat) ∧
        (p = .hspi → t.hif.hspiOut = (bytesLE 4 (s.readValue off.toNat).toNat).reverse) ∧ s.Frame t [.host] [off.toNat]) ∧
    (∀ (v hi : BitVec 32), off.toNat ∈ [HIF_DBBASE_LO, HIF_STBASE_LO, HIF_LVBASE_LO, NET_KEYBASE_LO] →
      storeFind (s.staged (.port p)) (off.toNat + 4) = some hi → s.writable (.port p) off.toNat = true →
      ∃ t, exec (.lowestWordWrite p off v) s = .next t ∧ t.rd off.toNat = s.stored off.toNat v ∧
        t.rd (off.toNat + 4) = s.stored (off.toNat + 4) hi ∧ s.Frame t [.host] [off.toNat, off.toNat + 4]) ∧
    (off.toNat ∈ [GLB_SERIAL_LO, LDG_AUDIT_LO, LDG_RGAP_LO, LDG_RSTOP_LO, RTC_SEC_LO, RTC_CAPSEC_LO] →
      ∃ t, exec (.lowestWordRead p off 32) s = .next t ∧ (p = .pcie → t.hif.pcieRead = s.readValue off.toNat) ∧
        storeFind (t.latched p) (off.toNat + 4) = some (s.readValue (off.toNat + 4)) ∧ s.Frame t [.host] []) ∧
    (∀ width, width ≠ 32 →
      (∀ r, regRow off.toNat = some r → accessMask r .rc ≠ 0 → ∃ t, exec (.rcRegisterRead .pcie off width) s = .next t ∧
        t.hif.pcieRead = 0 ∧ s.Frame t [.host] []) ∧
      ((upperWords off.toNat).isEmpty = false → ∃ t, exec (.lowestWordRead .pcie off width) s = .next t ∧
        t.hif.pcieRead = 0 ∧ (∀ q, t.latched q = s.latched q) ∧ s.Frame t [.host] []))

/-- R123: CALFRC drives CALSELk at the level of CALLVL at once, while the bank's supply is in range and pairing does not run there.
R454: a write of GLB_IRQEN that enables a summary bit at 1 counts as a rise: with GVEN the vector GVEC becomes pending. -/
def Obligations.RegisterWritesThatActAtOnce : Prop :=
  (∀ (s : State) (p : Port) (k : Nat) (v : BitVec 32), k < 12 → s.writable (.port p) (MFE_BANK k) = true → s.sealed = false →
     s.bankOk k = true → s.pdOn 2 = true → s.flag PAIR_STAT_RUN = false → ∃ t, exec (.calfrcWrite p k v) s = .next t ∧
       t.exp.calsel = s.exp.calsel.set k
         (if bitAt v.toNat 4 = true then some (bitAt v.toNat 5) else none) ∧
       t.flag (MFE_BANK_CALST k) = (bitAt v.toNat 4 && bitAt v.toNat 5) ∧ s.Frame t [.exposure, .checks] [MFE_BANK k]) ∧
  (∀ (s : State) (p : Port) (v : BitVec 32), s.Inv → s.writable (.port p) GLB_IRQEN = true →
     ∃ t, exec (.irqenWrite p v) s = .next t ∧ t.get GLB_IRQEN_EN = v.toNat % 2 ^ 13 ∧
       (∀ k, k < 13 → bitAt v.toNat k = true → bitAt s.irqSum k = true → bitAt (s.get GLB_IRQEN_EN) k = false →
         s.flag HIF_CTL_GVEN = true → bitAt (t.rd MBX_IRQPEND).toNat (s.get HIF_CTL_GVEC) = true) ∧ s.Frame t [] [GLB_IRQEN])

/-- R406: a read frame gives the status byte and then registers, most significant byte first; a write frame of one word is a
register write; a frame with another instruction or an unaligned address has no effect. -/
def Obligations.SerialFrames : Prop :=
  ∀ (s : State) (addr : BitVec 16) (v : BitVec 32), s.pd1On = true →
    (addr.toNat % 4 = 0 →
      (∃ t, exec (.hspiReadFrame 0x0B addr 0) s = .next t ∧ t.hif.hspiOut = [s.hspiStatus] ∧ s.Frame t [.host] []) ∧
      (∃ t, exec (.hspiReadFrame 0x0B addr 1) s = .next t ∧
        t.hif.hspiOut = s.hspiStatus :: (bytesLE 4 (s.readReg .hspi addr.toNat).2.toNat).reverse) ∧
      exec (.hspiWriteFrame 0x02 addr [v]) s = exec (.registerWrite .hspi addr 32 v) s ∧
      (addr.toNat ∈ plainRegs → s.writable (.port .hspi) addr.toNat = true → ∃ t,
        exec (.hspiWriteFrame 0x02 addr [v]) s = .next t ∧ t.rd addr.toNat = s.stored addr.toNat v ∧
          s.Frame t [.checks] [addr.toNat])) ∧
    (∀ (instr : BitVec 8) (n : Nat), instr ≠ 0x0B ∨ addr.toNat % 4 ≠ 0 → ∃ t, exec (.hspiReadFrame instr addr n) s = .next t ∧
      t.hif.hspiOut = [] ∧ s.Frame t [.host] []) ∧
    (∀ (instr : BitVec 8) (l : List (BitVec 32)), instr ≠ 0x02 ∨ addr.toNat % 4 ≠ 0 → ∃ t,
      exec (.hspiWriteFrame instr addr l) s = .next t ∧ s.Frame t [] [])

/-- R394, R408, R411: GO takes the descriptor in MBX_CMD: NOP completes DONE and an OPCODE without a command BADARG, while GO during
a command is an OVERRUN; MBX_EVTPOP removes the event shown while ring 2 does not run. R145, R382: a read for COEF_LOAD that ends
with its data loads the bank and completes DONE, one that ends in a DMA fault completes FAULT and sets DMAERR. -/
def Obligations.MailboxAndCommandReads : Prop :=
  (∀ (s : State) (p : Port) (v : BitVec 32),
     (∀ (op : BitVec 8) (h : CmdHdr) (status : Nat), bitAt v.toNat 0 = true → s.pd1On = true → s.ready = true →
       s.flag MBX_STAT_BUSY = false → op = s.mbxDesc.d0.truncate 8 → h = descHdr (.mailbox p) s.mbxDesc →
       (h.dlv = true → s.passed h.deadline = false) →
       (op = 0 ∧ status = stDone) ∨ (op ≠ 0 ∧ coreOps.contains op.toNat = false ∧ op ≠ 0x31 ∧ op ≠ 0x32 ∧ status = stBadarg) →
       ∃ t, exec (.mbxGo p v) s = .next t ∧ s.Answered t op h status 0 0 0 ∧ s.Frame t [] (MBX_CTL :: cplRegs)) ∧
     (bitAt v.toNat 0 = true → s.pd1On = true → s.flag MBX_STAT_BUSY = true → ∃ t, exec (.mbxGo p v) s = .next t ∧
       t.flag MBX_STAT_OVERRUN = true ∧ t.taken = s.taken ∧ s.Frame t [] [MBX_CTL, MBX_STAT]) ∧
     (∀ (e : Event) (rest : List Event), s.Inv → s.ringRun 2 = false → s.evt.queue = e :: rest → ∃ t,
       exec (.mbxEvtpop p v) s = .next t ∧ t.evt.queue = rest ∧ t.evt.dropPend = false ∧ s.Frame t [] [])) ∧
  (∀ (s : State) (x : Taken) (id n bank len : Nat) (rest : List (Nat × DmaUse)), s.Sizes → n < 96 → bank ≤ 1 →
     s.hif.dmaReads = (id, .coef x.hdr.src) :: rest → x ∈ s.taken → x.wait = .coefDma n bank len →
     (∀ y ∈ s.taken, y.hdr.src = x.hdr.src → y = x) → s.InTime x →
     (∀ d : List (BitVec 64), d.length = len → len ≤ 64 → ∃ t, exec (.dmaReadDone id (.ok d)) s = .next t ∧
       s.Returns t x stDone 0 0 0 ∧ t.taps n bank = len ∧
       (if bank = 0 then (t.chan n).bankA else (t.chan n).bankB) = coefSlots d ∧
       s.Frame t [.exposure, .checks, .taken, .host, .writer] (FLT_CH n :: cplRegs)) ∧
     (∀ (c : DmaCause) (a : BitVec 64), ∃ t, exec (.dmaReadDone id (.fault c a)) s = .next t ∧ s.Returns t x stFault 0 0 0 ∧
       t.flag HIF_STAT_DMAERR = true ∧ s.Frame t [.taken, .host, .writer] ([HIF_STAT, HIF_DMAERR] ++ cplRegs)))

/-- R381, R387, R392: a kick starts a doorbell read, or one further read behind that in flight; the page gives P of every running
ring, and the next descriptor of the CMD ring is fetched and taken. R386, R390: EN = 1 sets C and P to 0 and starts a ring, EN = 0
stops it; MODTIME signals the ring's vector. -/
def Obligations.DoorbellsAndRings : Prop :=
  (∀ s : State,
     (∀ (p : Port) (v : BitVec 32), s.pdOn 9 = true → s.flag HIF_STAT_LINKUP = true → s.flag HIF_STAT_BME = true →
       s.get HIF_STAT_DSTATE = 0 → ∃ t, exec (.dbKick p v) s = .next t ∧ t.hif.dbInFlight = true ∧
         (s.hif.dbInFlight = true → t.hif.dbAgain = true) ∧ s.Frame t [.host] []) ∧
     (∀ l : List (BitVec 32), s.hif.dbInFlight = true → s.hif.fetched = [] →
       (∀ r, r < 16 → s.ringRun r = true → (l.getD (16 * r) 0 - s.ringC r).toNat ≤ 2 ^ s.get (HIF_RCFG_LOG2SIZE r)) →
       (∃ t, exec (.doorbellReadDone (.ok l) [] []) s = .next t ∧ t.hif.dbInFlight = s.hif.dbAgain ∧
         (∀ r, r < 16 → s.ringRun r = true → t.ringP r = l.getD (16 * r) 0) ∧
         s.Frame t [.host] ((List.range 16).map (fun r => HIF_RPIDX r))) ∧
       (∀ d : Desc8, s.ready = true → s.ringRun 0 = true → l.getD 0 0 = s.ringC 0 + 1 → s.takenRing < 64 →
         d.d0.truncate 8 = (0 : BitVec 8) → bitAt d.d0.toNat 8 = false →
         ∃ t, exec (.doorbellReadDone (.ok l) [.ok d] []) s = .next t ∧ t.ringC 0 = s.ringC 0 + 1 ∧
           t.hif.cplQ = s.hif.cplQ ++ [s.completion (s.ringC 0) 0 (descHdr (.ring (s.ringC 0)) d) stDone 0 0 0])) ∧
     (∀ (c : DmaCause) (a : BitVec 64), s.hif.dbInFlight = true → ∃ t,
       exec (.doorbellReadDone (.fault c a) [] []) s = .next t ∧ t.flag HIF_STAT_DMAERR = true ∧
         s.Frame t [.host] [HIF_STAT, HIF_DMAERR])) ∧
  (∀ (s : State) (p : Port) (r : Nat) (v : BitVec 32), r < 13 → s.writable (.port p) (HIF_RCFG r) = true →
     (bitAt v.toNat 31 = true → s.flag (HIF_RCFG_EN r) = false → ∃ t, exec (.ringEnable p r v) s = .next t ∧
       t.flag (HIF_RCFG_EN r) = true ∧ t.ringC r = 0 ∧ t.ringP r = 0 ∧ t.ringRun r = true ∧
       s.Frame t [.host] [HIF_RCFG r, HIF_RCIDX r, HIF_RPIDX r, HIF_RSTAT r]) ∧
     (bitAt v.toNat 31 = false → s.flag (HIF_RCFG_EN r) = true → ∃ t, exec (.ringDisable p r v) s = .next t ∧
       t.flag (HIF_RCFG_EN r) = false ∧ t.ringRun r = false ∧
       (¬ (4 ≤ r ∧ r ≤ 7) → r ≠ 9 → r ≠ 12 → s.Frame t [.host] [HIF_RCFG r, HIF_RSTAT r])) ∧
     (∀ t0, s.Sizes → (s.ring r).irqSince = some t0 → s.get (HIF_RMOD_MODTIME r) ≠ 0 → s.flag (HIF_RCFG_IEN r) = true →
       ∃ t, exec (.interruptModerationTimeout r) s = .next t ∧ (t.ring r).irqCount = 0 ∧ (t.ring r).irqSince = none ∧
         bitAt (t.rd MBX_IRQPEND).toNat (s.get (HIF_RCFG_VEC r)) = true ∧ s.Frame t [.exposure, .host] []))

/-- R219, R329, R393, R397, R400: the oldest waiting completion, event and received frame go to the next descriptor of their rings,
and C advances; changed directory entries are written back. -/
def Obligations.RecordsGoToTheirRings : Prop :=
  ∀ s : State, s.dmaOn = true →
    (∀ (c : Completion) (rest : List Completion), s.hif.cplQ = c :: rest → s.ringRun 1 = true → 0 < s.ringOwned 1 →
      s.hif.fetched = [] → ∃ t, exec .completionWrite s = .next t ∧ t.hif.cplQ = rest ∧ t.ringC 1 = s.ringC 1 + 1 ∧
        HostWrite.mem (s.descAddr 1 (s.ringC 1)) c.slots ∈ t.hif.out ∧ s.Frame t [.host] [HIF_RCIDX 1]) ∧
    (∀ (e : Event) (rest : List Event), s.Inv → s.evt.queue = e :: rest → s.ringRun 2 = true → 0 < s.ringOwned 2 →
      ∃ t, exec .eventRecordWrite s = .next t ∧ t.evt.queue = rest ∧ t.ringC 2 = s.ringC 2 + 1 ∧
        HostWrite.mem (s.descAddr 2 (s.ringC 2)) (e.slots s.evt.dropPend) ∈ t.hif.out ∧ s.Frame t [.host] [HIF_RCIDX 2]) ∧
    (∀ (x : PlcRxRecord) (rest : List PlcRxRecord) (b : BufDesc) (bs : List BufDesc), s.plc.rxQ = x :: rest → s.ringRun 10 = true →
      (s.ring 10).posted = b :: bs → (slotBytes x.slots ++ x.frame).length ≤ b.size.toNat →
      ∃ t, exec .plcRxRecordWrite s = .next t ∧ t.plc.rxQ = rest ∧ t.ringC 10 = s.ringC 10 + 1 ∧
        HostWrite.bytes b.addr (slotBytes x.slots ++ x.frame) ∈ t.hif.out ∧ s.Frame t [.powerline, .host] [HIF_RCIDX 10]) ∧
    (∃ t, exec .directoryWriteback s = .next t ∧ t.plc.cache = s.plc.cache.map (fun e => (e.1, false)) ∧
      s.Frame t [.powerline] [])

/-- R82, R381, R382, R405: what the PCI Express function does: from READY on the link comes up with its speed and width, Bus Master
Enable and D0 allow DMA and their loss ends it, and a loss of the link resets the HIF block and mutes what the ring took. -/
def Obligations.PcieFunctionStates : Prop :=
  ∀ s : State, s.pdOn 9 = true →
    (∀ speed width, s.ready = true → s.flag HIF_STAT_LINKUP = false → speed = 1 ∨ speed = 2 → width = 1 ∨ width = 2 →
      ∃ t, exec (.pcieLinkUp speed width) s = .next t ∧ t.flag HIF_STAT_LINKUP = true ∧ t.get HIF_STAT_SPEED = speed ∧
        t.get HIF_STAT_WIDTH = width ∧ s.Frame t [.host] [HIF_STAT]) ∧
    (∀ speed width, s.ready = false → ∃ t, exec (.pcieLinkUp speed width) s = .next t ∧ s.Frame t [] []) ∧
    (s.flag HIF_STAT_LINKUP = true → ∃ t, exec .busMasterEnable s = .next t ∧ t.flag HIF_STAT_BME = true ∧
      t.get HIF_STAT_DSTATE = 0 ∧ s.Frame t [] [HIF_STAT]) ∧
    (∀ d3 bme, s.flag HIF_STAT_LINKUP = true → d3 = true ∨ bme = false → ∃ t,
      exec (.busMasterDisable d3 bme) s = .next t ∧ t.dmaOn = false ∧ t.flag HIF_STAT_BME = bme ∧
        t.get HIF_STAT_DSTATE = (if d3 = true then 3 else 0) ∧ s.Frame t [.host] [HIF_STAT]) ∧
    (∀ cause, ∃ t, exec (.pePerstN cause) s = .next t ∧ t.flag HIF_STAT_LINKUP = false ∧ t.dmaOn = false ∧
      t.hif.cplQ = [] ∧ t.hif.fetched = [] ∧ (∀ r, r < 16 → t.ringRun r = false) ∧
      (∀ x ∈ t.taken, ∀ i, x.hdr.src = .ring i → x.muted = true) ∧
      (∀ q ∈ [Part.power, .safety, .fram, .inputs, .windows, .pulses, .link], Part.Same s t q))

/-! ## Power, start-up and resets (R44 to R92) -/

/-- R64, R82, R90: the release of a reset shows its causes, samples the straps and starts source selection; PD2 to PD5 and PD9 are
on. R73 to R75, R82, R417, R426: start-up goes from source selection over HFREF, the PLL and the memories to the diagnostics and the
restore; HFREF not good is retried; a failed diagnostic sets STARTFAIL. -/
def Obligations.StartUpRowsFollowInOrder : Prop :=
  (∀ (s : State) (mstr auto : Bool), s.pwr.phase = .inReset ∨ s.pwr.phase = .backup → s.pwr.pd1Kept = false → ∃ t,
     exec (.resetRelease mstr auto) s = .next t ∧ t.pwr.phase = .sourceSelect ∧ t.pwr.cause = 0 ∧
       t.rd PWR_RSTCAUSE = s.rd PWR_RSTCAUSE ||| s.pwr.cause.zeroExtend 32 ∧ t.flag GLB_STRAP_MSTR = mstr ∧
       t.flag GLB_STRAP_AUTOSTART = auto ∧ t.hfOn = false ∧ (∀ d ∈ [2, 3, 4, 5, 9], t.pdOn d = true) ∧
       t.rtc.onBattery = false ∧
       s.Frame t [.clock, .power, .link, .pulses] ([PWR_RSTCAUSE, GLB_STRAP, PWR_STAT, PWR_BANK, TZL_CTL, TZL_STAT, RTC_STAT,
         RTC_PWRCTL, RTC_RAM 16, RTC_RAM 17, RTC_RAM 18] ++ (List.range 16).map (fun n => PIO_CFSTAT n))) ∧
  (∀ s : State, s.pwr.pfRunning = false →
     (∀ edges, s.pwr.phase = .sourceSelect ∨ s.pwr.phase = .hfRetry → ∃ t, exec (.hfrefSourceSelected edges) s = .next t ∧
       t.pwr.phase = .hfWait ∧ t.flag PWR_STAT_HFSRC = decide (1000 ≤ edges) ∧ s.Frame t [.power] [PWR_STAT]) ∧
     (s.pwr.phase = .hfWait → ∃ t, exec .hfrefGood s = .next t ∧ t.pwr.phase = .pllWait ∧ t.flag PWR_STAT_HFOK = true ∧
       s.Frame t [.power] [PWR_STAT]) ∧
     (s.pwr.phase = .hfWait → ∃ t, exec .hfrefRetry s = .next t ∧ t.pwr.phase = .hfRetry ∧ s.Frame t [.power] []) ∧
     (s.pwr.phase = .pllWait → ∃ t, exec .pllLock s = .next t ∧ t.pwr.phase = .memInit ∧ t.flag PWR_STAT_PLLLOCK = true ∧
       s.Frame t [.power] [PWR_STAT]) ∧
     (s.pwr.phase = .memInit → s.Sizes → ∃ t, exec .memoryInitialised s = .next t ∧ t.pwr.phase = .diag ∧
       (∀ i, i < 8 → t.refEntry (56 + i) = { value := s.segmentSum (56 + i), flips := 0 }) ∧ s.Frame t [.power, .checks] []) ∧
     (s.pwr.phase = .diag → ∃ t, exec (.startupDiagnostics none) s = .next t ∧ t.pwr.phase = .restoring ∧
       s.Frame t [.power, .safety] [SAF_STAT]) ∧
     (∀ d detail, d < 14 → s.pwr.phase = .diag → ∃ t, exec (.startupDiagnostics (some (d, detail))) s = .next t ∧
       t.pwr.phase = .restoring ∧ t.flag SAF_STAT_STARTFAIL = true ∧ (s.flag SAF_CTL_EN = true → t.inSafe = true) ∧
       s.Frame t [.power, .safety, .pulses] ([SAF_STAT, SAF_SSEXP] ++ (List.range 16).map (fun n => PIO_CFSTAT n))))

/-- R82, R84, R86, R255: the restore makes the device READY; after a reset, in METER or on its way to RUN where the TARGET asks for
it (log 128: TRANS ends there), and still in TRANS after a wake; with no valid proof every ledger register reads 0, and a single
valid proof gives LDG_SEQ; autostart follows where the strap or a wake asks for it. R83, R259: an image that is not valid is given
up and the other one is read; after both autostart ends without metering; a valid image whose records all succeed leads the cascade
master or a device alone to the internal SYNC. -/
def Obligations.RestoreMakesReady : Prop :=
  (∀ s : State, s.pwr.phase = .restoring → s.pwr.pfRunning = false → ∃ t, exec .restore s = .next t ∧ t.ready = true ∧
     t.flag PWR_STAT_ASBUSY = (s.flag GLB_STRAP_AUTOSTART || s.pwr.wake) ∧
     t.pwr.phase = (if (s.flag GLB_STRAP_AUTOSTART || s.pwr.wake) = true then .image else .done) ∧
     (s.pwr.wake = true → t.devState = s.devState) ∧
     (s.pwr.wake = false → s.flag PWR_STAT_PFAIL = false → s.pwr.want = none →
       (s.get PWR_CTL_TARGET ≠ 0 → t.devState = stMeter) ∧
       (s.get PWR_CTL_TARGET = 0 → t.devState = stTrans ∧ t.pwr.change = .toRun)) ∧
     ((s.restoreIdentity.proofAt 0).1 = none → (s.restoreIdentity.proofAt 1).1 = none →
       (∀ p i, t.ledgerReg p i = 0) ∧ t.prf.restored = none) ∧
     (∀ b, (s.restoreIdentity.proofAt 0).1 = some b → (s.restoreIdentity.proofAt 1).1 = none →
       t.rd LDG_SEQ = BitVec.ofNat 32 (natLE ((b.drop 0x38).take 4)) ∧
         t.ldg.audit = BitVec.ofNat 32 (natLE ((b.drop 0x3C).take 4)) ∧
         t.prf.nextSeq = BitVec.ofNat 32 (natLE ((b.drop 0x38).take 4)) + 1)) ∧
  (∀ (s : State) (slot : Nat), s.pwr.phase = .image → s.pwr.pfRunning = false → s.imagePick = some slot →
     (s.imageValid slot = none → s.prf.imagesTried = [] → ∃ t, exec .autostartImageRead s = .next t ∧
       t.prf.imagesTried = [slot] ∧ t.pwr.phase = .image ∧ s.Frame t [.writer] []) ∧
     (s.imageValid slot = none → s.prf.imagesTried = [1 - slot] → ∃ t, exec .autostartImageRead s = .next t ∧
       t.pwr.phase = .done ∧ t.flag PWR_STAT_ASBUSY = false ∧ t.exp.running = s.exp.running) ∧
     (s.imageValid slot = some [] → s.flag GLB_STRAP_MSTR = true → ∃ t, exec .autostartImageRead s = .next t ∧
       t.pwr.phase = .internalSync ∧ s.Frame t [.power] ((List.range 12).map (fun k => MFE_BANK k))))

/-- R78, R90, R254, R427, R453: SOFTRST, RESET_N, a power-fail recovery and the watchdog reset PD1 to PD9: every register of those
domains takes its reset value, nothing waits any more, and the FRAM and the clock keep what they hold; the cause is kept for
PWR_RSTCAUSE. R78, R81, R360, R361: a VDDIO reset hands PD0 over to VBKUP; a VDDC or VDDA reset resets PD2 to PD9 and keeps PD1; a
backup-domain reset sets SEC and TICK to 0 and OSF, disarms the alarm, clears the periodic wake and the slew, loads the factory
curve, sets BKMODE to 0, clears the retention RAM with valid parity, invalidates the bookkeeping and releases PWRON; TRST_N resets
the TAP controller alone. -/
def Obligations.ResetsAct : Prop :=
  (∀ (s : State) (c : Instr) (cause : BitVec 7),
     ((∃ p v, c = .softrst p v ∧ cause = 8 ∧ s.pd1On = true ∧ v.toNat / 2 ^ 24 = 0xD5 ∧ bitAt v.toNat 0 = true) ∨
       (c = .resetN ∧ cause = 4 ∧ s.pwr.phase ≠ .backup) ∨
       (c = .powerFailRecovery ∧ cause = 64 ∧ s.devState = stPfhold ∧ s.flag PWR_CTL_PFRST = true ∧
         s.pwr.monNow &&& 0x7E = 0) ∨
       (c = .watchdogExpiry ∧ cause = 16 ∧ s.flag SAF_CTL_EN = true ∧ s.flag SAF_CTL_WDTEN = true ∧ s.monStarted = true ∧
         s.exp.running = true ∧ s.flag PWR_STAT_PFAIL = false)) →
     ∃ t, exec c s = .next t ∧ t.pwr.phase = .inReset ∧ t.pwr.cause = s.pwr.cause ||| cause ∧
       (∀ off, 1 ≤ regDomain off → t.rd off = regReset off) ∧ (∀ a, t.framByte a = s.framByte a) ∧
       t.rtc.sec = s.rtc.sec ∧ t.rtc.tick = s.rtc.tick ∧ t.taken = [] ∧ t.evt.queue = [] ∧ t.exp.running = false ∧
       (∀ p i, t.ledgerReg p i = 0) ∧ t.hif.cplQ = [] ∧ t.plc.rxQ = []) ∧
  (∀ s : State,
     (s.pwr.phase ≠ .backup → s.rtc.vbLow = false → ∃ t, exec .powerOn s = .next t ∧ t.pwr.phase = .backup ∧
       t.rtc.onBattery = true ∧ t.rtc.sec = s.rtc.sec ∧ t.rtc.tick = s.rtc.tick ∧
       (∀ off, 1 ≤ regDomain off → t.rd off = regReset off) ∧ (∀ a, t.framByte a = s.framByte a) ∧ t.taken = []) ∧
     (s.pwr.phase ≠ .inReset → s.pwr.phase ≠ .backup → s.pwr.phase ≠ .standby → ∃ t, exec .vddcVddaReset s = .next t ∧
       t.pwr.phase = .inReset ∧ t.pwr.pd1Kept = true ∧ t.ready = false ∧ t.devState = stTrans ∧
       (∀ off, 2 ≤ regDomain off → t.rd off = regReset off) ∧ (∀ a, t.framByte a = s.framByte a) ∧
       t.rtc.sec = s.rtc.sec ∧ t.taken = [] ∧ t.exp.running = false ∧
       t.rd GLB_STRAP = s.rd GLB_STRAP ∧ t.rd MBX_IRQEN = s.rd MBX_IRQEN) ∧
     (∀ first : Bool, first = true ∨ s.rtc.onBattery = true → ∃ t, exec (.backupDomainReset first) s = .next t ∧
       t.rtc.sec = 0 ∧ t.rtc.tick = 0 ∧ t.flag RTC_STAT_OSF = true ∧ t.flag RTC_ALMCTL_ARMED = false ∧
       t.flag RTC_PER_EN = false ∧ t.rtc.perDue = false ∧ t.rtc.perCount = 0 ∧ t.flag RTC_PERSTAT_WAKE = false ∧
       t.getI RTC_SLEW_RATE = 0 ∧ t.rtc.slew = 0 ∧ t.rtc.slewNext = none ∧ t.rtc.slewDur = none ∧
       (∀ j, j < 33 → t.rd (RTC_TC j) = regReset (RTC_TC j)) ∧ t.flag RTC_BKCFG_BKMODE = false ∧
       (∀ i, i < 24 → t.rd (RTC_RAM i) = 0) ∧ t.rtc.badParity = [] ∧ t.rtc.bkValid = false ∧ t.rtc.pwronLow = false ∧
       (first = true → t.pwr.phase = .backup) ∧ (∀ a, t.framByte a = s.framByte a)) ∧
     (∃ t, exec .trstN s = .next t ∧ t.pwr.tapReset = true ∧ s.Frame t [.power] []))

/-- R86: a TARGET write starts the change of state, and its end sets STATE and PDON: METER without PD6 to PD8, RUN with them as VLD
allows, STANDBY with PD0 and PD1 alone once the standby proof is written; an enabled wake or a TARGET write through HSPI ends it,
with PD2 to PD5 and PD9 in reset while VDDC or VDDA is absent (R70). R87, R89, R250, R252: a power fail stops metering and switches
PD6 to PD8 off, and while metering ran an emergency proof of KIND 2 goes to the slot of the next sequence; when it is written the
bookkeeping names it and the device holds in PFHOLD. -/
def Obligations.DeviceStatesAndPowerFail : Prop :=
  (∀ (s : State) (p : Port) (v : BitVec 32),
     (s.writable (.port p) PWR_CTL = true → s.flag PWR_STAT_PFAIL = false →
       (s.devState = stRun → v.toNat % 4 = 1 → ∃ t, exec (.targetMeter p v) s = .next t ∧ t.devState = stTrans ∧
         t.pwr.change = .toMeter ∧
         (∀ q ∈ [Part.exposure, .ledger, .clock, .safety, .fram, .inputs, .windows, .pulses, .link], Part.Same s t q)) ∧
       (s.devState = stMeter → v.toNat % 4 = 0 → ∃ t, exec (.targetRun p v) s = .next t ∧ t.devState = stTrans ∧
         t.pwr.change = .toRun ∧ s.Frame t [.power] [PWR_CTL, PWR_STAT]) ∧
       (s.devState = stRun ∨ s.devState = stMeter → v.toNat % 4 = 2 → ∃ t, exec (.targetStandby p v) s = .next t ∧
         t.devState = stTrans ∧ t.pwr.change = .toStandby ∧
         s.Frame t [.power, .converter] [PWR_CTL, PWR_STAT, FCV_CSCTL])) ∧
     (s.pwr.change = .toMeter → s.pwr.want = none → ∃ t, exec .domainSwitchComplete s = .next t ∧ t.devState = stMeter ∧
       t.pwr.change = .none ∧ (∀ d ∈ [6, 7, 8], t.pdOn d = false) ∧ t.exp = s.exp ∧ t.ldg = s.ldg) ∧
     (s.pwr.change = .toRun → s.pwr.want = none → ∃ t, exec .domainSwitchComplete s = .next t ∧ t.devState = stRun ∧
       t.pwr.change = .none ∧ t.pdOn 6 = true ∧ t.pdOn 7 = true ∧ t.pdOn 8 = s.vldIn ∧ t.exp = s.exp ∧ t.ldg = s.ldg) ∧
     (s.pwr.change = .toStandby → s.pwr.want = none → s.exp.running = false → s.proofOpen 3 = false →
       s.prf.phase = .idle → ∃ t, exec .domainSwitchComplete s = .next t ∧ t.devState = stStandby ∧ t.pwr.phase = .standby ∧
         (∀ d, 2 ≤ d → d ≤ 9 → t.pdOn d = false) ∧ t.taken = [] ∧ (∀ a, t.framByte a = s.framByte a)) ∧
     (∀ cause, s.devState = stStandby → s.flag PWR_STAT_PFAIL = false → (cause = .alarm ∧ s.flag PWR_WAKE_ALARM = true ∧ s.flag RTC_ALMCTL_FIRED = true) ∨
       (cause = .periodic ∧ s.flag PWR_WAKE_PERIODIC = true ∧ s.flag RTC_PERSTAT_WAKE = true) ∨
       (cause = .target v ∧ s.writable (.port .hspi) PWR_CTL = true ∧ v.toNat % 4 ≤ 1) →
       ∃ t, exec (.standbyWake cause) s = .next t ∧ t.devState = stTrans ∧ t.pwr.wake = true ∧
         (s.pwr.coreLow = false → t.pwr.phase = .sourceSelect ∧ ∀ d ∈ [2, 3, 4, 5, 9], t.pdOn d = true) ∧
         (s.pwr.coreLow = true → t.pwr.phase = .inReset ∧ ∀ d, t.pdOn d = s.pdOn d))) ∧
  (∀ s : State,
     (s.pd1On = true → s.flag PWR_STAT_PFAIL = false → ∃ t, exec (.powerFail .pin) s = .next t ∧
       t.flag PWR_STAT_PFAIL = true ∧ t.flag PWR_MON_PF_PIN = true ∧ t.pwr.pfRunning = true ∧ t.exp.running = false ∧
       t.exp.pipe = [] ∧ (∀ d ∈ [6, 7, 8], t.pdOn d = false) ∧
       (s.exp.running = true → s.pdOn 5 = true → s.flag PWR_STAT_ASBUSY = false →
         t.prf.phase = .writing ∧ (∃ r, t.prf.record = some r ∧ r.kind = 2 ∧ r.seq = s.prf.nextSeq) ∧
         t.flag LDG_STAT_EPRUN = true)) ∧
     (∀ (j : ProofJob) (r : LedgerRecord), s.pwr.pfRunning = true → s.devState ≠ stPfhold → s.prf.phase = .writing →
       s.prf.job = some j → j.kind = 2 → s.prf.record = some r → ∃ t, exec .emergencyProofComplete s = .next t ∧
         t.devState = stPfhold ∧ t.bkLastseq = r.seq ∧ t.bkLastexp = r.expno.toNat ∧
         (∀ d, 2 ≤ d → d ≤ 9 → t.pdOn d = false) ∧
         (∀ i, i < 0x6548 → t.framByte (proofSlot r.seq + i) = (s.proofBytes r).getD i 0)) ∧
     (s.pwr.pfRunning = true → s.devState ≠ stPfhold → s.prf.job = none → ∃ t, exec .emergencyProofComplete s = .next t ∧
       t.devState = stPfhold ∧ (∀ a, t.framByte a = s.framByte a)))

/-- R71, R77: a crossing sets its flag of PWR_MON, and its return is followed; each further millisecond of an overvoltage counts a
strike; LFOK follows the measurement, and in RUN and METER an LFCLK that is not verified is replaced. -/
def Obligations.MonitorsAndClockChecks : Prop :=
  ∀ s : State,
    (∀ m ∈ [Monitor.pfVddio, .ovVddc, .ovVdda, .ovVddio], s.pd1On = true → s.flag PWR_CTL_INTMON = false →
      bitAt s.pwr.monNow.toNat (monBit m) = false → ∃ t, exec (.supplyMonitorCrossing m true) s = .next t ∧
        bitAt (t.rd PWR_MON).toNat (monBit m) = true ∧ bitAt t.pwr.monNow.toNat (monBit m) = true) ∧
    (∀ m ∈ [Monitor.pfVddio, .pfVddc, .pfVdda, .ovVddc, .ovVdda, .ovVddio], bitAt s.pwr.monNow.toNat (monBit m) = true →
      ∃ t, exec (.supplyMonitorCrossing m false) s = .next t ∧ bitAt t.pwr.monNow.toNat (monBit m) = false ∧
        s.Frame t [.power] []) ∧
    (∀ m s', m ∈ [Monitor.ovVddc, .ovVdda, .ovVddio] → bitAt s.pwr.monNow.toNat (monBit m) = true → s.pdOn 5 = true →
      s' = s.reach (s.pwr.ovAt.getD (monBit m - 4) 0 + msCycles 1) → ∃ t, exec (.overvoltageRepeat m) s = .next t ∧
        t.get (SAF_STRK_STRK 7) = min (s.get (SAF_STRK_STRK 7) + 1) (2 ^ (SAF_STRK_STRK 7).width - 1) ∧
        s'.Frame t [.power, .safety, .pulses, .taken, .host, .writer] ([SAF_STRK 7, SAF_LASTING, SAF_STAT, SAF_REINIT, SAF_SSEXP] ++
          (List.range 16).map (fun n => PIO_CFSTAT n) ++ cplRegs)) ∧
    (∀ ok, s.flag PWR_STAT_HFOK = true → ∃ t, exec (.lfclkCheck ok) s = .next t ∧ t.flag PWR_STAT_LFOK = ok ∧
      (ok = false → s.devState = stRun ∨ s.devState = stMeter → t.flag PWR_STAT_LFSUB = true) ∧ s.Frame t [] [PWR_STAT])

/-! ## Exposures and the ledger (R24 to R35, R107, R114, R122, R190 to R193) -/

/-- R24 to R26, R139: the regular boundary comes 32,768 HFREF cycles after the exposure's start and begins the next number; a sync
edge ends the exposure in progress early, or begins the first exposure with the number kept for it, and is counted; no setting of a
channel, point, ring or diagnostic and nothing of the powerline changes. -/
def Obligations.ExposuresFollowEachOther : Prop :=
  ∀ (s : State) (b : BoundaryIn), s.pwr.change ≠ .toStandby → s.tzl.jump = none → (∀ x ∈ s.taken, ∀ k, x.wait ≠ .reinit k) →
    (s.exp.running = true → s.follows = false → (∀ e, s.exp.syncAt = some e → s.exp.startAt + 32768 < e) →
      ∃ t, exec (.exposureBoundary b) s = .next t ∧ t.exp.running = true ∧ t.exp.cur = s.exp.cur + 1 ∧
        t.exp.startAt = s.exp.startAt + 32768 ∧ t.exp.lastEnded.map Prod.fst = some s.exp.cur ∧
        (∀ off ∈ plainRegs, t.rd off = s.rd off) ∧ Part.Same s t .powerline ∧ t.pending = s.pending) ∧
    (∀ at_, s.exp.syncAt = some at_ → s.noRun = false → (s.exp.running = true → at_ ≤ s.exp.startAt + 32768) →
      ∃ t, exec (.syncEdge b) s = .next t ∧ t.exp.running = true ∧ t.exp.startAt = at_ ∧ t.exp.syncAt = none ∧
        t.exp.cur = (if s.exp.running = true then s.exp.cur + 1 else s.exp.next) ∧
        t.flag FLT_STAT_SYNCPEND = false ∧ t.get FLT_STAT_LASTSRC = s.exp.syncSrc.toNat ∧
        t.get FLT_SYNCCNT_SYNCCNT = min (s.get FLT_SYNCCNT_SYNCCNT + 1) (2 ^ 32 - 1) ∧
        (∀ off ∈ plainRegs, t.rd off = s.rd off) ∧ Part.Same s t .powerline ∧ t.pending = s.pending) ∧
    (s.pwr.phase = .internalSync → s.pwr.pfRunning = false → ∃ t, exec .internalSync s = .next t ∧ t.pwr.phase = .done ∧
      t.flag PWR_STAT_ASBUSY = false ∧ (∀ off ∈ plainRegs, t.rd off = s.rd off) ∧ Part.Same s t .powerline ∧
      t.pending = s.pending ∧
      (s.exp.running = false → s.noRun = false → t.exp.running = true ∧ t.exp.startAt = s.exp.now ∧ t.exp.cur = s.exp.next ∧
        t.get FLT_STAT_LASTSRC = 3))

/-- R30, R34, R35, R192: an exposure on which both engines agree enters every running point's ledger with exactly its increments and
is done; where they disagree a replay is wanted and the ledger waits; after the replay an agreeing point is fixed and counted in
MET_REPLAY, a disagreeing one is discarded with its totals withheld and counted in MET_DISC; a replay that completes after the
latent deadline decides nothing, and once the deadline has passed an exposure never recomputed is discarded. -/
def Obligations.ResolutionEntersLedgerOnce : Prop :=
  ∀ (s : State) (x : Expo) (u : EngineUpset) (r : DevResult), s.exp.pipe = [x] → s.taken = [] → s.tzl.mode ≠ 2 →
    s.tzl.mirGot = [] → s.inSafe = false → x.slot.pairC = none → x.pairWait = [] → x.resolved = 0 → u.lanes = [] →
    r = upsetResult x.slot.eff x.sound u →
    (∀ d, x.dev = some d → x.fix = none → x.compared = false → x.judged = 0 → s.lateFor x.deadline = false →
      ((∀ p ∈ x.points, pointAgrees x.slot.eff d r p = true) → (∀ n ∈ x.openCh, chanAgrees d r n = true) →
        ∃ t, exec (.fixerComparison u) s = .next t ∧ t.exp.pipe = [] ∧
          ∀ p pd, p ∈ x.points → d.point p = some pd → ∀ i, i < 50 → t.ledgerReg p i =
            s.ledgerReg p i + (if i < 40 then BitVec.ofNat 108 (pd.incs.getD i 0) else 0)) ∧
      ((∃ p ∈ x.points, pointAgrees x.slot.eff d r p = false) → ∃ t y, exec (.fixerComparison u) s = .next t ∧
        t.exp.pipe = [y] ∧ y.replaying = true ∧ y.fix = some r ∧
        ∀ p ∈ x.points, pointAgrees x.slot.eff d r p = false → ∀ i, i < 50 → t.ledgerReg p i = s.ledgerReg p i)) ∧
    (∀ f, x.fix = some f → x.dev ≠ none → x.compared = true → x.replaying = true →
      (∀ p ∈ x.points, bitAt x.judged.toNat p = true ∧ r.point p ≠ none) → s.lateFor x.deadline = false → ∃ t, exec (.replayDone u) s = .next t ∧ t.exp.pipe = [] ∧ ∀ p pd, p ∈ x.points → r.point p = some pd →
        (pointAgrees x.slot.eff r f p = true → (∀ i, i < 50 → t.ledgerReg p i =
          s.ledgerReg p i + (if i < 40 then BitVec.ofNat 108 (pd.incs.getD i 0) else 0)) ∧
          t.get (MET_REPLAY_REPLAY p) = min (s.get (MET_REPLAY_REPLAY p) + 1) (2 ^ (MET_REPLAY_REPLAY p).width - 1)) ∧
        (pointAgrees x.slot.eff r f p = false → (∀ i, i < 50 → t.ledgerReg p i =
          s.ledgerReg p i + (if 40 ≤ i then BitVec.ofNat 108 (pd.incs.getD (i - 10) 0) else 0)) ∧
          t.get (MET_DISC_DISC p) = min (s.get (MET_DISC_DISC p) + 1) (2 ^ (MET_DISC_DISC p).width - 1))) ∧
    (x.fix ≠ none → x.replaying = true → s.lateFor x.deadline = true → ∃ t, exec (.replayDone u) s = .next t ∧
      ∀ p i, t.ledgerReg p i = s.ledgerReg p i) ∧
    (∀ d, x.dev = some d → x.fix = none → x.replay = none → x.compared = false → s.passed x.deadline = true →
      ∃ t, exec .latentDeadline s = .next t ∧ t.exp.pipe = [] ∧ ∀ p pd, p ∈ x.points → d.point p = some pd →
        ∀ i, i < 50 → t.ledgerReg p i = s.ledgerReg p i + (if 40 ≤ i then BitVec.ofNat 108 (pd.incs.getD (i - 10) 0) else 0))

/-- R29: with nothing before it, a finished development is published as latent for every running point, and no ledger register
changes. R107, R114, R115, R122: a stream loss is shown for its channel and strikes once; a bracketed pair goes to its low-gain
member and returns once 64 consecutive low-gain samples are possible, each switch counted. -/
def Obligations.DevelopmentAndStreams : Prop :=
  (∀ (s : State) (x : Expo) (u : EngineUpset), s.exp.pipe = [x] → x.dev = none → x.fix = none → x.compared = false →
     s.lateFor x.deadline = false → x.slot.parBad = 0 → x.slot.ecc = [] → ∃ t, exec (.developmentDone u) s = .next t ∧
       (∃ y, t.exp.pipe = [y] ∧ y.slot = x.slot ∧ y.dev = some (upsetResult x.slot.eff x.sound u) ∧ y.fix = none ∧
         ∀ p ∈ x.points, bitAt (y.latent ||| y.resolved).toNat p = true) ∧
       s.Frame t [.exposure, .host, .pulses, .safety]
         ((List.range 32).map (fun p => MET_STAT p) ++ (List.range 16).map (fun n => PIO_CFSTAT n))) ∧
  (∀ s : State, s.Sizes →
     (∀ n, n < 96 → (s.chan n).started = true → (s.chan n).held = false → (s.chan n).lost = false → s.pdOn 5 = true →
       ∃ t, exec (.streamLoss n) s = .next t ∧ (t.chan n).lost = true ∧ bitAt (t.rd (MFE_LOSS (n / 32))).toNat (n % 32) = true ∧
         bitAt (t.rd (MFE_LOSSNOW (n / 32))).toNat (n % 32) = true ∧
         t.get (SAF_STRK_STRK 2) = min (s.get (SAF_STRK_STRK 2) + 1) (2 ^ (SAF_STRK_STRK 2).width - 1) ∧
         s.Frame t [.exposure, .windows, .pulses, .safety, .taken, .host, .writer]
           ([MFE_LOSS (n / 32), MFE_LOSSNOW (n / 32), MFE_BRKST (n / 2), MFE_BRKSW (n / 2)] ++ strikeRegs)) ∧
     (∀ m k, m < 48 → (s.brk m).on = true →
       (s.flag (MFE_BRKST_SEL m) = true → ∃ t, exec (.bracketSwitch m k) s = .next t ∧ t.flag (MFE_BRKST_SEL m) = false ∧
         (t.brk m).timeline = (s.brk m).timeline ++ [(k, false)] ∧
         t.get (MFE_BRKSW_TOLG m) = min (s.get (MFE_BRKSW_TOLG m) + 1) 65535 ∧
         s.Frame t [.exposure] [MFE_BRKST m, MFE_BRKSW m]) ∧
       (s.flag (MFE_BRKST_SEL m) = false → s.flag (MFE_BRKST_HGLOSS m) = false → (s.brk m).canReturn k = true →
         ∃ t, exec (.bracketReturn m k) s = .next t ∧ t.flag (MFE_BRKST_SEL m) = true ∧
           (t.brk m).timeline = (s.brk m).timeline ++ [(k, true)] ∧
           t.get (MFE_BRKSW_TOHG m) = min (s.get (MFE_BRKSW_TOHG m) + 1) 65535 ∧
           s.Frame t [.exposure] [MFE_BRKST m, MFE_BRKSW m])))

/-! ## Power quality, pulses, trips (R43, R203 to R214, R219, R223 to R239) -/

/-- R201, R203 to R206: the next crossing of a group in confirmed samples that is not closer than 1/65 s to the accepted one is
accepted; a rising one within 1/45 s sets LOCK, unconfirmed samples not counted in that time, and every accepted one after another
gives the group's frequency; one that is closer is ignored. R43, R201, R204: where the samples show no further rising crossing in
1/45 s the frequency-range event of a group starts, LOCK is cleared and the window in progress is abandoned; the powerline MAC
free-runs once VG0 has none for 50 ms, none yet, or no channel, with its event. -/
def Obligations.ZeroCrossings : Prop :=
  (∀ (s : State) (g : Nat) (x seen : Nat) (e : BitVec 72), s.Sizes → g < 8 → s.pdOn 5 = true →
     (s.nextCross g true = some (x, seen, e) →
       ((∀ l, (s.grp g).lastRise = some l → secAt ≤ (x - l) * 65) → ∃ t, exec (.zeroCrossing g true) s = .next t ∧
         (t.grp g).lastRise = some x ∧ (t.grp g).seenRise = seen ∧ (t.grp g).frange = none ∧
         t.flag (EVT_VGSTAT_LOCK g) = (match (s.grp g).lastRise with
           | some l => decide ((x - l) * 45 ≤ secAt + s.heldAfter ((groupChans s.exp.eff g).headD 0) l * 45)
           | none => false) ∧
         (∀ l, (s.grp g).lastRise = some l → (t.grp g).fcyc = freqOf 1 (x - l)) ∧
         s.Frame t [.windows] [EVT_VGSTAT g, EVT_FREQ g, EVT_WINABT]) ∧
       (∀ l, (s.grp g).lastRise = some l → (x - l) * 65 < secAt → ∃ t, exec (.zeroCrossing g true) s = .next t ∧
         (t.grp g).lastRise = some l ∧ (t.grp g).seenRise = seen ∧ s.Frame t [.windows] [])) ∧
     (s.nextCross g false = some (x, seen, e) → (∀ l, (s.grp g).lastFall = some l → secAt ≤ (x - l) * 65) →
       ∃ t, exec (.zeroCrossing g false) s = .next t ∧ (t.grp g).lastFall = some x ∧ (t.grp g).seenFall = seen ∧
         s.Frame t [.windows] [])) ∧
  (∀ s : State,
     (∀ g v rest l due, g < 8 → s.Sizes → s.pdOn 5 = true → groupChans s.exp.eff g = v :: rest → (s.grp g).lastRise = some l →
       due = l + s.heldAfter v l + secAt / 45 + 1 → s.samplesKnown v due = true →
       s.riseBy g l due 64 (s.grp g).seenRise = false → (s.grp g).frange = none →
       ∀ s', s' = s.reach (due / 65536 + 1) → ∃ t, exec (.frequencyRangeTimeout g) s = .next t ∧
         (t.grp g).frange = some s'.ts ∧ t.flag (EVT_VGSTAT_FRANGE g) = true ∧ t.flag (EVT_VGSTAT_LOCK g) = false ∧
         (t.grp g).win = none ∧ s'.Frame t [.windows] [EVT_VGSTAT g, EVT_WINABT]) ∧
     (s.evt.macFree = false → s.pdOn 7 = true → s.CanLog →
       (groupChans s.exp.eff 0 = [] ∨ ((s.grp 0).lastRise = none ∧ s.nextCross 0 true = none) → ∃ t,
         exec .macFreeRun s = .next t ∧ t.evt.macFree = true ∧
         s.Logs t 0x0306 0 .start (s.evt.mainsNs.getD 20000000) 0 0 ∧ s.Frame t [.windows] []) ∧
       (∀ v rest l, groupChans s.exp.eff 0 = v :: rest → (s.grp 0).lastRise = some l →
         s.samplesKnown v (l + msCycles 50 * 65536) = true →
         s.riseBy 0 l (l + msCycles 50 * 65536) 64 (s.grp 0).seenRise = false →
         ∀ s', s' = s.reach ((l + msCycles 50 * 65536) / 65536) → ∃ t, exec .macFreeRun s = .next t ∧ t.evt.macFree = true ∧
           s.Logs t 0x0306 0 .start (s.evt.mainsNs.getD 20000000) 0 0 ∧ s'.Frame t [.windows] [])))

/-- R210, R211, R212, R214: the oldest half-cycle value of a group is acted on once every exposure with a sample it uses is
resolved, and until then it waits; the oldest complete window is written, one group record and one record of each channel, to the
HRM ring. -/
def Obligations.WindowsAndHalfCycles : Prop :=
  ∀ (s : State) (g : Nat), g < 8 → s.pdOn 5 = true → s.Sizes →
    (∀ u rest, (s.grp g).uhalf = u :: rest →
      (s.resolvedTo u.exp = true → (∀ n ∈ groupChans s.exp.eff g, s.samplesKnown n u.at_ = true) → ∃ t, exec (.halfCycleDecision g) s = .next t ∧ (t.grp g).uhalf = rest ∧
        (∀ i n v, i < 3 → (groupChans s.exp.eff g)[i]? = some n → s.uhalfOf n (u.from_.getD u.at_) u.at_ = some v →
          (t.grp g).newest.getD i none = some v) ∧ s.Frame t [.windows] [EVT_STAT, EVT_VGSTAT g]) ∧
      (s.resolvedTo u.exp = false ∨ (∃ n ∈ groupChans s.exp.eff g, s.samplesKnown n u.at_ = false) → ∃ t, exec (.halfCycleDecision g) s = .next t ∧ (t.grp g).uhalf = u :: rest ∧
        s.Frame t [] [])) ∧
    (∀ w rest, (s.grp g).done = w :: rest → (s.grp g).uhalf = [] →
      (∀ n ∈ s.windowChans g, s.windowReady w n = true) → s.ringRun 8 = true → s.dmaOn = true →
      (s.windowChans g).length < (s.ring 8).posted.length → (∀ b ∈ (s.ring 8).posted, 2176 ≤ b.size.toNat) →
      ∃ t, exec (.windowWrite g) s = .next t ∧ (t.grp g).done = rest ∧
        t.ringC 8 = s.ringC 8 + BitVec.ofNat 32 (1 + (s.windowChans g).length) ∧
        s.Frame t [.windows, .host] [EVT_STAT, EVT_VGSTAT g, HIF_RCIDX 8])

/-- R223 to R226: a slot of a calibration output turns whole pulse constants of its accumulator into pulses, so that accumulator and
pulses not yet risen together keep their amount; in the safe state none starts; an edge falls or rises and a rise is counted. -/
def Obligations.CalibrationPulsesKeepTheirAmount : Prop :=
  ∀ (s : State) (n : Nat), n < 16 → s.Sizes →
    (∀ x rest, (s.cf n).due = x :: rest →
      (s.flag (PIO_CFSTAT_RUN n) = true → s.inSafe = false → ∀ s', s' = s.reach x → ∃ t, exec (.cfSlot n) s = .next t ∧
        (t.cf n).due = rest ∧
        (t.cf n).slotEnd = x + 32768 ∧
        (t.cf n).acc + ((s.cfK n * (t.cf n).sched.length : Nat) : Int) =
          (s.cf n).acc + ((s.cfK n * (s.cf n).sched.length : Nat) : Int) ∧
        t.flag (PIO_CFSTAT_DEBT n) = decide ((t.cf n).acc < 0) ∧ s'.Frame t [.pulses] [PIO_CFSTAT n]) ∧
      (s.flag (PIO_CFSTAT_RUN n) = false ∨ s.inSafe = true → ∀ s', s' = s.reach x → ∃ t, exec (.cfSlot n) s = .next t ∧
        (t.cf n).due = rest ∧ (t.cf n).sched = (s.cf n).sched ∧ (t.cf n).acc = (s.cf n).acc ∧ s'.Frame t [.pulses] [])) ∧
    (∀ fall h, (s.cf n).high = some (fall, h) → ∀ s', s' = s.reach fall → ∃ t, exec (.cfPulseEdge n) s = .next t ∧
      (t.cf n).high = none ∧ t.flag (PIO_CFSTAT_HIGH n) = false ∧ t.rd (PIO_CFCNT n) = s.rd (PIO_CFCNT n) ∧
      s'.Frame t [.pulses] [PIO_CFSTAT n]) ∧
    (∀ x h rest, (s.cf n).high = none → (s.cf n).sched = (x, h) :: rest → ∀ s', s' = s.reach x →
      ∃ t, exec (.cfPulseEdge n) s = .next t ∧ (t.cf n).high = some (x + h, h) ∧ (t.cf n).sched = rest ∧ (t.cf n).lastRise = some x ∧
      t.flag (PIO_CFSTAT_HIGH n) = true ∧ t.rd (PIO_CFCNT n) = s.rd (PIO_CFCNT n) + 1 ∧
      s'.Frame t [.pulses] [PIO_CFSTAT n, PIO_CFCNT n])

/-- R228 to R232: a host trip trips its output and drives its ball; EN = 0 ends the trip and releases the ball; an acknowledge or
the end of the minimum time releases a trip without cause; a momentary source ends; a ball that reads back wrong at two successive
instants of the grid of 16,384 HFREF cycles is a fault. -/
def Obligations.TripOutputs : Prop :=
  ∀ (s : State) (n : Nat), n < 8 → s.Sizes →
    (∀ (p : Port) (v : BitVec 32), s.writable (.port p) PIO_TRHOST = true →
      bitAt (fieldOf (s.stored PIO_TRHOST v) PIO_TRHOST_HOST) n = true → s.flag (PIO_TRCFG_EN n) = true →
      ∃ t, exec (.hostTrip p v) s = .next t ∧ t.rd PIO_TRHOST = s.stored PIO_TRHOST v ∧ (t.trip n).tripped = true ∧
        (s.outputsOff = false → t.flag (PIO_TRSTAT_DRIVE n) = !s.flag (PIO_TRCFG_MODE n)) ∧ s.Frame t [.checks] [PIO_TRHOST]) ∧
    (∀ (p : Port) (v : BitVec 32), s.writable (.port p) (PIO_TRCFG n) = true →
      bitAt (s.stored (PIO_TRCFG n) v).toNat 31 = false → s.flag (PIO_TRCFG_EN n) = true →
      ∃ t, exec (.tripDisable p n v) s = .next t ∧ t.rd (PIO_TRCFG n) = s.stored (PIO_TRCFG n) v ∧
        (t.trip n).tripped = false ∧ t.flag (PIO_TRSTAT_TRIPPED n) = false ∧ t.flag (PIO_TRSTAT_LATCHED n) = false ∧
        t.flag (PIO_TRSTAT_DRIVE n) = false ∧ s.Frame t [.checks] [PIO_TRCFG n]) ∧
    (∀ (p : Port) (v : BitVec 32), s.writable (.port .pcie) PIO_TRACK = true → bitAt v.toNat n = true → s.tripSources n = 0 →
      bitAt (s.get PIO_TRHOST_HOST) n = false → s.flag (PIO_TRCFG_EN n) = true → (s.trip n).tripped = true →
      (∀ u, (s.trip n).minUntil = some u → u ≤ s.exp.now) → ∃ t, exec (.ack p v) s = .next t ∧ (t.trip n).tripped = false ∧
        t.flag (PIO_TRSTAT_TRIPPED n) = false ∧ s.Frame t [] []) ∧
    (∀ u, (s.trip n).minUntil = some u → s.tripSources n = 0 → bitAt (s.get PIO_TRHOST_HOST) n = false →
      s.flag (PIO_TRCFG_EN n) = true → (s.trip n).tripped = true → ∀ s', s' = s.reach u →
        ∃ t, exec (.mintripExpiry n) s = .next t ∧ (t.trip n).tripped = (s.flag (PIO_TRCFG_LATCH n) && !(s.trip n).acked) ∧
        s'.Frame t [] []) ∧
    (∀ p ∈ s.evt.pulses, ∃ t, exec (.momentarySourceExpiry p.1 p.2.1) s = .next t ∧
      t.evt.pulses = s.evt.pulses.filter (fun q => !(q.1 == p.1 && q.2.1 == p.2.1)) ∧ s.Frame t [.exposure] []) ∧
    (∀ (levels : BitVec 8) (from_ : Nat), s.flag (PIO_TRCFG_EN n) = true → (∀ m, m < n → (s.trip m).mismatch = 0) →
      from_ = (match s.pio.readAt with | some r => max s.exp.now (r + 1) | none => s.exp.now) →
      ∀ s', s' = s.reach (s.exp.startAt + (from_ - s.exp.startAt + 16383) / 16384 * 16384) →
        ∃ t, exec (.tripReadback levels) s = .next t ∧ t.flag (PIO_TRSTAT_PINLVL n) = bitAt levels.toNat n ∧
        ((s.trip n).changedAt + usCycles 100 ≤ s'.exp.now → s.flag (PIO_TRCFG_RBEN n) = true →
          bitAt levels.toNat n = s.flag (PIO_TRSTAT_DRIVE n) → (s.trip n).mismatch ≠ 0 → t.flag (PIO_TRSTAT_RBFLT n) = true) ∧
        s'.Frame t [.pulses, .safety, .taken, .host, .writer] strikeRegs)

/-- R233 to R235, R238: a level held for DEB is accepted then and is an input's new level, a shorter one is not; a running input
counts its counting edge, in the exposure that holds it or, where that has ended, in its registers; in a quadrature pair a change
counts forward or backward, and two at once are an error; TIMEOUT after the last edge a missing pulse is shown. -/
def Obligations.PulseInputsCount : Prop :=
  ∀ (s : State) (j at_ : Nat) (level : Bool), j < 16 → s.Sizes → s.pdOn 5 = true →
    ((s.pin j).level ≠ level → (∀ c, (s.pin j).changedAt = some c → c + s.debounce j ≤ at_) →
      s.pinQuad j = false → s.flag (PIO_PINSTAT_RUN j) = true →
      ∀ s', s' = s.reach (at_ + s.debounce j) → ∃ t, exec (.pinChangeAccepted j level at_ false) s = .next t ∧
        (t.pin j).level = level ∧ t.flag (PIO_PINSTAT_LEVEL j) = level ∧
        (level = s.flag (PIO_PINCFG_EDGE j) → (t.pin j).count = (s.pin j).count ∧ t.pio.pinq = s.pio.pinq) ∧
        (level ≠ s.flag (PIO_PINCFG_EDGE j) → s.exp.running = false ∨ s.exp.startAt ≤ at_ →
          (t.pin j).count = (s.pin j).count + 1 ∧ t.pio.pinq = s.pio.pinq) ∧
        (level ≠ s.flag (PIO_PINCFG_EDGE j) → s.exp.running = true → at_ < s.exp.startAt →
          (t.pin j).count = (s.pin j).count ∧ t.rd (PIO_PINCNT j) = s.rd (PIO_PINCNT j) + 1 ∧ (s.mirInput j = false →
            t.pio.pinq = s.pio.pinq.modify j (fun q => q + BitVec.ofNat 108 (s.pinK j)))) ∧
        s'.Frame t [.inputs] [PIO_PINSTAT j, PIO_PINCNT j]) ∧
    ((s.pin j).level ≠ level → (∀ c, (s.pin j).changedAt = some c → at_ < c + s.debounce j) → (s.pin j).changedAt ≠ none →
      ∀ both, ∃ t, exec (.pinChangeAccepted j level at_ both) s = .next t ∧ s.Frame t [] []) ∧
    ((s.pin j).level ≠ level → (∀ i ∈ [j - j % 2, j - j % 2 + 1], ∀ c, (s.pin i).changedAt = some c → c + s.debounce j ≤ at_) →
      s.pinQuad j = true → s.flag (PIO_PINSTAT_RUN (j - j % 2)) = true → s.exp.running = false ∨ s.exp.startAt ≤ at_ →
      (∀ s', s' = s.reach (at_ + s.debounce j) → ∃ t, exec (.pinChangeAccepted j level at_ false) s = .next t ∧
        (t.pin j).level = level ∧
        (let a := j - j % 2
         let forward := if j = a then (t.pin a).level != (t.pin (a + 1)).level else (t.pin a).level == (t.pin (a + 1)).level
         (t.pin a).count = (s.pin a).count + (if forward then 1 else 0) ∧
           (t.pin (a + 1)).count = (s.pin (a + 1)).count + (if forward then 0 else 1)) ∧
        s'.Frame t [.inputs] [PIO_PINSTAT j]) ∧
      (∀ s', s' = s.reach (at_ + s.debounce j) → ∃ t, exec (.pinChangeAccepted j level at_ true) s = .next t ∧ (t.pin j).level = level ∧
        (t.pin (j - j % 2 + (1 - j % 2))).level = !(s.pin (j - j % 2 + (1 - j % 2))).level ∧
        t.flag (PIO_PINSTAT_QERR (j - j % 2)) = true ∧ (t.pin j).count = (s.pin j).count ∧
        s'.Frame t [.inputs] [PIO_PINSTAT (j - j % 2), PIO_PINSTAT (j - j % 2 + 1)])) ∧
    (s.flag (PIO_PINSTAT_RUN j) = true → s.effGet (PIO_PINWD_TIMEOUT j) ≠ 0 → (s.pin j).missing = none →
      ∀ s', s' = s.reach (max (s.pin j).startedAt ((s.pin j).newest.headD 0) + s.effGet (PIO_PINWD_TIMEOUT j) * msCycles 20) →
        ∃ t, exec (.missingPulse j) s = .next t ∧ (t.pin j).missing = some s'.ts ∧ t.flag (PIO_PINSTAT_MISSING j) = true ∧
        s'.Frame t [.inputs] [PIO_PINSTAT j])

/-! ## The safety monitor (R416 to R421, R429, R430, R443) -/

/-- R416, R418, R419, R421: a vector that matches takes the exposure's slot and the next vector is due; one that fails is repeated,
counted and strikes; clocks in agreement leave nothing but the check's time and a bad one strikes; a scan pass that matches its
entry clears the segment's failure, one that does not is counted, remembered and strikes. -/
def Obligations.MonitorChecks : Prop :=
  ∀ s : State, s.saf.reinit = none → s.monStarted = true →
    (s.exp.running = true → s.saf.kavDone = false → s.kavOpen = true →
      (∃ t, exec (.kavVector true) s = .next t ∧ t.saf.kavDone = true ∧ t.saf.kavAgain = none ∧
        t.get SAF_KAV_NEXT = s.exp.cur.toNat % 32 ∧ s.Frame t [.safety] [SAF_KAV]) ∧
      (∃ t, exec (.kavVector false) s = .next t ∧ t.saf.kavDone = true ∧ t.saf.kavAgain = some s.kavVector ∧
        t.get SAF_KAV_FAILS = min (s.get SAF_KAV_FAILS + 1) 65535 ∧
        t.get (SAF_STRK_STRK 8) = min (s.get (SAF_STRK_STRK 8) + 1) (2 ^ (SAF_STRK_STRK 8).width - 1) ∧
        s.Frame t [.safety, .pulses, .taken, .host, .writer] (SAF_KAV :: strikeRegs))) ∧
    (∀ fclk filt hf : Bool,
      (fclk = true → filt = true → (hf = true ∨ s.flag PWR_STAT_LFOK = false) → ∃ t,
        exec (.clockCheck fclk filt hf) s = .next t ∧ (s.reach (s.saf.clkAt + msCycles 1)).Frame t [.safety] []) ∧
      (fclk = false ∨ filt = false ∨ (hf = false ∧ s.flag PWR_STAT_LFOK = true) → ∃ t,
        exec (.clockCheck fclk filt hf) s = .next t ∧
        t.get (SAF_STRK_STRK 6) = min (s.get (SAF_STRK_STRK 6) + 1) (2 ^ (SAF_STRK_STRK 6).width - 1) ∧
        (s.reach (s.saf.clkAt + msCycles 1)).Frame t [.safety, .pulses, .taken, .host, .writer] strikeRegs)) ∧
    (∀ (e : Nat) (ref upset : BitVec 36) (stable : Bool), s.flag SAF_CTL_EN = true → s.saf.dueSeg.contains e = true →
      refRead (s.refEntry e) = (ref, false, false) →
      (s.segmentSum e + upset = ref → ∃ t, exec (.scanPassDone e upset stable []) s = .next t ∧
        t.saf.dueSeg = s.saf.dueSeg.erase e ∧ t.saf.failedSeg.contains e = false ∧ t.get (CVU_STAT_VERDICT 3) = 0 ∧
        s.Frame t [.safety] [CVU_STAT 3]) ∧
      (s.segmentSum e + upset ≠ ref → ∃ t, exec (.scanPassDone e upset stable []) s = .next t ∧
        t.saf.dueSeg = s.saf.dueSeg.erase e ∧ t.saf.failedSeg.contains e = true ∧
        t.get (CVU_STAT_VERDICT 3) = (if stable then 3 else 2) ∧
        t.get (CVU_CNT_MISM 3) = min (s.get (CVU_CNT_MISM 3) + 1) 65535 ∧
        t.get (SAF_STRK_STRK 4) = min (s.get (SAF_STRK_STRK 4) + 1) (2 ^ (SAF_STRK_STRK 4).width - 1) ∧
        s.Frame t [.safety, .pulses, .taken, .host, .writer] ([CVU_STAT 3, CVU_CNT 3] ++ strikeRegs)))

/-- R429, R430, R443: FN_REINIT of MFE, FLT, DEV, FIX or EVT waits for the boundary while exposures run and otherwise acts and
completes with its target and the last exposure number; that of SAFETY clears strikes and lasting diagnostics and waits; that of TZL
retrains the ports, waits in a cascade and completes at once outside one; 10 ms later its timeout completes FAULT. -/
def Obligations.ReinitialisationsActOrWait : Prop :=
  ∀ (s : State) (h : CmdHdr) (a0 : BitVec 64) (k : Nat), k = a0.toNat % 2 ^ 8 →
    (s.Accepts h → s.flag PWR_STAT_ASBUSY = false → 1 ≤ k → k ≤ 5 → s.exp.running = true → ∃ t,
      exec (.fnReinit h a0) s = .next t ∧ s.Waits t 0x60 h (.reinit (BitVec.ofNat 8 k)) ∧
      s.Frame t [.taken, .host] hostRegs) ∧
    (∀ n ts, s.Accepts h → s.flag PWR_STAT_ASBUSY = false → 1 ≤ k → k ≤ 5 → s.exp.running = false → s.exp.pipe = [] →
      s.taken = [] → s.exp.lastEnded = some (n, ts) → ∃ t, exec (.fnReinit h a0) s = .next t ∧
      s.Answered t 0x60 h stDone k (n.toNat % 2 ^ 64) 0 ∧ t.get SAF_REINIT_TARGET = k ∧ t.get SAF_REINIT_STATUS = stDone ∧
      (k = 3 → t.ldg.nets = []) ∧ (k = 5 → t.evt.groups = List.replicate 8 GroupState.reset) ∧
      (∀ p i, t.ledgerReg p i = s.ledgerReg p i) ∧ Part.Same s t .powerline ∧ Part.Same s t .clock ∧ Part.Same s t .checks ∧
      Part.Same s t .fram) ∧
    (s.Accepts h → s.flag PWR_STAT_ASBUSY = false → s.saf.reinit = none → ∃ t, exec (.fnReinitSafety h) s = .next t ∧
      s.Waits t 0x60 h .reinitSafety ∧ t.saf.strikes = List.replicate 14 [] ∧ t.get SAF_LASTING_LASTING = 0 ∧
      t.flag SAF_STAT_REINIT = true ∧ s.Frame t [.safety, .checks, .taken, .host] ([SAF_LASTING, SAF_STAT] ++ hostRegs)) ∧
    (s.Accepts h → s.flag PWR_STAT_ASBUSY = false → s.flag TZL_CTL_MIRSIDE = s.tzl.side →
      s.tzl.mode = (if s.flag GLB_STRAP_MSTR = true then BitVec.ofNat 2 (s.get TZL_CTL_MODE) else 1) →
      (s.tzl.mode = 1 → ∃ t, exec (.fnReinitTzl h) s = .next t ∧ s.Waits t 0x60 h .reinitTzl ∧
        t.flag TZL_STAT_UPTRN = false ∧ t.flag TZL_STAT_DNTRN = false ∧ t.tzl.masterTs = none ∧
        s.Frame t [.link, .taken, .host] (TZL_STAT :: hostRegs)) ∧
      (∀ n ts, s.tzl.mode ≠ 1 → s.exp.lastEnded = some (n, ts) → (∀ x ∈ s.taken, x.hdr ≠ h) →
        ∃ t, exec (.fnReinitTzl h) s = .next t ∧ s.Answered t 0x60 h stDone 9 (n.toNat % 2 ^ 64) 0 ∧
          t.flag TZL_STAT_UPTRN = false ∧ t.flag TZL_STAT_DNTRN = false ∧
          t.tzl = { s.tzl with masterTs := none, reinitAt := s.exp.now } ∧
          s.Frame t [.host, .writer, .link] ([TZL_STAT, SAF_REINIT] ++ hostRegs))) ∧
    (∀ (x : Taken) (lowest : Nat) (s' : State), s' = s.reach (s.tzl.reinitAt + msCycles 10) →
      s.taken.filter (fun y => y.wait == Wait.reinitTzl) = [x] → s'.InTime x → ∃ t,
      exec (.fnReinitTzlTimeout lowest) s = .next t ∧ s'.Returns t x stFault 9 lowest 0 ∧
      s'.Frame t [.taken, .host, .writer] (SAF_REINIT :: cplRegs))

/-! ## The Tozar Link (R434 to R449) -/

/-- R434, R449: a port in use that trains shows it, and its loss event ends; a trained port that declares loss shows and logs it,
four failed frames in a row counted; a cascade slave that loses its upstream port is islanded. R433, R435, R437 to R439: frames that
failed their CRC before one that came through are counted; enumeration gives the master the number of devices and a slave its
position; a cascade start names the next first exposure, never below the device's own; an echo gives a slave or a standby its delay;
a marker gives a follower its boundary and number. -/
def Obligations.TozarPortsAndForms : Prop :=
  (∀ (s : State) (p : TzPort),
     (s.portUsed p = true → s.flag (portFlag p) = false → ∃ t, exec (.portTrained p) s = .next t ∧ t.flag (portFlag p) = true ∧
       (s.tzMaster = true → p = .down → t.tzl.out = s.tzl.out ++ [.enumeration 0 s.highest]) ∧
       (s.CanLog → (match p with | .up => s.tzl.upLost | .down => s.tzl.dnLost) = true →
         s.Logs t 0x0C01 (portIndex p) .stop 0 0 0) ∧ s.Frame t [.link] [TZL_STAT, TZL_MIRCTL]) ∧
     (∀ cause, s.flag (portFlag p) = true →
       ((s.tzSlave && p == TzPort.up && s.tzl.enumerated && !s.flag TZL_STAT_ISLAND) = false → s.CanLog → ∃ t,
         exec (.portLoss p cause) s = .next t ∧ t.flag (portFlag p) = false ∧
         s.Logs t 0x0C01 (portIndex p) .start (lossCode cause) 0 0 ∧
         t.get TZL_CRCERR_CRCERR = min (s.get TZL_CRCERR_CRCERR + (if cause = .frames then 4 else 0)) (2 ^ 32 - 1) ∧
         s.Frame t [.link] [TZL_STAT, TZL_CRCERR]) ∧
       (s.tzSlave = true → p = .up → s.tzl.enumerated = true → s.flag TZL_STAT_ISLAND = false → ∃ t,
         exec (.portLoss p cause) s = .next t ∧ t.flag (portFlag p) = false ∧ t.flag TZL_STAT_ISLAND = true ∧
         t.tzl.masterTs = none ∧ t.tzl.timeSet = false ∧ t.tzl.cut = s.exp.running ∧
         t.rtc = { s.rtc with slewNext := some (0, 0) } ∧ t.getI RTC_SLEW_RATE = 0 ∧
         s.Frame t [.link, .clock] [TZL_STAT, TZL_CRCERR, RTC_SLEW]))) ∧
  (∀ s : State, s.evt.now = [] →
     (∀ pos ndev bad, s.tzMaster = true → s.flag TZL_STAT_DNTRN = true → 1 ≤ ndev → ndev ≤ 8 → ∃ t,
       exec (.enumerationFrame pos ndev bad) s = .next t ∧ t.get TZL_STAT_NDEV = ndev ∧
       t.tzl = { s.tzl with enumerated := true } ∧ (s.pdOn 9 = true →
         t.get TZL_CRCERR_CRCERR = min (s.get TZL_CRCERR_CRCERR + min bad 3) (2 ^ 32 - 1)) ∧
       s.Frame t [.link] [TZL_STAT, TZL_CRCERR]) ∧
     (∀ pos ndev bad, s.tzSlave = true → s.flag TZL_STAT_UPTRN = true →
       (pos < 7 → ∃ t, exec (.enumerationFrame pos ndev bad) s = .next t ∧ t.get TZL_STAT_POS = pos + 1 ∧
         t.tzl = { s.tzl with enumerated := true, out := s.tzl.out ++ [.enumeration (pos + 1) s.highest] } ∧
         s.Frame t [.link] [TZL_STAT, TZL_CRCERR]) ∧
       (7 ≤ pos → s.CanLog → ∃ t, exec (.enumerationFrame pos ndev bad) s = .next t ∧
         s.Logs t 0x0C02 0 .momentary pos 0 0 ∧ s.Frame t [] [TZL_CRCERR])) ∧
     (∀ first n : BitVec 72, n = (if first.toNat < (s.highest + 1).toNat then s.highest + 1 else first) →
       s.tzl.enumerated = true →
       (s.tzMaster = true → ∃ t, exec (.cascadeStart first) s = .next t ∧
         (if s.exp.running then t.tzl = { s.tzl with jump := some n } ∧ t.exp = s.exp
           else t.exp = { s.exp with next := n } ∧ t.tzl = s.tzl) ∧ s.Frame t [.link, .exposure] []) ∧
       (s.tzSlave = true → s.flag TZL_STAT_UPTRN = true → ∃ t, exec (.cascadeStart first) s = .next t ∧
         t.flag TZL_STAT_ISLAND = false ∧ t.tzl.waiting = false ∧ t.tzl.timeSet = false ∧
         (if s.exp.running then t.tzl.jump = some n ∧ t.exp = s.exp else t.exp = { s.exp with next := n }) ∧
         s.Frame t [.link, .exposure] [TZL_STAT])) ∧
     (∀ (delay : BitVec 16) (bad : Nat), (s.tzSlave = true ∧ s.flag TZL_STAT_UPTRN = true) ∨ (s.mirStandby = true ∧ s.mirLinked = true) →
       ∃ t, exec (.echoFrame delay bad) s = .next t ∧ t.get TZL_DELAY_DELAY = delay.toNat ∧
         s.Frame t [] [TZL_DELAY, TZL_CRCERR]) ∧
     (∀ b (m : Marker), s.follows = true → s.pdOn 5 = true → s.pwr.phase = .done → s.noRun = false → s.pwr.change ≠ .toStandby →
       (s.tzl.mode = 1 → s.tzl.enumerated = true ∧ s.tzl.waiting = false) → s.tzl.takeover = none → ∃ t,
       exec (.boundaryMarker b m.expno m.ts m.sync m.snaps) s = .next t ∧ t.exp.running = true ∧ t.exp.cur = m.expno ∧
       t.exp.startAt = (s.markerAt m).1 ∧ t.tzl.masterTs.map Prod.fst = some m.ts ∧
       (∀ off ∈ plainRegs, t.rd off = s.rd off) ∧ t.pending = s.pending))

/-- R440, R441: events of a slave reach the master's window, from which a write of TZL_EVPOP removes the oldest; a record of a slave
that does not come in 5 ms is logged and no longer awaited; a remote read or write is sent once and ends with its data or an error.
-/
def Obligations.CascadeEventsAndRemoteAccesses : Prop :=
  ∀ s : State, s.evt.now = [] →
    (∀ f : ResFrame, s.tzMaster = true → s.tzl.enumerated = true → s.flag TZL_STAT_DNTRN = true → s.exp.pipe = [] →
      f.record = none → s.tzl.events.length + f.events.length ≤ 256 → ∃ t, exec (.resolutionFrame f) s = .next t ∧
      t.tzl = { s.tzl with events := s.tzl.events ++ f.events.map (fun e => (f.pos, e)) } ∧ s.Frame t [.link] [TZL_CRCERR]) ∧
    (∀ (c : CasWait) (rest : List CasWait) (pos q : Nat) (qs : List Nat), s.tzl.cascade = c :: rest → c.left = pos :: q :: qs →
      c.got = [] → s.CanLog → ∀ s', s' = s.reach (c.at_ + msCycles 5) → ∃ t, exec (.cascadeRecordMissing pos) s = .next t ∧
      t.tzl.cascade = { c with left := q :: qs } :: rest ∧
      s.Logs t 0x0C05 pos .momentary (c.expno.toNat % 2 ^ 64) 0 0 ∧ s'.Frame t [.link] []) ∧
    (∀ p v, s.pdOn 9 = true → ∃ t, exec (.tzlEvpop p v) s = .next t ∧
      t.tzl = { s.tzl with events := s.tzl.events.tail } ∧ s.Frame t [.link] []) ∧
    (∀ (p : Port) (v : BitVec 32), s.flag TZL_RSTAT_BUSY = false →
      (s.writable (.port p) TZL_RADDR = true → bitAt v.toNat 31 = true →
        ∀ (pos : Nat) (off : BitVec 16), pos = fieldOf (s.stored TZL_RADDR v) TZL_RADDR_POS →
        off = BitVec.ofNat 16 (4 * fieldOf (s.stored TZL_RADDR v) TZL_RADDR_OFFSET) → ∃ t, exec (.remoteRead p v) s = .next t ∧
        t.tzl = { s.tzl with remote := some (false, pos, off, 0), out := s.tzl.out ++ [.remote pos off none] } ∧
        t.rd TZL_RADDR = s.stored TZL_RADDR v ∧ t.flag TZL_RSTAT_BUSY = true ∧ t.flag TZL_RSTAT_RDY = false ∧
        s.Frame t [.link] [TZL_RADDR, TZL_RSTAT]) ∧
      (s.writable (.port p) TZL_RDATA = true → ∀ (pos : Nat) (off : BitVec 16), pos = s.get TZL_RADDR_POS →
        off = BitVec.ofNat 16 (4 * s.get TZL_RADDR_OFFSET) → ∃ t, exec (.remoteWrite p v) s = .next t ∧
        t.tzl = { s.tzl with remote := some (true, pos, off, v), out := s.tzl.out ++ [.remote pos off (some v)] } ∧
        t.rd TZL_RDATA = s.stored TZL_RDATA v ∧ t.flag TZL_RSTAT_BUSY = true ∧ t.flag TZL_RSTAT_RDY = false ∧
        s.Frame t [.link] [TZL_RDATA, TZL_RSTAT])) ∧
    (∀ (write : Bool) (pos : Nat) (off : BitVec 16) (v : BitVec 32), s.tzl.remote = some (write, pos, off, v) →
      (∀ d, s.tzMaster = true → s.flag TZL_STAT_DNTRN = true → pos < s.get TZL_STAT_NDEV → ∃ t,
        exec (.remoteAccessDone (some d)) s = .next t ∧ t.tzl = { s.tzl with remote := none } ∧
        t.flag TZL_RSTAT_BUSY = false ∧ (write = false → t.rd TZL_RDATA = d ∧ t.flag TZL_RSTAT_RDY = true) ∧
        (write = true → t.rd TZL_RDATA = s.rd TZL_RDATA) ∧ s.Frame t [.link] [TZL_RDATA, TZL_RSTAT]) ∧
      (∃ t, exec (.remoteAccessDone none) s = .next t ∧ t.tzl = { s.tzl with remote := none } ∧
        t.flag TZL_RSTAT_BUSY = false ∧ t.flag TZL_RSTAT_ERR = true ∧ s.Frame t [.link] [TZL_RSTAT]))

/-- R445: a mirror frame that arrives in time brings the active device's fixed increments and withheld totals of every mirrored
point into the standby's ledger and its pulse counts into the quantity registers. R444, R447: a missing mirror frame arms takeover;
at takeover, its next boundary, the standby's own increments enter its ledger and it becomes active and says so; an active device
that hears it releases its outputs; a handover is requested by a write; side 1 alone becomes active 100 ms after its READY. -/
def Obligations.MirroredPair : Prop :=
  (∀ (s : State) (f : MirFrame), s.mirStandby = true → s.tzl.enumerated = true → s.mirLinked = true → s.taken = [] →
     (∀ k, s.tzl.mirLast = some k → k.toNat < f.expno.toNat) →
     (∀ c ∈ s.tzl.sums, c.1 = f.expno → s.lateFor (mirDue c.2.2) = false) → f.releases = [] → s.Sizes → ∃ t,
     exec (.mirrorFrame f) s = .next t ∧ t.tzl.mirLast = some f.expno ∧
     (∀ p i, i < 50 → t.ledgerReg p i = s.ledgerReg p i +
       (match f.points.find? (fun q => q.1 == p) with
        | some (_, fixed, l) =>
          if p < (if f.counts.length ≤ 8 then 12 else 32) then
            if fixed then (if i < 40 then BitVec.ofNat 108 (l.getD i 0) else 0)
            else (if 40 ≤ i then BitVec.ofNat 108 (l.getD (i - 40) 0) else 0)
          else 0
        | none => 0)) ∧
     (∀ j, j < (if f.counts.length ≤ 8 then 8 else 16) →
       t.pio.pinq.getD j 0 = s.pio.pinq.getD j 0 + BitVec.ofNat 108 (f.counts.getD j 0 * s.pinK j)) ∧
     Part.Same s t .powerline ∧ Part.Same s t .clock ∧ Part.Same s t .fram) ∧
  (∀ s : State, s.evt.now = [] →
     (s.mirStandby = true → s.tzl.takeover = none →
       (∃ c ∈ s.tzl.sums, s.passed (mirDue c.2.2) = true) → ∃ t,
       exec .mirrorFrameDeadline s = .next t ∧ t.tzl = { s.tzl with takeover := some 0 } ∧ s.Frame t [.link] []) ∧
     (∀ (b : BoundaryIn) (cause : BitVec 64) (e : BitVec 72) (p : Nat) (l : List Nat), s.tzl.takeover = some cause →
       s.mirStandby = true → s.exp.running = true → s.exp.pipe = [] → s.taken = [] → s.pwr.change ≠ .toStandby →
       s.tzl.jump = none → s.tzl.own = [(e, p, l)] → ∃ t, exec (.takeover b) s = .next t ∧ t.exp.cur = s.exp.cur + 1 ∧
       t.exp.startAt = s.exp.startAt + 32768 ∧ t.flag TZL_STAT_ACTIVE = true ∧ t.tzl.takeover = none ∧ t.tzl.own = [] ∧
       .k283 ∈ t.tzl.out ∧ (∀ p' i, i < 50 → t.ledgerReg p' i =
         s.ledgerReg p' i + (if p' = p ∧ i < 40 then BitVec.ofNat 108 (l.getD i 0) else 0)) ∧
       (s.mirLinked = false → t.flag TZL_STAT_DUAL = true) ∧ (∀ off ∈ plainRegs, t.rd off = s.rd off) ∧
       Part.Same s t .powerline ∧ t.pending = s.pending) ∧
     (s.tzl.mode = 2 → s.flag TZL_STAT_ACTIVE = true →
       (∃ t, exec .k283 s = .next t ∧ t.flag TZL_STAT_ACTIVE = false ∧ t.saf.faultN = false ∧
         (∀ c ∈ t.pio.cf.take 16, c.ball = none ∧ c.high = none ∧ c.sched = []) ∧
         s.Frame t [.link, .pulses, .safety] ([TZL_STAT, TZL_MIRCTL] ++ (List.range 16).map (fun n => PIO_CFSTAT n))) ∧
       (∀ (p : Port) (v : BitVec 32), s.writable (.port p) TZL_MIRCTL = true → bitAt v.toNat 0 = true → ∃ t,
         exec (.handover p v) s = .next t ∧ t.flag TZL_MIRCTL_HANDOVER = true ∧ s.Frame t [] [TZL_MIRCTL])) ∧
     (s.tzl.mode = 2 → s.tzl.side = true → s.ready = true → s.flag TZL_STAT_UPTRN = false → s.tzl.enumerated = false →
       ∀ s', s' = s.reach (s.pwr.readyAt + msCycles 100) → ∃ t, exec .mirrorSideTimeout s = .next t ∧ t.flag TZL_STAT_ACTIVE = true ∧
         t.tzl.enumerated = true ∧ s'.Frame t [.link] [TZL_STAT, TZL_MIRCTL]))

/-! ## The powerline modem and network (R285 to R335, R398 to R404) -/

/-- R44, R308: a carrier whose energy exceeds the noise floor by CDTH, or a scheduled slot, takes the converter for reception, or is
counted in PLC_RXMISS while FCV_CAL holds it; a weaker carrier does nothing; at the end of reception the converter is released.
R291, R293, R301, R305, R309, R319, R322: an accepted transmission is counted and heard, its failed segments with it (without
impulse erasure and with the SNR met, those whose CRC fails); data that asks for it makes a SACK due 60 µs after its end that names
them; a SACK ends its transmission; a first sounding begins a negotiation as responder and a report carries it on; a beacon gives a
station its period, and an unassociated one asks for association. -/
def Obligations.Reception : Prop :=
  (∀ s : State,
     (s.pdOn 6 = true → s.pdOn 7 = true → s.flag PLC_CTL_RXEN = true → s.flag PLC_STAT_MASKERR = false →
       s.flag PLC_STAT_TXBUSY = false →
       (s.fcv.cal = none →
         (∀ energy noise, exceedsBy energy noise (5 * s.get PLC_RXCFG_CDTH) = true → ∃ t,
           exec (.carrierDetection energy noise) s = .next t ∧ t.fcv.reception = true ∧ t.flag PLC_STAT_RXBUSY = true ∧
           t.flag PLC_STAT_CD = true ∧ s.Frame t [.converter] [PLC_STAT, FCV_STAT, FCV_URG, FCV_URGRES]) ∧
         (∃ t, exec .scheduledReceive s = .next t ∧ t.fcv.reception = true ∧ t.flag PLC_STAT_RXBUSY = true ∧
           t.flag PLC_STAT_CD = s.flag PLC_STAT_CD ∧ s.Frame t [.converter] [PLC_STAT, FCV_STAT, FCV_URG, FCV_URGRES])) ∧
       (s.fcv.cal ≠ none → ∀ energy noise, exceedsBy energy noise (5 * s.get PLC_RXCFG_CDTH) = true →
         ∀ c ∈ [Instr.scheduledReceive, Instr.carrierDetection energy noise], ∃ t, exec c s = .next t ∧
         t.get PLC_RXMISS_RXMISS = min (s.get PLC_RXMISS_RXMISS + 1) (2 ^ PLC_RXMISS_RXMISS.width - 1) ∧
         s.Frame t [] [PLC_STAT, PLC_RXMISS])) ∧
     (∀ energy noise, exceedsBy energy noise (5 * s.get PLC_RXCFG_CDTH) = false → ∃ t,
       exec (.carrierDetection energy noise) s = .next t ∧ s.Frame t [] []) ∧
     (s.fcv.reception = true → ∃ t, exec .receptionRelease s = .next t ∧ t.fcv.reception = false ∧
       t.flag PLC_STAT_RXBUSY = false ∧ t.flag PLC_STAT_CD = false ∧ s.Frame t [.converter] [PLC_STAT, FCV_STAT])) ∧
  (∀ (s s' : State) (r : RxIn) (f : Fc) (i : Nat) (segs : List RxSeg), s.Hears r f i → s.Sizes → s' = s.reach (s.hfAt r.tsEnd) →
     segs = (s.rxPayload r f i).2 →
     (s.flag PLC_RXCFG_IMPEN = false → r.snrMet = true → segs = (List.range f.nseg).map (fun k => r.segs.getD k none)) ∧
     (∀ failed, f.ftype = 1 → f.mode ≠ 0 → failed = (List.range f.nseg).filter (fun k => (segs.getD k none).isNone) → ∃ t,
       exec (.transmissionReceived r) s = .next t ∧ (t.ctx i).heard = r.tsEnd ∧
       t.get PLC_RXCNT_RXCNT = min (s.get PLC_RXCNT_RXCNT + 1) (2 ^ PLC_RXCNT_RXCNT.width - 1) ∧
       t.get PLC_SEGERR_SEGERR = min (s.get PLC_SEGERR_SEGERR + failed.length) (2 ^ PLC_SEGERR_SEGERR.width - 1) ∧
       (f.ackReq = true → f.daddr ≠ 0xFFFFFF → ∃ d, t.plc.sackDue = some d ∧ d.fsn.toNat = f.fsn ∧ d.nb = i ∧
         d.failed = failed ∧ d.at_ = s'.hfAt r.tsEnd + usCycles 60) ∧ s'.Frame t [.powerline] rxRegs) ∧
     (∀ t0, f.ftype = 2 → s.plc.tx = some t0 → t0.ended = true → t0.nb = some i → t0.fsn.toNat = f.fsn → t0.ftype = 1 →
       tsKey r.tsEnd ≤ tsKey t0.deadline → ∃ t, exec (.sack r) s = .next t ∧ t.plc.tx = none ∧ t.plc.cw = 16 ∧
       (t.ctx i).expired = 0 ∧
       (∀ m, s.plc.queue = [m] → m.waitResp = false → m.respReq = false → t0.segs = m.todo.map (fun x => (m.id, x.1)) →
         t0.nseg = t0.segs.length → sackFailed f segs t0.nseg = [] → t.plc.queue = []) ∧
       s'.Frame t [.powerline, .host] (NET_ACKTO :: rxRegs ++ descRegs)) ∧
     (∀ m, f.ftype = 3 → (s.ctx i).neg = none → bitAt f.tspec 2 = false → ∃ t n, exec (.sounding r m) s = .next t ∧
       (t.ctx i).neg = some n ∧ n.initiator = false ∧ n.heard = BitVec.ofNat 4 (2 ^ bitsAt f.tspec 0 2) ∧
       assocGet [] n.snr (bitsAt f.tspec 0 2) = m.snr ∧ n.t0 = r.tsEnd ∧ s'.Frame t [.powerline] rxRegs) ∧
     (∀ n b, f.ftype = 4 → (s.ctx i).neg = some n → (∀ k, k < f.nseg → segs.getD k none ≠ none) →
       b = (List.range 4).map (fun q => mapOf (((((segs.filterMap id).map (fun x => (segRead x).2.2.2)).flatten).drop (912 * q)).take 912)) →
       ∃ t n', exec (.toneMapReport r) s = .next t ∧ (t.ctx i).neg = some n' ∧
       (n.initiator = false → n'.final = b) ∧ (n.initiator = true → n'.other = b.map (fun m => m.load)) ∧
       (f.ackReq = true → ∃ d, t.plc.sackDue = some d ∧ d.fsn.toNat = f.fsn ∧ d.failed = []) ∧
       s'.Frame t [.powerline] rxRegs) ∧
     (f.ftype = 0 → s.station = true → ∃ t, exec (.beacon r) s = .next t ∧ t.plc.bStart = some (s'.hfAt r.tsFirst) ∧
       t.plc.bpLen = bitsAt f.tspec 61 22 ∧ t.plc.bSeq.toNat = bitsAt f.tspec 91 8 ∧ t.get NET_STAT_MISSED = 0 ∧
       (s.flag NET_STAT_ASSOC = false → s.plc.assocReq = none → t.plc.assocReq = some s.plc.macSeq ∧
         ∃ m ∈ t.plc.queue, m.mtype = 2 ∧ m.seq = s.plc.macSeq) ∧
       (s.flag NET_CTL_TDEN = false → s'.Frame t [.powerline] (NET_STAT :: rxRegs))))

/-- R310, R316, R400, R403: a complete MAC frame for this device waits for the host; the coordinator answers the association request
of a node it knows and makes it associated; a station takes the response to its request; a repeater stores the entry of a route-set
frame. -/
def Obligations.MacFramesAreActedOn : Prop :=
  ∀ s : State, s.Sizes →
    (∀ (a : Assembly) (rest : List Assembly) (frame : List (BitVec 8)) (h : Nat), s.plc.ready = a :: rest →
      frame = (a.parts.map (·.2)).flatten → 16 ≤ frame.length → h = natLE (frame.take 16) → bitAt h 8 = false →
      (s.ctx a.nb).keyIdx.toNat = noKey → bitsAt h 0 8 = 1 → bitAt h 9 = false →
      (bitsAt h 40 24 = s.ownLaddr.toNat ∨ bitsAt h 40 24 = 0xFFFFFF) → s.plc.rxQ.length < 16 →
      ∃ t x, exec .macFrameComplete s = .next t ∧ t.plc.rxQ = s.plc.rxQ ++ [x] ∧ t.plc.ready = rest ∧ x.mtype = 1 ∧
        x.frame = bytesLE 16 h ++ frame.drop 16 ∧ s.Frame t [.powerline] []) ∧
    (∀ (s' : State) (r : RxIn) (i seq : Nat) (frame : List (BitVec 8)) (h : Nat), s.HearsFrame r i seq frame →
      h = natLE (frame.take 16) → s' = s.reach (s.hfAt r.tsEnd) →
      (∀ (node : BitVec 64) (e : DirEntry), bitsAt h 0 8 = 2 → s.station = false →
        (bitsAt h 40 24 = 0 ∨ bitsAt h 40 24 = 0xFFFFFF) → node = BitVec.ofNat 64 (natLE ((frame.drop 16).take 8)) →
        s.dirFind node = some e → s.dirSeen node = true → s.plc.cache.length ≤ 4096 → (e.state = 1 ∨ e.state = 2 ∨ e.state = 3) → ∃ t, exec (.associationRequest r) s = .next t ∧
          (∃ m ∈ t.plc.queue, m.mtype = 3 ∧ m.node = node ∧ m.rseq.toNat = seq % 2 ^ 16) ∧
          (∃ e', t.dirFind node = some e' ∧ e'.state = 2 ∧ e'.laddr = e.laddr) ∧ s'.Frame t [.powerline] rxRegs) ∧
      (∀ (q : BitVec 16) (d : BitVec 64), bitsAt h 0 8 = 3 → s.station = true → s.flag NET_STAT_ASSOC = false →
        s.plc.assocReq = some q → s.plc.assocDeadline = some d → q.toNat = bitsAt h 112 16 → tsKey r.tsEnd ≤ tsKey d →
        ∃ t, exec (.associationResponse r) s = .next t ∧ t.flag NET_STAT_ASSOC = true ∧
          t.get NET_LADDR_LADDR = natLE ((frame.drop 16).take 8) % 2 ^ 24 ∧ t.plc.assocReq = none ∧
          s'.Frame t [.powerline] ([NET_LADDR, NET_STAT, HIF_STAT, HIF_DMAERR] ++ rxRegs)) ∧
      (∀ (node : BitVec 64) (e : DirEntry) (n : Nat), bitsAt h 0 8 = 4 → s.station = true → s.flag NET_CTL_RPT = true →
        (bitsAt h 40 24 = s.ownLaddr.toNat ∨ bitsAt h 40 24 = 0xFFFFFF) → (frame.drop 16).length = 32 →
        node = BitVec.ofNat 64 (natLE ((frame.drop 16).take 8)) → n = natLE (((frame.drop 16).drop 8).take 8) →
        s.dirFind node = some e → ∃ t e', exec (.routeSetFrame r) s = .next t ∧ t.dirFind node = some e' ∧
          e'.laddr = BitVec.ofNat 24 n ∧ e'.hops = BitVec.ofNat 3 (n / 2 ^ 24) ∧ e'.keyIdx = BitVec.ofNat 16 (n / 2 ^ 32) ∧
          s'.Frame t [.powerline] ([NET_CTXFULL, HIF_STAT, HIF_DMAERR] ++ rxRegs)))

/-- R39, R401, R402: a PLC_TX descriptor in order queues its MAC frame, or waits for its directory lookup, which queues it or fails
it; a ROUTE_SET queues a route-set frame; a descriptor refused or of a length out of range completes, as does one whose deadline
passes, unless the response it awaits may have arrived. -/
def Obligations.FramesAreQueued : Prop :=
  ∀ s : State,
    (∀ (d : Desc8) (payload : Fetch (List (BitVec 8))) (key : Fetch (BitVec 128)) (i : BitVec 32) (len : Nat),
      s.nextDesc 9 = some i → len = bitsAt d.d4.toNat 0 16 →
      ((s.txRefused = true ∨ len = 0 ∨ (if bitAt d.d0.toNat 0 then 8168 else 8176) < len) → (s.ring 9).open_ = [] → s.Sizes → ∃ t, exec (.plcTx d payload key) s = .next t ∧
        t.ringC 9 = s.ringC 9 + 1 ∧ t.plc = s.plc ∧ s.Frame t [.host] [HIF_RCIDX 9]) ∧
      (∀ l, s.txRefused = false → payload = .ok l → 1 ≤ len → len ≤ (if bitAt d.d0.toNat 0 then 8168 else 8176) →
        (bitAt d.d0.toNat 3 = true → ∃ t m, exec (.plcTx d payload key) s = .next t ∧ t.plc.queue = s.plc.queue ++ [m] ∧
          m.desc = some (9, i) ∧ m.bcast = true ∧ m.mtype = 1 ∧ m.body = l.take len ∧ m.seq = s.plc.macSeq ∧
          s.Frame t [.powerline, .host] []) ∧
        (bitAt d.d0.toNat 3 = false → ¬ (s.station = true ∧ d.d2 = 0) → s.dirReady = true →
          (s.plc.cache.any (fun e => e.1 == d.d2) = false → ∃ t m, exec (.plcTx d payload key) s = .next t ∧
            t.plc.lookWait = s.plc.lookWait ++ [m] ∧ m.desc = some (9, i) ∧ m.node = d.d2 ∧ m.body = l.take len ∧
            s.Frame t [.powerline, .host] []) ∧
          (∀ e, s.plc.cache.any (fun e => e.1 == d.d2) = true → s.dirFind d.d2 = some e → ∃ t m,
            exec (.plcTx d payload key) s = .next t ∧ t.plc.queue = s.plc.queue ++ [m] ∧ m.desc = some (9, i) ∧
            m.final = e.laddr ∧ m.prot = bitAt d.d0.toNat 0 ∧
            s.Frame t [.powerline, .host] (if e.hops = 0 then [NET_CTXFULL, HIF_STAT, HIF_DMAERR] else []))))) ∧
    (∀ (m : MacTx) (rest : List MacTx) (key : Fetch (BitVec 128)), s.plc.lookWait = m :: rest →
      (∀ e, s.dmaOn = true → s.dirFind m.node = some e → ∃ t m', exec (.directoryLookupMiss (.ok ()) key) s = .next t ∧
        t.plc.queue = s.plc.queue ++ [m'] ∧ t.plc.lookWait = rest ∧ m'.desc = m.desc ∧ m'.final = e.laddr ∧
        t.flag NET_STAT_DIRUNR = false ∧
        s.Frame t [.powerline] (NET_STAT :: (if e.hops = 0 then [NET_CTXFULL, HIF_STAT, HIF_DMAERR] else []))) ∧
      (∀ c a, ∃ t, exec (.directoryLookupMiss (.fault c a) key) s = .next t ∧ t.plc.lookWait = rest ∧
        t.flag NET_STAT_DIRUNR = true ∧
        t.get NET_LOOKMISS_COUNT = min (s.get NET_LOOKMISS_COUNT + 1) (2 ^ 32 - 1) ∧
        s.Frame t [.powerline, .host] ([NET_STAT, NET_LOOKMISS, HIF_STAT, HIF_DMAERR] ++ descRegs))) ∧
    (∀ (d : Desc8) (i : BitVec 32) (e : DirEntry) (l : List (BitVec 8)), s.nextDesc 12 = some i → bitsAt d.d0.toNat 0 8 = 0x20 →
      s.dirReady = true → s.txRefused = false → s.dirFind d.d1 = some e →
      32 ≤ bitsAt d.d3.toNat 0 32 → bitsAt d.d3.toNat 0 32 ≤ 8160 → bitsAt d.d3.toNat 0 32 % 32 = 0 → ∃ t m,
      exec (.routeSet d (.ok l)) s = .next t ∧ t.plc.queue = s.plc.queue ++ [m] ∧ m.desc = some (12, i) ∧ m.mtype = 4 ∧
      m.final = e.laddr ∧ m.body = l.take (bitsAt d.d3.toNat 0 32) ∧ s.Frame t [.powerline, .host] []) ∧
    (∀ (m : MacTx) (idx : BitVec 32) (d : BitVec 64), m ∈ s.plc.queue → m.desc = some (9, idx) → m.deadline = some d →
      s.passed d = true → (∀ m' ∈ s.plc.queue ++ s.plc.lookWait, m'.desc = m.desc → m' = m) →
      ((m.waitResp && s.arrivalPending d) = false → ∃ t, exec (.plcTxDeadlineExpiry idx) s = .next t ∧
        t.plc.queue = s.plc.queue.filter (fun x => x.id != m.id) ∧ s.Frame t [.powerline, .host] [HIF_RCIDX 9]) ∧
      ((m.waitResp && s.arrivalPending d) = true → ∃ t, exec (.plcTxDeadlineExpiry idx) s = .next t ∧ t.plc = s.plc ∧
        s.Frame t [] []))

/-- R285, R289, R309, R320, R333, R334: a device with work draws its backoff in the contention period; a broadcast frame that fits
goes on the line at the backoff's end; the end of a transmission is counted, where the line driver did not cut it, and awaits its
SACK where one was asked for; a SACK that is due is sent, and its MAPINV invalidates the link's maps; without a SACK the contention
window doubles; the line driver's overtemperature cuts and stops transmission until it has cooled. -/
def Obligations.TransmissionsUseTheLine : Prop :=
  ∀ s : State,
    (∀ s' k limit, s' = s.reach s.plc.txAfter → s.txIdle = true → s.hasWork = true → s'.allocNow = none →
      s'.contentionNow = some limit → s.flag PLC_STAT_CD = false → s.plc.backoff = none → ∃ t,
      exec (.transmissionStart k) s = .next t ∧ t.plc.backoff = some (s'.exp.now + k % s.plc.cw * usCycles 40) ∧
      s'.Frame t [.powerline] []) ∧
    (∀ s' b limit m, s.plc.backoff = some b → s' = s.reach b → s'.contentionNow = some limit → s.txIdle = true →
      s.plc.queue = [m] → m.bcast = true → m.waitResp = false → m.todo ≠ [] →
      (∀ i, i < 256 → (s.ctx i).valid = true → (s.ctx i).neg = none) →
      s'.segsToSend none m.todo.length m.todo.length limit false ≠ 0 → ∃ t, exec .backoffExpiry s = .next t ∧
        t.plc.backoff = none ∧ t.flag PLC_STAT_TXBUSY = true ∧ t.plc.out.length = s.plc.out.length + 1 ∧
        t.plc.fsn = s.plc.fsn + 1 ∧ s'.Frame t [.powerline] [PLC_STAT]) ∧
    (∀ (t0 : TxNow) (clipped : Nat), s.plc.tx = some t0 → t0.ended = false → ∃ t, exec (.transmissionEnd clipped none) s = .next t ∧
      t.flag PLC_STAT_TXBUSY = false ∧
      t.get PLC_TXCNT_TXCNT = min (s.get PLC_TXCNT_TXCNT + if t0.cut then 0 else 1) (2 ^ PLC_TXCNT_TXCNT.width - 1) ∧
      (if t0.ackReq then t.plc.tx = some { t0 with ended := true, deadline := s.sackDeadline } else t.plc.tx = none) ∧
      s.Frame t [.powerline, .host] ([PLC_STAT, PLC_TXCNT, PLC_CLIPCNT] ++ (if t0.cut then [NET_ACKTO] else []) ++ descRegs)) ∧
    (∀ s' d, s.plc.sackDue = some d → s' = s.reach d.at_ → s.txAble = true → s.plc.tx = none → ∃ t t0,
      exec .sackTransmit s = .next t ∧
      t.plc.tx = some t0 ∧ t.plc.sackDue = none ∧ t0.fsn = d.fsn ∧ t0.ftype = 2 ∧ t.flag PLC_STAT_TXBUSY = true ∧
      t.plc.out.length = s.plc.out.length + 1 ∧
      (d.mapInv ≠ none → (s.ctx d.nb).neg = none → ∀ q, ((t.ctx d.nb).map q).valid = false) ∧
      s'.Frame t (if s.flag PLC_STAT_RXBUSY then [.powerline, .converter] else [.powerline]) [PLC_STAT, FCV_STAT]) ∧
    (∀ t0, s.plc.tx = some t0 → t0.ended = true → s.passed t0.deadline = true → ∃ t, exec .sackTimeout s = .next t ∧
      t.plc.tx = none ∧ t.plc.cw = min 256 (2 * s.plc.cw) ∧ t.plc.txAfter = s.exp.now + usCycles 20 ∧
      s.Frame t [.powerline, .host] (NET_ACKTO :: descRegs)) ∧
    (s.pdOn 7 = true → s.CanLog → s.plc.overTemp = false → ∃ t, exec .lineDriverOvertemp s = .next t ∧ t.plc.overTemp = true ∧
      (∀ t0, s.plc.tx = some t0 → t0.ended = false → ∃ t1, t.plc.tx = some t1 ∧ t1.cut = true) ∧ s.Logs t 0x0802 0 .start 0 0 0 ∧ s.Frame t [.powerline] []) ∧
    (s.CanLog → s.plc.overTemp = true → ∃ t, exec .lineDriverCooled s = .next t ∧ t.plc.overTemp = false ∧
      s.Logs t 0x0802 0 .stop 0 0 0 ∧ s.Frame t [.powerline] [])

/-- R305, R306, R316 to R318: the coordinator's beacon period starts where the last one ends and its beacon goes on the line; a
missed beacon is counted and the eighth disassociates the station; a node not heard is lost; a station whose request is not answered
asks again; negotiations time out and are refreshed. -/
def Obligations.NetworkTimers : Prop :=
  ∀ s : State,
    (∀ s' b, b = (match s.plc.bStart with | some b => b + s.plc.bpLen | none => s.exp.now) → s' = s.reach b →
      s.station = false → s.flag NET_CTL_EN = true → s.pdOn 7 = true → ∃ t, exec .beaconPeriodStart s = .next t ∧
      t.plc.bStart = some b ∧ t.plc.bpLen = s'.periodLen ∧
      t.plc.bSeq = s.plc.bSeq + 1 ∧ t.plc.backoff = none ∧
      (s.txIdle = true → t.flag PLC_STAT_TXBUSY = true ∧ t.plc.out.length = s.plc.out.length + 1) ∧
      s'.Frame t [.powerline] [PLC_STAT]) ∧
    (∀ s' b, s.plc.bStart = some b → s' = s.reach (b + s.plc.bpLen + msCycles 2) → s.station = true → s.flag NET_CTL_EN = true → s.pdOn 7 = true → ∃ t,
      exec .beaconMissed s = .next t ∧ t.plc.bStart = some (b + s.plc.bpLen) ∧ t.plc.alloc = [] ∧
      t.get NET_STAT_MISSED = min (s.get NET_STAT_MISSED + 1) 15 ∧
      t.flag NET_STAT_ASSOC = (s.flag NET_STAT_ASSOC && decide (s.get NET_STAT_MISSED < 7)) ∧
      s'.Frame t [.powerline] [NET_STAT]) ∧
    (∀ node e, s.dirFind node = some e → s.station = false → e.state = 2 → s.CanLog →
      tsKey e.heard + s.get NET_CTL_LOSTTO * s.beaconUnits ≤ tsKey s.ts → ∃ t e', exec (.nodeLost node) s = .next t ∧
      t.dirFind node = some e' ∧ e'.state = 3 ∧ s.Logs t 0x0841 0 .momentary e.laddr.toNat 1 0 ∧ s.Frame t [.powerline] []) ∧
    (∀ d, s.plc.assocDeadline = some d → s.passed d = true → s.arrivalPending d = false → s.station = true → s.flag NET_STAT_ASSOC = false → ∃ t m,
      exec .associationResponseTimeout s = .next t ∧ t.plc.queue = s.plc.queue ++ [m] ∧ m.mtype = 2 ∧
      t.plc.assocReq = some s.plc.macSeq ∧ t.plc.assocDeadline = none ∧ s.Frame t [.powerline] []) ∧
    (∀ i n, i < 256 → s.Sizes → (s.ctx i).neg = some n → s.passed (tsLater n.tPrev (2 * s.beaconUnits)) = true → ∃ t,
      exec (.negotiationStepTimeout i) s = .next t ∧
      (if 3 ≤ n.attempt then (t.ctx i).neg = none ∧ (∀ q, ((t.ctx i).map q).valid = false) ∧
          (t.ctx i).negHold = tsLater s.ts (s.get PLC_LINKCFG_REFINT * 2 ^ 24)
        else if n.initiator then (t.ctx i).neg = some (s.newNeg true (n.attempt + 1)) else (t.ctx i).neg = none) ∧
      s.Frame t [.powerline] []) ∧
    (∀ i, i < 256 → s.Sizes → (s.ctx i).valid = true → (s.ctx i).neg = none →
      (s.ctx i).newestNeg + s.get PLC_LINKCFG_REFINT * 2 ^ 24 < tsKey s.ts → tsKey (s.ctx i).negHold ≤ tsKey s.ts → ∃ t,
      exec (.refreshInterval i) s = .next t ∧ (t.ctx i).neg = some (s.newNeg true 1) ∧ s.Frame t [.powerline] [])

/-- R325 to R329, R402: the directory is initialised, its table copied to another and the copy abandoned; its operations complete
their NET descriptors: an added entry is in the table, a removed place is free, a set field is changed, a read entry is written to
its buffer, from the new table where its bucket has been copied (R328). R305, R312, R322, R402: the context operations complete
their NET descriptors: a read context is written to its buffer, a written one has the image's address, a new key replaces the old
one with fresh counters and an equal one is refused, a freed one is not valid, and a renegotiation starts, unless the next attempt
waits for the refresh interval. -/
def Obligations.DirectoryAndContexts : Prop :=
  (∀ s : State,
     (∀ (p : Port) (v : BitVec 32), s.writable (.port p) NET_DIRCTL = true →
       (bitAt v.toNat 0 = true → ∃ t, exec (.init p v) s = .next t ∧ t.plc.dir = none ∧ t.plc.initBusy = some s.stagedDir ∧
         t.plc.cache = [] ∧ t.dirReady = false ∧
         s.Frame t [.powerline] [NET_DIRCTL, NET_DIRINFO, NET_STAT, NET_RHCUR]) ∧
       (bitAt v.toNat 0 = false → bitAt v.toNat 1 = true → bitAt v.toNat 2 = false → s.dirReady = true → s.plc.newDir = none →
         ∃ t, exec (.rehash p v) s = .next t ∧ t.plc.newDir = some s.stagedDir ∧ t.plc.dir = s.plc.dir ∧
           t.get NET_RHCUR_RHCUR = 0 ∧ t.flag NET_STAT_REHASH = true ∧
           s.Frame t [.powerline] [NET_DIRCTL, NET_STAT, NET_RHCUR]) ∧
       (∀ u, bitAt v.toNat 0 = false → bitAt v.toNat 1 = false → bitAt v.toNat 2 = true → s.plc.newDir = some u → s.CanLog →
         ∃ t, exec (.abort p v) s = .next t ∧ t.plc.newDir = none ∧ t.plc.dir = s.plc.dir ∧ t.flag NET_STAT_REHASH = false ∧
           s.Logs t 0x0846 0 .momentary 1 (s.get NET_RHCUR_RHCUR) 0 ∧ s.Frame t [.powerline] [NET_DIRCTL, NET_STAT])) ∧
     (∀ u, s.plc.initBusy = some u → s.dmaOn = true → ∃ t, exec .directoryInitDone s = .next t ∧ t.plc.dir = some u ∧
       t.plc.initBusy = none ∧ t.dirReady = true ∧ s.Frame t [.powerline] [NET_DIRCTL, NET_DIRINFO, NET_STAT]) ∧
     (∀ tb u b, s.plc.dir = some tb → s.plc.newDir = some u → s.dmaOn = true → b = s.get NET_RHCUR_RHCUR →
       (tb.places b).filterMap tb.entry = [] → ∃ t, exec .rehashBucketCopy s = .next t ∧
         (if b + 1 < 2 ^ tb.bkt then t.plc.dir = some tb ∧ t.plc.newDir = some u
           else t.plc.dir = some u ∧ t.plc.newDir = none ∧ t.flag NET_STAT_REHASH = false) ∧
         t.get NET_RHCUR_RHCUR = (b + 1) % 2 ^ 17 ∧
         s.Frame t [.powerline] [NET_DIRCTL, NET_DIRINFO, NET_STAT, NET_RHCUR]) ∧
     (∀ (d : Desc8) (i : BitVec 32) (tb : DirTable), s.nextDesc 12 = some i → s.dirReady = true → s.plc.dir = some tb →
       (∀ l e tb' p, bitsAt d.d0.toNat 0 8 = 0x01 → 64 ≤ bitsAt d.d3.toNat 0 32 → tb.find d.d1 = none → tb.count < 131072 →
         e = { entryOf d.d1 (bytesToSlots 8 l) with heard := 0, sent := 0, recvd := 0, failed := 0, retx := 0 } →
         tb.add e = some (tb', p) → ∃ t, exec (.dirAdd d (.ok l)) s = .next t ∧ t.plc.dir = some tb' ∧
           t.get NET_DIRINFO_NODES = tb'.count % 2 ^ 18 ∧
           s.Frame t [.powerline, .host] [NET_DIRCTL, NET_DIRINFO, NET_STAT, HIF_RCIDX 12]) ∧
       (∀ l e, bitsAt d.d0.toNat 0 8 = 0x02 → 64 ≤ bitsAt d.d3.toNat 0 32 → s.dirFind d.d1 = some e → ∃ t e',
         exec (.dirSet d (.ok l)) s = .next t ∧ t.dirFind d.d1 = some e' ∧
         e'.laddr = (if bitAt d.d4.toNat 0 = true then (entryOf d.d1 (bytesToSlots 8 l)).laddr else e.laddr) ∧
         e'.state = (if bitAt d.d4.toNat 1 = true then (entryOf d.d1 (bytesToSlots 8 l)).state else e.state) ∧
         e'.hops = (if bitAt d.d4.toNat 2 = true then (entryOf d.d1 (bytesToSlots 8 l)).hops else e.hops) ∧
         e'.sent = e.sent ∧ s.Frame t [.powerline, .host] [HIF_RCIDX 12]) ∧
       (∀ p, bitsAt d.d0.toNat 0 8 = 0x03 → tb.find d.d1 = some p → (tb.entry p).isSome = true → ∃ t,
         exec (.dirRemove d) s = .next t ∧ t.plc.dir = some (tb.remove p (tb.bucket d.d1)) ∧
         s.Frame t [.powerline, .host] [NET_DIRINFO, HIF_RCIDX 12]) ∧
       (∀ u p, bitsAt d.d0.toNat 0 8 = 0x04 → 64 ≤ bitsAt d.d3.toNat 0 32 →
         (if s.copiedToo d.d1 then s.plc.newDir else s.plc.dir) = some u → u.find d.d1 = some p → ∃ t,
         exec (.dirRead d) s = .next t ∧ HostWrite.mem d.d2 (u.image p) ∈ t.hif.out ∧
         s.Frame t [.host] [HIF_RCIDX 12]))) ∧
  (∀ (s : State) (d : Desc8) (r : BitVec 32) (i : Nat), s.Sizes → s.nextDesc 12 = some r → i = bitsAt d.d1.toNat 0 8 →
     (bitsAt d.d0.toNat 0 8 = 0x10 → (s.ctx i).valid = true → 4096 ≤ bitsAt d.d3.toNat 0 32 → ∃ t,
       exec (.ctxRead d) s = .next t ∧ HostWrite.bytes d.d2 (s.ctx i).bytes ∈ t.hif.out ∧ s.Frame t [.host] [HIF_RCIDX 12]) ∧
     (∀ l link, bitsAt d.d0.toNat 0 8 = 0x11 → 4096 ≤ bitsAt d.d3.toNat 0 32 → link = natLE ((l.drop 8).take 8) →
       (bitAt d.d4.toNat 1 = false → ∃ t, exec (.ctxWrite d (.ok l)) s = .next t ∧
         (t.ctx i).laddr = BitVec.ofNat 24 link ∧ (t.ctx i).valid = bitAt link 32 ∧
         (t.ctx i).eui = BitVec.ofNat 64 (natLE (l.take 8)) ∧ s.Frame t [.powerline, .host] [HIF_RCIDX 12]) ∧
       (∀ k, bitAt d.d4.toNat 1 = true →
         (¬ ((s.ctx i).keyOk = true ∧ (s.ctx i).key = k) → ∃ t, exec (.ctxWriteRekey d (.ok l) (.ok k)) s = .next t ∧
           (t.ctx i).key = k ∧ (t.ctx i).keyOk = true ∧ (t.ctx i).txCtr = 0 ∧ (t.ctx i).rxCtr = 0 ∧
           (t.ctx i).exhausted = false ∧ (t.ctx i).laddr = BitVec.ofNat 24 link ∧
           s.Frame t [.powerline, .host] [HIF_RCIDX 12]) ∧
         ((s.ctx i).keyOk = true → (s.ctx i).key = k → ∃ t, exec (.ctxWriteRekey d (.ok l) (.ok k)) s = .next t ∧
           t.plc = s.plc ∧ s.Frame t [.host] [HIF_RCIDX 12]))) ∧
     (bitsAt d.d0.toNat 0 8 = 0x12 → (s.ctx i).valid = true → s.ctxQueued i = false → ∃ t, exec (.ctxFree d) s = .next t ∧
       (t.ctx i).valid = false ∧ (t.ctx i).gen = (s.ctx i).gen ∧ s.Frame t [.powerline, .host] [HIF_RCIDX 12]) ∧
     (bitsAt d.d0.toNat 0 8 = 0x13 → (s.ctx i).valid = true → ∃ t, exec (.reneg d) s = .next t ∧
       (if (s.ctx i).neg = none ∧ tsKey s.ts < tsKey (s.ctx i).negHold then (t.ctx i).neg = none
         else ∃ n, (t.ctx i).neg = some n ∧ ((s.ctx i).neg = none → n = s.newNeg true 1)) ∧
       s.Frame t [.powerline, .host] [HIF_RCIDX 12]))

/-! ## The real-time clock (R336 to R362) -/

/-- R342, R344, R346: a write of RTC_CTL raises the commit, step and capture requests, COMMITPEND and STEPPEND show the first two,
and a capture request clears CAPVALID; nothing else changes. R337, R342 to R344, R346: at the tick edge after its request (`u` is
what an LFCLK edge without a tick before it leaves, and `e` the time that the edge makes) the staged time is loaded, a pending step
discarded and OSF cleared, or the commit is refused with WERR; a step is added to the time; a capture latches SEC and TICK as the
edge leaves them and sets CAPVALID. -/
def Obligations.ClockRequests : Prop :=
  (∀ (s : State) (p : Port) (v : BitVec 32), s.pd1On = true →
     (bitAt v.toNat 0 = true → ∃ t, exec (.rtcCtlCommit p v) s = .next t ∧ t.rtc.commit = true ∧
       t.flag RTC_STAT_COMMITPEND = true ∧ s.Frame t [.clock] [RTC_STAT]) ∧
     (bitAt v.toNat 2 = true → s.rtc.step = none → ∃ t, exec (.rtcCtlStep p v) s = .next t ∧
       t.rtc.step = some (signedOf 37 (s.wide [RTC_STEPSEC_LO, RTC_STEPSEC_HI] % 2 ^ 37), s.get RTC_STEPTICK_STEP) ∧
       t.flag RTC_STAT_STEPPEND = true ∧ s.Frame t [.clock] [RTC_STAT]) ∧
     (bitAt v.toNat 1 = true → s.ready = true → s.pdOn 5 = true → ∃ t, exec (.rtcCtlCapture p v) s = .next t ∧
       t.rtc.capture = true ∧ t.flag RTC_STAT_CAPVALID = false ∧ s.Frame t [.clock] [RTC_STAT])) ∧
  (∀ s u e : State, u = s.beforeTick → u.lfTicks ≠ 0 → e = u.lfEdge →
     (∀ k, s.commitPending = true → s.stagedTime = some k → ∃ t, exec .commitTakesEffect s = .next t ∧
       t.rtc.sec = k / 32768 ∧ t.rtc.tick = k % 32768 ∧ t.rtc.commit = false ∧ t.rtc.step = none ∧
       t.flag RTC_STAT_OSF = false ∧ (s.devState ≠ stStandby → t.exp.still = s.exp.still ∧ s.Frame t tickParts tickRegs)) ∧
     (s.commitPending = true → s.stagedTime = none → ∃ t, exec .commitTakesEffect s = .next t ∧
       t.ticks = e.ticks ∧ t.rtc.commit = false ∧ t.rtc.step = none ∧ t.flag RTC_STAT_WERR = true ∧
       (s.devState ≠ stStandby → t.exp.still = s.exp.still ∧ s.Frame t tickParts tickRegs)) ∧
     (∀ (sec : Int) (tick : Nat), s.rtc.step = some (sec, tick) → s.commitPending = false →
       0 ≤ (e.ticks : Int) + sec * 32768 + tick → (e.ticks : Int) + sec * 32768 + tick ≤ (secMax : Int) * 32768 + 32767 →
       ∃ t, exec .stepTakesEffect s = .next t ∧ (t.ticks : Int) = e.ticks + sec * 32768 + tick ∧ t.rtc.step = none ∧
         t.flag RTC_STAT_OSF = false ∧ (s.devState ≠ stStandby → t.exp.still = s.exp.still ∧ s.Frame t tickParts tickRegs)) ∧
     (s.rtc.capture = true → s.pdOn 5 = true → ∃ t, exec .captureLatch s = .next t ∧
       t.wide [RTC_CAPSEC_LO, RTC_CAPSEC_HI] = t.rtc.sec % 2 ^ 64 ∧ t.get RTC_CAPFRAC_CAP = t.rtc.tick % 2 ^ 15 ∧
       t.flag RTC_STAT_CAPVALID = true ∧ t.rtc.capture = false ∧
       (s.devState ≠ stStandby → t.exp.still = s.exp.still ∧ s.Frame t tickParts tickRegs)))

/-- R336, R337: at each LFCLK edge the accumulator adds the total correction; it inserts a tick when it reaches 10^8 and suppresses
one when it reaches -10^8; the ticks carry into the seconds at 32,768, and beyond the largest seconds count TICK is 0 and SECSAT is
set. -/
def Obligations.TickEdgeAdvancesTime : Prop :=
  ∀ (s : State) (n : Nat), s.rtc.tick < 32768 → s.rtc.sec ≤ secMax → s.commitPending = false → s.rtc.step = none →
    n = (if 100000000 ≤ s.rtc.acc + s.corrTotal then 2 else if s.rtc.acc + s.corrTotal ≤ -100000000 then 0 else 1) →
    ∃ t, exec .tickEdge s = .next t ∧
      (s.rtc.sec < secMax ∨ s.rtc.tick + n < 32768 → t.ticks = s.ticks + n ∧ t.rtc.tick < 32768) ∧
      (s.rtc.sec = secMax → 32768 ≤ s.rtc.tick + n → t.rtc.sec = secMax ∧ t.rtc.tick = 0 ∧ t.flag RTC_STAT_SECSAT = true) ∧
      t.rtc.acc = s.rtc.acc + s.corrTotal + 100000000 * (1 - (n : Int)) ∧
      (s.devState ≠ stStandby → t.exp.still = s.exp.still ∧ t.exp.pipe = s.exp.pipe ∧
        s.Frame t [.exposure, .clock, .taken, .host, .writer] tickRegs)

/-- R345: a write of RTC_SLEW with a rate within ±50,000 replaces the rate from the next tick edge for SLEWDUR seconds, and one
beyond is refused with WERR; at the tick edge at which the duration has elapsed the rate is 0. R352, R353, R354: ARM arms the alarm
and DISARM disarms it; at the first tick edge at or after its value an armed alarm fires once and is disarmed, its event deferred
where PD5 is off; a periodic wake that is due sets its flag. (What a wake from STANDBY does is stated of STANDBY_WAKE.) R348: a
measurement of the temperature that is due is shown in RTC_TCTEMP, its correction waits for the next tick edge and the next one
comes an interval later; a write of RTC_TCCFG that sets TCEN makes one due at once. -/
def Obligations.SlewAlarmAndTemperature : Prop :=
  (∀ s : State,
     (∀ (p : Port) (v : BitVec 32), s.pd1On = true → (signedOf 17 (v.toNat % 2 ^ 17)).natAbs ≤ 50000 →
       ∃ t, exec (.rtcSlew p v) s = .next t ∧ t.getI RTC_SLEW_RATE = signedOf 17 (v.toNat % 2 ^ 17) ∧
         t.rtc.slewNext = some (signedOf 17 (v.toNat % 2 ^ 17), s.get RTC_SLEWDUR_DUR) ∧ s.Frame t [.clock] [RTC_SLEW]) ∧
     (∀ (p : Port) (v : BitVec 32), s.pd1On = true → 50000 < (signedOf 17 (v.toNat % 2 ^ 17)).natAbs →
       ∃ t, exec (.rtcSlew p v) s = .next t ∧ t.flag RTC_STAT_WERR = true ∧ s.Frame t [] [RTC_STAT]) ∧
     (∀ u, u = s.beforeTick → u.lfTicks ≠ 0 → u.slewEnds u.lfTicks = true → ∃ t, exec .slewEnd s = .next t ∧ t.rtc.slew = 0 ∧
       t.rtc.slewDur = none ∧ t.getI RTC_SLEW_RATE = 0 ∧
       (s.devState ≠ stStandby → t.exp.still = s.exp.still ∧ s.Frame t tickParts tickRegs))) ∧
  (∀ s : State,
     (∀ (p : Port) (v : BitVec 32), s.pd1On = true → bitAt v.toNat 0 = true → bitAt v.toNat 1 = false →
       ∃ t, exec (.almctlArm p v) s = .next t ∧ t.flag RTC_ALMCTL_ARMED = true ∧ t.rtc.armAge = 0 ∧
         s.Frame t [.clock] [RTC_ALMCTL]) ∧
     (∀ (p : Port) (v : BitVec 32), s.pd1On = true → bitAt v.toNat 1 = true →
       ∃ t, exec (.almctlDisarm p v) s = .next t ∧ t.flag RTC_ALMCTL_ARMED = false ∧ s.Frame t [] [RTC_ALMCTL]) ∧
     (∀ u e, u = s.beforeTick → u.lfTicks ≠ 0 → e = u.edgeTime →
       (s.flag RTC_ALMCTL_ARMED = true → e.alarmTicks ≤ e.ticks → ∃ t, exec .alarmFires s = .next t ∧
         t.flag RTC_ALMCTL_ARMED = false ∧ t.flag RTC_ALMCTL_FIRED = true ∧ t.ticks = e.ticks ∧
         (s.pdOn 5 = false → t.rtc.deferred.isSome = true) ∧
         (s.devState ≠ stStandby → t.exp.still = s.exp.still ∧ s.Frame t tickParts tickRegs)) ∧
       (e.rtc.perDue = true → ∃ t, exec .periodicWake s = .next t ∧ t.flag RTC_PERSTAT_WAKE = true ∧ t.rtc.perDue = false ∧
         t.ticks = e.ticks ∧ (s.devState ≠ stStandby → t.exp.still = s.exp.still ∧ s.Frame t tickParts tickRegs)))) ∧
  (∀ s : State,
     (∀ x : BitVec 16, s.flag RTC_TCCFG_TCEN = true → s.rtc.tcDue = 0 → ∃ t, exec (.temperatureMeasurement x) s = .next t ∧
       t.get RTC_TCTEMP_TEMP = x.toNat ∧ t.rtc.tcorrNext.isSome = true ∧ t.rtc.tcDue = s.get RTC_TCCFG_INTERVAL * 32768 ∧
       s.Frame t [.clock] [RTC_TCTEMP]) ∧
     (∀ (p : Port) (v : BitVec 32), s.writable (.port p) RTC_TCCFG = true → s.flag RTC_TCCFG_TCEN = false →
       fieldOf v RTC_TCCFG_TCEN = 1 → ∃ t, exec (.tccfgWrite p v) s = .next t ∧ t.flag RTC_TCCFG_TCEN = true ∧ t.rtc.tcDue = 0 ∧
         s.Frame t [.clock] [RTC_TCCFG]))

/-- R359: the trickle charger's EN is 1 after a write with the key 0xA5 and EN = 1, and 0 after a write without the key; the charger
conducts only while PD0 is supplied from VDDIO. R355, R356: a change of BKMODE clears bytes 0x40 to 0x5F and releases PWRON; a read
of a retention word returns what it holds and changes nothing in it while its parity is right; one of another width returns 0 and
reads nothing (R8). R350, R351, R361, R362: an LFCLK stop sets OSF; on VBKUP, VBKUP below its threshold resets the backup domain,
which sets OSF; on VDDIO the same crossing sets VBLOW, logs its start and leaves OSF, and the return above the threshold clears
VBLOW and logs the end. R357, R358: 1 ms after PWR_CYCLE has completed PWRON is driven low, OFF is 1 and OFFEND is OFFTIME after it
on the device's own clock; at OFFEND PWRON is released and OFF is 0; where the supplies have not fallen by OFFEND, or by 1 s with
OFFTIME 0, the cycle is void. -/
def Obligations.BackupDomain : Prop :=
  (∀ (s : State) (p : Port) (v : BitVec 32), s.writable (.port p) RTC_TCHG = true →
     (v.toNat / 2 ^ 24 = 0xA5 → fieldOf v RTC_TCHG_EN = 1 → ∃ t, exec (.tchgWrite p v) s = .next t ∧ t.flag RTC_TCHG_EN = true ∧
       t.flag RTC_STAT_CHGON = !s.rtc.onBattery ∧ s.Frame t [] [RTC_TCHG, RTC_STAT]) ∧
     (v.toNat / 2 ^ 24 ≠ 0xA5 → ∃ t, exec (.tchgWrite p v) s = .next t ∧ t.flag RTC_TCHG_EN = false ∧
       t.flag RTC_STAT_CHGON = false ∧ s.Frame t [] [RTC_TCHG, RTC_STAT])) ∧
  (∀ (s : State) (p : Port),
     (∀ v : BitVec 32, s.writable (.port p) RTC_BKCFG = true → s.flag RTC_PWRCTL_CYC = false →
       fieldOf v RTC_BKCFG_BKMODE ≠ s.get RTC_BKCFG_BKMODE → ∃ t, exec (.bkmodeChange p v) s = .next t ∧
         t.get RTC_BKCFG_BKMODE = fieldOf v RTC_BKCFG_BKMODE ∧ (∀ i, i < 8 → t.rd (RTC_RAM (16 + i)) = 0) ∧
         t.rtc.pwronLow = false ∧ t.flag RTC_PWRCTL_OFF = false ∧
         s.Frame t [.clock] ([RTC_BKCFG, RTC_PWRCTL] ++ (List.range 8).map (fun i => RTC_RAM (16 + i)))) ∧
     (∀ w, w < 24 → s.pd1On = true → s.rtc.badParity = [] → ∃ t, exec (.rtcRamRead p w 0 32) s = .next t ∧
       t.rd (RTC_RAM w) = s.rd (RTC_RAM w) ∧ (p = .pcie → t.hif.pcieRead = s.rd (RTC_RAM w)) ∧
       (p = .hspi → t.hif.hspiOut = (bytesLE 4 (s.rd (RTC_RAM w)).toNat).reverse) ∧ s.Frame t [.clock, .host] []) ∧
     (∀ w flips width, w < 24 → s.pd1On = true → width ≠ 32 → ∃ t, exec (.rtcRamRead .pcie w flips width) s = .next t ∧
       t.hif.pcieRead = 0 ∧ s.Frame t [.host] [])) ∧
  (∀ s : State,
     (∃ t, exec .oscillatorStop s = .next t ∧ t.flag RTC_STAT_OSF = true ∧
       (s.flag PWR_STAT_LFSUB = true → t.flag RTC_STAT_STOPSUB = true) ∧ s.Frame t [] [RTC_STAT]) ∧
     (s.rtc.vbLow = false → s.rtc.onBattery = false → ∃ t, exec (.vbkupLow true) s = .next t ∧ t.flag RTC_STAT_VBLOW = true ∧
       t.flag RTC_STAT_OSF = s.flag RTC_STAT_OSF ∧ t.rtc.vbLow = true ∧ (s.CanLog → s.Logs t 0x0913 0 .start 0 0 0) ∧
       s.Frame t [.clock] [RTC_STAT]) ∧
     (s.rtc.vbLow = true → s.flag RTC_STAT_VBLOW = true → ∃ t, exec (.vbkupLow false) s = .next t ∧ t.flag RTC_STAT_VBLOW = false ∧
       t.rtc.vbLow = false ∧ (s.CanLog → s.Logs t 0x0913 0 .stop 0 0 0) ∧ s.Frame t [.clock] [RTC_STAT]) ∧
     (s.rtc.vbLow = false → s.rtc.onBattery = true → ∃ t, exec (.vbkupLow true) s = .next t ∧ t.flag RTC_STAT_OSF = true ∧
       t.rtc.vbLow = true ∧ t.ticks = RtcState.reset.sec * 32768 + RtcState.reset.tick ∧
       (∀ p, p ≠ .clock → Part.Same s t p) ∧ t.pending = s.pending)) ∧
  (∀ s s' : State,
     (∀ o, s.rtc.cycle = some o → s' = s.reach (s.rtc.cycleAt + msCycles 1) → ∃ t, exec .pwronLow s = .next t ∧
       t.rtc.pwronLow = true ∧ t.flag RTC_PWRCTL_OFF = true ∧ t.rtc.cycle = none ∧ t.rtc.offtime = o ∧
       t.rtc.lowAt = some s'.exp.now ∧
       (s.flag RTC_BKCFG_BKMODE = true → t.offend = if o = 0 then 0 else shiftTs ((o.toNat : Int) * 2 ^ 16) s'.rtcTs) ∧
       s'.Frame t [.clock] [RTC_PWRCTL, RTC_RAM 16, RTC_RAM 17, RTC_RAM 18]) ∧
     (s.rtc.lowAt.isSome = true → s.offendDue = true → s.rtc.supplyFell = true → s.rtc.pwronLow = true → ∃ t,
       exec .offend s = .next t ∧ t.rtc.pwronLow = false ∧ t.flag RTC_PWRCTL_OFF = false ∧
       s.Frame t [.clock] [RTC_PWRCTL, RTC_RAM 16, RTC_RAM 17, RTC_RAM 18]) ∧
     (∀ t1 c, s.rtc.lowAt = some t1 → s.rtc.supplyFell = false →
       ((s.rtc.offtime = 0 ∧ s' = s.reach (t1 + msCycles 1000) ∧ c = .void) ∨
         (s.rtc.offtime ≠ 0 ∧ s.offendDue = true ∧ s' = s ∧ (c = .void ∨ c = .offend))) → ∃ t, exec c s = .next t ∧
       t.rtc.pwronLow = false ∧ t.flag RTC_PWRCTL_OFF = false ∧ t.flag RTC_PWRCTL_CYC = false ∧ t.flag RTC_PWRCTL_VOID = true ∧
       (s.CanLog → s.Logs t 0x0914 0 .momentary s.rtc.offtime.toNat 0 0) ∧
       s'.Frame t [.clock] [RTC_PWRCTL, RTC_RAM 16, RTC_RAM 17, RTC_RAM 18]))

/-- R342 to R346: RTC_CAPTURE, RTC_SET and a step wait for the tick edge with their arguments loaded; a slew within ±50,000 is set
and completes DONE at once. -/
def Obligations.ClockHostCommands : Prop :=
  ∀ (s : State) (h : CmdHdr) (a0 a1 a2 : BitVec 64), s.Accepts h →
    (s.ready = true → s.pdOn 5 = true → ∃ t, exec (.rtcCapture h) s = .next t ∧ s.Waits t 0x30 h .rtcCapture ∧ t.flag RTC_STAT_CAPVALID = false ∧
      s.Frame t [.taken, .host] (RTC_STAT :: hostRegs)) ∧
    (s.commitPending = false → ∃ t, exec (.rtcSet h a0 a1 a2) s = .next t ∧ s.Waits t 0x31 h .rtcSet ∧
      t.get RTC_STGFRAC_FMT = a0.toNat % 2 ∧ t.get RTC_STGFRAC_TICK = a2.toNat % 2 ^ 15 ∧
      (a0.toNat % 2 = 0 → t.wide [RTC_STGSEC_LO, RTC_STGSEC_HI] = a1.toNat % 2 ^ 36) ∧ t.flag RTC_STAT_COMMITPEND = true ∧
      s.Frame t [.taken, .host] ([RTC_STAT, RTC_STGFRAC, RTC_STGSEC_LO, RTC_STGSEC_HI, RTC_STGCAL0, RTC_STGCAL1] ++ hostRegs)) ∧
    (bitAt a0.toNat 0 = false → s.rtc.step = none → ∃ t, exec (.rtcAdjustStep h a0 a1 a2) s = .next t ∧ s.Waits t 0x32 h .rtcStep ∧
      t.rtc.step = some (signedOf 37 (a1.toNat % 2 ^ 37), a2.toNat % 2 ^ 15) ∧ t.flag RTC_STAT_STEPPEND = true ∧
      s.Frame t [.clock, .taken, .host] (RTC_STAT :: hostRegs)) ∧
    (∀ rate, rate = signedOf 17 (a1.toNat % 2 ^ 17) → bitAt a0.toNat 0 = true → rate.natAbs ≤ 50000 → ∃ t, exec (.rtcAdjustSlew h a0 a1 a2) s = .next t ∧
      s.Answered t 0x32 h stDone 0 0 0 ∧ t.getI RTC_SLEW_RATE = rate ∧ t.get RTC_SLEWDUR_DUR = a2.toNat % 2 ^ 16 ∧
      t.rtc.slewNext = some (rate, a2.toNat % 2 ^ 16) ∧
      s.Frame t [.clock, .host, .writer] ([RTC_SLEW, RTC_SLEWDUR] ++ hostRegs))
end

