-- ==== Sys2Proof/Laws/Store.lean ====
section
/-!
SUPPORT. Laws of the sparse stores: read after write, and that every operation keeps the canonical form.
-/

namespace Sys2Proof.Machine

variable {α : Type}

@[simp] theorem storeFind_nil (k : Nat) : storeFind ([] : List (Nat × α)) k = none := rfl

@[simp] theorem storeGet_nil (d : α) (k : Nat) : storeGet d [] k = d := rfl

theorem storeFind_insert (m : List (Nat × α)) (k : Nat) (v : α) (j : Nat) :
    storeFind (storeInsert m k v) j = if k = j then some v else storeFind m j := by
  induction m with
  | nil => simp [storeInsert, storeFind]
  | cons e t ih =>
    obtain ⟨a, x⟩ := e
    unfold storeInsert
    split
    · rename_i h; subst h; by_cases hj : a = j <;> simp [storeFind, hj]
    · split
      · simp [storeFind]
      · by_cases hj : a = j
        · subst hj; rename_i h _; simp [storeFind, Ne.symm h]
        · simp [storeFind, ih, hj]

theorem storeFind_erase (m : List (Nat × α)) (k j : Nat) :
    storeFind (storeErase m k) j = if k = j then none else storeFind m j := by
  induction m with
  | nil => simp [storeErase]
  | cons e t ih =>
    obtain ⟨a, x⟩ := e
    unfold storeErase
    by_cases h : a = k
    · subst h; by_cases hj : a = j
      · subst hj; simpa using ih
      · simp [ih, storeFind, hj]
    · by_cases hj : a = j
      · subst hj; simp [h, Ne.symm h, storeFind]
      · simp [h, storeFind, hj, ih]

/-- Read after write: the key written reads as the value, every other key as before. -/
theorem storeGet_put [DecidableEq α] (d : α) (m : List (Nat × α)) (k : Nat) (v : α) :
    storeGet d (storePut d m k v) k = v := by
  unfold storePut storeGet
  split <;> simp_all [storeFind_insert, storeFind_erase]

theorem storeFind_put_ne [DecidableEq α] (d : α) (m : List (Nat × α)) {k j : Nat} (v : α) (h : k ≠ j) :
    storeFind (storePut d m k v) j = storeFind m j := by
  unfold storePut
  split <;> simp [storeFind_insert, storeFind_erase, h]

theorem storeGet_put_ne [DecidableEq α] (d e : α) (m : List (Nat × α)) {k j : Nat} (v : α) (h : k ≠ j) :
    storeGet e (storePut d m k v) j = storeGet e m j := by simp [storeGet, storeFind_put_ne d m v h]

/-- The canonical store has the contents of the store it is made from. -/
theorem storeGet_canon [DecidableEq α] (d : Nat → α) (m : List (Nat × α)) (k : Nat) :
    storeGet (d k) (storeCanon d m) k = storeGet (d k) m k := by
  induction m with
  | nil => rfl
  | cons e t ih =>
    obtain ⟨a, x⟩ := e
    by_cases h : a = k
    · subst h; rw [storeCanon, storeGet_put]; simp [storeGet, storeFind]
    · simp only [storeCanon]
      rw [storeGet_put_ne _ _ _ _ h, ih]; simp [storeGet, storeFind, h]

/-! The canonical form -/

theorem storeRising_weaken {b c : Nat} (h : c ≤ b) : (m : List (Nat × α)) → storeRising b m = true → storeRising c m = true
  | [], _ => rfl
  | (a, _) :: t, hm => by
    simp only [storeRising, Bool.and_eq_true, decide_eq_true_eq] at hm ⊢
    exact ⟨by omega, hm.2⟩

theorem storeRising_insert (k : Nat) (v : α) : (m : List (Nat × α)) → (b : Nat) → storeRising b m = true → b ≤ k →
    storeRising b (storeInsert m k v) = true
  | [], b, _, hk => by simp [storeInsert, storeRising, hk]
  | (a, x) :: t, b, hm, hk => by
    simp only [storeRising, Bool.and_eq_true, decide_eq_true_eq] at hm
    unfold storeInsert
    split
    · rename_i h; subst h; simp [storeRising, hm.1, hm.2]
    · split
      · simp only [storeRising, Bool.and_eq_true, decide_eq_true_eq]
        exact ⟨hk, by omega, hm.2⟩
      · simp only [storeRising, Bool.and_eq_true, decide_eq_true_eq]
        exact ⟨hm.1, storeRising_insert k v t (a + 1) hm.2 (by omega)⟩

theorem storeRising_erase (k : Nat) : (m : List (Nat × α)) → (b : Nat) → storeRising b m = true →
    storeRising b (storeErase m k) = true
  | [], _, _ => rfl
  | (a, x) :: t, b, hm => by
    simp only [storeRising, Bool.and_eq_true, decide_eq_true_eq] at hm
    unfold storeErase
    split
    · exact storeRising_weaken (by omega) _ (storeRising_erase k t (a + 1) hm.2)
    · simp only [storeRising, Bool.and_eq_true, decide_eq_true_eq]
      exact ⟨hm.1, storeRising_erase k t (a + 1) hm.2⟩

theorem mem_storeInsert {m : List (Nat × α)} {k : Nat} {v : α} {e : Nat × α} (h : e ∈ storeInsert m k v) :
    e = (k, v) ∨ e ∈ m := by
  induction m with
  | nil => simpa [storeInsert] using h
  | cons c t ih =>
    obtain ⟨a, x⟩ := c
    unfold storeInsert at h
    split at h
    · rcases List.mem_cons.mp h with h | h <;> simp [h]
    · split at h
      · simpa using h
      · rcases List.mem_cons.mp h with h | h
        · simp [h]
        · rcases ih h with h | h <;> simp [h]

theorem mem_storeErase {m : List (Nat × α)} {k : Nat} {e : Nat × α} (h : e ∈ storeErase m k) : e ∈ m := by
  induction m with
  | nil => simp [storeErase] at h
  | cons c t ih =>
    obtain ⟨a, x⟩ := c
    unfold storeErase at h
    split at h
    · simp [ih h]
    · rcases List.mem_cons.mp h with h | h
      · simp [h]
      · simp [ih h]

/-- A write keeps the canonical form. -/
theorem storeWf_put [DecidableEq α] {d : Nat → α} {m : List (Nat × α)} (h : storeWf d m = true) (k : Nat) (v : α) :
    storeWf d (storePut (d k) m k v) = true := by
  simp only [storeWf, Bool.and_eq_true, List.all_eq_true, decide_eq_true_eq] at h ⊢
  unfold storePut
  split
  · exact ⟨storeRising_erase k m 0 h.1, fun e he => h.2 e (mem_storeErase he)⟩
  · rename_i hv
    refine ⟨storeRising_insert k v m 0 h.1 (Nat.zero_le k), fun e he => ?_⟩
    rcases mem_storeInsert he with rfl | he
    · exact hv
    · exact h.2 e he

/-- The canonical store is canonical. -/
theorem storeWf_canon [DecidableEq α] (d : Nat → α) : (m : List (Nat × α)) → storeWf d (storeCanon d m) = true
  | [] => rfl
  | (a, x) :: t => storeWf_put (storeWf_canon d t) a x

end Sys2Proof.Machine
end

