-- ==== Sys2Proof/Laws/Field.lean ====
section
/-!
SUPPORT. Laws of registers and fields: a register and a field read after a write of the same and of another one.
-/

namespace Sys2Proof.Machine

theorem State.rd_eq (s : State) (off : Nat) : s.rd off = storeGet (regReset off) s.regs off := by
  unfold State.rd storeGet; cases storeFind s.regs off <;> rfl

/-- A register reads as the value written last; every other register as before. -/
@[simp] theorem State.rd_wr (s : State) (off : Nat) (v : BitVec 32) (k : Nat) :
    (s.wr off v).rd k = if off = k then v else s.rd k := by
  by_cases h : off = k
  · subst h; simp [State.rd_eq, State.wr, storeGet_put]
  · simp [State.rd_eq, State.wr, storeGet_put_ne _ _ _ _ h, h]

theorem State.rd_put_self (s : State) (f : Fld) (x : Nat) : (s.put f x).rd f.off = withField (s.rd f.off) f x := by
  simp [State.put]

@[simp] theorem State.rd_put_ne (s : State) (f : Fld) (x : Nat) {k : Nat} (h : f.off ≠ k) : (s.put f x).rd k = s.rd k := by
  simp [State.put, h]

@[simp] theorem State.rd_setFlag_ne (s : State) (f : Fld) (b : Bool) {k : Nat} (h : f.off ≠ k) :
    (s.setFlag f b).rd k = s.rd k := State.rd_put_ne s f _ h

@[simp] theorem State.rd_bump_ne (s : State) (f : Fld) (n : Nat) {k : Nat} (h : f.off ≠ k) :
    (s.bump f n).rd k = s.rd k := State.rd_put_ne s f _ h

@[simp] theorem State.rd_putI_ne (s : State) (f : Fld) (x : Int) {k : Nat} (h : f.off ≠ k) :
    (s.putI f x).rd k = s.rd k := State.rd_put_ne s f _ h

/-- The number a field's replacement gives. -/
theorem withField_toNat {v : BitVec 32} {f : Fld} {x : Nat} (h : f.lsb + f.width ≤ 32) :
    (withField v f x).toNat = v.toNat - fieldOf v f * 2 ^ f.lsb + x % 2 ^ f.width * 2 ^ f.lsb := by
  unfold withField fieldOf
  rw [BitVec.toNat_ofNat]
  apply Nat.mod_eq_of_lt
  have hv := v.isLt
  have hw : 0 < 2 ^ f.width := Nat.two_pow_pos _
  have hl : 0 < 2 ^ f.lsb := Nat.two_pow_pos _
  generalize hW : 2 ^ f.width = W at *
  generalize hL : 2 ^ f.lsb = L at *
  have hx : x % W < W := Nat.mod_lt _ hw
  have hsplit : v.toNat = v.toNat % L + (v.toNat / L % W) * L + (v.toNat / L / W) * (W * L) := by
    have h1 := Nat.div_add_mod v.toNat L
    have h2 := Nat.div_add_mod (v.toNat / L) W
    nlinarith [h1, h2]
  have hdvd : W * L ∣ 2 ^ 32 := by
    rw [← hW, ← hL, ← Nat.pow_add]; exact Nat.pow_dvd_pow 2 (by omega)
  obtain ⟨q, hq⟩ := hdvd
  have hlow : v.toNat % L < L := Nat.mod_lt _ hl
  have htop : v.toNat / L / W < q := by
    rw [Nat.div_div_eq_div_mul, Nat.mul_comm L W]
    apply Nat.div_lt_of_lt_mul
    rw [← hq]; exact hv
  have h3 : v.toNat / L / W + 1 ≤ q := htop
  have h4 : (v.toNat / L / W + 1) * (W * L) ≤ q * (W * L) := Nat.mul_le_mul_right _ h3
  have h5 : x % W * L + L ≤ W * L := by
    have : (x % W + 1) * L ≤ W * L := Nat.mul_le_mul_right _ hx
    nlinarith [this]
  have h6 : q * (W * L) = 2 ^ 32 := by rw [hq]; ring
  have h7 : v.toNat - v.toNat / L % W * L = v.toNat % L + (v.toNat / L / W) * (W * L) := by omega
  rw [h7]
  nlinarith [h4, h5, h6, hlow]

/-- A replaced field leaves the bits below and above it. -/
theorem withField_split {v : BitVec 32} {f : Fld} {x : Nat} (h : f.lsb + f.width ≤ 32) :
    (withField v f x).toNat =
      v.toNat % 2 ^ f.lsb + 2 ^ f.lsb * (x % 2 ^ f.width + 2 ^ f.width * (v.toNat / 2 ^ f.lsb / 2 ^ f.width)) := by
  rw [withField_toNat h]
  unfold fieldOf
  generalize 2 ^ f.width = W at *
  generalize 2 ^ f.lsb = L at *
  have h1 := Nat.div_add_mod v.toNat L
  have h2 := Nat.div_add_mod (v.toNat / L) W
  have : v.toNat = v.toNat % L + (v.toNat / L % W) * L + L * (W * (v.toNat / L / W)) := by nlinarith [h1, h2]
  have h7 : v.toNat - v.toNat / L % W * L = v.toNat % L + L * (W * (v.toNat / L / W)) := by omega
  rw [h7]; ring

/-- A field reads as what was put into it. -/
theorem fieldOf_withField {v : BitVec 32} {f : Fld} {x : Nat} (h : f.lsb + f.width ≤ 32) :
    fieldOf (withField v f x) f = x % 2 ^ f.width := by
  have hl : 0 < 2 ^ f.lsb := Nat.two_pow_pos _
  unfold fieldOf
  rw [withField_split h, Nat.add_mul_div_left _ _ hl, Nat.div_eq_of_lt (Nat.mod_lt _ hl), Nat.zero_add,
    Nat.add_mul_mod_self_left, Nat.mod_mod]

/-- A field that shares no bit with the one replaced reads as before. -/
theorem fieldOf_withField_ne {v : BitVec 32} {f g : Fld} {x : Nat} (h : f.lsb + f.width ≤ 32)
    (hd : g.lsb + g.width ≤ f.lsb ∨ f.lsb + f.width ≤ g.lsb) : fieldOf (withField v f x) g = fieldOf v g := by
  unfold fieldOf
  rcases hd with hd | hd
  · have e (n : Nat) : n / 2 ^ g.lsb % 2 ^ g.width = n % (2 ^ g.lsb * 2 ^ g.width) / 2 ^ g.lsb :=
      (Nat.mod_mul_right_div_self n _ _).symm
    rw [e, e, withField_split h]
    congr 1
    have hdv : 2 ^ g.lsb * 2 ^ g.width ∣ 2 ^ f.lsb := by rw [← Nat.pow_add]; exact Nat.pow_dvd_pow 2 hd
    obtain ⟨q, hq⟩ := hdv
    rw [hq]
    generalize 2 ^ g.lsb * 2 ^ g.width = D
    rw [Nat.mul_assoc D q, Nat.add_mul_mod_self_left, Nat.mod_mul_right_mod]
  · have e (n : Nat) : n / 2 ^ g.lsb = n / 2 ^ f.lsb / 2 ^ f.width / 2 ^ (g.lsb - (f.lsb + f.width)) := by
      rw [Nat.div_div_eq_div_mul, Nat.div_div_eq_div_mul, ← Nat.pow_add, ← Nat.pow_add]
      congr 2; omega
    have hl : 0 < 2 ^ f.lsb := Nat.two_pow_pos _
    have hw : 0 < 2 ^ f.width := Nat.two_pow_pos _
    rw [e, e v.toNat, withField_split h, Nat.add_mul_div_left _ _ hl, Nat.div_eq_of_lt (Nat.mod_lt _ hl), Nat.zero_add,
      Nat.add_mul_div_left _ _ hw, Nat.div_eq_of_lt (Nat.mod_lt _ hw), Nat.zero_add]

theorem State.get_put_self (s : State) (f : Fld) (x : Nat) (h : f.lsb + f.width ≤ 32) :
    (s.put f x).get f = x % 2 ^ f.width := by
  unfold State.get; rw [State.rd_put_self]; exact fieldOf_withField h

/-- A field of the same register that shares no bit with the field put. -/
theorem State.get_put_apart (s : State) (f g : Fld) (x : Nat) (ho : f.off = g.off) (h : f.lsb + f.width ≤ 32)
    (hd : g.lsb + g.width ≤ f.lsb ∨ f.lsb + f.width ≤ g.lsb) : (s.put f x).get g = s.get g := by
  unfold State.get; rw [← ho, State.rd_put_self]; exact fieldOf_withField_ne h hd

/-- A field of another register. -/
theorem State.get_put_ne (s : State) (f g : Fld) (x : Nat) (ho : f.off ≠ g.off) : (s.put f x).get g = s.get g := by
  unfold State.get; rw [State.rd_put_ne s f x ho]

theorem State.flag_setFlag_self (s : State) (f : Fld) (b : Bool) (h : f.lsb + f.width ≤ 32) (hw : 0 < f.width) :
    (s.setFlag f b).flag f = b := by
  have hp : 2 ≤ 2 ^ f.width := by
    calc 2 = 2 ^ 1 := rfl
      _ ≤ 2 ^ f.width := Nat.pow_le_pow_right (by omega) hw
  unfold State.flag State.setFlag
  rw [State.get_put_self s f _ h]
  cases b
  · simp
  · rw [Bool.toNat_true, Nat.mod_eq_of_lt (by omega)]; rfl

end Sys2Proof.Machine
end

