-- ==== Sys2Proof/Laws/State.lean ====
section
/-!
SUPPORT. One lemma per field per update of the state: the field an update changes holds the new value, every other field the old
one, and an update beside the registers leaves what every register, field and flag reads as.
-/

namespace Sys2Proof.Machine

variable (s : State)

@[simp] theorem State.wr_pending (off : Nat) (v : BitVec 32) : (s.wr off v).pending = s.pending := rfl
@[simp] theorem State.wr_taken (off : Nat) (v : BitVec 32) : (s.wr off v).taken = s.taken := rfl
@[simp] theorem State.wr_exp (off : Nat) (v : BitVec 32) : (s.wr off v).exp = s.exp := rfl
@[simp] theorem State.wr_ldg (off : Nat) (v : BitVec 32) : (s.wr off v).ldg = s.ldg := rfl
@[simp] theorem State.wr_evt (off : Nat) (v : BitVec 32) : (s.wr off v).evt = s.evt := rfl
@[simp] theorem State.wr_pio (off : Nat) (v : BitVec 32) : (s.wr off v).pio = s.pio := rfl
@[simp] theorem State.wr_prf (off : Nat) (v : BitVec 32) : (s.wr off v).prf = s.prf := rfl
@[simp] theorem State.wr_fcv (off : Nat) (v : BitVec 32) : (s.wr off v).fcv = s.fcv := rfl
@[simp] theorem State.wr_plc (off : Nat) (v : BitVec 32) : (s.wr off v).plc = s.plc := rfl
@[simp] theorem State.wr_rtc (off : Nat) (v : BitVec 32) : (s.wr off v).rtc = s.rtc := rfl
@[simp] theorem State.wr_cvu (off : Nat) (v : BitVec 32) : (s.wr off v).cvu = s.cvu := rfl
@[simp] theorem State.wr_hif (off : Nat) (v : BitVec 32) : (s.wr off v).hif = s.hif := rfl
@[simp] theorem State.wr_saf (off : Nat) (v : BitVec 32) : (s.wr off v).saf = s.saf := rfl
@[simp] theorem State.wr_tzl (off : Nat) (v : BitVec 32) : (s.wr off v).tzl = s.tzl := rfl
@[simp] theorem State.wr_pwr (off : Nat) (v : BitVec 32) : (s.wr off v).pwr = s.pwr := rfl
@[simp] theorem State.wr_free (off : Nat) (v : BitVec 32) : (s.wr off v).free = s.free := rfl

@[simp] theorem State.modExp_pending (f : ExpState → ExpState) : (s.modExp f).pending = s.pending := rfl
@[simp] theorem State.modExp_regs (f : ExpState → ExpState) : (s.modExp f).regs = s.regs := rfl
@[simp] theorem State.modExp_taken (f : ExpState → ExpState) : (s.modExp f).taken = s.taken := rfl
@[simp] theorem State.modExp_exp (f : ExpState → ExpState) : (s.modExp f).exp = f s.exp := rfl
@[simp] theorem State.modExp_ldg (f : ExpState → ExpState) : (s.modExp f).ldg = s.ldg := rfl
@[simp] theorem State.modExp_evt (f : ExpState → ExpState) : (s.modExp f).evt = s.evt := rfl
@[simp] theorem State.modExp_pio (f : ExpState → ExpState) : (s.modExp f).pio = s.pio := rfl
@[simp] theorem State.modExp_prf (f : ExpState → ExpState) : (s.modExp f).prf = s.prf := rfl
@[simp] theorem State.modExp_fcv (f : ExpState → ExpState) : (s.modExp f).fcv = s.fcv := rfl
@[simp] theorem State.modExp_plc (f : ExpState → ExpState) : (s.modExp f).plc = s.plc := rfl
@[simp] theorem State.modExp_rtc (f : ExpState → ExpState) : (s.modExp f).rtc = s.rtc := rfl
@[simp] theorem State.modExp_cvu (f : ExpState → ExpState) : (s.modExp f).cvu = s.cvu := rfl
@[simp] theorem State.modExp_hif (f : ExpState → ExpState) : (s.modExp f).hif = s.hif := rfl
@[simp] theorem State.modExp_saf (f : ExpState → ExpState) : (s.modExp f).saf = s.saf := rfl
@[simp] theorem State.modExp_tzl (f : ExpState → ExpState) : (s.modExp f).tzl = s.tzl := rfl
@[simp] theorem State.modExp_pwr (f : ExpState → ExpState) : (s.modExp f).pwr = s.pwr := rfl
@[simp] theorem State.modExp_free (f : ExpState → ExpState) : (s.modExp f).free = s.free := rfl
@[simp] theorem State.modExp_rd (f : ExpState → ExpState) (k : Nat) : (s.modExp f).rd k = s.rd k := rfl
@[simp] theorem State.modExp_get (f : ExpState → ExpState) (g : Fld) : (s.modExp f).get g = s.get g := rfl
@[simp] theorem State.modExp_flag (f : ExpState → ExpState) (g : Fld) : (s.modExp f).flag g = s.flag g := rfl

@[simp] theorem State.modLdg_pending (f : LdgState → LdgState) : (s.modLdg f).pending = s.pending := rfl
@[simp] theorem State.modLdg_regs (f : LdgState → LdgState) : (s.modLdg f).regs = s.regs := rfl
@[simp] theorem State.modLdg_taken (f : LdgState → LdgState) : (s.modLdg f).taken = s.taken := rfl
@[simp] theorem State.modLdg_exp (f : LdgState → LdgState) : (s.modLdg f).exp = s.exp := rfl
@[simp] theorem State.modLdg_ldg (f : LdgState → LdgState) : (s.modLdg f).ldg = f s.ldg := rfl
@[simp] theorem State.modLdg_evt (f : LdgState → LdgState) : (s.modLdg f).evt = s.evt := rfl
@[simp] theorem State.modLdg_pio (f : LdgState → LdgState) : (s.modLdg f).pio = s.pio := rfl
@[simp] theorem State.modLdg_prf (f : LdgState → LdgState) : (s.modLdg f).prf = s.prf := rfl
@[simp] theorem State.modLdg_fcv (f : LdgState → LdgState) : (s.modLdg f).fcv = s.fcv := rfl
@[simp] theorem State.modLdg_plc (f : LdgState → LdgState) : (s.modLdg f).plc = s.plc := rfl
@[simp] theorem State.modLdg_rtc (f : LdgState → LdgState) : (s.modLdg f).rtc = s.rtc := rfl
@[simp] theorem State.modLdg_cvu (f : LdgState → LdgState) : (s.modLdg f).cvu = s.cvu := rfl
@[simp] theorem State.modLdg_hif (f : LdgState → LdgState) : (s.modLdg f).hif = s.hif := rfl
@[simp] theorem State.modLdg_saf (f : LdgState → LdgState) : (s.modLdg f).saf = s.saf := rfl
@[simp] theorem State.modLdg_tzl (f : LdgState → LdgState) : (s.modLdg f).tzl = s.tzl := rfl
@[simp] theorem State.modLdg_pwr (f : LdgState → LdgState) : (s.modLdg f).pwr = s.pwr := rfl
@[simp] theorem State.modLdg_free (f : LdgState → LdgState) : (s.modLdg f).free = s.free := rfl
@[simp] theorem State.modLdg_rd (f : LdgState → LdgState) (k : Nat) : (s.modLdg f).rd k = s.rd k := rfl
@[simp] theorem State.modLdg_get (f : LdgState → LdgState) (g : Fld) : (s.modLdg f).get g = s.get g := rfl
@[simp] theorem State.modLdg_flag (f : LdgState → LdgState) (g : Fld) : (s.modLdg f).flag g = s.flag g := rfl

@[simp] theorem State.modEvt_pending (f : EvtState → EvtState) : (s.modEvt f).pending = s.pending := rfl
@[simp] theorem State.modEvt_regs (f : EvtState → EvtState) : (s.modEvt f).regs = s.regs := rfl
@[simp] theorem State.modEvt_taken (f : EvtState → EvtState) : (s.modEvt f).taken = s.taken := rfl
@[simp] theorem State.modEvt_exp (f : EvtState → EvtState) : (s.modEvt f).exp = s.exp := rfl
@[simp] theorem State.modEvt_ldg (f : EvtState → EvtState) : (s.modEvt f).ldg = s.ldg := rfl
@[simp] theorem State.modEvt_evt (f : EvtState → EvtState) : (s.modEvt f).evt = f s.evt := rfl
@[simp] theorem State.modEvt_pio (f : EvtState → EvtState) : (s.modEvt f).pio = s.pio := rfl
@[simp] theorem State.modEvt_prf (f : EvtState → EvtState) : (s.modEvt f).prf = s.prf := rfl
@[simp] theorem State.modEvt_fcv (f : EvtState → EvtState) : (s.modEvt f).fcv = s.fcv := rfl
@[simp] theorem State.modEvt_plc (f : EvtState → EvtState) : (s.modEvt f).plc = s.plc := rfl
@[simp] theorem State.modEvt_rtc (f : EvtState → EvtState) : (s.modEvt f).rtc = s.rtc := rfl
@[simp] theorem State.modEvt_cvu (f : EvtState → EvtState) : (s.modEvt f).cvu = s.cvu := rfl
@[simp] theorem State.modEvt_hif (f : EvtState → EvtState) : (s.modEvt f).hif = s.hif := rfl
@[simp] theorem State.modEvt_saf (f : EvtState → EvtState) : (s.modEvt f).saf = s.saf := rfl
@[simp] theorem State.modEvt_tzl (f : EvtState → EvtState) : (s.modEvt f).tzl = s.tzl := rfl
@[simp] theorem State.modEvt_pwr (f : EvtState → EvtState) : (s.modEvt f).pwr = s.pwr := rfl
@[simp] theorem State.modEvt_free (f : EvtState → EvtState) : (s.modEvt f).free = s.free := rfl
@[simp] theorem State.modEvt_rd (f : EvtState → EvtState) (k : Nat) : (s.modEvt f).rd k = s.rd k := rfl
@[simp] theorem State.modEvt_get (f : EvtState → EvtState) (g : Fld) : (s.modEvt f).get g = s.get g := rfl
@[simp] theorem State.modEvt_flag (f : EvtState → EvtState) (g : Fld) : (s.modEvt f).flag g = s.flag g := rfl

@[simp] theorem State.modPrf_pending (f : PrfState → PrfState) : (s.modPrf f).pending = s.pending := rfl
@[simp] theorem State.modPrf_regs (f : PrfState → PrfState) : (s.modPrf f).regs = s.regs := rfl
@[simp] theorem State.modPrf_taken (f : PrfState → PrfState) : (s.modPrf f).taken = s.taken := rfl
@[simp] theorem State.modPrf_exp (f : PrfState → PrfState) : (s.modPrf f).exp = s.exp := rfl
@[simp] theorem State.modPrf_ldg (f : PrfState → PrfState) : (s.modPrf f).ldg = s.ldg := rfl
@[simp] theorem State.modPrf_evt (f : PrfState → PrfState) : (s.modPrf f).evt = s.evt := rfl
@[simp] theorem State.modPrf_pio (f : PrfState → PrfState) : (s.modPrf f).pio = s.pio := rfl
@[simp] theorem State.modPrf_prf (f : PrfState → PrfState) : (s.modPrf f).prf = f s.prf := rfl
@[simp] theorem State.modPrf_fcv (f : PrfState → PrfState) : (s.modPrf f).fcv = s.fcv := rfl
@[simp] theorem State.modPrf_plc (f : PrfState → PrfState) : (s.modPrf f).plc = s.plc := rfl
@[simp] theorem State.modPrf_rtc (f : PrfState → PrfState) : (s.modPrf f).rtc = s.rtc := rfl
@[simp] theorem State.modPrf_cvu (f : PrfState → PrfState) : (s.modPrf f).cvu = s.cvu := rfl
@[simp] theorem State.modPrf_hif (f : PrfState → PrfState) : (s.modPrf f).hif = s.hif := rfl
@[simp] theorem State.modPrf_saf (f : PrfState → PrfState) : (s.modPrf f).saf = s.saf := rfl
@[simp] theorem State.modPrf_tzl (f : PrfState → PrfState) : (s.modPrf f).tzl = s.tzl := rfl
@[simp] theorem State.modPrf_pwr (f : PrfState → PrfState) : (s.modPrf f).pwr = s.pwr := rfl
@[simp] theorem State.modPrf_free (f : PrfState → PrfState) : (s.modPrf f).free = s.free := rfl
@[simp] theorem State.modPrf_rd (f : PrfState → PrfState) (k : Nat) : (s.modPrf f).rd k = s.rd k := rfl
@[simp] theorem State.modPrf_get (f : PrfState → PrfState) (g : Fld) : (s.modPrf f).get g = s.get g := rfl
@[simp] theorem State.modPrf_flag (f : PrfState → PrfState) (g : Fld) : (s.modPrf f).flag g = s.flag g := rfl

@[simp] theorem State.modFcv_pending (f : FcvState → FcvState) : (s.modFcv f).pending = s.pending := rfl
@[simp] theorem State.modFcv_regs (f : FcvState → FcvState) : (s.modFcv f).regs = s.regs := rfl
@[simp] theorem State.modFcv_taken (f : FcvState → FcvState) : (s.modFcv f).taken = s.taken := rfl
@[simp] theorem State.modFcv_exp (f : FcvState → FcvState) : (s.modFcv f).exp = s.exp := rfl
@[simp] theorem State.modFcv_ldg (f : FcvState → FcvState) : (s.modFcv f).ldg = s.ldg := rfl
@[simp] theorem State.modFcv_evt (f : FcvState → FcvState) : (s.modFcv f).evt = s.evt := rfl
@[simp] theorem State.modFcv_pio (f : FcvState → FcvState) : (s.modFcv f).pio = s.pio := rfl
@[simp] theorem State.modFcv_prf (f : FcvState → FcvState) : (s.modFcv f).prf = s.prf := rfl
@[simp] theorem State.modFcv_fcv (f : FcvState → FcvState) : (s.modFcv f).fcv = f s.fcv := rfl
@[simp] theorem State.modFcv_plc (f : FcvState → FcvState) : (s.modFcv f).plc = s.plc := rfl
@[simp] theorem State.modFcv_rtc (f : FcvState → FcvState) : (s.modFcv f).rtc = s.rtc := rfl
@[simp] theorem State.modFcv_cvu (f : FcvState → FcvState) : (s.modFcv f).cvu = s.cvu := rfl
@[simp] theorem State.modFcv_hif (f : FcvState → FcvState) : (s.modFcv f).hif = s.hif := rfl
@[simp] theorem State.modFcv_saf (f : FcvState → FcvState) : (s.modFcv f).saf = s.saf := rfl
@[simp] theorem State.modFcv_tzl (f : FcvState → FcvState) : (s.modFcv f).tzl = s.tzl := rfl
@[simp] theorem State.modFcv_pwr (f : FcvState → FcvState) : (s.modFcv f).pwr = s.pwr := rfl
@[simp] theorem State.modFcv_free (f : FcvState → FcvState) : (s.modFcv f).free = s.free := rfl
@[simp] theorem State.modFcv_rd (f : FcvState → FcvState) (k : Nat) : (s.modFcv f).rd k = s.rd k := rfl
@[simp] theorem State.modFcv_get (f : FcvState → FcvState) (g : Fld) : (s.modFcv f).get g = s.get g := rfl
@[simp] theorem State.modFcv_flag (f : FcvState → FcvState) (g : Fld) : (s.modFcv f).flag g = s.flag g := rfl

@[simp] theorem State.modPlc_pending (f : PlcState → PlcState) : (s.modPlc f).pending = s.pending := rfl
@[simp] theorem State.modPlc_regs (f : PlcState → PlcState) : (s.modPlc f).regs = s.regs := rfl
@[simp] theorem State.modPlc_taken (f : PlcState → PlcState) : (s.modPlc f).taken = s.taken := rfl
@[simp] theorem State.modPlc_exp (f : PlcState → PlcState) : (s.modPlc f).exp = s.exp := rfl
@[simp] theorem State.modPlc_ldg (f : PlcState → PlcState) : (s.modPlc f).ldg = s.ldg := rfl
@[simp] theorem State.modPlc_evt (f : PlcState → PlcState) : (s.modPlc f).evt = s.evt := rfl
@[simp] theorem State.modPlc_pio (f : PlcState → PlcState) : (s.modPlc f).pio = s.pio := rfl
@[simp] theorem State.modPlc_prf (f : PlcState → PlcState) : (s.modPlc f).prf = s.prf := rfl
@[simp] theorem State.modPlc_fcv (f : PlcState → PlcState) : (s.modPlc f).fcv = s.fcv := rfl
@[simp] theorem State.modPlc_plc (f : PlcState → PlcState) : (s.modPlc f).plc = f s.plc := rfl
@[simp] theorem State.modPlc_rtc (f : PlcState → PlcState) : (s.modPlc f).rtc = s.rtc := rfl
@[simp] theorem State.modPlc_cvu (f : PlcState → PlcState) : (s.modPlc f).cvu = s.cvu := rfl
@[simp] theorem State.modPlc_hif (f : PlcState → PlcState) : (s.modPlc f).hif = s.hif := rfl
@[simp] theorem State.modPlc_saf (f : PlcState → PlcState) : (s.modPlc f).saf = s.saf := rfl
@[simp] theorem State.modPlc_tzl (f : PlcState → PlcState) : (s.modPlc f).tzl = s.tzl := rfl
@[simp] theorem State.modPlc_pwr (f : PlcState → PlcState) : (s.modPlc f).pwr = s.pwr := rfl
@[simp] theorem State.modPlc_free (f : PlcState → PlcState) : (s.modPlc f).free = s.free := rfl
@[simp] theorem State.modPlc_rd (f : PlcState → PlcState) (k : Nat) : (s.modPlc f).rd k = s.rd k := rfl
@[simp] theorem State.modPlc_get (f : PlcState → PlcState) (g : Fld) : (s.modPlc f).get g = s.get g := rfl
@[simp] theorem State.modPlc_flag (f : PlcState → PlcState) (g : Fld) : (s.modPlc f).flag g = s.flag g := rfl

@[simp] theorem State.modRtc_pending (f : RtcState → RtcState) : (s.modRtc f).pending = s.pending := rfl
@[simp] theorem State.modRtc_regs (f : RtcState → RtcState) : (s.modRtc f).regs = s.regs := rfl
@[simp] theorem State.modRtc_taken (f : RtcState → RtcState) : (s.modRtc f).taken = s.taken := rfl
@[simp] theorem State.modRtc_exp (f : RtcState → RtcState) : (s.modRtc f).exp = s.exp := rfl
@[simp] theorem State.modRtc_ldg (f : RtcState → RtcState) : (s.modRtc f).ldg = s.ldg := rfl
@[simp] theorem State.modRtc_evt (f : RtcState → RtcState) : (s.modRtc f).evt = s.evt := rfl
@[simp] theorem State.modRtc_pio (f : RtcState → RtcState) : (s.modRtc f).pio = s.pio := rfl
@[simp] theorem State.modRtc_prf (f : RtcState → RtcState) : (s.modRtc f).prf = s.prf := rfl
@[simp] theorem State.modRtc_fcv (f : RtcState → RtcState) : (s.modRtc f).fcv = s.fcv := rfl
@[simp] theorem State.modRtc_plc (f : RtcState → RtcState) : (s.modRtc f).plc = s.plc := rfl
@[simp] theorem State.modRtc_rtc (f : RtcState → RtcState) : (s.modRtc f).rtc = f s.rtc := rfl
@[simp] theorem State.modRtc_cvu (f : RtcState → RtcState) : (s.modRtc f).cvu = s.cvu := rfl
@[simp] theorem State.modRtc_hif (f : RtcState → RtcState) : (s.modRtc f).hif = s.hif := rfl
@[simp] theorem State.modRtc_saf (f : RtcState → RtcState) : (s.modRtc f).saf = s.saf := rfl
@[simp] theorem State.modRtc_tzl (f : RtcState → RtcState) : (s.modRtc f).tzl = s.tzl := rfl
@[simp] theorem State.modRtc_pwr (f : RtcState → RtcState) : (s.modRtc f).pwr = s.pwr := rfl
@[simp] theorem State.modRtc_free (f : RtcState → RtcState) : (s.modRtc f).free = s.free := rfl
@[simp] theorem State.modRtc_rd (f : RtcState → RtcState) (k : Nat) : (s.modRtc f).rd k = s.rd k := rfl
@[simp] theorem State.modRtc_get (f : RtcState → RtcState) (g : Fld) : (s.modRtc f).get g = s.get g := rfl
@[simp] theorem State.modRtc_flag (f : RtcState → RtcState) (g : Fld) : (s.modRtc f).flag g = s.flag g := rfl

@[simp] theorem State.modHif_pending (f : HifState → HifState) : (s.modHif f).pending = s.pending := rfl
@[simp] theorem State.modHif_regs (f : HifState → HifState) : (s.modHif f).regs = s.regs := rfl
@[simp] theorem State.modHif_taken (f : HifState → HifState) : (s.modHif f).taken = s.taken := rfl
@[simp] theorem State.modHif_exp (f : HifState → HifState) : (s.modHif f).exp = s.exp := rfl
@[simp] theorem State.modHif_ldg (f : HifState → HifState) : (s.modHif f).ldg = s.ldg := rfl
@[simp] theorem State.modHif_evt (f : HifState → HifState) : (s.modHif f).evt = s.evt := rfl
@[simp] theorem State.modHif_pio (f : HifState → HifState) : (s.modHif f).pio = s.pio := rfl
@[simp] theorem State.modHif_prf (f : HifState → HifState) : (s.modHif f).prf = s.prf := rfl
@[simp] theorem State.modHif_fcv (f : HifState → HifState) : (s.modHif f).fcv = s.fcv := rfl
@[simp] theorem State.modHif_plc (f : HifState → HifState) : (s.modHif f).plc = s.plc := rfl
@[simp] theorem State.modHif_rtc (f : HifState → HifState) : (s.modHif f).rtc = s.rtc := rfl
@[simp] theorem State.modHif_cvu (f : HifState → HifState) : (s.modHif f).cvu = s.cvu := rfl
@[simp] theorem State.modHif_hif (f : HifState → HifState) : (s.modHif f).hif = f s.hif := rfl
@[simp] theorem State.modHif_saf (f : HifState → HifState) : (s.modHif f).saf = s.saf := rfl
@[simp] theorem State.modHif_tzl (f : HifState → HifState) : (s.modHif f).tzl = s.tzl := rfl
@[simp] theorem State.modHif_pwr (f : HifState → HifState) : (s.modHif f).pwr = s.pwr := rfl
@[simp] theorem State.modHif_free (f : HifState → HifState) : (s.modHif f).free = s.free := rfl
@[simp] theorem State.modHif_rd (f : HifState → HifState) (k : Nat) : (s.modHif f).rd k = s.rd k := rfl
@[simp] theorem State.modHif_get (f : HifState → HifState) (g : Fld) : (s.modHif f).get g = s.get g := rfl
@[simp] theorem State.modHif_flag (f : HifState → HifState) (g : Fld) : (s.modHif f).flag g = s.flag g := rfl

@[simp] theorem State.modSaf_pending (f : SafState → SafState) : (s.modSaf f).pending = s.pending := rfl
@[simp] theorem State.modSaf_regs (f : SafState → SafState) : (s.modSaf f).regs = s.regs := rfl
@[simp] theorem State.modSaf_taken (f : SafState → SafState) : (s.modSaf f).taken = s.taken := rfl
@[simp] theorem State.modSaf_exp (f : SafState → SafState) : (s.modSaf f).exp = s.exp := rfl
@[simp] theorem State.modSaf_ldg (f : SafState → SafState) : (s.modSaf f).ldg = s.ldg := rfl
@[simp] theorem State.modSaf_evt (f : SafState → SafState) : (s.modSaf f).evt = s.evt := rfl
@[simp] theorem State.modSaf_pio (f : SafState → SafState) : (s.modSaf f).pio = s.pio := rfl
@[simp] theorem State.modSaf_prf (f : SafState → SafState) : (s.modSaf f).prf = s.prf := rfl
@[simp] theorem State.modSaf_fcv (f : SafState → SafState) : (s.modSaf f).fcv = s.fcv := rfl
@[simp] theorem State.modSaf_plc (f : SafState → SafState) : (s.modSaf f).plc = s.plc := rfl
@[simp] theorem State.modSaf_rtc (f : SafState → SafState) : (s.modSaf f).rtc = s.rtc := rfl
@[simp] theorem State.modSaf_cvu (f : SafState → SafState) : (s.modSaf f).cvu = s.cvu := rfl
@[simp] theorem State.modSaf_hif (f : SafState → SafState) : (s.modSaf f).hif = s.hif := rfl
@[simp] theorem State.modSaf_saf (f : SafState → SafState) : (s.modSaf f).saf = f s.saf := rfl
@[simp] theorem State.modSaf_tzl (f : SafState → SafState) : (s.modSaf f).tzl = s.tzl := rfl
@[simp] theorem State.modSaf_pwr (f : SafState → SafState) : (s.modSaf f).pwr = s.pwr := rfl
@[simp] theorem State.modSaf_free (f : SafState → SafState) : (s.modSaf f).free = s.free := rfl
@[simp] theorem State.modSaf_rd (f : SafState → SafState) (k : Nat) : (s.modSaf f).rd k = s.rd k := rfl
@[simp] theorem State.modSaf_get (f : SafState → SafState) (g : Fld) : (s.modSaf f).get g = s.get g := rfl
@[simp] theorem State.modSaf_flag (f : SafState → SafState) (g : Fld) : (s.modSaf f).flag g = s.flag g := rfl

@[simp] theorem State.modTzl_pending (f : TzlState → TzlState) : (s.modTzl f).pending = s.pending := rfl
@[simp] theorem State.modTzl_regs (f : TzlState → TzlState) : (s.modTzl f).regs = s.regs := rfl
@[simp] theorem State.modTzl_taken (f : TzlState → TzlState) : (s.modTzl f).taken = s.taken := rfl
@[simp] theorem State.modTzl_exp (f : TzlState → TzlState) : (s.modTzl f).exp = s.exp := rfl
@[simp] theorem State.modTzl_ldg (f : TzlState → TzlState) : (s.modTzl f).ldg = s.ldg := rfl
@[simp] theorem State.modTzl_evt (f : TzlState → TzlState) : (s.modTzl f).evt = s.evt := rfl
@[simp] theorem State.modTzl_pio (f : TzlState → TzlState) : (s.modTzl f).pio = s.pio := rfl
@[simp] theorem State.modTzl_prf (f : TzlState → TzlState) : (s.modTzl f).prf = s.prf := rfl
@[simp] theorem State.modTzl_fcv (f : TzlState → TzlState) : (s.modTzl f).fcv = s.fcv := rfl
@[simp] theorem State.modTzl_plc (f : TzlState → TzlState) : (s.modTzl f).plc = s.plc := rfl
@[simp] theorem State.modTzl_rtc (f : TzlState → TzlState) : (s.modTzl f).rtc = s.rtc := rfl
@[simp] theorem State.modTzl_cvu (f : TzlState → TzlState) : (s.modTzl f).cvu = s.cvu := rfl
@[simp] theorem State.modTzl_hif (f : TzlState → TzlState) : (s.modTzl f).hif = s.hif := rfl
@[simp] theorem State.modTzl_saf (f : TzlState → TzlState) : (s.modTzl f).saf = s.saf := rfl
@[simp] theorem State.modTzl_tzl (f : TzlState → TzlState) : (s.modTzl f).tzl = f s.tzl := rfl
@[simp] theorem State.modTzl_pwr (f : TzlState → TzlState) : (s.modTzl f).pwr = s.pwr := rfl
@[simp] theorem State.modTzl_free (f : TzlState → TzlState) : (s.modTzl f).free = s.free := rfl
@[simp] theorem State.modTzl_rd (f : TzlState → TzlState) (k : Nat) : (s.modTzl f).rd k = s.rd k := rfl
@[simp] theorem State.modTzl_get (f : TzlState → TzlState) (g : Fld) : (s.modTzl f).get g = s.get g := rfl
@[simp] theorem State.modTzl_flag (f : TzlState → TzlState) (g : Fld) : (s.modTzl f).flag g = s.flag g := rfl

@[simp] theorem State.modPwr_pending (f : PwrState → PwrState) : (s.modPwr f).pending = s.pending := rfl
@[simp] theorem State.modPwr_regs (f : PwrState → PwrState) : (s.modPwr f).regs = s.regs := rfl
@[simp] theorem State.modPwr_taken (f : PwrState → PwrState) : (s.modPwr f).taken = s.taken := rfl
@[simp] theorem State.modPwr_exp (f : PwrState → PwrState) : (s.modPwr f).exp = s.exp := rfl
@[simp] theorem State.modPwr_ldg (f : PwrState → PwrState) : (s.modPwr f).ldg = s.ldg := rfl
@[simp] theorem State.modPwr_evt (f : PwrState → PwrState) : (s.modPwr f).evt = s.evt := rfl
@[simp] theorem State.modPwr_pio (f : PwrState → PwrState) : (s.modPwr f).pio = s.pio := rfl
@[simp] theorem State.modPwr_prf (f : PwrState → PwrState) : (s.modPwr f).prf = s.prf := rfl
@[simp] theorem State.modPwr_fcv (f : PwrState → PwrState) : (s.modPwr f).fcv = s.fcv := rfl
@[simp] theorem State.modPwr_plc (f : PwrState → PwrState) : (s.modPwr f).plc = s.plc := rfl
@[simp] theorem State.modPwr_rtc (f : PwrState → PwrState) : (s.modPwr f).rtc = s.rtc := rfl
@[simp] theorem State.modPwr_cvu (f : PwrState → PwrState) : (s.modPwr f).cvu = s.cvu := rfl
@[simp] theorem State.modPwr_hif (f : PwrState → PwrState) : (s.modPwr f).hif = s.hif := rfl
@[simp] theorem State.modPwr_saf (f : PwrState → PwrState) : (s.modPwr f).saf = s.saf := rfl
@[simp] theorem State.modPwr_tzl (f : PwrState → PwrState) : (s.modPwr f).tzl = s.tzl := rfl
@[simp] theorem State.modPwr_pwr (f : PwrState → PwrState) : (s.modPwr f).pwr = f s.pwr := rfl
@[simp] theorem State.modPwr_free (f : PwrState → PwrState) : (s.modPwr f).free = s.free := rfl
@[simp] theorem State.modPwr_rd (f : PwrState → PwrState) (k : Nat) : (s.modPwr f).rd k = s.rd k := rfl
@[simp] theorem State.modPwr_get (f : PwrState → PwrState) (g : Fld) : (s.modPwr f).get g = s.get g := rfl
@[simp] theorem State.modPwr_flag (f : PwrState → PwrState) (g : Fld) : (s.modPwr f).flag g = s.flag g := rfl

@[simp] theorem State.modTrip_pending (n : Nat) (f : TripState → TripState) : (s.modTrip n f).pending = s.pending := rfl
@[simp] theorem State.modTrip_regs (n : Nat) (f : TripState → TripState) : (s.modTrip n f).regs = s.regs := rfl
@[simp] theorem State.modTrip_taken (n : Nat) (f : TripState → TripState) : (s.modTrip n f).taken = s.taken := rfl
@[simp] theorem State.modTrip_exp (n : Nat) (f : TripState → TripState) : (s.modTrip n f).exp = s.exp := rfl
@[simp] theorem State.modTrip_ldg (n : Nat) (f : TripState → TripState) : (s.modTrip n f).ldg = s.ldg := rfl
@[simp] theorem State.modTrip_evt (n : Nat) (f : TripState → TripState) : (s.modTrip n f).evt = s.evt := rfl
@[simp] theorem State.modTrip_prf (n : Nat) (f : TripState → TripState) : (s.modTrip n f).prf = s.prf := rfl
@[simp] theorem State.modTrip_fcv (n : Nat) (f : TripState → TripState) : (s.modTrip n f).fcv = s.fcv := rfl
@[simp] theorem State.modTrip_plc (n : Nat) (f : TripState → TripState) : (s.modTrip n f).plc = s.plc := rfl
@[simp] theorem State.modTrip_rtc (n : Nat) (f : TripState → TripState) : (s.modTrip n f).rtc = s.rtc := rfl
@[simp] theorem State.modTrip_cvu (n : Nat) (f : TripState → TripState) : (s.modTrip n f).cvu = s.cvu := rfl
@[simp] theorem State.modTrip_hif (n : Nat) (f : TripState → TripState) : (s.modTrip n f).hif = s.hif := rfl
@[simp] theorem State.modTrip_saf (n : Nat) (f : TripState → TripState) : (s.modTrip n f).saf = s.saf := rfl
@[simp] theorem State.modTrip_tzl (n : Nat) (f : TripState → TripState) : (s.modTrip n f).tzl = s.tzl := rfl
@[simp] theorem State.modTrip_pwr (n : Nat) (f : TripState → TripState) : (s.modTrip n f).pwr = s.pwr := rfl
@[simp] theorem State.modTrip_free (n : Nat) (f : TripState → TripState) : (s.modTrip n f).free = s.free := rfl
@[simp] theorem State.modTrip_rd (n : Nat) (f : TripState → TripState) (k : Nat) : (s.modTrip n f).rd k = s.rd k := rfl
@[simp] theorem State.modTrip_get (n : Nat) (f : TripState → TripState) (g : Fld) : (s.modTrip n f).get g = s.get g := rfl
@[simp] theorem State.modTrip_flag (n : Nat) (f : TripState → TripState) (g : Fld) : (s.modTrip n f).flag g = s.flag g := rfl

@[simp] theorem State.modCf_pending (n : Nat) (f : CfState → CfState) : (s.modCf n f).pending = s.pending := rfl
@[simp] theorem State.modCf_regs (n : Nat) (f : CfState → CfState) : (s.modCf n f).regs = s.regs := rfl
@[simp] theorem State.modCf_taken (n : Nat) (f : CfState → CfState) : (s.modCf n f).taken = s.taken := rfl
@[simp] theorem State.modCf_exp (n : Nat) (f : CfState → CfState) : (s.modCf n f).exp = s.exp := rfl
@[simp] theorem State.modCf_ldg (n : Nat) (f : CfState → CfState) : (s.modCf n f).ldg = s.ldg := rfl
@[simp] theorem State.modCf_evt (n : Nat) (f : CfState → CfState) : (s.modCf n f).evt = s.evt := rfl
@[simp] theorem State.modCf_prf (n : Nat) (f : CfState → CfState) : (s.modCf n f).prf = s.prf := rfl
@[simp] theorem State.modCf_fcv (n : Nat) (f : CfState → CfState) : (s.modCf n f).fcv = s.fcv := rfl
@[simp] theorem State.modCf_plc (n : Nat) (f : CfState → CfState) : (s.modCf n f).plc = s.plc := rfl
@[simp] theorem State.modCf_rtc (n : Nat) (f : CfState → CfState) : (s.modCf n f).rtc = s.rtc := rfl
@[simp] theorem State.modCf_cvu (n : Nat) (f : CfState → CfState) : (s.modCf n f).cvu = s.cvu := rfl
@[simp] theorem State.modCf_hif (n : Nat) (f : CfState → CfState) : (s.modCf n f).hif = s.hif := rfl
@[simp] theorem State.modCf_saf (n : Nat) (f : CfState → CfState) : (s.modCf n f).saf = s.saf := rfl
@[simp] theorem State.modCf_tzl (n : Nat) (f : CfState → CfState) : (s.modCf n f).tzl = s.tzl := rfl
@[simp] theorem State.modCf_pwr (n : Nat) (f : CfState → CfState) : (s.modCf n f).pwr = s.pwr := rfl
@[simp] theorem State.modCf_free (n : Nat) (f : CfState → CfState) : (s.modCf n f).free = s.free := rfl
@[simp] theorem State.modCf_rd (n : Nat) (f : CfState → CfState) (k : Nat) : (s.modCf n f).rd k = s.rd k := rfl
@[simp] theorem State.modCf_get (n : Nat) (f : CfState → CfState) (g : Fld) : (s.modCf n f).get g = s.get g := rfl
@[simp] theorem State.modCf_flag (n : Nat) (f : CfState → CfState) (g : Fld) : (s.modCf n f).flag g = s.flag g := rfl

@[simp] theorem State.modPin_pending (n : Nat) (f : PinState → PinState) : (s.modPin n f).pending = s.pending := rfl
@[simp] theorem State.modPin_regs (n : Nat) (f : PinState → PinState) : (s.modPin n f).regs = s.regs := rfl
@[simp] theorem State.modPin_taken (n : Nat) (f : PinState → PinState) : (s.modPin n f).taken = s.taken := rfl
@[simp] theorem State.modPin_exp (n : Nat) (f : PinState → PinState) : (s.modPin n f).exp = s.exp := rfl
@[simp] theorem State.modPin_ldg (n : Nat) (f : PinState → PinState) : (s.modPin n f).ldg = s.ldg := rfl
@[simp] theorem State.modPin_evt (n : Nat) (f : PinState → PinState) : (s.modPin n f).evt = s.evt := rfl
@[simp] theorem State.modPin_prf (n : Nat) (f : PinState → PinState) : (s.modPin n f).prf = s.prf := rfl
@[simp] theorem State.modPin_fcv (n : Nat) (f : PinState → PinState) : (s.modPin n f).fcv = s.fcv := rfl
@[simp] theorem State.modPin_plc (n : Nat) (f : PinState → PinState) : (s.modPin n f).plc = s.plc := rfl
@[simp] theorem State.modPin_rtc (n : Nat) (f : PinState → PinState) : (s.modPin n f).rtc = s.rtc := rfl
@[simp] theorem State.modPin_cvu (n : Nat) (f : PinState → PinState) : (s.modPin n f).cvu = s.cvu := rfl
@[simp] theorem State.modPin_hif (n : Nat) (f : PinState → PinState) : (s.modPin n f).hif = s.hif := rfl
@[simp] theorem State.modPin_saf (n : Nat) (f : PinState → PinState) : (s.modPin n f).saf = s.saf := rfl
@[simp] theorem State.modPin_tzl (n : Nat) (f : PinState → PinState) : (s.modPin n f).tzl = s.tzl := rfl
@[simp] theorem State.modPin_pwr (n : Nat) (f : PinState → PinState) : (s.modPin n f).pwr = s.pwr := rfl
@[simp] theorem State.modPin_free (n : Nat) (f : PinState → PinState) : (s.modPin n f).free = s.free := rfl
@[simp] theorem State.modPin_rd (n : Nat) (f : PinState → PinState) (k : Nat) : (s.modPin n f).rd k = s.rd k := rfl
@[simp] theorem State.modPin_get (n : Nat) (f : PinState → PinState) (g : Fld) : (s.modPin n f).get g = s.get g := rfl
@[simp] theorem State.modPin_flag (n : Nat) (f : PinState → PinState) (g : Fld) : (s.modPin n f).flag g = s.flag g := rfl

@[simp] theorem State.modChan_pending (n : Nat) (f : ChState → ChState) : (s.modChan n f).pending = s.pending := rfl
@[simp] theorem State.modChan_regs (n : Nat) (f : ChState → ChState) : (s.modChan n f).regs = s.regs := rfl
@[simp] theorem State.modChan_taken (n : Nat) (f : ChState → ChState) : (s.modChan n f).taken = s.taken := rfl
@[simp] theorem State.modChan_ldg (n : Nat) (f : ChState → ChState) : (s.modChan n f).ldg = s.ldg := rfl
@[simp] theorem State.modChan_evt (n : Nat) (f : ChState → ChState) : (s.modChan n f).evt = s.evt := rfl
@[simp] theorem State.modChan_pio (n : Nat) (f : ChState → ChState) : (s.modChan n f).pio = s.pio := rfl
@[simp] theorem State.modChan_prf (n : Nat) (f : ChState → ChState) : (s.modChan n f).prf = s.prf := rfl
@[simp] theorem State.modChan_fcv (n : Nat) (f : ChState → ChState) : (s.modChan n f).fcv = s.fcv := rfl
@[simp] theorem State.modChan_plc (n : Nat) (f : ChState → ChState) : (s.modChan n f).plc = s.plc := rfl
@[simp] theorem State.modChan_rtc (n : Nat) (f : ChState → ChState) : (s.modChan n f).rtc = s.rtc := rfl
@[simp] theorem State.modChan_cvu (n : Nat) (f : ChState → ChState) : (s.modChan n f).cvu = s.cvu := rfl
@[simp] theorem State.modChan_hif (n : Nat) (f : ChState → ChState) : (s.modChan n f).hif = s.hif := rfl
@[simp] theorem State.modChan_saf (n : Nat) (f : ChState → ChState) : (s.modChan n f).saf = s.saf := rfl
@[simp] theorem State.modChan_tzl (n : Nat) (f : ChState → ChState) : (s.modChan n f).tzl = s.tzl := rfl
@[simp] theorem State.modChan_pwr (n : Nat) (f : ChState → ChState) : (s.modChan n f).pwr = s.pwr := rfl
@[simp] theorem State.modChan_free (n : Nat) (f : ChState → ChState) : (s.modChan n f).free = s.free := rfl
@[simp] theorem State.modChan_rd (n : Nat) (f : ChState → ChState) (k : Nat) : (s.modChan n f).rd k = s.rd k := rfl
@[simp] theorem State.modChan_get (n : Nat) (f : ChState → ChState) (g : Fld) : (s.modChan n f).get g = s.get g := rfl
@[simp] theorem State.modChan_flag (n : Nat) (f : ChState → ChState) (g : Fld) : (s.modChan n f).flag g = s.flag g := rfl

@[simp] theorem State.modRing_pending (r : Nat) (f : RingAux → RingAux) : (s.modRing r f).pending = s.pending := rfl
@[simp] theorem State.modRing_regs (r : Nat) (f : RingAux → RingAux) : (s.modRing r f).regs = s.regs := rfl
@[simp] theorem State.modRing_taken (r : Nat) (f : RingAux → RingAux) : (s.modRing r f).taken = s.taken := rfl
@[simp] theorem State.modRing_exp (r : Nat) (f : RingAux → RingAux) : (s.modRing r f).exp = s.exp := rfl
@[simp] theorem State.modRing_ldg (r : Nat) (f : RingAux → RingAux) : (s.modRing r f).ldg = s.ldg := rfl
@[simp] theorem State.modRing_evt (r : Nat) (f : RingAux → RingAux) : (s.modRing r f).evt = s.evt := rfl
@[simp] theorem State.modRing_pio (r : Nat) (f : RingAux → RingAux) : (s.modRing r f).pio = s.pio := rfl
@[simp] theorem State.modRing_prf (r : Nat) (f : RingAux → RingAux) : (s.modRing r f).prf = s.prf := rfl
@[simp] theorem State.modRing_fcv (r : Nat) (f : RingAux → RingAux) : (s.modRing r f).fcv = s.fcv := rfl
@[simp] theorem State.modRing_plc (r : Nat) (f : RingAux → RingAux) : (s.modRing r f).plc = s.plc := rfl
@[simp] theorem State.modRing_rtc (r : Nat) (f : RingAux → RingAux) : (s.modRing r f).rtc = s.rtc := rfl
@[simp] theorem State.modRing_cvu (r : Nat) (f : RingAux → RingAux) : (s.modRing r f).cvu = s.cvu := rfl
@[simp] theorem State.modRing_saf (r : Nat) (f : RingAux → RingAux) : (s.modRing r f).saf = s.saf := rfl
@[simp] theorem State.modRing_tzl (r : Nat) (f : RingAux → RingAux) : (s.modRing r f).tzl = s.tzl := rfl
@[simp] theorem State.modRing_pwr (r : Nat) (f : RingAux → RingAux) : (s.modRing r f).pwr = s.pwr := rfl
@[simp] theorem State.modRing_free (r : Nat) (f : RingAux → RingAux) : (s.modRing r f).free = s.free := rfl
@[simp] theorem State.modRing_rd (r : Nat) (f : RingAux → RingAux) (k : Nat) : (s.modRing r f).rd k = s.rd k := rfl
@[simp] theorem State.modRing_get (r : Nat) (f : RingAux → RingAux) (g : Fld) : (s.modRing r f).get g = s.get g := rfl
@[simp] theorem State.modRing_flag (r : Nat) (f : RingAux → RingAux) (g : Fld) : (s.modRing r f).flag g = s.flag g := rfl

@[simp] theorem State.emit_pending (w : HostWrite) : (s.emit w).pending = s.pending := rfl
@[simp] theorem State.emit_regs (w : HostWrite) : (s.emit w).regs = s.regs := rfl
@[simp] theorem State.emit_taken (w : HostWrite) : (s.emit w).taken = s.taken := rfl
@[simp] theorem State.emit_exp (w : HostWrite) : (s.emit w).exp = s.exp := rfl
@[simp] theorem State.emit_ldg (w : HostWrite) : (s.emit w).ldg = s.ldg := rfl
@[simp] theorem State.emit_evt (w : HostWrite) : (s.emit w).evt = s.evt := rfl
@[simp] theorem State.emit_pio (w : HostWrite) : (s.emit w).pio = s.pio := rfl
@[simp] theorem State.emit_prf (w : HostWrite) : (s.emit w).prf = s.prf := rfl
@[simp] theorem State.emit_fcv (w : HostWrite) : (s.emit w).fcv = s.fcv := rfl
@[simp] theorem State.emit_plc (w : HostWrite) : (s.emit w).plc = s.plc := rfl
@[simp] theorem State.emit_rtc (w : HostWrite) : (s.emit w).rtc = s.rtc := rfl
@[simp] theorem State.emit_cvu (w : HostWrite) : (s.emit w).cvu = s.cvu := rfl
@[simp] theorem State.emit_saf (w : HostWrite) : (s.emit w).saf = s.saf := rfl
@[simp] theorem State.emit_tzl (w : HostWrite) : (s.emit w).tzl = s.tzl := rfl
@[simp] theorem State.emit_pwr (w : HostWrite) : (s.emit w).pwr = s.pwr := rfl
@[simp] theorem State.emit_free (w : HostWrite) : (s.emit w).free = s.free := rfl
@[simp] theorem State.emit_rd (w : HostWrite) (k : Nat) : (s.emit w).rd k = s.rd k := rfl
@[simp] theorem State.emit_get (w : HostWrite) (g : Fld) : (s.emit w).get g = s.get g := rfl
@[simp] theorem State.emit_flag (w : HostWrite) (g : Fld) : (s.emit w).flag g = s.flag g := rfl

@[simp] theorem State.untake_pending (t : Taken) : (s.untake t).pending = s.pending := rfl
@[simp] theorem State.untake_regs (t : Taken) : (s.untake t).regs = s.regs := rfl
@[simp] theorem State.untake_taken (t : Taken) : (s.untake t).taken = s.taken.erase t := rfl
@[simp] theorem State.untake_exp (t : Taken) : (s.untake t).exp = s.exp := rfl
@[simp] theorem State.untake_ldg (t : Taken) : (s.untake t).ldg = s.ldg := rfl
@[simp] theorem State.untake_evt (t : Taken) : (s.untake t).evt = s.evt := rfl
@[simp] theorem State.untake_pio (t : Taken) : (s.untake t).pio = s.pio := rfl
@[simp] theorem State.untake_prf (t : Taken) : (s.untake t).prf = s.prf := rfl
@[simp] theorem State.untake_fcv (t : Taken) : (s.untake t).fcv = s.fcv := rfl
@[simp] theorem State.untake_plc (t : Taken) : (s.untake t).plc = s.plc := rfl
@[simp] theorem State.untake_rtc (t : Taken) : (s.untake t).rtc = s.rtc := rfl
@[simp] theorem State.untake_cvu (t : Taken) : (s.untake t).cvu = s.cvu := rfl
@[simp] theorem State.untake_hif (t : Taken) : (s.untake t).hif = s.hif := rfl
@[simp] theorem State.untake_saf (t : Taken) : (s.untake t).saf = s.saf := rfl
@[simp] theorem State.untake_tzl (t : Taken) : (s.untake t).tzl = s.tzl := rfl
@[simp] theorem State.untake_pwr (t : Taken) : (s.untake t).pwr = s.pwr := rfl
@[simp] theorem State.untake_free (t : Taken) : (s.untake t).free = s.free := rfl
@[simp] theorem State.untake_rd (t : Taken) (k : Nat) : (s.untake t).rd k = s.rd k := rfl
@[simp] theorem State.untake_get (t : Taken) (g : Fld) : (s.untake t).get g = s.get g := rfl
@[simp] theorem State.untake_flag (t : Taken) (g : Fld) : (s.untake t).flag g = s.flag g := rfl

@[simp] theorem State.keep_pending (op : BitVec 8) (h : CmdHdr) (w : Wait) : (s.keep op h w).pending = s.pending := rfl
@[simp] theorem State.keep_regs (op : BitVec 8) (h : CmdHdr) (w : Wait) : (s.keep op h w).regs = s.regs := rfl
@[simp] theorem State.keep_taken (op : BitVec 8) (h : CmdHdr) (w : Wait) : (s.keep op h w).taken = s.taken ++ [{ op := op, hdr := h, wait := w, muted := false }] := rfl
@[simp] theorem State.keep_exp (op : BitVec 8) (h : CmdHdr) (w : Wait) : (s.keep op h w).exp = s.exp := rfl
@[simp] theorem State.keep_ldg (op : BitVec 8) (h : CmdHdr) (w : Wait) : (s.keep op h w).ldg = s.ldg := rfl
@[simp] theorem State.keep_evt (op : BitVec 8) (h : CmdHdr) (w : Wait) : (s.keep op h w).evt = s.evt := rfl
@[simp] theorem State.keep_pio (op : BitVec 8) (h : CmdHdr) (w : Wait) : (s.keep op h w).pio = s.pio := rfl
@[simp] theorem State.keep_prf (op : BitVec 8) (h : CmdHdr) (w : Wait) : (s.keep op h w).prf = s.prf := rfl
@[simp] theorem State.keep_fcv (op : BitVec 8) (h : CmdHdr) (w : Wait) : (s.keep op h w).fcv = s.fcv := rfl
@[simp] theorem State.keep_plc (op : BitVec 8) (h : CmdHdr) (w : Wait) : (s.keep op h w).plc = s.plc := rfl
@[simp] theorem State.keep_rtc (op : BitVec 8) (h : CmdHdr) (w : Wait) : (s.keep op h w).rtc = s.rtc := rfl
@[simp] theorem State.keep_cvu (op : BitVec 8) (h : CmdHdr) (w : Wait) : (s.keep op h w).cvu = s.cvu := rfl
@[simp] theorem State.keep_hif (op : BitVec 8) (h : CmdHdr) (w : Wait) : (s.keep op h w).hif = s.hif := rfl
@[simp] theorem State.keep_saf (op : BitVec 8) (h : CmdHdr) (w : Wait) : (s.keep op h w).saf = s.saf := rfl
@[simp] theorem State.keep_tzl (op : BitVec 8) (h : CmdHdr) (w : Wait) : (s.keep op h w).tzl = s.tzl := rfl
@[simp] theorem State.keep_pwr (op : BitVec 8) (h : CmdHdr) (w : Wait) : (s.keep op h w).pwr = s.pwr := rfl
@[simp] theorem State.keep_free (op : BitVec 8) (h : CmdHdr) (w : Wait) : (s.keep op h w).free = s.free := rfl
@[simp] theorem State.keep_rd (op : BitVec 8) (h : CmdHdr) (w : Wait) (k : Nat) : (s.keep op h w).rd k = s.rd k := rfl
@[simp] theorem State.keep_get (op : BitVec 8) (h : CmdHdr) (w : Wait) (g : Fld) : (s.keep op h w).get g = s.get g := rfl
@[simp] theorem State.keep_flag (op : BitVec 8) (h : CmdHdr) (w : Wait) (g : Fld) : (s.keep op h w).flag g = s.flag g := rfl

end Sys2Proof.Machine
end

