-- ==== Sys2Proof/Laws/Keeps.lean ====
section
/-!
SUPPORT. What the shared operations leave unchanged: one lemma per operation, naming every field of the state outside what the
operation is there to change.  Each follows from the operation's definition and the lemmas of the operations it calls.
-/

namespace Sys2Proof.Machine

/-! A fold over a list, and a change made for each number below a bound, leave what each of their steps leaves. -/

@[simp] theorem foldl_pending {β : Type} (g : State → β → State) (l : List β) (s : State) (h : ∀ s x, (g s x).pending = s.pending) :
    (l.foldl g s).pending = s.pending := by
  induction l generalizing s with
  | nil => rfl
  | cons x t ih => rw [List.foldl_cons, ih, h]

@[simp] theorem each_pending (n : Nat) (f : Nat → State → State) (s : State) (h : ∀ i s, (f i s).pending = s.pending) :
    (State.each n f s).pending = s.pending := foldl_pending _ _ _ (fun s x => h x s)

@[simp] theorem foldl_taken {β : Type} (g : State → β → State) (l : List β) (s : State) (h : ∀ s x, (g s x).taken = s.taken) :
    (l.foldl g s).taken = s.taken := by
  induction l generalizing s with
  | nil => rfl
  | cons x t ih => rw [List.foldl_cons, ih, h]

@[simp] theorem each_taken (n : Nat) (f : Nat → State → State) (s : State) (h : ∀ i s, (f i s).taken = s.taken) :
    (State.each n f s).taken = s.taken := foldl_taken _ _ _ (fun s x => h x s)

@[simp] theorem foldl_exp {β : Type} (g : State → β → State) (l : List β) (s : State) (h : ∀ s x, (g s x).exp = s.exp) :
    (l.foldl g s).exp = s.exp := by
  induction l generalizing s with
  | nil => rfl
  | cons x t ih => rw [List.foldl_cons, ih, h]

@[simp] theorem each_exp (n : Nat) (f : Nat → State → State) (s : State) (h : ∀ i s, (f i s).exp = s.exp) :
    (State.each n f s).exp = s.exp := foldl_exp _ _ _ (fun s x => h x s)

@[simp] theorem foldl_ldg {β : Type} (g : State → β → State) (l : List β) (s : State) (h : ∀ s x, (g s x).ldg = s.ldg) :
    (l.foldl g s).ldg = s.ldg := by
  induction l generalizing s with
  | nil => rfl
  | cons x t ih => rw [List.foldl_cons, ih, h]

@[simp] theorem each_ldg (n : Nat) (f : Nat → State → State) (s : State) (h : ∀ i s, (f i s).ldg = s.ldg) :
    (State.each n f s).ldg = s.ldg := foldl_ldg _ _ _ (fun s x => h x s)

@[simp] theorem foldl_evt {β : Type} (g : State → β → State) (l : List β) (s : State) (h : ∀ s x, (g s x).evt = s.evt) :
    (l.foldl g s).evt = s.evt := by
  induction l generalizing s with
  | nil => rfl
  | cons x t ih => rw [List.foldl_cons, ih, h]

@[simp] theorem each_evt (n : Nat) (f : Nat → State → State) (s : State) (h : ∀ i s, (f i s).evt = s.evt) :
    (State.each n f s).evt = s.evt := foldl_evt _ _ _ (fun s x => h x s)

@[simp] theorem foldl_pio {β : Type} (g : State → β → State) (l : List β) (s : State) (h : ∀ s x, (g s x).pio = s.pio) :
    (l.foldl g s).pio = s.pio := by
  induction l generalizing s with
  | nil => rfl
  | cons x t ih => rw [List.foldl_cons, ih, h]

@[simp] theorem each_pio (n : Nat) (f : Nat → State → State) (s : State) (h : ∀ i s, (f i s).pio = s.pio) :
    (State.each n f s).pio = s.pio := foldl_pio _ _ _ (fun s x => h x s)

@[simp] theorem foldl_prf {β : Type} (g : State → β → State) (l : List β) (s : State) (h : ∀ s x, (g s x).prf = s.prf) :
    (l.foldl g s).prf = s.prf := by
  induction l generalizing s with
  | nil => rfl
  | cons x t ih => rw [List.foldl_cons, ih, h]

@[simp] theorem each_prf (n : Nat) (f : Nat → State → State) (s : State) (h : ∀ i s, (f i s).prf = s.prf) :
    (State.each n f s).prf = s.prf := foldl_prf _ _ _ (fun s x => h x s)

@[simp] theorem foldl_fcv {β : Type} (g : State → β → State) (l : List β) (s : State) (h : ∀ s x, (g s x).fcv = s.fcv) :
    (l.foldl g s).fcv = s.fcv := by
  induction l generalizing s with
  | nil => rfl
  | cons x t ih => rw [List.foldl_cons, ih, h]

@[simp] theorem each_fcv (n : Nat) (f : Nat → State → State) (s : State) (h : ∀ i s, (f i s).fcv = s.fcv) :
    (State.each n f s).fcv = s.fcv := foldl_fcv _ _ _ (fun s x => h x s)

@[simp] theorem foldl_plc {β : Type} (g : State → β → State) (l : List β) (s : State) (h : ∀ s x, (g s x).plc = s.plc) :
    (l.foldl g s).plc = s.plc := by
  induction l generalizing s with
  | nil => rfl
  | cons x t ih => rw [List.foldl_cons, ih, h]

@[simp] theorem each_plc (n : Nat) (f : Nat → State → State) (s : State) (h : ∀ i s, (f i s).plc = s.plc) :
    (State.each n f s).plc = s.plc := foldl_plc _ _ _ (fun s x => h x s)

@[simp] theorem foldl_rtc {β : Type} (g : State → β → State) (l : List β) (s : State) (h : ∀ s x, (g s x).rtc = s.rtc) :
    (l.foldl g s).rtc = s.rtc := by
  induction l generalizing s with
  | nil => rfl
  | cons x t ih => rw [List.foldl_cons, ih, h]

@[simp] theorem each_rtc (n : Nat) (f : Nat → State → State) (s : State) (h : ∀ i s, (f i s).rtc = s.rtc) :
    (State.each n f s).rtc = s.rtc := foldl_rtc _ _ _ (fun s x => h x s)

@[simp] theorem foldl_cvu {β : Type} (g : State → β → State) (l : List β) (s : State) (h : ∀ s x, (g s x).cvu = s.cvu) :
    (l.foldl g s).cvu = s.cvu := by
  induction l generalizing s with
  | nil => rfl
  | cons x t ih => rw [List.foldl_cons, ih, h]

@[simp] theorem each_cvu (n : Nat) (f : Nat → State → State) (s : State) (h : ∀ i s, (f i s).cvu = s.cvu) :
    (State.each n f s).cvu = s.cvu := foldl_cvu _ _ _ (fun s x => h x s)

@[simp] theorem foldl_hif {β : Type} (g : State → β → State) (l : List β) (s : State) (h : ∀ s x, (g s x).hif = s.hif) :
    (l.foldl g s).hif = s.hif := by
  induction l generalizing s with
  | nil => rfl
  | cons x t ih => rw [List.foldl_cons, ih, h]

@[simp] theorem each_hif (n : Nat) (f : Nat → State → State) (s : State) (h : ∀ i s, (f i s).hif = s.hif) :
    (State.each n f s).hif = s.hif := foldl_hif _ _ _ (fun s x => h x s)

@[simp] theorem foldl_saf {β : Type} (g : State → β → State) (l : List β) (s : State) (h : ∀ s x, (g s x).saf = s.saf) :
    (l.foldl g s).saf = s.saf := by
  induction l generalizing s with
  | nil => rfl
  | cons x t ih => rw [List.foldl_cons, ih, h]

@[simp] theorem each_saf (n : Nat) (f : Nat → State → State) (s : State) (h : ∀ i s, (f i s).saf = s.saf) :
    (State.each n f s).saf = s.saf := foldl_saf _ _ _ (fun s x => h x s)

@[simp] theorem foldl_tzl {β : Type} (g : State → β → State) (l : List β) (s : State) (h : ∀ s x, (g s x).tzl = s.tzl) :
    (l.foldl g s).tzl = s.tzl := by
  induction l generalizing s with
  | nil => rfl
  | cons x t ih => rw [List.foldl_cons, ih, h]

@[simp] theorem each_tzl (n : Nat) (f : Nat → State → State) (s : State) (h : ∀ i s, (f i s).tzl = s.tzl) :
    (State.each n f s).tzl = s.tzl := foldl_tzl _ _ _ (fun s x => h x s)

@[simp] theorem foldl_pwr {β : Type} (g : State → β → State) (l : List β) (s : State) (h : ∀ s x, (g s x).pwr = s.pwr) :
    (l.foldl g s).pwr = s.pwr := by
  induction l generalizing s with
  | nil => rfl
  | cons x t ih => rw [List.foldl_cons, ih, h]

@[simp] theorem each_pwr (n : Nat) (f : Nat → State → State) (s : State) (h : ∀ i s, (f i s).pwr = s.pwr) :
    (State.each n f s).pwr = s.pwr := foldl_pwr _ _ _ (fun s x => h x s)

@[simp] theorem foldl_free {β : Type} (g : State → β → State) (l : List β) (s : State) (h : ∀ s x, (g s x).free = s.free) :
    (l.foldl g s).free = s.free := by
  induction l generalizing s with
  | nil => rfl
  | cons x t ih => rw [List.foldl_cons, ih, h]

@[simp] theorem each_free (n : Nat) (f : Nat → State → State) (s : State) (h : ∀ i s, (f i s).free = s.free) :
    (State.each n f s).free = s.free := foldl_free _ _ _ (fun s x => h x s)

/-! A field of a state chosen by a condition. -/

@[simp] theorem ite_pending (p : Prop) [Decidable p] (a b : State) : (if p then a else b).pending = if p then a.pending else b.pending := by
  split <;> rfl

@[simp] theorem ite_regs (p : Prop) [Decidable p] (a b : State) : (if p then a else b).regs = if p then a.regs else b.regs := by
  split <;> rfl

@[simp] theorem ite_taken (p : Prop) [Decidable p] (a b : State) : (if p then a else b).taken = if p then a.taken else b.taken := by
  split <;> rfl

@[simp] theorem ite_exp (p : Prop) [Decidable p] (a b : State) : (if p then a else b).exp = if p then a.exp else b.exp := by
  split <;> rfl

@[simp] theorem ite_ldg (p : Prop) [Decidable p] (a b : State) : (if p then a else b).ldg = if p then a.ldg else b.ldg := by
  split <;> rfl

@[simp] theorem ite_evt (p : Prop) [Decidable p] (a b : State) : (if p then a else b).evt = if p then a.evt else b.evt := by
  split <;> rfl

@[simp] theorem ite_pio (p : Prop) [Decidable p] (a b : State) : (if p then a else b).pio = if p then a.pio else b.pio := by
  split <;> rfl

@[simp] theorem ite_prf (p : Prop) [Decidable p] (a b : State) : (if p then a else b).prf = if p then a.prf else b.prf := by
  split <;> rfl

@[simp] theorem ite_fcv (p : Prop) [Decidable p] (a b : State) : (if p then a else b).fcv = if p then a.fcv else b.fcv := by
  split <;> rfl

@[simp] theorem ite_plc (p : Prop) [Decidable p] (a b : State) : (if p then a else b).plc = if p then a.plc else b.plc := by
  split <;> rfl

@[simp] theorem ite_rtc (p : Prop) [Decidable p] (a b : State) : (if p then a else b).rtc = if p then a.rtc else b.rtc := by
  split <;> rfl

@[simp] theorem ite_cvu (p : Prop) [Decidable p] (a b : State) : (if p then a else b).cvu = if p then a.cvu else b.cvu := by
  split <;> rfl

@[simp] theorem ite_hif (p : Prop) [Decidable p] (a b : State) : (if p then a else b).hif = if p then a.hif else b.hif := by
  split <;> rfl

@[simp] theorem ite_saf (p : Prop) [Decidable p] (a b : State) : (if p then a else b).saf = if p then a.saf else b.saf := by
  split <;> rfl

@[simp] theorem ite_tzl (p : Prop) [Decidable p] (a b : State) : (if p then a else b).tzl = if p then a.tzl else b.tzl := by
  split <;> rfl

@[simp] theorem ite_pwr (p : Prop) [Decidable p] (a b : State) : (if p then a else b).pwr = if p then a.pwr else b.pwr := by
  split <;> rfl

@[simp] theorem ite_free (p : Prop) [Decidable p] (a b : State) : (if p then a else b).free = if p then a.free else b.free := by
  split <;> rfl

/-! The operations -/

@[simp] theorem State.put_keeps (s : State) (f : Fld) (x : Nat) :
    (s.put f x).pending = s.pending ∧ (s.put f x).taken = s.taken ∧ (s.put f x).exp = s.exp ∧ (s.put f x).ldg = s.ldg
      ∧ (s.put f x).evt = s.evt ∧ (s.put f x).pio = s.pio ∧ (s.put f x).prf = s.prf ∧ (s.put f x).fcv = s.fcv ∧ (s.put
      f x).plc = s.plc ∧ (s.put f x).rtc = s.rtc ∧ (s.put f x).cvu = s.cvu ∧ (s.put f x).hif = s.hif ∧ (s.put f x).saf
      = s.saf ∧ (s.put f x).tzl = s.tzl ∧ (s.put f x).pwr = s.pwr ∧ (s.put f x).free = s.free := by simp [State.put]

@[simp] theorem State.setFlag_keeps (s : State) (f : Fld) (b : Bool) :
    (s.setFlag f b).pending = s.pending ∧ (s.setFlag f b).taken = s.taken ∧ (s.setFlag f b).exp = s.exp ∧ (s.setFlag f
      b).ldg = s.ldg ∧ (s.setFlag f b).evt = s.evt ∧ (s.setFlag f b).pio = s.pio ∧ (s.setFlag f b).prf = s.prf ∧
      (s.setFlag f b).fcv = s.fcv ∧ (s.setFlag f b).plc = s.plc ∧ (s.setFlag f b).rtc = s.rtc ∧ (s.setFlag f b).cvu =
      s.cvu ∧ (s.setFlag f b).hif = s.hif ∧ (s.setFlag f b).saf = s.saf ∧ (s.setFlag f b).tzl = s.tzl ∧ (s.setFlag f
      b).pwr = s.pwr ∧ (s.setFlag f b).free = s.free := by simp [State.setFlag]

@[simp] theorem State.putI_keeps (s : State) (f : Fld) (x : Int) :
    (s.putI f x).pending = s.pending ∧ (s.putI f x).taken = s.taken ∧ (s.putI f x).exp = s.exp ∧ (s.putI f x).ldg =
      s.ldg ∧ (s.putI f x).evt = s.evt ∧ (s.putI f x).pio = s.pio ∧ (s.putI f x).prf = s.prf ∧ (s.putI f x).fcv =
      s.fcv ∧ (s.putI f x).plc = s.plc ∧ (s.putI f x).rtc = s.rtc ∧ (s.putI f x).cvu = s.cvu ∧ (s.putI f x).hif =
      s.hif ∧ (s.putI f x).saf = s.saf ∧ (s.putI f x).tzl = s.tzl ∧ (s.putI f x).pwr = s.pwr ∧ (s.putI f x).free =
      s.free := by simp [State.putI]

@[simp] theorem State.bump_keeps (s : State) (f : Fld) (n : Nat) :
    (s.bump f n).pending = s.pending ∧ (s.bump f n).taken = s.taken ∧ (s.bump f n).exp = s.exp ∧ (s.bump f n).ldg =
      s.ldg ∧ (s.bump f n).evt = s.evt ∧ (s.bump f n).pio = s.pio ∧ (s.bump f n).prf = s.prf ∧ (s.bump f n).fcv =
      s.fcv ∧ (s.bump f n).plc = s.plc ∧ (s.bump f n).rtc = s.rtc ∧ (s.bump f n).cvu = s.cvu ∧ (s.bump f n).hif =
      s.hif ∧ (s.bump f n).saf = s.saf ∧ (s.bump f n).tzl = s.tzl ∧ (s.bump f n).pwr = s.pwr ∧ (s.bump f n).free =
      s.free := by simp [State.bump]

@[simp] theorem State.putWide_keeps (s : State) (l : List Nat) (n : Nat) :
    (s.putWide l n).pending = s.pending ∧ (s.putWide l n).taken = s.taken ∧ (s.putWide l n).exp = s.exp ∧ (s.putWide l
      n).ldg = s.ldg ∧ (s.putWide l n).evt = s.evt ∧ (s.putWide l n).pio = s.pio ∧ (s.putWide l n).prf = s.prf ∧
      (s.putWide l n).fcv = s.fcv ∧ (s.putWide l n).plc = s.plc ∧ (s.putWide l n).rtc = s.rtc ∧ (s.putWide l n).cvu =
      s.cvu ∧ (s.putWide l n).hif = s.hif ∧ (s.putWide l n).saf = s.saf ∧ (s.putWide l n).tzl = s.tzl ∧ (s.putWide l
      n).pwr = s.pwr ∧ (s.putWide l n).free = s.free := by
  induction l generalizing s n with
  | nil => simp [State.putWide]
  | cons o t ih => simp [State.putWide, ih]

@[simp] theorem State.setPd_keeps (s : State) (d : Nat) (on : Bool) :
    (s.setPd d on).pending = s.pending ∧ (s.setPd d on).taken = s.taken ∧ (s.setPd d on).exp = s.exp ∧ (s.setPd d
      on).ldg = s.ldg ∧ (s.setPd d on).evt = s.evt ∧ (s.setPd d on).pio = s.pio ∧ (s.setPd d on).prf = s.prf ∧
      (s.setPd d on).fcv = s.fcv ∧ (s.setPd d on).plc = s.plc ∧ (s.setPd d on).rtc = s.rtc ∧ (s.setPd d on).cvu =
      s.cvu ∧ (s.setPd d on).hif = s.hif ∧ (s.setPd d on).saf = s.saf ∧ (s.setPd d on).tzl = s.tzl ∧ (s.setPd d
      on).pwr = s.pwr ∧ (s.setPd d on).free = s.free := by simp [State.setPd]

@[simp] theorem State.resetRegs_keeps (s : State) (p : Nat → Bool) :
    (s.resetRegs p).pending = s.pending ∧ (s.resetRegs p).taken = s.taken ∧ (s.resetRegs p).exp = s.exp ∧ (s.resetRegs
      p).ldg = s.ldg ∧ (s.resetRegs p).evt = s.evt ∧ (s.resetRegs p).pio = s.pio ∧ (s.resetRegs p).prf = s.prf ∧
      (s.resetRegs p).fcv = s.fcv ∧ (s.resetRegs p).plc = s.plc ∧ (s.resetRegs p).rtc = s.rtc ∧ (s.resetRegs p).cvu =
      s.cvu ∧ (s.resetRegs p).hif = s.hif ∧ (s.resetRegs p).saf = s.saf ∧ (s.resetRegs p).tzl = s.tzl ∧ (s.resetRegs
      p).pwr = s.pwr ∧ (s.resetRegs p).free = s.free := by simp [State.resetRegs]

@[simp] theorem State.trackSource_keeps (s : State) (code index : Nat) (edge : EvEdge) :
    (s.trackSource code index edge).pending = s.pending ∧ (s.trackSource code index edge).taken = s.taken ∧
      (s.trackSource code index edge).exp = s.exp ∧ (s.trackSource code index edge).ldg = s.ldg ∧ (s.trackSource code
      index edge).pio = s.pio ∧ (s.trackSource code index edge).prf = s.prf ∧ (s.trackSource code index edge).fcv =
      s.fcv ∧ (s.trackSource code index edge).plc = s.plc ∧ (s.trackSource code index edge).rtc = s.rtc ∧
      (s.trackSource code index edge).cvu = s.cvu ∧ (s.trackSource code index edge).hif = s.hif ∧ (s.trackSource code
      index edge).saf = s.saf ∧ (s.trackSource code index edge).tzl = s.tzl ∧ (s.trackSource code index edge).pwr =
      s.pwr ∧ (s.trackSource code index edge).free = s.free := by
  unfold State.trackSource; dsimp only; repeat' split
  all_goals simp

@[simp] theorem State.eventX_keeps (s : State) (expno : BitVec 72) (ts : BitVec 64) (code index : Nat) (edge : EvEdge)
    (p0 p1 p2 : Nat) :
    (s.eventX expno ts code index edge p0 p1 p2).pending = s.pending ∧ (s.eventX expno ts code index edge p0 p1
      p2).taken = s.taken ∧ (s.eventX expno ts code index edge p0 p1 p2).exp = s.exp ∧ (s.eventX expno ts code index
      edge p0 p1 p2).ldg = s.ldg ∧ (s.eventX expno ts code index edge p0 p1 p2).pio = s.pio ∧ (s.eventX expno ts code
      index edge p0 p1 p2).prf = s.prf ∧ (s.eventX expno ts code index edge p0 p1 p2).fcv = s.fcv ∧ (s.eventX expno ts
      code index edge p0 p1 p2).plc = s.plc ∧ (s.eventX expno ts code index edge p0 p1 p2).rtc = s.rtc ∧ (s.eventX
      expno ts code index edge p0 p1 p2).cvu = s.cvu ∧ (s.eventX expno ts code index edge p0 p1 p2).hif = s.hif ∧
      (s.eventX expno ts code index edge p0 p1 p2).saf = s.saf ∧ (s.eventX expno ts code index edge p0 p1 p2).tzl =
      s.tzl ∧ (s.eventX expno ts code index edge p0 p1 p2).pwr = s.pwr ∧ (s.eventX expno ts code index edge p0 p1
      p2).free = s.free := by simp [State.eventX]

@[simp] theorem State.eventT_keeps (s : State) (ts : BitVec 64) (code index : Nat) (edge : EvEdge) (p0 p1 p2 : Nat) :
    (s.eventT ts code index edge p0 p1 p2).pending = s.pending ∧ (s.eventT ts code index edge p0 p1 p2).taken =
      s.taken ∧ (s.eventT ts code index edge p0 p1 p2).exp = s.exp ∧ (s.eventT ts code index edge p0 p1 p2).ldg =
      s.ldg ∧ (s.eventT ts code index edge p0 p1 p2).pio = s.pio ∧ (s.eventT ts code index edge p0 p1 p2).prf = s.prf
      ∧ (s.eventT ts code index edge p0 p1 p2).fcv = s.fcv ∧ (s.eventT ts code index edge p0 p1 p2).plc = s.plc ∧
      (s.eventT ts code index edge p0 p1 p2).rtc = s.rtc ∧ (s.eventT ts code index edge p0 p1 p2).cvu = s.cvu ∧
      (s.eventT ts code index edge p0 p1 p2).hif = s.hif ∧ (s.eventT ts code index edge p0 p1 p2).saf = s.saf ∧
      (s.eventT ts code index edge p0 p1 p2).tzl = s.tzl ∧ (s.eventT ts code index edge p0 p1 p2).pwr = s.pwr ∧
      (s.eventT ts code index edge p0 p1 p2).free = s.free := by simp [State.eventT]

@[simp] theorem State.event_keeps (s : State) (code index : Nat) (edge : EvEdge) (p0 p1 p2 : Nat) :
    (s.event code index edge p0 p1 p2).pending = s.pending ∧ (s.event code index edge p0 p1 p2).taken = s.taken ∧
      (s.event code index edge p0 p1 p2).exp = s.exp ∧ (s.event code index edge p0 p1 p2).ldg = s.ldg ∧ (s.event code
      index edge p0 p1 p2).pio = s.pio ∧ (s.event code index edge p0 p1 p2).prf = s.prf ∧ (s.event code index edge p0
      p1 p2).fcv = s.fcv ∧ (s.event code index edge p0 p1 p2).plc = s.plc ∧ (s.event code index edge p0 p1 p2).rtc =
      s.rtc ∧ (s.event code index edge p0 p1 p2).cvu = s.cvu ∧ (s.event code index edge p0 p1 p2).hif = s.hif ∧
      (s.event code index edge p0 p1 p2).saf = s.saf ∧ (s.event code index edge p0 p1 p2).tzl = s.tzl ∧ (s.event code
      index edge p0 p1 p2).pwr = s.pwr ∧ (s.event code index edge p0 p1 p2).free = s.free := by simp [State.event]

@[simp] theorem State.queueEvents_keeps (s : State) :
    (State.queueEvents s).pending = s.pending ∧ (State.queueEvents s).exp = s.exp ∧ (State.queueEvents s).ldg = s.ldg
      ∧ (State.queueEvents s).pio = s.pio ∧ (State.queueEvents s).plc = s.plc ∧ (State.queueEvents s).rtc = s.rtc ∧
      (State.queueEvents s).cvu = s.cvu ∧ (State.queueEvents s).saf = s.saf ∧ (State.queueEvents s).pwr = s.pwr ∧
      (State.queueEvents s).free = s.free := by simp [State.queueEvents]

@[simp] theorem State.signal_keeps (s : State) (v : Nat) :
    (s.signal v).pending = s.pending ∧ (s.signal v).taken = s.taken ∧ (s.signal v).exp = s.exp ∧ (s.signal v).ldg =
      s.ldg ∧ (s.signal v).evt = s.evt ∧ (s.signal v).pio = s.pio ∧ (s.signal v).prf = s.prf ∧ (s.signal v).fcv =
      s.fcv ∧ (s.signal v).plc = s.plc ∧ (s.signal v).rtc = s.rtc ∧ (s.signal v).cvu = s.cvu ∧ (s.signal v).saf =
      s.saf ∧ (s.signal v).tzl = s.tzl ∧ (s.signal v).pwr = s.pwr ∧ (s.signal v).free = s.free := by simp [State.signal]

@[simp] theorem State.signalRise_keeps (s : State) (before : Nat) :
    (s.signalRise before).pending = s.pending ∧ (s.signalRise before).taken = s.taken ∧ (s.signalRise before).exp =
      s.exp ∧ (s.signalRise before).ldg = s.ldg ∧ (s.signalRise before).evt = s.evt ∧ (s.signalRise before).pio =
      s.pio ∧ (s.signalRise before).prf = s.prf ∧ (s.signalRise before).fcv = s.fcv ∧ (s.signalRise before).plc =
      s.plc ∧ (s.signalRise before).rtc = s.rtc ∧ (s.signalRise before).cvu = s.cvu ∧ (s.signalRise before).saf =
      s.saf ∧ (s.signalRise before).tzl = s.tzl ∧ (s.signalRise before).pwr = s.pwr ∧ (s.signalRise before).free =
      s.free := by simp [State.signalRise]

@[simp] theorem State.tripBall_keeps (s : State) (n : Nat) (low : Bool) :
    (s.tripBall n low).pending = s.pending ∧ (s.tripBall n low).taken = s.taken ∧ (s.tripBall n low).exp = s.exp ∧
      (s.tripBall n low).ldg = s.ldg ∧ (s.tripBall n low).evt = s.evt ∧ (s.tripBall n low).prf = s.prf ∧ (s.tripBall n
      low).fcv = s.fcv ∧ (s.tripBall n low).plc = s.plc ∧ (s.tripBall n low).rtc = s.rtc ∧ (s.tripBall n low).cvu =
      s.cvu ∧ (s.tripBall n low).hif = s.hif ∧ (s.tripBall n low).saf = s.saf ∧ (s.tripBall n low).tzl = s.tzl ∧
      (s.tripBall n low).pwr = s.pwr ∧ (s.tripBall n low).free = s.free := by simp [State.tripBall]

@[simp] theorem State.tripState_keeps (s : State) (n : Nat) :
    (s.tripState n).pending = s.pending ∧ (s.tripState n).taken = s.taken ∧ (s.tripState n).exp = s.exp ∧ (s.tripState
      n).ldg = s.ldg ∧ (s.tripState n).prf = s.prf ∧ (s.tripState n).fcv = s.fcv ∧ (s.tripState n).plc = s.plc ∧
      (s.tripState n).rtc = s.rtc ∧ (s.tripState n).cvu = s.cvu ∧ (s.tripState n).hif = s.hif ∧ (s.tripState n).saf =
      s.saf ∧ (s.tripState n).tzl = s.tzl ∧ (s.tripState n).pwr = s.pwr ∧ (s.tripState n).free = s.free := by simp [State.tripState]

@[simp] theorem State.tripDrive_keeps (s : State) (n : Nat) :
    (s.tripDrive n).pending = s.pending ∧ (s.tripDrive n).taken = s.taken ∧ (s.tripDrive n).exp = s.exp ∧ (s.tripDrive
      n).ldg = s.ldg ∧ (s.tripDrive n).evt = s.evt ∧ (s.tripDrive n).prf = s.prf ∧ (s.tripDrive n).fcv = s.fcv ∧
      (s.tripDrive n).plc = s.plc ∧ (s.tripDrive n).rtc = s.rtc ∧ (s.tripDrive n).cvu = s.cvu ∧ (s.tripDrive n).hif =
      s.hif ∧ (s.tripDrive n).saf = s.saf ∧ (s.tripDrive n).tzl = s.tzl ∧ (s.tripDrive n).pwr = s.pwr ∧ (s.tripDrive
      n).free = s.free := by simp [State.tripDrive]

@[simp] theorem State.tripFollow_keeps (s : State) (n : Nat) :
    (s.tripFollow n).pending = s.pending ∧ (s.tripFollow n).taken = s.taken ∧ (s.tripFollow n).exp = s.exp ∧
      (s.tripFollow n).ldg = s.ldg ∧ (s.tripFollow n).prf = s.prf ∧ (s.tripFollow n).fcv = s.fcv ∧ (s.tripFollow
      n).plc = s.plc ∧ (s.tripFollow n).rtc = s.rtc ∧ (s.tripFollow n).cvu = s.cvu ∧ (s.tripFollow n).hif = s.hif ∧
      (s.tripFollow n).saf = s.saf ∧ (s.tripFollow n).tzl = s.tzl ∧ (s.tripFollow n).pwr = s.pwr ∧ (s.tripFollow
      n).free = s.free := by simp [State.tripFollow]

@[simp] theorem State.tripNow_keeps (s : State) :
    (State.tripNow s).pending = s.pending ∧ (State.tripNow s).taken = s.taken ∧ (State.tripNow s).exp = s.exp ∧
      (State.tripNow s).ldg = s.ldg ∧ (State.tripNow s).prf = s.prf ∧ (State.tripNow s).fcv = s.fcv ∧ (State.tripNow
      s).plc = s.plc ∧ (State.tripNow s).rtc = s.rtc ∧ (State.tripNow s).cvu = s.cvu ∧ (State.tripNow s).hif = s.hif ∧
      (State.tripNow s).saf = s.saf ∧ (State.tripNow s).tzl = s.tzl ∧ (State.tripNow s).pwr = s.pwr ∧ (State.tripNow
      s).free = s.free := by simp [State.tripNow]

@[simp] theorem State.fcvShow_keeps (s : State) :
    (s.fcvShow).pending = s.pending ∧ (s.fcvShow).taken = s.taken ∧ (s.fcvShow).exp = s.exp ∧ (s.fcvShow).ldg =
      s.ldg ∧ (s.fcvShow).evt = s.evt ∧ (s.fcvShow).pio = s.pio ∧ (s.fcvShow).prf = s.prf ∧ (s.fcvShow).fcv = s.fcv
      ∧ (s.fcvShow).plc = s.plc ∧ (s.fcvShow).rtc = s.rtc ∧ (s.fcvShow).cvu = s.cvu ∧ (s.fcvShow).hif = s.hif ∧
      (s.fcvShow).saf = s.saf ∧ (s.fcvShow).tzl = s.tzl ∧ (s.fcvShow).pwr = s.pwr ∧ (s.fcvShow).free = s.free := by
      simp [State.fcvShow]

@[simp] theorem State.sheetTrigger_keeps (s : State) (slot source : Nat) (code : BitVec 16) (index : BitVec 8) (evseq
    : BitVec 64) (at_ : Nat) :
    (s.sheetTrigger slot source code index evseq at_).pending = s.pending ∧ (s.sheetTrigger slot source code index
      evseq at_).taken = s.taken ∧ (s.sheetTrigger slot source code index evseq at_).exp = s.exp ∧ (s.sheetTrigger
      slot source code index evseq at_).ldg = s.ldg ∧ (s.sheetTrigger slot source code index evseq at_).pio = s.pio
      ∧ (s.sheetTrigger slot source code index evseq at_).prf = s.prf ∧ (s.sheetTrigger slot source code index evseq
      at_).plc = s.plc ∧ (s.sheetTrigger slot source code index evseq at_).rtc = s.rtc ∧ (s.sheetTrigger slot source
      code index evseq at_).cvu = s.cvu ∧ (s.sheetTrigger slot source code index evseq at_).hif = s.hif ∧
      (s.sheetTrigger slot source code index evseq at_).saf = s.saf ∧ (s.sheetTrigger slot source code index evseq
      at_).tzl = s.tzl ∧ (s.sheetTrigger slot source code index evseq at_).pwr = s.pwr ∧ (s.sheetTrigger slot source
      code index evseq at_).free = s.free := by unfold State.sheetTrigger; split <;> simp

@[simp] theorem State.sheetNow_keeps (s : State) :
    (s.sheetNow).pending = s.pending ∧ (s.sheetNow).taken = s.taken ∧ (s.sheetNow).exp = s.exp ∧ (s.sheetNow).ldg =
      s.ldg ∧ (s.sheetNow).pio = s.pio ∧ (s.sheetNow).prf = s.prf ∧ (s.sheetNow).plc = s.plc ∧ (s.sheetNow).rtc =
      s.rtc ∧ (s.sheetNow).cvu = s.cvu ∧ (s.sheetNow).hif = s.hif ∧ (s.sheetNow).saf = s.saf ∧ (s.sheetNow).tzl =
      s.tzl ∧ (s.sheetNow).pwr = s.pwr ∧ (s.sheetNow).free = s.free := by simp [State.sheetNow]

@[simp] theorem State.settle_keeps (s : State) (before : Nat) :
    (s.settle before).pending = s.pending ∧ (s.settle before).exp = s.exp ∧ (s.settle before).ldg = s.ldg ∧ (s.settle
      before).plc = s.plc ∧ (s.settle before).rtc = s.rtc ∧ (s.settle before).cvu = s.cvu ∧ (s.settle before).saf =
      s.saf ∧ (s.settle before).pwr = s.pwr ∧ (s.settle before).free = s.free := by simp [State.settle]

@[simp] theorem State.dmaFault_keeps (s : State) (idx : Nat) (c : DmaCause) (addr : BitVec 64) :
    (s.dmaFault idx c addr).pending = s.pending ∧ (s.dmaFault idx c addr).taken = s.taken ∧ (s.dmaFault idx c
      addr).exp = s.exp ∧ (s.dmaFault idx c addr).ldg = s.ldg ∧ (s.dmaFault idx c addr).pio = s.pio ∧ (s.dmaFault idx
      c addr).prf = s.prf ∧ (s.dmaFault idx c addr).fcv = s.fcv ∧ (s.dmaFault idx c addr).plc = s.plc ∧ (s.dmaFault
      idx c addr).rtc = s.rtc ∧ (s.dmaFault idx c addr).cvu = s.cvu ∧ (s.dmaFault idx c addr).hif = s.hif ∧
      (s.dmaFault idx c addr).saf = s.saf ∧ (s.dmaFault idx c addr).tzl = s.tzl ∧ (s.dmaFault idx c addr).pwr = s.pwr
      ∧ (s.dmaFault idx c addr).free = s.free := by simp [State.dmaFault]

@[simp] theorem State.hostWrite_keeps (s : State) (w : HostWrite) :
    (s.hostWrite w).pending = s.pending ∧ (s.hostWrite w).taken = s.taken ∧ (s.hostWrite w).exp = s.exp ∧ (s.hostWrite
      w).ldg = s.ldg ∧ (s.hostWrite w).evt = s.evt ∧ (s.hostWrite w).pio = s.pio ∧ (s.hostWrite w).prf = s.prf ∧
      (s.hostWrite w).fcv = s.fcv ∧ (s.hostWrite w).plc = s.plc ∧ (s.hostWrite w).rtc = s.rtc ∧ (s.hostWrite w).cvu =
      s.cvu ∧ (s.hostWrite w).saf = s.saf ∧ (s.hostWrite w).tzl = s.tzl ∧ (s.hostWrite w).pwr = s.pwr ∧ (s.hostWrite
      w).free = s.free := by simp [State.hostWrite]

@[simp] theorem State.statusRing_keeps (s : State) (r : Nat) :
    (s.statusRing r).pending = s.pending ∧ (s.statusRing r).taken = s.taken ∧ (s.statusRing r).exp = s.exp ∧
      (s.statusRing r).ldg = s.ldg ∧ (s.statusRing r).evt = s.evt ∧ (s.statusRing r).pio = s.pio ∧ (s.statusRing
      r).prf = s.prf ∧ (s.statusRing r).fcv = s.fcv ∧ (s.statusRing r).plc = s.plc ∧ (s.statusRing r).rtc = s.rtc ∧
      (s.statusRing r).cvu = s.cvu ∧ (s.statusRing r).saf = s.saf ∧ (s.statusRing r).tzl = s.tzl ∧ (s.statusRing
      r).pwr = s.pwr ∧ (s.statusRing r).free = s.free := by simp [State.statusRing]

@[simp] theorem State.moderate_keeps (s : State) (r n : Nat) :
    (s.moderate r n).pending = s.pending ∧ (s.moderate r n).taken = s.taken ∧ (s.moderate r n).exp = s.exp ∧
      (s.moderate r n).ldg = s.ldg ∧ (s.moderate r n).evt = s.evt ∧ (s.moderate r n).pio = s.pio ∧ (s.moderate r
      n).prf = s.prf ∧ (s.moderate r n).fcv = s.fcv ∧ (s.moderate r n).plc = s.plc ∧ (s.moderate r n).rtc = s.rtc ∧
      (s.moderate r n).cvu = s.cvu ∧ (s.moderate r n).saf = s.saf ∧ (s.moderate r n).tzl = s.tzl ∧ (s.moderate r
      n).pwr = s.pwr ∧ (s.moderate r n).free = s.free := by simp [State.moderate]

@[simp] theorem State.returnDescs_keeps (s : State) (r n : Nat) :
    (s.returnDescs r n).pending = s.pending ∧ (s.returnDescs r n).taken = s.taken ∧ (s.returnDescs r n).exp = s.exp ∧
      (s.returnDescs r n).ldg = s.ldg ∧ (s.returnDescs r n).evt = s.evt ∧ (s.returnDescs r n).pio = s.pio ∧
      (s.returnDescs r n).prf = s.prf ∧ (s.returnDescs r n).fcv = s.fcv ∧ (s.returnDescs r n).plc = s.plc ∧
      (s.returnDescs r n).rtc = s.rtc ∧ (s.returnDescs r n).cvu = s.cvu ∧ (s.returnDescs r n).saf = s.saf ∧
      (s.returnDescs r n).tzl = s.tzl ∧ (s.returnDescs r n).pwr = s.pwr ∧ (s.returnDescs r n).free = s.free := by simp [State.returnDescs]

@[simp] theorem State.dropRecord_keeps (s : State) (r : Nat) :
    (s.dropRecord r).pending = s.pending ∧ (s.dropRecord r).taken = s.taken ∧ (s.dropRecord r).exp = s.exp ∧
      (s.dropRecord r).ldg = s.ldg ∧ (s.dropRecord r).evt = s.evt ∧ (s.dropRecord r).pio = s.pio ∧ (s.dropRecord
      r).prf = s.prf ∧ (s.dropRecord r).fcv = s.fcv ∧ (s.dropRecord r).plc = s.plc ∧ (s.dropRecord r).rtc = s.rtc ∧
      (s.dropRecord r).cvu = s.cvu ∧ (s.dropRecord r).saf = s.saf ∧ (s.dropRecord r).tzl = s.tzl ∧ (s.dropRecord
      r).pwr = s.pwr ∧ (s.dropRecord r).free = s.free := by simp [State.dropRecord]

@[simp] theorem State.returnBuf_keeps (s : State) (r written wstat kind : Nat) (expno : BitVec 72) (ts : BitVec 64) :
    (s.returnBuf r written wstat kind expno ts).pending = s.pending ∧ (s.returnBuf r written wstat kind expno
      ts).taken = s.taken ∧ (s.returnBuf r written wstat kind expno ts).exp = s.exp ∧ (s.returnBuf r written wstat
      kind expno ts).ldg = s.ldg ∧ (s.returnBuf r written wstat kind expno ts).evt = s.evt ∧ (s.returnBuf r written
      wstat kind expno ts).pio = s.pio ∧ (s.returnBuf r written wstat kind expno ts).prf = s.prf ∧ (s.returnBuf r
      written wstat kind expno ts).fcv = s.fcv ∧ (s.returnBuf r written wstat kind expno ts).plc = s.plc ∧
      (s.returnBuf r written wstat kind expno ts).rtc = s.rtc ∧ (s.returnBuf r written wstat kind expno ts).cvu =
      s.cvu ∧ (s.returnBuf r written wstat kind expno ts).saf = s.saf ∧ (s.returnBuf r written wstat kind expno
      ts).tzl = s.tzl ∧ (s.returnBuf r written wstat kind expno ts).pwr = s.pwr ∧ (s.returnBuf r written wstat kind
      expno ts).free = s.free := by simp [State.returnBuf]

@[simp] theorem State.skipShort_keeps (s : State) (r need kind : Nat) (expno : BitVec 72) (ts : BitVec 64) (fuel :
    Nat) :
    (s.skipShort r need kind expno ts fuel).1.pending = s.pending ∧ (s.skipShort r need kind expno ts fuel).1.taken =
      s.taken ∧ (s.skipShort r need kind expno ts fuel).1.exp = s.exp ∧ (s.skipShort r need kind expno ts fuel).1.ldg
      = s.ldg ∧ (s.skipShort r need kind expno ts fuel).1.evt = s.evt ∧ (s.skipShort r need kind expno ts fuel).1.pio
      = s.pio ∧ (s.skipShort r need kind expno ts fuel).1.prf = s.prf ∧ (s.skipShort r need kind expno ts fuel).1.fcv
      = s.fcv ∧ (s.skipShort r need kind expno ts fuel).1.plc = s.plc ∧ (s.skipShort r need kind expno ts fuel).1.rtc
      = s.rtc ∧ (s.skipShort r need kind expno ts fuel).1.cvu = s.cvu ∧ (s.skipShort r need kind expno ts fuel).1.saf
      = s.saf ∧ (s.skipShort r need kind expno ts fuel).1.tzl = s.tzl ∧ (s.skipShort r need kind expno ts fuel).1.pwr
      = s.pwr ∧ (s.skipShort r need kind expno ts fuel).1.free = s.free := by
  induction fuel generalizing s with
  | zero => simp [State.skipShort]
  | succ n ih =>
    unfold State.skipShort
    split
    · simp
    · split
      · simp
      · split
        · simp [ih]
        · simp

@[simp] theorem State.deliver_keeps (s : State) (r size kind : Nat) (data : List (BitVec 64)) (expno : BitVec 72) (ts
    : BitVec 64) :
    (s.deliver r size kind data expno ts).1.pending = s.pending ∧ (s.deliver r size kind data expno ts).1.taken =
      s.taken ∧ (s.deliver r size kind data expno ts).1.exp = s.exp ∧ (s.deliver r size kind data expno ts).1.ldg =
      s.ldg ∧ (s.deliver r size kind data expno ts).1.evt = s.evt ∧ (s.deliver r size kind data expno ts).1.pio =
      s.pio ∧ (s.deliver r size kind data expno ts).1.prf = s.prf ∧ (s.deliver r size kind data expno ts).1.fcv =
      s.fcv ∧ (s.deliver r size kind data expno ts).1.plc = s.plc ∧ (s.deliver r size kind data expno ts).1.rtc =
      s.rtc ∧ (s.deliver r size kind data expno ts).1.cvu = s.cvu ∧ (s.deliver r size kind data expno ts).1.saf =
      s.saf ∧ (s.deliver r size kind data expno ts).1.tzl = s.tzl ∧ (s.deliver r size kind data expno ts).1.pwr =
      s.pwr ∧ (s.deliver r size kind data expno ts).1.free = s.free := by
  unfold State.deliver
  have h := State.skipShort_keeps s r size kind expno ts ((s.ring r).posted.length + 1)
  generalize s.skipShort r size kind expno ts ((s.ring r).posted.length + 1) = x at h ⊢
  obtain ⟨x, ok⟩ := x
  cases ok
  · simpa using h
  · dsimp only at h ⊢
    simp only [if_true]
    split
    · simpa using h
    · exact h

@[simp] theorem State.putSlots_keeps (s : State) (off : Nat) (l : List (BitVec 64)) :
    (s.putSlots off l).pending = s.pending ∧ (s.putSlots off l).taken = s.taken ∧ (s.putSlots off l).exp = s.exp ∧
      (s.putSlots off l).ldg = s.ldg ∧ (s.putSlots off l).evt = s.evt ∧ (s.putSlots off l).pio = s.pio ∧ (s.putSlots
      off l).prf = s.prf ∧ (s.putSlots off l).fcv = s.fcv ∧ (s.putSlots off l).plc = s.plc ∧ (s.putSlots off l).rtc =
      s.rtc ∧ (s.putSlots off l).cvu = s.cvu ∧ (s.putSlots off l).hif = s.hif ∧ (s.putSlots off l).saf = s.saf ∧
      (s.putSlots off l).tzl = s.tzl ∧ (s.putSlots off l).pwr = s.pwr ∧ (s.putSlots off l).free = s.free := by
  induction l generalizing s off with
  | nil => simp [State.putSlots]
  | cons o t ih => simp [State.putSlots, ih]

@[simp] theorem State.complete_keeps (s : State) (op : BitVec 8) (h : CmdHdr) (status p0 p1 p2 : Nat) :
    (s.complete op h status p0 p1 p2).pending = s.pending ∧ (s.complete op h status p0 p1 p2).taken = s.taken ∧
      (s.complete op h status p0 p1 p2).exp = s.exp ∧ (s.complete op h status p0 p1 p2).ldg = s.ldg ∧ (s.complete op h
      status p0 p1 p2).evt = s.evt ∧ (s.complete op h status p0 p1 p2).pio = s.pio ∧ (s.complete op h status p0 p1
      p2).fcv = s.fcv ∧ (s.complete op h status p0 p1 p2).plc = s.plc ∧ (s.complete op h status p0 p1 p2).rtc = s.rtc
      ∧ (s.complete op h status p0 p1 p2).cvu = s.cvu ∧ (s.complete op h status p0 p1 p2).saf = s.saf ∧ (s.complete op
      h status p0 p1 p2).tzl = s.tzl ∧ (s.complete op h status p0 p1 p2).pwr = s.pwr ∧ (s.complete op h status p0 p1
      p2).free = s.free := by
  unfold State.complete
  cases h.src <;> simp

@[simp] theorem State.done_keeps (s : State) (t : Taken) (status p0 p1 p2 : Nat) :
    (s.done t status p0 p1 p2).pending = s.pending ∧ (s.done t status p0 p1 p2).exp = s.exp ∧ (s.done t status p0 p1
      p2).ldg = s.ldg ∧ (s.done t status p0 p1 p2).evt = s.evt ∧ (s.done t status p0 p1 p2).pio = s.pio ∧ (s.done t
      status p0 p1 p2).fcv = s.fcv ∧ (s.done t status p0 p1 p2).plc = s.plc ∧ (s.done t status p0 p1 p2).rtc = s.rtc ∧
      (s.done t status p0 p1 p2).cvu = s.cvu ∧ (s.done t status p0 p1 p2).saf = s.saf ∧ (s.done t status p0 p1 p2).tzl
      = s.tzl ∧ (s.done t status p0 p1 p2).pwr = s.pwr ∧ (s.done t status p0 p1 p2).free = s.free := by simp [State.done]

@[simp] theorem State.doneAll_keeps (s : State) (p : Taken → Bool) (status : Nat) (pay : Taken → Nat × Nat × Nat) :
    (s.doneAll p status pay).pending = s.pending ∧ (s.doneAll p status pay).exp = s.exp ∧ (s.doneAll p status pay).ldg
      = s.ldg ∧ (s.doneAll p status pay).evt = s.evt ∧ (s.doneAll p status pay).pio = s.pio ∧ (s.doneAll p status
      pay).fcv = s.fcv ∧ (s.doneAll p status pay).plc = s.plc ∧ (s.doneAll p status pay).rtc = s.rtc ∧ (s.doneAll p
      status pay).cvu = s.cvu ∧ (s.doneAll p status pay).saf = s.saf ∧ (s.doneAll p status pay).tzl = s.tzl ∧
      (s.doneAll p status pay).pwr = s.pwr ∧ (s.doneAll p status pay).free = s.free := by simp [State.doneAll]

@[simp] theorem State.accept_keeps (s : State) (h : CmdHdr) :
    (s.accept h).pending = s.pending ∧ (s.accept h).taken = s.taken ∧ (s.accept h).exp = s.exp ∧ (s.accept h).ldg =
      s.ldg ∧ (s.accept h).evt = s.evt ∧ (s.accept h).pio = s.pio ∧ (s.accept h).prf = s.prf ∧ (s.accept h).fcv =
      s.fcv ∧ (s.accept h).plc = s.plc ∧ (s.accept h).rtc = s.rtc ∧ (s.accept h).cvu = s.cvu ∧ (s.accept h).saf =
      s.saf ∧ (s.accept h).tzl = s.tzl ∧ (s.accept h).pwr = s.pwr ∧ (s.accept h).free = s.free := by unfold State.accept; split <;> simp

@[simp] theorem State.addRef_keeps (s : State) (e : Nat) (d : Int) :
    (s.addRef e d).pending = s.pending ∧ (s.addRef e d).taken = s.taken ∧ (s.addRef e d).exp = s.exp ∧ (s.addRef e
      d).ldg = s.ldg ∧ (s.addRef e d).evt = s.evt ∧ (s.addRef e d).pio = s.pio ∧ (s.addRef e d).prf = s.prf ∧
      (s.addRef e d).fcv = s.fcv ∧ (s.addRef e d).plc = s.plc ∧ (s.addRef e d).rtc = s.rtc ∧ (s.addRef e d).hif =
      s.hif ∧ (s.addRef e d).saf = s.saf ∧ (s.addRef e d).tzl = s.tzl ∧ (s.addRef e d).pwr = s.pwr ∧ (s.addRef e
      d).free = s.free := by simp [State.addRef]

@[simp] theorem State.wrSetting_keeps (s : State) (off : Nat) (v : BitVec 32) :
    (s.wrSetting off v).pending = s.pending ∧ (s.wrSetting off v).taken = s.taken ∧ (s.wrSetting off v).exp = s.exp ∧
      (s.wrSetting off v).ldg = s.ldg ∧ (s.wrSetting off v).evt = s.evt ∧ (s.wrSetting off v).pio = s.pio ∧
      (s.wrSetting off v).prf = s.prf ∧ (s.wrSetting off v).fcv = s.fcv ∧ (s.wrSetting off v).plc = s.plc ∧
      (s.wrSetting off v).rtc = s.rtc ∧ (s.wrSetting off v).hif = s.hif ∧ (s.wrSetting off v).saf = s.saf ∧
      (s.wrSetting off v).tzl = s.tzl ∧ (s.wrSetting off v).pwr = s.pwr ∧ (s.wrSetting off v).free = s.free := by unfold State.wrSetting; split <;> simp

@[simp] theorem State.setBank_keeps (s : State) (n : Nat) (bank : Nat) (l : List Int) :
    (s.setBank n bank l).pending = s.pending ∧ (s.setBank n bank l).taken = s.taken ∧ (s.setBank n bank l).ldg = s.ldg
      ∧ (s.setBank n bank l).evt = s.evt ∧ (s.setBank n bank l).pio = s.pio ∧ (s.setBank n bank l).prf = s.prf ∧
      (s.setBank n bank l).fcv = s.fcv ∧ (s.setBank n bank l).plc = s.plc ∧ (s.setBank n bank l).rtc = s.rtc ∧
      (s.setBank n bank l).hif = s.hif ∧ (s.setBank n bank l).saf = s.saf ∧ (s.setBank n bank l).tzl = s.tzl ∧
      (s.setBank n bank l).pwr = s.pwr ∧ (s.setBank n bank l).free = s.free := by simp [State.setBank]

@[simp] theorem State.setCorr_keeps (s : State) (n : Nat) (l : List Int) :
    (s.setCorr n l).pending = s.pending ∧ (s.setCorr n l).taken = s.taken ∧ (s.setCorr n l).ldg = s.ldg ∧ (s.setCorr n
      l).evt = s.evt ∧ (s.setCorr n l).pio = s.pio ∧ (s.setCorr n l).prf = s.prf ∧ (s.setCorr n l).fcv = s.fcv ∧
      (s.setCorr n l).plc = s.plc ∧ (s.setCorr n l).rtc = s.rtc ∧ (s.setCorr n l).hif = s.hif ∧ (s.setCorr n l).saf =
      s.saf ∧ (s.setCorr n l).tzl = s.tzl ∧ (s.setCorr n l).pwr = s.pwr ∧ (s.setCorr n l).free = s.free := by simp [State.setCorr]

@[simp] theorem State.rebuildRefs_keeps (s : State) :
    (State.rebuildRefs s).pending = s.pending ∧ (State.rebuildRefs s).taken = s.taken ∧ (State.rebuildRefs s).exp =
      s.exp ∧ (State.rebuildRefs s).ldg = s.ldg ∧ (State.rebuildRefs s).evt = s.evt ∧ (State.rebuildRefs s).pio =
      s.pio ∧ (State.rebuildRefs s).prf = s.prf ∧ (State.rebuildRefs s).fcv = s.fcv ∧ (State.rebuildRefs s).plc =
      s.plc ∧ (State.rebuildRefs s).rtc = s.rtc ∧ (State.rebuildRefs s).hif = s.hif ∧ (State.rebuildRefs s).saf =
      s.saf ∧ (State.rebuildRefs s).tzl = s.tzl ∧ (State.rebuildRefs s).pwr = s.pwr ∧ (State.rebuildRefs s).free =
      s.free := by simp [State.rebuildRefs]

@[simp] theorem State.storeWrite_keeps (s : State) (w : WriteBy) (off : Nat) (v : BitVec 32) :
    (s.storeWrite w off v).pending = s.pending ∧ (s.storeWrite w off v).taken = s.taken ∧ (s.storeWrite w off v).exp =
      s.exp ∧ (s.storeWrite w off v).ldg = s.ldg ∧ (s.storeWrite w off v).evt = s.evt ∧ (s.storeWrite w off v).pio =
      s.pio ∧ (s.storeWrite w off v).prf = s.prf ∧ (s.storeWrite w off v).fcv = s.fcv ∧ (s.storeWrite w off v).plc =
      s.plc ∧ (s.storeWrite w off v).rtc = s.rtc ∧ (s.storeWrite w off v).hif = s.hif ∧ (s.storeWrite w off v).saf =
      s.saf ∧ (s.storeWrite w off v).tzl = s.tzl ∧ (s.storeWrite w off v).pwr = s.pwr ∧ (s.storeWrite w off v).free =
      s.free := by unfold State.storeWrite; split <;> simp

@[simp] theorem State.setStaged_keeps (s : State) (w : WriteBy) (l : List (Nat × BitVec 32)) :
    (s.setStaged w l).pending = s.pending ∧ (s.setStaged w l).taken = s.taken ∧ (s.setStaged w l).exp = s.exp ∧
      (s.setStaged w l).ldg = s.ldg ∧ (s.setStaged w l).evt = s.evt ∧ (s.setStaged w l).pio = s.pio ∧ (s.setStaged w
      l).prf = s.prf ∧ (s.setStaged w l).fcv = s.fcv ∧ (s.setStaged w l).plc = s.plc ∧ (s.setStaged w l).rtc = s.rtc ∧
      (s.setStaged w l).cvu = s.cvu ∧ (s.setStaged w l).saf = s.saf ∧ (s.setStaged w l).tzl = s.tzl ∧ (s.setStaged w
      l).pwr = s.pwr ∧ (s.setStaged w l).free = s.free := by unfold State.setStaged; split <;> simp

@[simp] theorem State.stage_keeps (s : State) (w : WriteBy) (off : Nat) (v : BitVec 32) :
    (s.stage w off v).pending = s.pending ∧ (s.stage w off v).taken = s.taken ∧ (s.stage w off v).exp = s.exp ∧
      (s.stage w off v).ldg = s.ldg ∧ (s.stage w off v).evt = s.evt ∧ (s.stage w off v).pio = s.pio ∧ (s.stage w off
      v).prf = s.prf ∧ (s.stage w off v).fcv = s.fcv ∧ (s.stage w off v).plc = s.plc ∧ (s.stage w off v).rtc = s.rtc ∧
      (s.stage w off v).cvu = s.cvu ∧ (s.stage w off v).saf = s.saf ∧ (s.stage w off v).tzl = s.tzl ∧ (s.stage w off
      v).pwr = s.pwr ∧ (s.stage w off v).free = s.free := by simp [State.stage]

@[simp] theorem State.storeStaged_keeps (s : State) (w : WriteBy) (st : List (Nat × BitVec 32)) (o : Nat) :
    (s.storeStaged w st o).pending = s.pending ∧ (s.storeStaged w st o).taken = s.taken ∧ (s.storeStaged w st o).exp =
      s.exp ∧ (s.storeStaged w st o).ldg = s.ldg ∧ (s.storeStaged w st o).evt = s.evt ∧ (s.storeStaged w st o).pio =
      s.pio ∧ (s.storeStaged w st o).prf = s.prf ∧ (s.storeStaged w st o).fcv = s.fcv ∧ (s.storeStaged w st o).plc =
      s.plc ∧ (s.storeStaged w st o).rtc = s.rtc ∧ (s.storeStaged w st o).hif = s.hif ∧ (s.storeStaged w st o).saf =
      s.saf ∧ (s.storeStaged w st o).tzl = s.tzl ∧ (s.storeStaged w st o).pwr = s.pwr ∧ (s.storeStaged w st o).free =
      s.free := by unfold State.storeStaged; split <;> simp

@[simp] theorem State.storeWide_keeps (s : State) (w : WriteBy) (off : Nat) (v : BitVec 32) :
    (s.storeWide w off v).pending = s.pending ∧ (s.storeWide w off v).taken = s.taken ∧ (s.storeWide w off v).exp =
      s.exp ∧ (s.storeWide w off v).ldg = s.ldg ∧ (s.storeWide w off v).evt = s.evt ∧ (s.storeWide w off v).pio =
      s.pio ∧ (s.storeWide w off v).prf = s.prf ∧ (s.storeWide w off v).fcv = s.fcv ∧ (s.storeWide w off v).plc =
      s.plc ∧ (s.storeWide w off v).rtc = s.rtc ∧ (s.storeWide w off v).saf = s.saf ∧ (s.storeWide w off v).tzl =
      s.tzl ∧ (s.storeWide w off v).pwr = s.pwr ∧ (s.storeWide w off v).free = s.free := by simp [State.storeWide]

@[simp] theorem State.plainWrite_keeps (s : State) (w : WriteBy) (off : Nat) (v : BitVec 32) :
    (s.plainWrite w off v).pending = s.pending ∧ (s.plainWrite w off v).taken = s.taken ∧ (s.plainWrite w off v).exp =
      s.exp ∧ (s.plainWrite w off v).ldg = s.ldg ∧ (s.plainWrite w off v).evt = s.evt ∧ (s.plainWrite w off v).pio =
      s.pio ∧ (s.plainWrite w off v).prf = s.prf ∧ (s.plainWrite w off v).fcv = s.fcv ∧ (s.plainWrite w off v).plc =
      s.plc ∧ (s.plainWrite w off v).rtc = s.rtc ∧ (s.plainWrite w off v).saf = s.saf ∧ (s.plainWrite w off v).tzl =
      s.tzl ∧ (s.plainWrite w off v).pwr = s.pwr ∧ (s.plainWrite w off v).free = s.free := by simp [State.plainWrite]

@[simp] theorem State.faultUpdate_keeps (s : State) :
    (State.faultUpdate s).pending = s.pending ∧ (State.faultUpdate s).taken = s.taken ∧ (State.faultUpdate s).exp =
      s.exp ∧ (State.faultUpdate s).ldg = s.ldg ∧ (State.faultUpdate s).evt = s.evt ∧ (State.faultUpdate s).pio =
      s.pio ∧ (State.faultUpdate s).prf = s.prf ∧ (State.faultUpdate s).fcv = s.fcv ∧ (State.faultUpdate s).plc =
      s.plc ∧ (State.faultUpdate s).rtc = s.rtc ∧ (State.faultUpdate s).cvu = s.cvu ∧ (State.faultUpdate s).hif =
      s.hif ∧ (State.faultUpdate s).tzl = s.tzl ∧ (State.faultUpdate s).pwr = s.pwr ∧ (State.faultUpdate s).free =
      s.free := by simp [State.faultUpdate]

@[simp] theorem State.cfAdd_keeps (s : State) (n : Nat) (d : Int) :
    (s.cfAdd n d).pending = s.pending ∧ (s.cfAdd n d).taken = s.taken ∧ (s.cfAdd n d).exp = s.exp ∧ (s.cfAdd n
      d).ldg = s.ldg ∧ (s.cfAdd n d).evt = s.evt ∧ (s.cfAdd n d).prf = s.prf ∧ (s.cfAdd n d).fcv = s.fcv ∧ (s.cfAdd
      n d).plc = s.plc ∧ (s.cfAdd n d).rtc = s.rtc ∧ (s.cfAdd n d).cvu = s.cvu ∧ (s.cfAdd n d).hif = s.hif ∧
      (s.cfAdd n d).saf = s.saf ∧ (s.cfAdd n d).tzl = s.tzl ∧ (s.cfAdd n d).pwr = s.pwr ∧ (s.cfAdd n d).free =
      s.free := by simp [State.cfAdd]

@[simp] theorem State.cfCancel_keeps (s : State) (n : Nat) :
    (s.cfCancel n).pending = s.pending ∧ (s.cfCancel n).taken = s.taken ∧ (s.cfCancel n).exp = s.exp ∧ (s.cfCancel
      n).ldg = s.ldg ∧ (s.cfCancel n).evt = s.evt ∧ (s.cfCancel n).prf = s.prf ∧ (s.cfCancel n).fcv = s.fcv ∧
      (s.cfCancel n).plc = s.plc ∧ (s.cfCancel n).rtc = s.rtc ∧ (s.cfCancel n).cvu = s.cvu ∧ (s.cfCancel n).hif =
      s.hif ∧ (s.cfCancel n).saf = s.saf ∧ (s.cfCancel n).tzl = s.tzl ∧ (s.cfCancel n).pwr = s.pwr ∧ (s.cfCancel
      n).free = s.free := by simp [State.cfCancel]

@[simp] theorem State.cfRelease_keeps (s : State) (n : Nat) :
    (s.cfRelease n).pending = s.pending ∧ (s.cfRelease n).taken = s.taken ∧ (s.cfRelease n).exp = s.exp ∧ (s.cfRelease
      n).ldg = s.ldg ∧ (s.cfRelease n).evt = s.evt ∧ (s.cfRelease n).prf = s.prf ∧ (s.cfRelease n).fcv = s.fcv ∧
      (s.cfRelease n).plc = s.plc ∧ (s.cfRelease n).rtc = s.rtc ∧ (s.cfRelease n).cvu = s.cvu ∧ (s.cfRelease n).hif =
      s.hif ∧ (s.cfRelease n).saf = s.saf ∧ (s.cfRelease n).tzl = s.tzl ∧ (s.cfRelease n).pwr = s.pwr ∧ (s.cfRelease
      n).free = s.free := by simp [State.cfRelease]

@[simp] theorem State.enterSafe_keeps (s : State) (d : Nat) :
    (s.enterSafe d).pending = s.pending ∧ (s.enterSafe d).taken = s.taken ∧ (s.enterSafe d).exp = s.exp ∧ (s.enterSafe
      d).ldg = s.ldg ∧ (s.enterSafe d).prf = s.prf ∧ (s.enterSafe d).fcv = s.fcv ∧ (s.enterSafe d).plc = s.plc ∧
      (s.enterSafe d).rtc = s.rtc ∧ (s.enterSafe d).cvu = s.cvu ∧ (s.enterSafe d).hif = s.hif ∧ (s.enterSafe d).tzl =
      s.tzl ∧ (s.enterSafe d).pwr = s.pwr ∧ (s.enterSafe d).free = s.free := by simp [State.enterSafe]

@[simp] theorem State.leaveSafe_keeps (s : State) :
    (State.leaveSafe s).pending = s.pending ∧ (State.leaveSafe s).taken = s.taken ∧ (State.leaveSafe s).exp = s.exp ∧
      (State.leaveSafe s).ldg = s.ldg ∧ (State.leaveSafe s).prf = s.prf ∧ (State.leaveSafe s).fcv = s.fcv ∧
      (State.leaveSafe s).plc = s.plc ∧ (State.leaveSafe s).rtc = s.rtc ∧ (State.leaveSafe s).cvu = s.cvu ∧
      (State.leaveSafe s).hif = s.hif ∧ (State.leaveSafe s).tzl = s.tzl ∧ (State.leaveSafe s).pwr = s.pwr ∧
      (State.leaveSafe s).free = s.free := by simp [State.leaveSafe]

@[simp] theorem State.reinitShow_keeps (s : State) (target status : Nat) :
    (s.reinitShow target status).pending = s.pending ∧ (s.reinitShow target status).taken = s.taken ∧ (s.reinitShow
      target status).exp = s.exp ∧ (s.reinitShow target status).ldg = s.ldg ∧ (s.reinitShow target status).evt = s.evt
      ∧ (s.reinitShow target status).pio = s.pio ∧ (s.reinitShow target status).prf = s.prf ∧ (s.reinitShow target
      status).fcv = s.fcv ∧ (s.reinitShow target status).plc = s.plc ∧ (s.reinitShow target status).rtc = s.rtc ∧
      (s.reinitShow target status).cvu = s.cvu ∧ (s.reinitShow target status).hif = s.hif ∧ (s.reinitShow target
      status).saf = s.saf ∧ (s.reinitShow target status).tzl = s.tzl ∧ (s.reinitShow target status).pwr = s.pwr ∧
      (s.reinitShow target status).free = s.free := by simp [State.reinitShow]

@[simp] theorem State.safetyFail_keeps (s : State) (d : Nat) :
    (s.safetyFail d).pending = s.pending ∧ (s.safetyFail d).exp = s.exp ∧ (s.safetyFail d).ldg = s.ldg ∧ (s.safetyFail
      d).evt = s.evt ∧ (s.safetyFail d).pio = s.pio ∧ (s.safetyFail d).fcv = s.fcv ∧ (s.safetyFail d).plc = s.plc ∧
      (s.safetyFail d).rtc = s.rtc ∧ (s.safetyFail d).cvu = s.cvu ∧ (s.safetyFail d).tzl = s.tzl ∧ (s.safetyFail
      d).pwr = s.pwr ∧ (s.safetyFail d).free = s.free := by simp [State.safetyFail]

@[simp] theorem State.makeLasting_keeps (s : State) (d : Nat) :
    (s.makeLasting d).pending = s.pending ∧ (s.makeLasting d).exp = s.exp ∧ (s.makeLasting d).ldg = s.ldg ∧
      (s.makeLasting d).fcv = s.fcv ∧ (s.makeLasting d).plc = s.plc ∧ (s.makeLasting d).rtc = s.rtc ∧ (s.makeLasting
      d).cvu = s.cvu ∧ (s.makeLasting d).tzl = s.tzl ∧ (s.makeLasting d).pwr = s.pwr ∧ (s.makeLasting d).free = s.free := by simp [State.makeLasting]

@[simp] theorem State.strikeG_keeps (s : State) (ts : BitVec 64) (d detail : Nat) (force : Bool) :
    (s.strikeG ts d detail force).pending = s.pending ∧ (s.strikeG ts d detail force).exp = s.exp ∧ (s.strikeG ts d
      detail force).ldg = s.ldg ∧ (s.strikeG ts d detail force).fcv = s.fcv ∧ (s.strikeG ts d detail force).plc =
      s.plc ∧ (s.strikeG ts d detail force).rtc = s.rtc ∧ (s.strikeG ts d detail force).cvu = s.cvu ∧ (s.strikeG ts
      d detail force).tzl = s.tzl ∧ (s.strikeG ts d detail force).pwr = s.pwr ∧ (s.strikeG ts d detail force).free =
      s.free := by simp [State.strikeG]

@[simp] theorem State.strikeT_keeps (s : State) (ts : BitVec 64) (d detail : Nat) :
    (s.strikeT ts d detail).pending = s.pending ∧ (s.strikeT ts d detail).exp = s.exp ∧ (s.strikeT ts d detail).ldg =
      s.ldg ∧ (s.strikeT ts d detail).fcv = s.fcv ∧ (s.strikeT ts d detail).plc = s.plc ∧ (s.strikeT ts d detail).rtc
      = s.rtc ∧ (s.strikeT ts d detail).cvu = s.cvu ∧ (s.strikeT ts d detail).tzl = s.tzl ∧ (s.strikeT ts d
      detail).pwr = s.pwr ∧ (s.strikeT ts d detail).free = s.free := by simp [State.strikeT]

@[simp] theorem State.strike_keeps (s : State) (d detail : Nat) :
    (s.strike d detail).pending = s.pending ∧ (s.strike d detail).exp = s.exp ∧ (s.strike d detail).ldg = s.ldg ∧
      (s.strike d detail).fcv = s.fcv ∧ (s.strike d detail).plc = s.plc ∧ (s.strike d detail).rtc = s.rtc ∧ (s.strike
      d detail).cvu = s.cvu ∧ (s.strike d detail).tzl = s.tzl ∧ (s.strike d detail).pwr = s.pwr ∧ (s.strike d
      detail).free = s.free := by simp [State.strike]

@[simp] theorem State.strikeLasting_keeps (s : State) (d detail : Nat) :
    (s.strikeLasting d detail).pending = s.pending ∧ (s.strikeLasting d detail).exp = s.exp ∧ (s.strikeLasting d
      detail).ldg = s.ldg ∧ (s.strikeLasting d detail).fcv = s.fcv ∧ (s.strikeLasting d detail).plc = s.plc ∧
      (s.strikeLasting d detail).rtc = s.rtc ∧ (s.strikeLasting d detail).cvu = s.cvu ∧ (s.strikeLasting d detail).tzl
      = s.tzl ∧ (s.strikeLasting d detail).pwr = s.pwr ∧ (s.strikeLasting d detail).free = s.free := by simp [State.strikeLasting]

@[simp] theorem State.eccFound_keeps (s : State) (e : EccIn) :
    (s.eccFound e).pending = s.pending ∧ (s.eccFound e).exp = s.exp ∧ (s.eccFound e).fcv = s.fcv ∧ (s.eccFound e).plc
      = s.plc ∧ (s.eccFound e).rtc = s.rtc ∧ (s.eccFound e).cvu = s.cvu ∧ (s.eccFound e).tzl = s.tzl ∧ (s.eccFound
      e).pwr = s.pwr ∧ (s.eccFound e).free = s.free := by
  unfold State.eccFound; dsimp only; repeat' split
  all_goals simp

end Sys2Proof.Machine
end

