-- ==== Sys2Proof/Laws/Finish.lean ====
section
/-!
SUPPORT. What the end of every command does: which registers and fields it may change, that it leaves the FRAM as it reads and
brings the stores into canonical form, and that without a decided event it leaves events alone.
-/

namespace Sys2Proof.Machine

/-! Registers -/

/-- A state with the same registers reads the same. -/
theorem State.rd_of_regs {s t : State} (h : t.regs = s.regs) (k : Nat) : t.rd k = s.rd k := by unfold State.rd; rw [h]

theorem State.get_of_regs {s t : State} (h : t.regs = s.regs) (f : Fld) : t.get f = s.get f := by
  unfold State.get; rw [State.rd_of_regs h]

theorem State.flag_of_regs {s t : State} (h : t.regs = s.regs) (f : Fld) : t.flag f = s.flag f := by
  unfold State.flag; rw [State.get_of_regs h]

@[simp] theorem State.eventX_regs (s : State) (e : BitVec 72) (ts : BitVec 64) (c i : Nat) (g : EvEdge) (p0 p1 p2 : Nat) :
    (s.eventX e ts c i g p0 p1 p2).regs = s.regs := by
  unfold State.eventX State.trackSource
  cases g <;> dsimp only <;> (repeat' split) <;> rfl

@[simp] theorem State.event_regs (s : State) (c i : Nat) (g : EvEdge) (p0 p1 p2 : Nat) :
    (s.event c i g p0 p1 p2).regs = s.regs := State.eventX_regs _ _ _ _ _ _ _ _ _

@[simp] theorem State.event_rd (s : State) (c i : Nat) (g : EvEdge) (p0 p1 p2 k : Nat) :
    (s.event c i g p0 p1 p2).rd k = s.rd k := State.rd_of_regs (State.event_regs ..) k

@[simp] theorem State.event_get (s : State) (c i : Nat) (g : EvEdge) (p0 p1 p2 : Nat) (f : Fld) :
    (s.event c i g p0 p1 p2).get f = s.get f := State.get_of_regs (State.event_regs ..) f

@[simp] theorem State.event_flag (s : State) (c i : Nat) (g : EvEdge) (p0 p1 p2 : Nat) (f : Fld) :
    (s.event c i g p0 p1 p2).flag f = s.flag f := State.flag_of_regs (State.event_regs ..) f

theorem endReg_trstat {n : Nat} (h : n < 8) : endReg (PIO_TRSTAT n) = true := by
  simp only [endReg, Bool.or_eq_true, List.any_eq_true, List.mem_range]
  exact Or.inr ⟨n, h, by simp⟩

theorem endReg_trcnt {n : Nat} (h : n < 8) : endReg (PIO_TRCNT n) = true := by
  simp only [endReg, Bool.or_eq_true, List.any_eq_true, List.mem_range]
  exact Or.inr ⟨n, h, by simp⟩

/-- A register that the end of a command leaves is none of those it may change. -/
theorem endReg_ne {off k : Nat} (h : endReg off = false) (hk : endReg k = true) : k ≠ off := by
  rintro rfl; rw [h] at hk; exact Bool.noConfusion hk

/-- Queueing the decided events leaves the registers, or counts the dropped ones. -/
theorem State.queueEvents_regs (s : State) :
    s.queueEvents.regs = s.regs ∨ ∃ k, s.queueEvents.regs = (s.bump EVT_DROPCNT_DROPCNT k).regs := by
  have e (t : State) (k : Nat) (h : t.regs = s.regs) : (t.bump EVT_DROPCNT_DROPCNT k).regs = (s.bump EVT_DROPCNT_DROPCNT k).regs := by
    unfold State.bump State.put
    rw [State.get_of_regs h, State.rd_of_regs h]
    unfold State.wr
    rw [h]
  unfold State.queueEvents
  extract_lets held sorted fresh pairs renum new all trig old f s1 slave t s2 lost v s3
  have r : s3.regs = s.regs := by simp only [s3, s2]; split <;> rfl
  split
  · exact .inl r
  · exact .inr ⟨_, e _ _ r⟩

section
variable {off : Nat} (h : endReg off = false)
include h

theorem State.tripBall_rd (s : State) {n : Nat} (hn : n < 8) (low : Bool) : (s.tripBall n low).rd off = s.rd off := by
  unfold State.tripBall
  split
  · rfl
  · simp only [State.modTrip_rd]
    exact State.rd_setFlag_ne _ _ _ (endReg_ne h (endReg_trstat hn))

theorem State.tripState_rd (s : State) {n : Nat} (hn : n < 8) : (s.tripState n).rd off = s.rd off := by
  have h1 := endReg_ne h (endReg_trstat hn)
  have h2 := endReg_ne h (endReg_trcnt hn)
  have e1 (s : State) (b : Bool) : (s.setFlag (PIO_TRSTAT_TRIPPED n) b).rd off = s.rd off := State.rd_setFlag_ne _ _ _ h1
  have e2 (s : State) (b : Bool) : (s.setFlag (PIO_TRSTAT_LATCHED n) b).rd off = s.rd off := State.rd_setFlag_ne _ _ _ h1
  have e3 (s : State) (k : Nat) : (s.bump (PIO_TRCNT_TRCNT n) k).rd off = s.rd off := State.rd_bump_ne _ _ _ h2
  unfold State.tripState
  dsimp only
  repeat' split
  all_goals simp [e1, e2, e3]

theorem State.tripDrive_rd (s : State) {n : Nat} (hn : n < 8) : (s.tripDrive n).rd off = s.rd off := by
  unfold State.tripDrive
  dsimp only
  repeat' split
  all_goals simp [State.tripBall_rd h _ hn]

theorem State.tripFollow_rd (s : State) {n : Nat} (hn : n < 8) : (s.tripFollow n).rd off = s.rd off := by
  unfold State.tripFollow
  dsimp only
  split
  · rw [State.tripDrive_rd h _ hn, State.tripState_rd h _ hn]
  · exact State.tripState_rd h _ hn

omit h in
theorem foldl_rd {β : Type} (g : State → β → State) : (l : List β) → (s : State) → (∀ s, ∀ x ∈ l, (g s x).rd off = s.rd off) →
    (l.foldl g s).rd off = s.rd off
  | [], _, _ => rfl
  | x :: t, s, hg => by
    rw [List.foldl_cons, foldl_rd g t (g s x) (fun s y hy => hg s y (List.mem_cons_of_mem _ hy)), hg s x List.mem_cons_self]

theorem State.tripNow_rd (s : State) : s.tripNow.rd off = s.rd off := by
  unfold State.tripNow
  split
  · exact foldl_rd _ _ _ (fun s n hn => State.tripFollow_rd h s (List.mem_range.mp hn))
  · split
    · exact foldl_rd _ _ _ (fun s n hn => State.tripState_rd h s (List.mem_range.mp hn))
    · rfl

theorem State.queueEvents_rd (s : State) : s.queueEvents.rd off = s.rd off := by
  obtain e | ⟨k, e⟩ := s.queueEvents_regs
  · exact State.rd_of_regs e off
  · rw [State.rd_of_regs e off]; exact State.rd_bump_ne _ _ _ (endReg_ne h rfl)

theorem State.fcvShow_rd (s : State) : s.fcvShow.rd off = s.rd off := by
  have h1 : FCV_STAT ≠ off := endReg_ne h rfl
  exact (State.rd_setFlag_ne _ _ _ h1).trans <| (State.rd_setFlag_ne _ _ _ h1).trans <| (State.rd_setFlag_ne _ _ _ h1).trans <|
    (State.rd_setFlag_ne _ _ _ h1).trans (State.rd_put_ne _ _ _ h1)

theorem State.sheetTrigger_rd (s : State) (k x : Nat) (c : BitVec 16) (i : BitVec 8) (q : BitVec 64) (a : Nat) :
    (s.sheetTrigger k x c i q a).rd off = s.rd off := by
  have h1 : FCV_CSMISS ≠ off := endReg_ne h rfl
  unfold State.sheetTrigger
  split
  · rfl
  · rw [State.fcvShow_rd h]; rfl
  · rw [State.event_rd]; exact State.rd_bump_ne _ _ _ h1

theorem State.sheetNow_rd (s : State) : s.sheetNow.rd off = s.rd off :=
  foldl_rd _ _ _ (fun s _ _ => State.sheetTrigger_rd h s ..)

theorem State.signal_rd (s : State) (v : Nat) : (s.signal v).rd off = s.rd off := by
  have h1 : MBX_IRQPEND ≠ off := endReg_ne h rfl
  have h2 : MSIX_PBA ≠ off := endReg_ne h rfl
  unfold State.signal
  dsimp only
  repeat' split
  all_goals simp [h1, h2]

theorem State.signalRise_rd (s : State) (b : Nat) : (s.signalRise b).rd off = s.rd off := by
  unfold State.signalRise
  dsimp only
  repeat' split
  all_goals simp [State.signal_rd h]

/-- The end of a command changes no register but those of `endReg`. -/
theorem State.settle_rd (s : State) (b : Nat) : (s.settle b).rd off = s.rd off := by
  have e (t : State) : State.rd { t with regs := storeCanon regReset t.regs } off = t.rd off := by
    rw [State.rd_eq, State.rd_eq]; exact storeGet_canon regReset t.regs off
  have e' : (s.settle b).rd off = (s.tripNow.queueEvents.sheetNow.queueEvents.signalRise b).rd off := e _
  rw [e', State.signalRise_rd h, State.queueEvents_rd h, State.sheetNow_rd h, State.queueEvents_rd h, State.tripNow_rd h]

theorem State.settle_get (s : State) (b : Nat) (f : Fld) (hf : f.off = off) : (s.settle b).get f = s.get f := by
  unfold State.get; rw [hf, State.settle_rd h]

theorem State.settle_flag (s : State) (b : Nat) (f : Fld) (hf : f.off = off) : (s.settle b).flag f = s.flag f := by
  unfold State.flag; rw [State.settle_get h s b f hf]

end

/-! Parts of the state -/

/-- Every part is the same in a state and itself. -/
theorem Part.Same.refl (s : State) (p : Part) : Part.Same s s p := by
  cases p <;> simp [Part.Same]

theorem Part.Same.trans {s t u : State} {p : Part} (h : Part.Same s t p) (k : Part.Same t u p) : Part.Same s u p := by
  cases p
  case inputs => exact ⟨k.1.trans h.1, k.2.trans h.2⟩
  case windows =>
    obtain ⟨a, b, c, d, e, f, g, i, j⟩ := h
    obtain ⟨a', b', c', d', e', f', g', i', j'⟩ := k
    exact ⟨a'.trans a, b'.trans b, c'.trans c, d'.trans d, e'.trans e, f'.trans f, g'.trans g, i'.trans i, j'.trans j⟩
  case fram => exact fun x => (k x).trans (h x)
  all_goals exact Eq.trans k h

theorem State.Frame.refl (s : State) (ps : List Part) (offs : List Nat) : s.Frame s ps offs :=
  ⟨fun p _ => Part.Same.refl s p, fun _ _ _ => rfl, rfl⟩

theorem State.Frame.trans {s t u : State} {ps : List Part} {offs : List Nat} (h : s.Frame t ps offs) (k : t.Frame u ps offs) :
    s.Frame u ps offs :=
  ⟨fun p hp => (h.1 p hp).trans (k.1 p hp), fun o ho he => (k.2.1 o ho he).trans (h.2.1 o ho he), k.2.2.trans h.2.2⟩

/-- A frame with fewer exceptions is a frame with more. -/
theorem State.Frame.mono {s t : State} {ps ps' : List Part} {offs offs' : List Nat} (h : s.Frame t ps offs) (hp : ps ⊆ ps')
    (ho : offs ⊆ offs') : s.Frame t ps' offs' :=
  ⟨fun p k => h.1 p (fun m => k (hp m)), fun o k e => h.2.1 o (fun m => k (ho m)) e, h.2.2⟩

/-- The window engine and the queue of events are apart: a trip output that follows its sources leaves the former. -/
theorem State.eventX_windows (s : State) (e : BitVec 72) (ts : BitVec 64) (c i : Nat) (g : EvEdge) (p0 p1 p2 : Nat) :
    Part.Same s (s.eventX e ts c i g p0 p1 p2) .windows := by
  unfold State.eventX State.trackSource
  cases g <;> dsimp only <;> (repeat' split) <;> simp [Part.Same]

@[simp] theorem State.modTrip_cf (s : State) (n : Nat) (f : TripState → TripState) : (s.modTrip n f).pio.cf = s.pio.cf := rfl
@[simp] theorem State.modTrip_pin (s : State) (n : Nat) (f : TripState → TripState) : (s.modTrip n f).pio.pin = s.pio.pin := rfl
@[simp] theorem State.modTrip_pinq (s : State) (n : Nat) (f : TripState → TripState) : (s.modTrip n f).pio.pinq = s.pio.pinq := rfl

/-- What following the trip sources leaves beside what the keeps lemmas name. -/
theorem State.tripState_parts (s : State) (n : Nat) :
    Part.Same s (s.tripState n) .windows ∧ Part.Same s (s.tripState n) .pulses ∧ Part.Same s (s.tripState n) .inputs := by
  have w (t : State) (e : BitVec 72) (ts : BitVec 64) (g : EvEdge) (a b : Nat) := State.eventX_windows t e ts 0x0A03 a g b 0 0
  unfold State.tripState
  dsimp only
  repeat' split
  all_goals simp only [Part.Same, State.event, State.eventT] at *
  all_goals simp [w]

theorem State.tripFollow_parts (s : State) (n : Nat) :
    Part.Same s (s.tripFollow n) .windows ∧ Part.Same s (s.tripFollow n) .pulses ∧ Part.Same s (s.tripFollow n) .inputs := by
  have k := s.tripState_parts n
  have d (t : State) : Part.Same t (t.tripDrive n) .windows ∧ Part.Same t (t.tripDrive n) .pulses ∧
      Part.Same t (t.tripDrive n) .inputs := by
    unfold State.tripDrive State.tripBall
    dsimp only
    repeat' split
    all_goals simp [Part.Same]
  unfold State.tripFollow
  dsimp only
  split
  · exact ⟨k.1.trans (d _).1, k.2.1.trans (d _).2.1, k.2.2.trans (d _).2.2⟩
  · exact k

theorem State.each_parts (n : Nat) (f : Nat → State → State) (s : State) (p : Part) (h : ∀ i s, Part.Same s (f i s) p) :
    Part.Same s (State.each n f s) p := by
  unfold State.each
  generalize List.range n = l
  induction l generalizing s with
  | nil => exact Part.Same.refl s p
  | cons x t ih => rw [List.foldl_cons]; exact (h x s).trans (ih _)

theorem State.tripNow_parts (s : State) :
    Part.Same s s.tripNow .windows ∧ Part.Same s s.tripNow .pulses ∧ Part.Same s s.tripNow .inputs := by
  unfold State.tripNow
  split
  · exact ⟨State.each_parts _ _ _ _ (fun i s => (s.tripFollow_parts i).1),
      State.each_parts _ _ _ _ (fun i s => (s.tripFollow_parts i).2.1),
      State.each_parts _ _ _ _ (fun i s => (s.tripFollow_parts i).2.2)⟩
  · split
    · exact ⟨State.each_parts _ _ _ _ (fun i s => (s.tripState_parts i).1),
        State.each_parts _ _ _ _ (fun i s => (s.tripState_parts i).2.1),
        State.each_parts _ _ _ _ (fun i s => (s.tripState_parts i).2.2)⟩
    · exact ⟨Part.Same.refl _ _, Part.Same.refl _ _, Part.Same.refl _ _⟩

theorem State.queueEvents_same (s : State) (p : Part) : Part.Same s s.queueEvents p := by
  unfold State.queueEvents
  dsimp only
  split <;> split <;> cases p <;> simp [Part.Same, State.framByte, FcvState.apart]

theorem State.sheetTrigger_same (s : State) (k x : Nat) (c : BitVec 16) (i : BitVec 8) (q : BitVec 64) (a : Nat) (p : Part) :
    Part.Same s (s.sheetTrigger k x c i q a) p := by
  have w (t : State) (e : BitVec 72) (ts : BitVec 64) (g : EvEdge) (a b : Nat) := State.eventX_windows t e ts 0x0702 a g b
  unfold State.sheetTrigger
  split
  · exact Part.Same.refl s p
  · cases p <;> simp [Part.Same, State.framByte, FcvState.apart]
  · cases p
    case windows => exact w _ _ _ _ _ _ _ _
    all_goals simp [Part.Same, State.framByte]

theorem State.sheetNow_same (s : State) (p : Part) : Part.Same s s.sheetNow p := by
  have h (l : List TrigPend) (t : State) :
      Part.Same t (l.foldl (fun s x => s.sheetTrigger x.slot 0 x.code x.index x.evseq (25 * s.exp.now)) t) p := by
    induction l generalizing t with
    | nil => exact Part.Same.refl t p
    | cons x l ih => exact (State.sheetTrigger_same t _ _ _ _ _ _ p).trans (ih _)
  refine Part.Same.trans (t := s.modFcv (fun f => { f with trigQ := [] })) ?_ (h _ _)
  cases p <;> simp [Part.Same, State.framByte, FcvState.apart]

@[simp] theorem State.emit_hif (s : State) (w : HostWrite) : (s.emit w).hif = { s.hif with out := s.hif.out ++ [w] } := rfl

theorem State.signalRise_same (s : State) (b : Nat) (p : Part) : Part.Same s (s.signalRise b) p := by
  unfold State.signalRise State.signal
  dsimp only
  repeat' split
  all_goals cases p <;> simp [Part.Same, State.framByte]

theorem State.tripNow_same (s : State) (p : Part) : Part.Same s s.tripNow p := by
  obtain ⟨w, c, i⟩ := s.tripNow_parts
  cases p
  case windows => exact w
  case pulses => exact c
  case inputs => exact i
  all_goals simp [Part.Same, State.framByte]

/-- The end of a command changes no part of the state. -/
theorem State.settle_same (s : State) (b : Nat) (p : Part) : Part.Same s (s.settle b) p := by
  have h : Part.Same s (s.tripNow.queueEvents.sheetNow.queueEvents.signalRise b) p :=
    ((((s.tripNow_same p).trans (State.queueEvents_same _ p)).trans (State.sheetNow_same _ p)).trans
      (State.queueEvents_same _ p)).trans (State.signalRise_same _ b p)
  refine h.trans ?_
  cases p
  case fram => exact fun a => storeGet_canon (fun _ => (0 : BitVec 8)) _ a
  all_goals simp [Part.Same, State.settle]

/-- What a command's effect frames, the command frames. -/
theorem State.Frame.settle {s t : State} {ps : List Part} {offs : List Nat} (h : s.Frame t ps offs) (b : Nat) :
    s.Frame (t.settle b) ps offs :=
  h.trans ⟨fun p _ => State.settle_same t b p, fun _ _ he => State.settle_rd he t b, by simp⟩

/-! The invariant -/

/-- After every command the stores are canonical, at most 256 events wait and every decided one has been queued. -/
theorem State.settle_inv (s : State) (b : Nat) : (s.settle b).Inv := by
  have q (t : State) : (t.queueEvents).evt.now = [] ∧ t.queueEvents.evt.queue.length ≤ 256 := by
    unfold State.queueEvents
    dsimp only
    split <;> simp [eventRoom]
  have e : (s.settle b).evt = (s.tripNow.queueEvents.sheetNow.queueEvents.signalRise b).evt := rfl
  refine ⟨storeWf_canon regReset _, storeWf_canon (fun _ => (0 : BitVec 8)) _, ?_, ?_⟩
  · rw [e]; simpa using (q _).2
  · rw [e]; simpa using (q _).1

/-- Every command answers a next state, which its end has settled. -/
theorem exec_settled (c : Instr) (s : State) : ∃ t b, exec c s = .next (State.settle t b) := by
  cases c <;> exact ⟨_, _, rfl⟩

/-! A command that decides no event -/

/-- With no event decided, the end of a command leaves the trip outputs. -/
theorem State.tripNow_quiet {s : State} (h : s.evt.now = []) : s.tripNow = s := by
  unfold State.tripNow; simp [h]

/-- With no event decided and at most 256 waiting, the end of a command leaves the queue of events. -/
theorem State.queueEvents_quiet {s : State} (h : s.evt.now = []) (hq : s.evt.queue.length ≤ 256) :
    s.queueEvents.evt = s.evt ∧ s.queueEvents.pio = s.pio := by
  unfold State.queueEvents State.sameInstant
  have e : s.evt.queue.length - 256 = 0 := by omega
  simp [h, sortEvents, numberEvents, eventRoom, e]
  rw [← h, List.take_of_length_le hq]

/-- With no event decided, nothing triggers a contact sheet. -/
theorem State.sheetNow_quiet {s : State} (h : s.evt.now = []) :
    s.queueEvents.sheetNow.evt = s.queueEvents.evt ∧ s.queueEvents.sheetNow.pio = s.queueEvents.pio := by
  have e : s.queueEvents.fcv.trigQ = [] := by
    have hs : s.sameInstant = [] := by simp [State.sameInstant, h]
    unfold State.queueEvents
    rw [hs, h]
    extract_lets held sorted fresh pairs renum new all trig old f s1 slave t s2 lost v s3
    have r : s3.fcv.trigQ = [] := by simp only [s3, s2]; split <;> rfl
    split
    · exact r
    · rw [(State.bump_keeps _ _ _).2.2.2.2.2.2.2.1]; exact r
  unfold State.sheetNow
  simp [e]

theorem State.settle_quiet {s : State} (h : s.evt.now = []) (hq : s.evt.queue.length ≤ 256) (b : Nat) :
    (s.settle b).evt = s.evt ∧ (s.settle b).pio = s.pio := by
  obtain ⟨k1, k2⟩ := State.queueEvents_quiet h hq
  obtain ⟨a1, a2⟩ := State.sheetNow_quiet h
  have m := State.queueEvents_quiet (s := s.queueEvents.sheetNow) (by rw [a1, k1, h]) (by rw [a1, k1]; exact hq)
  unfold State.settle
  rw [State.tripNow_quiet h]
  refine ⟨?_, ?_⟩
  · simp only [State.signalRise_keeps]; rw [m.1, a1, k1]
  · simp only [State.signalRise_keeps]; rw [m.2, a2, k2]

end Sys2Proof.Machine
end

