-- ==== Sys2Proof/Laws/Fram.lean ====
section
/-!
SUPPORT. Laws of the FRAM: a byte read after a write of consecutive bytes, and that a write keeps the canonical form.
-/

namespace Sys2Proof.Machine

theorem storeFind_append {α : Type} (m n : List (Nat × α)) (k : Nat) :
    storeFind (m ++ n) k = (storeFind m k).or (storeFind n k) := by
  induction m with
  | nil => simp
  | cons e t ih => obtain ⟨a, x⟩ := e; by_cases h : a = k <;> simp [storeFind, h, ih]

theorem storeFind_filter {α : Type} (p : Nat → Bool) (m : List (Nat × α)) (k : Nat) :
    storeFind (m.filter (fun c => p c.1)) k = if p k then storeFind m k else none := by
  induction m with
  | nil => simp
  | cons e t ih =>
    obtain ⟨a, x⟩ := e
    by_cases h : a = k
    · subst h; by_cases hp : p a = true
      · simp [hp, storeFind]
      · simp [hp, ih]
    · by_cases hp : p a = true <;> simp [hp, storeFind, h, ih]

theorem storeFind_cellsOf (l : List (BitVec 8)) (a k : Nat) :
    storeFind (cellsOf a l) k = if a ≤ k ∧ k < a + l.length ∧ l.getD (k - a) 0 ≠ 0 then some (l.getD (k - a) 0) else none := by
  induction l generalizing a with
  | nil => simp [cellsOf]
  | cons b t ih =>
    by_cases h : a = k
    · subst h
      by_cases hb : b = 0#8
      · subst hb; simp [cellsOf, ih]
      · simp [cellsOf, hb, storeFind]
    · have c : (a ≤ k ∧ k < a + (b :: t).length ∧ (b :: t).getD (k - a) 0 ≠ 0) ↔
          (a + 1 ≤ k ∧ k < a + 1 + t.length ∧ t.getD (k - (a + 1)) 0 ≠ 0) := by
        constructor
        · rintro ⟨h1, h2, h3⟩
          have e : k - a = (k - (a + 1)) + 1 := by omega
          rw [e, List.getD_cons_succ] at h3
          simp only [List.length_cons] at h2
          exact ⟨by omega, by omega, h3⟩
        · rintro ⟨h1, h2, h3⟩
          have e : k - a = (k - (a + 1)) + 1 := by omega
          rw [e, List.getD_cons_succ]
          simp only [List.length_cons]
          exact ⟨by omega, by omega, h3⟩
      have v (h1 : a + 1 ≤ k) : (b :: t).getD (k - a) 0 = t.getD (k - (a + 1)) 0 := by
        have e : k - a = (k - (a + 1)) + 1 := by omega
        rw [e, List.getD_cons_succ]
      have f : storeFind (cellsOf a (b :: t)) k = storeFind (cellsOf (a + 1) t) k := by
        rw [cellsOf]; split <;> simp [storeFind, h]
      rw [f, ih]
      by_cases g : a + 1 ≤ k ∧ k < a + 1 + t.length ∧ t.getD (k - (a + 1)) 0 ≠ 0
      · rw [if_pos g, if_pos (c.mpr g), v g.1]
      · rw [if_neg g, if_neg (fun x => g (c.mp x))]

/-- Bytes written read as written; every other byte reads as before. -/
theorem State.framByte_write (s : State) (a : Nat) (l : List (BitVec 8)) (k : Nat) :
    (s.framWrite a l).framByte k = if a ≤ k ∧ k < a + l.length then l.getD (k - a) 0 else s.framByte k := by
  unfold State.framByte State.framWrite cellsWrite storeGet
  have f1 := storeFind_filter (fun j => decide (j < a)) s.prf.fram k
  have f2 := storeFind_filter (fun j => decide (a + l.length ≤ j)) s.prf.fram k
  simp only [storeFind_append, f1, f2, storeFind_cellsOf]
  by_cases h1 : k < a
  · have : ¬ a ≤ k := by omega
    have h2 : ¬ a + l.length ≤ k := by omega
    simp [h1, this, h2]
  · by_cases h2 : a + l.length ≤ k
    · have : ¬ k < a + l.length := by omega
      simp [h1, h2, this]
    · have h3 : a ≤ k := by omega
      have h4 : k < a + l.length := by omega
      by_cases hz : l.getD (k - a) 0 = 0
      · simp only [h1, h2, h3, h4, hz]; simp
      · simp only [h1, h2, h3, h4]; simp only [ne_eq, hz]; simp

/-! The canonical form -/

theorem storeRising_append {α : Type} {c : Nat} : (m n : List (Nat × α)) → (b : Nat) → storeRising b m = true →
    (∀ e ∈ m, e.1 < c) → b ≤ c → storeRising c n = true → storeRising b (m ++ n) = true
  | [], n, b, _, _, hb, hn => storeRising_weaken hb n hn
  | (a, x) :: t, n, b, hm, hc, _, hn => by
    simp only [storeRising, Bool.and_eq_true, decide_eq_true_eq, List.cons_append] at hm ⊢
    have : a < c := hc (a, x) List.mem_cons_self
    exact ⟨hm.1, storeRising_append t n (a + 1) hm.2 (fun e he => hc e (List.mem_cons_of_mem _ he)) (by omega) hn⟩

theorem storeRising_filter {α : Type} (p : Nat × α → Bool) : (m : List (Nat × α)) → (b : Nat) → storeRising b m = true →
    storeRising b (m.filter p) = true
  | [], _, _ => rfl
  | (a, x) :: t, b, hm => by
    simp only [storeRising, Bool.and_eq_true, decide_eq_true_eq] at hm
    by_cases h : p (a, x) = true
    · simp only [List.filter_cons, h, if_true, storeRising, Bool.and_eq_true, decide_eq_true_eq]
      exact ⟨hm.1, storeRising_filter p t (a + 1) hm.2⟩
    · simp only [List.filter_cons, h]
      exact storeRising_weaken (by omega) _ (storeRising_filter p t (a + 1) hm.2)

theorem storeRising_above {α : Type} {c : Nat} : (m : List (Nat × α)) → (b : Nat) → storeRising b m = true →
    (∀ e ∈ m, c ≤ e.1) → storeRising c m = true
  | [], _, _, _ => rfl
  | (a, x) :: t, b, hm, hc => by
    simp only [storeRising, Bool.and_eq_true, decide_eq_true_eq] at hm ⊢
    exact ⟨hc (a, x) List.mem_cons_self, hm.2⟩

theorem storeRising_cellsOf : (l : List (BitVec 8)) → (a b : Nat) → b ≤ a → storeRising b (cellsOf a l) = true
  | [], _, _, _ => rfl
  | x :: t, a, b, h => by
    unfold cellsOf
    split
    · exact storeRising_cellsOf t (a + 1) b (by omega)
    · simp only [storeRising, Bool.and_eq_true, decide_eq_true_eq]
      exact ⟨h, storeRising_cellsOf t (a + 1) (a + 1) (by omega)⟩

theorem mem_cellsOf : (l : List (BitVec 8)) → (a : Nat) → (e : Host.Cell) → e ∈ cellsOf a l →
    a ≤ e.1 ∧ e.1 < a + l.length ∧ e.2 ≠ 0
  | [], _, _, h => by simp [cellsOf] at h
  | x :: t, a, e, h => by
    unfold cellsOf at h
    split at h
    · have := mem_cellsOf t (a + 1) e h
      simp only [List.length_cons]; exact ⟨by omega, by omega, this.2.2⟩
    · rename_i hx
      rcases List.mem_cons.mp h with rfl | h
      · exact ⟨Nat.le_refl _, by simp, hx⟩
      · have := mem_cellsOf t (a + 1) e h
        simp only [List.length_cons]; exact ⟨by omega, by omega, this.2.2⟩

/-- A write of bytes keeps the FRAM in canonical form. -/
theorem State.framWrite_wf {s : State} (h : Memory.wf s.prf.fram = true) (a : Nat) (l : List (BitVec 8)) :
    Memory.wf (s.framWrite a l).prf.fram = true := by
  unfold Memory.wf storeWf at h ⊢
  simp only [Bool.and_eq_true, List.all_eq_true, decide_eq_true_eq] at h ⊢
  unfold State.framWrite cellsWrite
  have r1 := storeRising_filter (fun c => decide (c.1 < a)) s.prf.fram 0 h.1
  have r3 := storeRising_filter (fun c => decide (a + l.length ≤ c.1)) s.prf.fram 0 h.1
  refine ⟨?_, fun e he => ?_⟩
  · rw [List.append_assoc]
    refine storeRising_append (c := a) _ _ 0 r1 (fun e he => by simpa using (List.mem_filter.mp he).2) (Nat.zero_le a) ?_
    refine storeRising_append (c := a + l.length) _ _ a (storeRising_cellsOf l a a (Nat.le_refl a))
      (fun e he => (mem_cellsOf l a e he).2.1) (Nat.le_add_right a _) ?_
    exact storeRising_above _ 0 r3 (fun e he => by simpa using (List.mem_filter.mp he).2)
  · rcases List.mem_append.mp he with he | he
    · rcases List.mem_append.mp he with he | he
      · exact h.2 e (List.mem_filter.mp he).1
      · exact (mem_cellsOf l a e he).2.2
    · exact h.2 e (List.mem_filter.mp he).1

end Sys2Proof.Machine
end

