-- ==== Sys2Proof/Laws/Frame.lean ====
section
/-!
SUPPORT. The frame of each shared operation, said once: the parts of the state and the registers it may change.  Frames compose, so
that the frame of a command follows from those of the operations it is made of.
-/

namespace Sys2Proof.Machine

/-! Using and composing frames -/

theorem State.Frame.part {s t : State} {ps : List Part} {offs : List Nat} (h : s.Frame t ps offs) {p : Part} (hp : p ∉ ps) :
    Part.Same s t p := h.1 p hp

theorem State.Frame.rd {s t : State} {ps : List Part} {offs : List Nat} (h : s.Frame t ps offs) {off : Nat} (ho : off ∉ offs)
    (he : endReg off = false) : t.rd off = s.rd off := h.2.1 off ho he

theorem State.Frame.get {s t : State} {ps : List Part} {offs : List Nat} (h : s.Frame t ps offs) (f : Fld) (ho : f.off ∉ offs)
    (he : endReg f.off = false) : t.get f = s.get f := by unfold State.get; rw [h.rd ho he]

theorem State.Frame.flag {s t : State} {ps : List Part} {offs : List Nat} (h : s.Frame t ps offs) (f : Fld) (ho : f.off ∉ offs)
    (he : endReg f.off = false) : t.flag f = s.flag f := by unfold State.flag; rw [h.get f ho he]

/-- One change after another changes what either changes. -/
theorem State.Frame.seq {s t u : State} {ps qs : List Part} {os rs : List Nat} (h : s.Frame t ps os) (k : t.Frame u qs rs) :
    s.Frame u (ps ++ qs) (os ++ rs) :=
  (h.mono (List.subset_append_left _ _) (List.subset_append_left _ _)).trans
    (k.mono (List.subset_append_right _ _) (List.subset_append_right _ _))

/-- A choice between two changes. -/
theorem State.Frame.ite {s t u : State} {ps : List Part} {os : List Nat} {c : Prop} [Decidable c] (h : c → s.Frame t ps os)
    (k : ¬ c → s.Frame u ps os) : s.Frame (if c then t else u) ps os := by split <;> simp_all

theorem frame_foldl {β : Type} {ps : List Part} {os : List Nat} (g : State → β → State) : (l : List β) → (s : State) →
    (∀ s : State, ∀ x ∈ l, s.Frame (g s x) ps os) → s.Frame (l.foldl g s) ps os
  | [], s, _ => State.Frame.refl s ps os
  | x :: t, s, h => (h s x List.mem_cons_self).trans
      (frame_foldl g t (g s x) (fun s y hy => h s y (List.mem_cons_of_mem _ hy)))

theorem frame_each {ps : List Part} {os : List Nat} (n : Nat) (f : Nat → State → State) (s : State)
    (h : ∀ i, i < n → ∀ s : State, s.Frame (f i s) ps os) : s.Frame (State.each n f s) ps os :=
  frame_foldl _ _ _ (fun s i hi => h i (List.mem_range.mp hi) s)

/-! Registers -/

theorem frame_wr (s : State) (off : Nat) (v : BitVec 32) : s.Frame (s.wr off v) [] [off] := by
  refine ⟨fun p _ => by cases p <;> simp [Part.Same, State.framByte], fun k hk _ => ?_, rfl⟩
  rw [State.rd_wr, if_neg (fun h => hk (by simp [h]))]

theorem frame_put (s : State) (f : Fld) (x : Nat) : s.Frame (s.put f x) [] [f.off] := frame_wr _ _ _

theorem frame_setFlag (s : State) (f : Fld) (b : Bool) : s.Frame (s.setFlag f b) [] [f.off] := frame_wr _ _ _

theorem frame_putI (s : State) (f : Fld) (x : Int) : s.Frame (s.putI f x) [] [f.off] := frame_wr _ _ _

theorem frame_bump (s : State) (f : Fld) (n : Nat) : s.Frame (s.bump f n) [] [f.off] := frame_wr _ _ _

theorem frame_putWide : (l : List Nat) → (s : State) → (x : Nat) → s.Frame (s.putWide l x) [] l
  | [], s, _ => State.Frame.refl s [] []
  | o :: t, s, n => (frame_wr s o _).seq (frame_putWide t _ _)

/-- A field reads as what was put into it; a field elsewhere, or of the same register without a common bit, as before. -/
theorem State.get_put_other (s : State) (f g : Fld) (x : Nat) (h : f.lsb + f.width ≤ 32)
    (hd : f.off ≠ g.off ∨ g.lsb + g.width ≤ f.lsb ∨ f.lsb + f.width ≤ g.lsb) : (s.put f x).get g = s.get g := by
  by_cases ho : f.off = g.off
  · exact State.get_put_apart s f g x ho h (hd.resolve_left (fun n => n ho))
  · exact State.get_put_ne s f g x ho

theorem State.flag_setFlag_other (s : State) (f g : Fld) (b : Bool) (h : f.lsb + f.width ≤ 32)
    (hd : f.off ≠ g.off ∨ g.lsb + g.width ≤ f.lsb ∨ f.lsb + f.width ≤ g.lsb) : (s.setFlag f b).flag g = s.flag g := by
  unfold State.flag State.setFlag; rw [State.get_put_other s f g _ h hd]

/-- A signed field reads as a value within its range put into it. -/
theorem State.getI_putI_self (s : State) (f : Fld) (x : Int) (h : f.lsb + f.width ≤ 32) (hw : 0 < f.width)
    (hx : -(2 ^ (f.width - 1) : Int) ≤ x ∧ x < 2 ^ (f.width - 1)) : (s.putI f x).getI f = x := by
  have hpos : (0 : Int) < 2 ^ f.width := by positivity
  have h2 : (2 : Int) ^ f.width = 2 * 2 ^ (f.width - 1) := by
    rw [← pow_succ']; congr 1; omega
  have hu : ((unsignedOf f.width x : Nat) : Int) = x % 2 ^ f.width := by
    unfold unsignedOf; exact Int.toNat_of_nonneg (Int.emod_nonneg _ hpos.ne')
  have hlt : unsignedOf f.width x < 2 ^ f.width := by
    have : ((unsignedOf f.width x : Nat) : Int) < 2 ^ f.width := by rw [hu]; exact Int.emod_lt_of_pos _ hpos
    exact_mod_cast this
  unfold State.getI State.putI
  rw [State.get_put_self s f _ h, Nat.mod_eq_of_lt hlt]
  unfold signedOf
  by_cases hn : 0 ≤ x
  · have e : x % 2 ^ f.width = x := Int.emod_eq_of_lt hn (by omega)
    have : unsignedOf f.width x < 2 ^ (f.width - 1) := by
      have : ((unsignedOf f.width x : Nat) : Int) < 2 ^ (f.width - 1) := by rw [hu, e]; exact hx.2
      exact_mod_cast this
    rw [if_pos this, hu, e]
  · have e : x % 2 ^ f.width = x + 2 ^ f.width := by
      rw [← Int.add_emod_right]; exact Int.emod_eq_of_lt (by omega) (by omega)
    have : ¬ unsignedOf f.width x < 2 ^ (f.width - 1) := by
      intro hc
      have : ((unsignedOf f.width x : Nat) : Int) < 2 ^ (f.width - 1) := by exact_mod_cast hc
      rw [hu, e] at this; omega
    rw [if_neg this, hu, e]; ring

/-- Settings written outside the scanned segments change their register alone. -/
theorem frame_wrSetting (s : State) (off : Nat) (v : BitVec 32) : s.Frame (s.wrSetting off v) [.checks] [off] := by
  unfold State.wrSetting
  split
  · refine State.Frame.seq (ps := [.checks]) (os := []) ?_ (frame_wr _ _ _)
    exact ⟨fun p hp => by cases p <;> simp [Part.Same, State.addRef, State.framByte] at *, fun _ _ _ => rfl, rfl⟩
  · exact (frame_wr _ _ _).mono (by simp) (by simp)

theorem frame_storeWrite (s : State) (w : WriteBy) (off : Nat) (v : BitVec 32) : s.Frame (s.storeWrite w off v) [.checks] [off] := by
  unfold State.storeWrite
  split
  · exact State.Frame.refl _ _ _
  · split
    · exact frame_wrSetting _ _ _
    · exact State.Frame.refl _ _ _

/-- A register outside the segments the safety monitor scans (R416). -/
theorem frame_storeWrite_plain (s : State) (w : WriteBy) (off : Nat) (v : BitVec 32) (h : segmentOf off = none) :
    s.Frame (s.storeWrite w off v) [] [off] := by
  unfold State.storeWrite State.wrSetting
  split
  · exact State.Frame.refl _ _ _
  · split
    · rw [h]; exact frame_wr _ _ _
    · exact State.Frame.refl _ _ _

/-! Events, strikes, messages -/

theorem frame_event (s : State) (c i : Nat) (g : EvEdge) (p0 p1 p2 : Nat) : s.Frame (s.event c i g p0 p1 p2) [] [] := by
  refine ⟨fun p _ => ?_, fun _ _ _ => by simp, by simp⟩
  cases p
  case windows => exact State.eventX_windows _ _ _ _ _ _ _ _ _
  all_goals simp [Part.Same, State.framByte]

theorem frame_emit (s : State) (w : HostWrite) : s.Frame (s.emit w) [] [] :=
  ⟨fun p _ => by cases p <;> simp [Part.Same, State.framByte], fun _ _ _ => rfl, rfl⟩

theorem frame_hostWrite (s : State) (w : HostWrite) : s.Frame (s.hostWrite w) [] [] := by
  unfold State.hostWrite; split
  · exact frame_emit _ _
  · exact State.Frame.refl _ _ _

theorem frame_signal (s : State) (v : Nat) : s.Frame (s.signal v) [] [] := by
  refine ⟨fun p _ => ?_, fun _ _ he => State.signal_rd he s v, by simp⟩
  unfold State.signal; dsimp only; repeat' split
  all_goals cases p <;> simp [Part.Same, State.framByte]

/-! Rings and host commands -/

theorem frame_modRing (s : State) (r : Nat) (f : RingAux → RingAux) : s.Frame (s.modRing r f) [.host] [] :=
  ⟨fun p hp => by cases p <;> simp [Part.Same, State.modRing, State.framByte] at *, fun _ _ _ => rfl, rfl⟩

theorem frame_moderate (s : State) (r n : Nat) : s.Frame (s.moderate r n) [.host] [] := by
  unfold State.moderate; dsimp only; repeat' split
  · exact ((frame_modRing _ _ _).seq (frame_signal _ _)).mono (by simp) (by simp)
  · exact frame_modRing _ _ _
  · exact State.Frame.refl _ _ _

theorem frame_returnDescs (s : State) (r n : Nat) : s.Frame (s.returnDescs r n) [.host] [HIF_RCIDX r] := by
  unfold State.returnDescs State.statusRing
  exact ((frame_wr _ _ _).seq (((frame_hostWrite _ _).seq (frame_hostWrite _ _)).seq (frame_moderate _ _ _))).mono
    (by simp) (by simp)

/-- Taking a command changes the host interface, C of the CMD ring, and the mailbox status (R392, R408). -/
theorem frame_accept (s : State) (h : CmdHdr) : s.Frame (s.accept h) [.host] hostRegs := by
  unfold State.accept
  split
  · refine (State.Frame.seq (ps := [.host]) (os := []) ?_ (frame_returnDescs _ 0 1)).mono (by simp) (by simp [hostRegs])
    exact ⟨fun p hp => by cases p <;> simp [Part.Same, State.framByte] at *, fun _ _ _ => rfl, rfl⟩
  · exact (((frame_setFlag _ _ _).seq (frame_setFlag _ _ _)).seq (frame_put _ _ _)).mono (by simp) (by decide)
  · exact State.Frame.refl _ _ _

theorem frame_putSlots : (l : List (BitVec 64)) → (s : State) → (off : Nat) →
    s.Frame (s.putSlots off l) [] ((List.range l.length).flatMap (fun i => [off + 8 * i, off + 8 * i + 4]))
  | [], s, _ => State.Frame.refl s _ _
  | x :: t, s, off => by
    unfold State.putSlots
    refine (((frame_wr s off _).seq (frame_wr _ (off + 4) _)).seq (frame_putSlots t _ (off + 8))).mono (by simp) ?_
    intro k hk
    simp only [List.mem_append, List.mem_flatMap, List.mem_range, List.mem_cons, List.not_mem_nil,
      or_false, List.length_cons] at hk ⊢
    rcases hk with (h | h) | ⟨i, hi, h⟩
    · exact ⟨0, by omega, Or.inl (by omega)⟩
    · exact ⟨0, by omega, Or.inr (by omega)⟩
    · exact ⟨i + 1, by omega, by rcases h with h | h <;> [left; right] <;> omega⟩

/-- An answer changes the host interface, the mailbox and the status an image's command leaves (R393, R394). -/
theorem frame_complete (s : State) (op : BitVec 8) (h : CmdHdr) (st p0 p1 p2 : Nat) :
    s.Frame (s.complete op h st p0 p1 p2) [.host, .writer] (MBX_STAT :: mbxCplRegs) := by
  unfold State.complete
  dsimp only
  split
  · exact ⟨fun p hp => by cases p <;> simp [Part.Same, State.framByte] at *, fun _ _ _ => rfl, rfl⟩
  · refine (((frame_putSlots _ _ _).seq (frame_setFlag _ _ _)).seq (frame_setFlag _ _ _)).mono (by simp) ?_
    have e : ∀ (c : Completion), c.slots.length = 8 := fun _ => rfl
    rw [e]; decide
  · exact ⟨fun p hp => by cases p <;> simp [Part.Same, State.framByte] at *, fun _ _ _ => rfl, rfl⟩

theorem frame_untake (s : State) (t : Taken) : s.Frame (s.untake t) [.taken] [] :=
  ⟨fun p hp => by cases p <;> simp [Part.Same, State.untake, State.framByte] at *, fun _ _ _ => rfl, rfl⟩

theorem frame_keep (s : State) (op : BitVec 8) (h : CmdHdr) (w : Wait) : s.Frame (s.keep op h w) [.taken] [] :=
  ⟨fun p hp => by cases p <;> simp [Part.Same, State.keep, State.framByte] at *, fun _ _ _ => rfl, rfl⟩

theorem frame_done (s : State) (t : Taken) (st p0 p1 p2 : Nat) :
    s.Frame (s.done t st p0 p1 p2) [.taken, .host, .writer] (MBX_STAT :: mbxCplRegs) := by
  unfold State.done
  repeat' split
  · exact (frame_untake _ _).mono (by simp) (by simp)
  · exact ⟨fun p hp => by cases p <;> simp [Part.Same, State.framByte] at *, fun _ _ _ => rfl, rfl⟩
  · exact ((frame_untake _ _).seq (frame_complete _ _ _ _ _ _ _)).mono (by simp) (by simp)

theorem frame_doneAll (s : State) (p : Taken → Bool) (st : Nat) (pay : Taken → Nat × Nat × Nat) :
    s.Frame (s.doneAll p st pay) [.taken, .host, .writer] (MBX_STAT :: mbxCplRegs) :=
  frame_foldl _ _ _ (fun _ _ _ => frame_done _ _ _ _ _ _)

/-- A DMA fault changes its flag and its counter (R382). -/
theorem frame_dmaFault (s : State) (i : Nat) (c : DmaCause) (a : BitVec 64) :
    s.Frame (s.dmaFault i c a) [] [HIF_STAT, HIF_DMAERR] :=
  (((frame_setFlag _ _ _).seq (frame_bump _ _ _)).seq (frame_event _ _ _ _ _ _ _)).mono (by simp) (by decide)

theorem frame_modRtc (s : State) (f : RtcState → RtcState) : s.Frame (s.modRtc f) [.clock] [] :=
  ⟨fun p hp => by cases p <;> simp [Part.Same, State.framByte] at *, fun _ _ _ => rfl, rfl⟩

end Sys2Proof.Machine
end

