-- ==== Sys2Proof/WellFormed.lean ====
section
/-!
DEFINITION. Which terms of `Instr` are commands of the table: indexes inside the arrays they name (96 channels, 48 brackets, 8
groups, 16 CF and 8 TRIP outputs, 16 inputs, 32 points, 4 units and sequences, 16 rings, 256 contexts) and the selector bits of
their row set as the row says.
-/

namespace Sys2Proof

/-- Bit `i` of a word. -/
def bit {n : Nat} (v : BitVec n) (i : Nat) : Bool := v.toNat / 2 ^ i % 2 == 1

/-- The `w` bits of a word from bit `i` on. -/
def field {n : Nat} (v : BitVec n) (i w : Nat) : Nat := v.toNat / 2 ^ i % 2 ^ w

/-- Widths of an access that a bus of a processor makes (R8). -/
def busWidth (width : Nat) : Bool := width == 8 || width == 16 || width == 32 || width == 64

/-- What an exposure brings names channels 0 to 95, each once, and inputs 0 to 15. -/
def BoundaryIn.wellFormed (b : BoundaryIn) : Bool :=
  b.chans.all (fun c => decide (c.ch < 96)) && decide (b.chans.map (fun c => c.ch)).Nodup &&
    b.pin2.all (fun x => decide (x.1 < 16)) && b.flips.all (fun x => decide (x.1 < 96)) &&
    b.ecc.all (fun x => decide (x.1 < 96)) && b.dPair.all (fun x => decide (x.1 < 96))

/-- A monitor of a bank names one of the 12 banks (R71). -/
def Monitor.wellFormed : Monitor → Bool
  | .bank k _ => decide (k < 12)
  | .pfVddio | .pfVddc | .pfVdda | .ovVddc | .ovVdda | .ovVddio | .vldUv | .vldOv => true

/-- A well-formed command of the table. -/
def Instr.wellFormed : Instr → Bool
  | .coefLoad _ a0 _ => !(field a0 8 2 == 2)
  | .coefLoadCorr _ a0 _ => field a0 8 2 == 2
  | .snapshot _ _ a1 _ => !bit a1 1
  | .snapshotAuto _ _ a1 _ => bit a1 1
  | .rtcAdjustStep _ a0 _ _ => !bit a0 0
  | .rtcAdjustSlew _ a0 _ _ => bit a0 0
  | .fnReinit _ a0 => !(field a0 0 8 == 6) && !(field a0 0 8 == 9)
  | .commandDeadlineExpiry src => !decide (src = .image)
  | .dirAdd d _ => field d.d0 0 8 == 0x01
  | .dirSet d _ => field d.d0 0 8 == 0x02
  | .dirRemove d => field d.d0 0 8 == 0x03
  | .dirRead d => field d.d0 0 8 == 0x04
  | .ctxRead d => field d.d0 0 8 == 0x10
  | .ctxWrite d _ => field d.d0 0 8 == 0x11 && !bit d.d4 1
  | .ctxWriteRekey d _ _ => field d.d0 0 8 == 0x11 && bit d.d4 1
  | .ctxFree d => field d.d0 0 8 == 0x12
  | .reneg d => field d.d0 0 8 == 0x13
  | .routeSet d _ => field d.d0 0 8 == 0x20
  | .doorbellReadDone _ _ posted => posted.all (fun q => decide (q.ring < 16))
  | .mbxGo _ v => bit v 0
  | .softrst _ v => field v 24 8 == 0xD5 && bit v 0
  | .targetMeter _ v => field v 0 2 == 1
  | .targetRun _ v => field v 0 2 == 0
  | .targetStandby _ v => field v 0 2 == 2
  | .rtcCtlCommit _ v => bit v 0
  | .rtcCtlStep _ v => bit v 2
  | .rtcCtlCapture _ v => bit v 1
  | .almctlArm _ v => bit v 0
  | .almctlDisarm _ v => bit v 1
  | .ldgFdataRead _ width => busWidth width
  | .rtcRamRead _ w _ width => decide (w < 24) && busWidth width
  | .rcRegisterRead _ off width => off.toNat % 4 == 0 && busWidth width
  | .lowestWordRead _ off width => off.toNat % 4 == 0 && busWidth width
  | .lowestWordWrite _ off _ => off.toNat % 4 == 0
  | .registerWrite _ _ width _ => busWidth width
  | .urgentConversion _ v => bit v 31
  | .load _ v => bit v 0
  | .csArm _ v => bit v 30
  | .csDisarm _ v => !bit v 30
  | .force _ v => bit v 31
  | .remoteRead _ v => bit v 31
  | .handover _ v => bit v 0
  | .suspend _ u v => decide (u < 4) && bit v 0
  | .refflip _ v => bit v 31
  | .tripDisable _ n v => decide (n < 8) && !bit v 31
  | .init _ v => bit v 0
  | .rehash _ v => bit v 1
  | .abort _ v => bit v 2
  | .ringEnable _ r v => decide (r < 16) && bit v 31
  | .ringDisable _ r v => decide (r < 16) && !bit v 31
  | .calfrcWrite _ k _ => decide (k < 12)
  | .exposureBoundary b => b.wellFormed
  | .syncEdge b => b.wellFormed
  | .streamLoss ch => decide (ch < 96)
  | .bracketSwitch m _ => decide (m < 48)
  | .bracketReturn m _ => decide (m < 48)
  | .zeroCrossing g _ => decide (g < 8)
  | .frequencyRangeTimeout g => decide (g < 8)
  | .windowWrite g => decide (g < 8)
  | .halfCycleDecision g => decide (g < 8)
  | .cfSlot n => decide (n < 16)
  | .mintripExpiry n => decide (n < 8)
  | .pinChangeAccepted j _ _ _ => decide (j < 16)
  | .missingPulse j => decide (j < 16)
  | .interruptModerationTimeout r => decide (r < 16)
  | .calWindowEnd point => decide (point < 32)
  | .fcvCalDone _ factors bad => factors.length == 24 && (match bad with | some i => decide (i < 24) | none => true)
  | .sequenceRun s => decide (s < 4)
  | .negotiationStepTimeout index => decide (index < 256)
  | .refreshInterval index => decide (index < 256)
  | .supplyMonitorCrossing m _ => m.wellFormed
  | .overvoltageRepeat m => m.wellFormed
  | .startupDiagnostics failed => (match failed with | some (d, _) => decide (d < 16) | none => true)
  | .enumerationFrame pos ndev bad => decide (pos < 8) && decide (ndev ≤ 8) && decide (bad ≤ 3)
  | .echoFrame _ bad => decide (bad ≤ 3)
  | .boundaryMarker b _ _ _ _ => b.wellFormed
  | .takeover b => b.wellFormed
  | .resolutionFrame f => decide (f.pos < 8) && decide (f.bad ≤ 3)
  | .cascadeRecordMissing pos => decide (pos < 8)
  | .mirrorFrame f => decide (f.bad ≤ 3) && decide (f.counts.length ≤ 16) && f.points.all (fun p => decide (p.1 < 32))
  | .scanPassDone entry _ _ _ => decide (56 ≤ entry) && decide (entry < 64)
  | .cvuFirstPassDone u => decide (u < 4)
  | .cvuRescanDone u => decide (u < 4)
  | .cfPulseEdge n => decide (n < 16)
  | .pcieLinkUp speed width => (speed == 1 || speed == 2) && (width == 1 || width == 2)
  | .nop _ | .mpStart _ _ | .mpStop _ _ | .coefSwap _ _ | .filtStart _ _ | .filtStop _ _ | .sync _ | .calWindow _ _ _ _ _ |
    .withheldRelease _ _ _ _ | .rtcCapture _ | .rtcSet _ _ _ _ | .fcvCal _ | .fcvSeq _ _ _ | .cvuScan _ _ _ _ |
    .fnReinitSafety _ | .fnReinitTzl _ | .pwrCycle _ _ | .proofNow _ | .seal _ | .unseal _ | .plcTx _ _ _ | .dbKick _ _ |
    .mbxEvtpop _ _ | .tzlEvpop _ _ | .standbyWake _ | .commitTakesEffect | .stepTakesEffect | .captureLatch | .tickEdge |
    .rtcSlew _ _ | .slewEnd | .alarmFires | .periodicWake | .temperatureMeasurement _ | .tccfgWrite _ _ | .tchgWrite _ _ |
    .bkmodeChange _ _ | .ldgFaddrWrite _ _ | .ldgFdataWrite _ _ | .framPortAccessDone |
    .urgentConversionDone _ | .loadApplied | .captureTrigger _ | .postTriggerComplete _ | .fcapRecordWrite |
    .remoteWrite _ _ | .remoteAccessDone _ | .referenceEntryWrite _ _ | .ack _ _ | .hostTrip _ _ | .rehashBucketCopy |
    .irqenWrite _ _ | .hspiReadFrame _ _ _ | .hspiWriteFrame _ _ _ | .developmentDone _ | .fixerComparison _ |
    .replayDone _ | .latentDeadline | .syncPin | .macFreeRun | .eventRecordWrite | .tripReadback _ |
    .momentarySourceExpiry _ _ | .proofWriteStart | .proofWriteDone | .proofReadbackDone _ | .sealN _ | .journalWrite |
    .snapshotCopy | .ledgerRecordWrite | .completionWrite | .sequenceRunEnd _ | .carrierDetection _ _ | .scheduledReceive |
    .receptionRelease | .transmissionReceived _ | .beacon _ | .sack _ | .sounding _ _ | .toneMapReport _ |
    .associationRequest _ | .associationResponse _ | .routeSetFrame _ | .macFrameComplete | .plcRxRecordWrite |
    .beaconPeriodStart | .transmissionStart _ | .transmissionEnd _ _ | .sackTransmit | .backoffExpiry | .sackTimeout |
    .beaconMissed | .nodeLost _ | .lineDriverOvertemp | .lineDriverCooled | .directoryWriteback | .directoryLookupMiss _ _ |
    .powerFail _ | .emergencyProofComplete | .powerFailRecovery | .vbkupLow _ | .powerOn | .vddcVddaReset | .resetN |
    .backupDomainReset _ | .trstN | .pePerstN _ | .busMasterEnable | .resetRelease _ _ | .hfrefSourceSelected _ |
    .hfrefGood | .hfrefRetry | .pllLock | .memoryInitialised | .restore | .autostartImageRead | .internalSync |
    .lfclkCheck _ | .oscillatorStop | .pwronLow | .offend | .void | .portTrained _ | .portLoss _ _ | .cascadeStart _ |
    .mirrorFrameDeadline | .k283 | .kavVector _ | .clockCheck _ _ _ | .watchdogExpiry |
    .associationResponseTimeout | .plcTxDeadlineExpiry _ | .mirrorSideTimeout | .fnReinitTzlTimeout _ | .directoryInitDone |
    .identityWriteDone | .busMasterDisable _ _ | .domainSwitchComplete | .dmaReadDone _ _ => true

end Sys2Proof
end

