-- ==== Sys2Proof/Laws/PerInstr.lean ====
section
/-!
SUPPORT. The family Wf: a well-formed term of a host command's row has that row's OPCODE and header, and no other row has one.
-/

namespace Sys2Proof.Laws

open Sys2Proof Sys2Proof.Machine

/-- Rows of the table that are host commands (R396). -/
def Wf.isHost : Instr → Bool
  | .nop _ | .mpStart _ _ | .mpStop _ _ | .coefLoad _ _ _ | .coefLoadCorr _ _ _ | .coefSwap _ _ | .filtStart _ _ |
    .filtStop _ _ | .sync _ | .snapshot _ _ _ _ | .snapshotAuto _ _ _ _ | .calWindow _ _ _ _ _ | .withheldRelease _ _ _ _ |
    .rtcCapture _ | .rtcSet _ _ _ _ | .rtcAdjustStep _ _ _ _ | .rtcAdjustSlew _ _ _ _ | .fcvCal _ | .fcvSeq _ _ _ |
    .cvuScan _ _ _ _ | .fnReinit _ _ | .fnReinitSafety _ | .fnReinitTzl _ | .pwrCycle _ _ | .proofNow _ | .seal _ |
    .unseal _ => true
  | _ => false

/-- A well-formed command has an OPCODE and a header exactly where its row is a host command. -/
def Wf.Statement (i : Instr) : Prop := i.wellFormed = true → (commandOf i).isSome = Wf.isHost i

theorem Wf.nop {x0} : Wf.Statement (.nop x0) := fun _ => rfl
theorem Wf.mpStart {x0} {x1} : Wf.Statement (.mpStart x0 x1) := fun _ => rfl
theorem Wf.mpStop {x0} {x1} : Wf.Statement (.mpStop x0 x1) := fun _ => rfl
theorem Wf.coefLoad {x0} {x1} {x2} : Wf.Statement (.coefLoad x0 x1 x2) := by
  intro h
  simp_all [Instr.wellFormed, commandOf, Wf.isHost, field]
theorem Wf.coefLoadCorr {x0} {x1} {x2} : Wf.Statement (.coefLoadCorr x0 x1 x2) := by
  intro h
  simp_all [Instr.wellFormed, commandOf, Wf.isHost, field]
theorem Wf.coefSwap {x0} {x1} : Wf.Statement (.coefSwap x0 x1) := fun _ => rfl
theorem Wf.filtStart {x0} {x1} : Wf.Statement (.filtStart x0 x1) := fun _ => rfl
theorem Wf.filtStop {x0} {x1} : Wf.Statement (.filtStop x0 x1) := fun _ => rfl
theorem Wf.sync {x0} : Wf.Statement (.sync x0) := fun _ => rfl
theorem Wf.snapshot {x0} {x1} {x2} {x3} : Wf.Statement (.snapshot x0 x1 x2 x3) := by
  intro h
  simp_all [Instr.wellFormed, commandOf, Wf.isHost, bit, bitAt]
theorem Wf.snapshotAuto {x0} {x1} {x2} {x3} : Wf.Statement (.snapshotAuto x0 x1 x2 x3) := by
  intro h
  simp_all [Instr.wellFormed, commandOf, Wf.isHost, bit, bitAt]
theorem Wf.calWindow {x0} {x1} {x2} {x3} {x4} : Wf.Statement (.calWindow x0 x1 x2 x3 x4) := fun _ => rfl
theorem Wf.withheldRelease {x0} {x1} {x2} {x3} : Wf.Statement (.withheldRelease x0 x1 x2 x3) := fun _ => rfl
theorem Wf.rtcCapture {x0} : Wf.Statement (.rtcCapture x0) := fun _ => rfl
theorem Wf.rtcSet {x0} {x1} {x2} {x3} : Wf.Statement (.rtcSet x0 x1 x2 x3) := fun _ => rfl
theorem Wf.rtcAdjustStep {x0} {x1} {x2} {x3} : Wf.Statement (.rtcAdjustStep x0 x1 x2 x3) := by
  intro h
  simp_all [Instr.wellFormed, commandOf, Wf.isHost, bit, bitAt]
theorem Wf.rtcAdjustSlew {x0} {x1} {x2} {x3} : Wf.Statement (.rtcAdjustSlew x0 x1 x2 x3) := by
  intro h
  simp_all [Instr.wellFormed, commandOf, Wf.isHost, bit, bitAt]
theorem Wf.fcvCal {x0} : Wf.Statement (.fcvCal x0) := fun _ => rfl
theorem Wf.fcvSeq {x0} {x1} {x2} : Wf.Statement (.fcvSeq x0 x1 x2) := fun _ => rfl
theorem Wf.cvuScan {x0} {x1} {x2} {x3} : Wf.Statement (.cvuScan x0 x1 x2 x3) := fun _ => rfl
theorem Wf.fnReinit {x0} {x1} : Wf.Statement (.fnReinit x0 x1) := fun _ => rfl
theorem Wf.fnReinitSafety {x0} : Wf.Statement (.fnReinitSafety x0) := fun _ => rfl
theorem Wf.fnReinitTzl {x0} : Wf.Statement (.fnReinitTzl x0) := fun _ => rfl
theorem Wf.pwrCycle {x0} {x1} : Wf.Statement (.pwrCycle x0 x1) := fun _ => rfl
theorem Wf.proofNow {x0} : Wf.Statement (.proofNow x0) := fun _ => rfl
theorem Wf.seal {x0} : Wf.Statement (.seal x0) := fun _ => rfl
theorem Wf.unseal {x0} : Wf.Statement (.unseal x0) := fun _ => rfl
theorem Wf.commandDeadlineExpiry {x0} : Wf.Statement (.commandDeadlineExpiry x0) := fun _ => rfl
theorem Wf.plcTx {x0} {x1} {x2} : Wf.Statement (.plcTx x0 x1 x2) := fun _ => rfl
theorem Wf.dirAdd {x0} {x1} : Wf.Statement (.dirAdd x0 x1) := fun _ => rfl
theorem Wf.dirSet {x0} {x1} : Wf.Statement (.dirSet x0 x1) := fun _ => rfl
theorem Wf.dirRemove {x0} : Wf.Statement (.dirRemove x0) := fun _ => rfl
theorem Wf.dirRead {x0} : Wf.Statement (.dirRead x0) := fun _ => rfl
theorem Wf.ctxRead {x0} : Wf.Statement (.ctxRead x0) := fun _ => rfl
theorem Wf.ctxWrite {x0} {x1} : Wf.Statement (.ctxWrite x0 x1) := fun _ => rfl
theorem Wf.ctxWriteRekey {x0} {x1} {x2} : Wf.Statement (.ctxWriteRekey x0 x1 x2) := fun _ => rfl
theorem Wf.ctxFree {x0} : Wf.Statement (.ctxFree x0) := fun _ => rfl
theorem Wf.reneg {x0} : Wf.Statement (.reneg x0) := fun _ => rfl
theorem Wf.routeSet {x0} {x1} : Wf.Statement (.routeSet x0 x1) := fun _ => rfl
theorem Wf.dbKick {x0} {x1} : Wf.Statement (.dbKick x0 x1) := fun _ => rfl
theorem Wf.doorbellReadDone {x0} {x1} {x2} : Wf.Statement (.doorbellReadDone x0 x1 x2) := fun _ => rfl
theorem Wf.mbxGo {x0} {x1} : Wf.Statement (.mbxGo x0 x1) := fun _ => rfl
theorem Wf.mbxEvtpop {x0} {x1} : Wf.Statement (.mbxEvtpop x0 x1) := fun _ => rfl
theorem Wf.tzlEvpop {x0} {x1} : Wf.Statement (.tzlEvpop x0 x1) := fun _ => rfl
theorem Wf.softrst {x0} {x1} : Wf.Statement (.softrst x0 x1) := fun _ => rfl
theorem Wf.targetMeter {x0} {x1} : Wf.Statement (.targetMeter x0 x1) := fun _ => rfl
theorem Wf.targetRun {x0} {x1} : Wf.Statement (.targetRun x0 x1) := fun _ => rfl
theorem Wf.targetStandby {x0} {x1} : Wf.Statement (.targetStandby x0 x1) := fun _ => rfl
theorem Wf.standbyWake {x0} : Wf.Statement (.standbyWake x0) := fun _ => rfl
theorem Wf.rtcCtlCommit {x0} {x1} : Wf.Statement (.rtcCtlCommit x0 x1) := fun _ => rfl
theorem Wf.commitTakesEffect : Wf.Statement .commitTakesEffect := fun _ => rfl
theorem Wf.rtcCtlStep {x0} {x1} : Wf.Statement (.rtcCtlStep x0 x1) := fun _ => rfl
theorem Wf.stepTakesEffect : Wf.Statement .stepTakesEffect := fun _ => rfl
theorem Wf.rtcCtlCapture {x0} {x1} : Wf.Statement (.rtcCtlCapture x0 x1) := fun _ => rfl
theorem Wf.captureLatch : Wf.Statement .captureLatch := fun _ => rfl
theorem Wf.tickEdge : Wf.Statement .tickEdge := fun _ => rfl
theorem Wf.rtcSlew {x0} {x1} : Wf.Statement (.rtcSlew x0 x1) := fun _ => rfl
theorem Wf.slewEnd : Wf.Statement .slewEnd := fun _ => rfl
theorem Wf.almctlArm {x0} {x1} : Wf.Statement (.almctlArm x0 x1) := fun _ => rfl
theorem Wf.almctlDisarm {x0} {x1} : Wf.Statement (.almctlDisarm x0 x1) := fun _ => rfl
theorem Wf.alarmFires : Wf.Statement .alarmFires := fun _ => rfl
theorem Wf.periodicWake : Wf.Statement .periodicWake := fun _ => rfl
theorem Wf.temperatureMeasurement {x0} : Wf.Statement (.temperatureMeasurement x0) := fun _ => rfl
theorem Wf.tccfgWrite {x0} {x1} : Wf.Statement (.tccfgWrite x0 x1) := fun _ => rfl
theorem Wf.tchgWrite {x0} {x1} : Wf.Statement (.tchgWrite x0 x1) := fun _ => rfl
theorem Wf.bkmodeChange {x0} {x1} : Wf.Statement (.bkmodeChange x0 x1) := fun _ => rfl
theorem Wf.rtcRamRead {x0} {x1} {x2} {x3} : Wf.Statement (.rtcRamRead x0 x1 x2 x3) := fun _ => rfl
theorem Wf.rcRegisterRead {x0} {x1} {x2} : Wf.Statement (.rcRegisterRead x0 x1 x2) := fun _ => rfl
theorem Wf.lowestWordRead {x0} {x1} {x2} : Wf.Statement (.lowestWordRead x0 x1 x2) := fun _ => rfl
theorem Wf.lowestWordWrite {x0} {x1} {x2} : Wf.Statement (.lowestWordWrite x0 x1 x2) := fun _ => rfl
theorem Wf.registerWrite {x0} {x1} {x2} {x3} : Wf.Statement (.registerWrite x0 x1 x2 x3) := fun _ => rfl
theorem Wf.ldgFaddrWrite {x0} {x1} : Wf.Statement (.ldgFaddrWrite x0 x1) := fun _ => rfl
theorem Wf.ldgFdataRead {x0} {x1} : Wf.Statement (.ldgFdataRead x0 x1) := fun _ => rfl
theorem Wf.ldgFdataWrite {x0} {x1} : Wf.Statement (.ldgFdataWrite x0 x1) := fun _ => rfl
theorem Wf.framPortAccessDone : Wf.Statement .framPortAccessDone := fun _ => rfl
theorem Wf.urgentConversion {x0} {x1} : Wf.Statement (.urgentConversion x0 x1) := fun _ => rfl
theorem Wf.urgentConversionDone {x0} : Wf.Statement (.urgentConversionDone x0) := fun _ => rfl
theorem Wf.load {x0} {x1} : Wf.Statement (.load x0 x1) := fun _ => rfl
theorem Wf.loadApplied : Wf.Statement .loadApplied := fun _ => rfl
theorem Wf.csArm {x0} {x1} : Wf.Statement (.csArm x0 x1) := fun _ => rfl
theorem Wf.csDisarm {x0} {x1} : Wf.Statement (.csDisarm x0 x1) := fun _ => rfl
theorem Wf.force {x0} {x1} : Wf.Statement (.force x0 x1) := fun _ => rfl
theorem Wf.captureTrigger {x0} : Wf.Statement (.captureTrigger x0) := fun _ => rfl
theorem Wf.postTriggerComplete {x0} : Wf.Statement (.postTriggerComplete x0) := fun _ => rfl
theorem Wf.fcapRecordWrite : Wf.Statement .fcapRecordWrite := fun _ => rfl
theorem Wf.remoteRead {x0} {x1} : Wf.Statement (.remoteRead x0 x1) := fun _ => rfl
theorem Wf.remoteWrite {x0} {x1} : Wf.Statement (.remoteWrite x0 x1) := fun _ => rfl
theorem Wf.remoteAccessDone {x0} : Wf.Statement (.remoteAccessDone x0) := fun _ => rfl
theorem Wf.handover {x0} {x1} : Wf.Statement (.handover x0 x1) := fun _ => rfl
theorem Wf.suspend {x0} {x1} {x2} : Wf.Statement (.suspend x0 x1 x2) := fun _ => rfl
theorem Wf.refflip {x0} {x1} : Wf.Statement (.refflip x0 x1) := fun _ => rfl
theorem Wf.referenceEntryWrite {x0} {x1} : Wf.Statement (.referenceEntryWrite x0 x1) := fun _ => rfl
theorem Wf.ack {x0} {x1} : Wf.Statement (.ack x0 x1) := fun _ => rfl
theorem Wf.hostTrip {x0} {x1} : Wf.Statement (.hostTrip x0 x1) := fun _ => rfl
theorem Wf.tripDisable {x0} {x1} {x2} : Wf.Statement (.tripDisable x0 x1 x2) := fun _ => rfl
theorem Wf.init {x0} {x1} : Wf.Statement (.init x0 x1) := fun _ => rfl
theorem Wf.rehash {x0} {x1} : Wf.Statement (.rehash x0 x1) := fun _ => rfl
theorem Wf.abort {x0} {x1} : Wf.Statement (.abort x0 x1) := fun _ => rfl
theorem Wf.rehashBucketCopy : Wf.Statement .rehashBucketCopy := fun _ => rfl
theorem Wf.ringEnable {x0} {x1} {x2} : Wf.Statement (.ringEnable x0 x1 x2) := fun _ => rfl
theorem Wf.ringDisable {x0} {x1} {x2} : Wf.Statement (.ringDisable x0 x1 x2) := fun _ => rfl
theorem Wf.irqenWrite {x0} {x1} : Wf.Statement (.irqenWrite x0 x1) := fun _ => rfl
theorem Wf.calfrcWrite {x0} {x1} {x2} : Wf.Statement (.calfrcWrite x0 x1 x2) := fun _ => rfl
theorem Wf.hspiReadFrame {x0} {x1} {x2} : Wf.Statement (.hspiReadFrame x0 x1 x2) := fun _ => rfl
theorem Wf.hspiWriteFrame {x0} {x1} {x2} : Wf.Statement (.hspiWriteFrame x0 x1 x2) := fun _ => rfl
theorem Wf.exposureBoundary {x0} : Wf.Statement (.exposureBoundary x0) := fun _ => rfl
theorem Wf.developmentDone {x0} : Wf.Statement (.developmentDone x0) := fun _ => rfl
theorem Wf.fixerComparison {x0} : Wf.Statement (.fixerComparison x0) := fun _ => rfl
theorem Wf.replayDone {x0} : Wf.Statement (.replayDone x0) := fun _ => rfl
theorem Wf.latentDeadline : Wf.Statement .latentDeadline := fun _ => rfl
theorem Wf.syncPin : Wf.Statement .syncPin := fun _ => rfl
theorem Wf.syncEdge {x0} : Wf.Statement (.syncEdge x0) := fun _ => rfl
theorem Wf.streamLoss {x0} : Wf.Statement (.streamLoss x0) := fun _ => rfl
theorem Wf.bracketSwitch {x0} {x1} : Wf.Statement (.bracketSwitch x0 x1) := fun _ => rfl
theorem Wf.bracketReturn {x0} {x1} : Wf.Statement (.bracketReturn x0 x1) := fun _ => rfl
theorem Wf.zeroCrossing {x0} {x1} : Wf.Statement (.zeroCrossing x0 x1) := fun _ => rfl
theorem Wf.frequencyRangeTimeout {x0} : Wf.Statement (.frequencyRangeTimeout x0) := fun _ => rfl
theorem Wf.macFreeRun : Wf.Statement .macFreeRun := fun _ => rfl
theorem Wf.windowWrite {x0} : Wf.Statement (.windowWrite x0) := fun _ => rfl
theorem Wf.halfCycleDecision {x0} : Wf.Statement (.halfCycleDecision x0) := fun _ => rfl
theorem Wf.eventRecordWrite : Wf.Statement .eventRecordWrite := fun _ => rfl
theorem Wf.cfSlot {x0} : Wf.Statement (.cfSlot x0) := fun _ => rfl
theorem Wf.tripReadback {x0} : Wf.Statement (.tripReadback x0) := fun _ => rfl
theorem Wf.mintripExpiry {x0} : Wf.Statement (.mintripExpiry x0) := fun _ => rfl
theorem Wf.momentarySourceExpiry {x0} {x1} : Wf.Statement (.momentarySourceExpiry x0 x1) := fun _ => rfl
theorem Wf.pinChangeAccepted {x0} {x1} {x2} {x3} : Wf.Statement (.pinChangeAccepted x0 x1 x2 x3) := fun _ => rfl
theorem Wf.missingPulse {x0} : Wf.Statement (.missingPulse x0) := fun _ => rfl
theorem Wf.proofWriteStart : Wf.Statement .proofWriteStart := fun _ => rfl
theorem Wf.proofWriteDone : Wf.Statement .proofWriteDone := fun _ => rfl
theorem Wf.proofReadbackDone {x0} : Wf.Statement (.proofReadbackDone x0) := fun _ => rfl
theorem Wf.sealN {x0} : Wf.Statement (.sealN x0) := fun _ => rfl
theorem Wf.journalWrite : Wf.Statement .journalWrite := fun _ => rfl
theorem Wf.snapshotCopy : Wf.Statement .snapshotCopy := fun _ => rfl
theorem Wf.ledgerRecordWrite : Wf.Statement .ledgerRecordWrite := fun _ => rfl
theorem Wf.completionWrite : Wf.Statement .completionWrite := fun _ => rfl
theorem Wf.interruptModerationTimeout {x0} : Wf.Statement (.interruptModerationTimeout x0) := fun _ => rfl
theorem Wf.calWindowEnd {x0} : Wf.Statement (.calWindowEnd x0) := fun _ => rfl
theorem Wf.fcvCalDone {x0} {x1} {x2} : Wf.Statement (.fcvCalDone x0 x1 x2) := fun _ => rfl
theorem Wf.sequenceRun {x0} : Wf.Statement (.sequenceRun x0) := fun _ => rfl
theorem Wf.sequenceRunEnd {x0} : Wf.Statement (.sequenceRunEnd x0) := fun _ => rfl
theorem Wf.carrierDetection {x0} {x1} : Wf.Statement (.carrierDetection x0 x1) := fun _ => rfl
theorem Wf.scheduledReceive : Wf.Statement .scheduledReceive := fun _ => rfl
theorem Wf.receptionRelease : Wf.Statement .receptionRelease := fun _ => rfl
theorem Wf.transmissionReceived {x0} : Wf.Statement (.transmissionReceived x0) := fun _ => rfl
theorem Wf.beacon {x0} : Wf.Statement (.beacon x0) := fun _ => rfl
theorem Wf.sack {x0} : Wf.Statement (.sack x0) := fun _ => rfl
theorem Wf.sounding {x0} {x1} : Wf.Statement (.sounding x0 x1) := fun _ => rfl
theorem Wf.toneMapReport {x0} : Wf.Statement (.toneMapReport x0) := fun _ => rfl
theorem Wf.associationRequest {x0} : Wf.Statement (.associationRequest x0) := fun _ => rfl
theorem Wf.associationResponse {x0} : Wf.Statement (.associationResponse x0) := fun _ => rfl
theorem Wf.routeSetFrame {x0} : Wf.Statement (.routeSetFrame x0) := fun _ => rfl
theorem Wf.macFrameComplete : Wf.Statement .macFrameComplete := fun _ => rfl
theorem Wf.plcRxRecordWrite : Wf.Statement .plcRxRecordWrite := fun _ => rfl
theorem Wf.beaconPeriodStart : Wf.Statement .beaconPeriodStart := fun _ => rfl
theorem Wf.transmissionStart {x0} : Wf.Statement (.transmissionStart x0) := fun _ => rfl
theorem Wf.transmissionEnd {x0} {x1} : Wf.Statement (.transmissionEnd x0 x1) := fun _ => rfl
theorem Wf.sackTransmit : Wf.Statement .sackTransmit := fun _ => rfl
theorem Wf.backoffExpiry : Wf.Statement .backoffExpiry := fun _ => rfl
theorem Wf.sackTimeout : Wf.Statement .sackTimeout := fun _ => rfl
theorem Wf.beaconMissed : Wf.Statement .beaconMissed := fun _ => rfl
theorem Wf.nodeLost {x0} : Wf.Statement (.nodeLost x0) := fun _ => rfl
theorem Wf.negotiationStepTimeout {x0} : Wf.Statement (.negotiationStepTimeout x0) := fun _ => rfl
theorem Wf.refreshInterval {x0} : Wf.Statement (.refreshInterval x0) := fun _ => rfl
theorem Wf.lineDriverOvertemp : Wf.Statement .lineDriverOvertemp := fun _ => rfl
theorem Wf.lineDriverCooled : Wf.Statement .lineDriverCooled := fun _ => rfl
theorem Wf.directoryWriteback : Wf.Statement .directoryWriteback := fun _ => rfl
theorem Wf.directoryLookupMiss {x0} {x1} : Wf.Statement (.directoryLookupMiss x0 x1) := fun _ => rfl
theorem Wf.powerFail {x0} : Wf.Statement (.powerFail x0) := fun _ => rfl
theorem Wf.emergencyProofComplete : Wf.Statement .emergencyProofComplete := fun _ => rfl
theorem Wf.powerFailRecovery : Wf.Statement .powerFailRecovery := fun _ => rfl
theorem Wf.supplyMonitorCrossing {x0} {x1} : Wf.Statement (.supplyMonitorCrossing x0 x1) := fun _ => rfl
theorem Wf.overvoltageRepeat {x0} : Wf.Statement (.overvoltageRepeat x0) := fun _ => rfl
theorem Wf.vbkupLow {x0} : Wf.Statement (.vbkupLow x0) := fun _ => rfl
theorem Wf.powerOn : Wf.Statement .powerOn := fun _ => rfl
theorem Wf.vddcVddaReset : Wf.Statement .vddcVddaReset := fun _ => rfl
theorem Wf.resetN : Wf.Statement .resetN := fun _ => rfl
theorem Wf.backupDomainReset {x0} : Wf.Statement (.backupDomainReset x0) := fun _ => rfl
theorem Wf.trstN : Wf.Statement .trstN := fun _ => rfl
theorem Wf.pePerstN {x0} : Wf.Statement (.pePerstN x0) := fun _ => rfl
theorem Wf.busMasterEnable : Wf.Statement .busMasterEnable := fun _ => rfl
theorem Wf.resetRelease {x0} {x1} : Wf.Statement (.resetRelease x0 x1) := fun _ => rfl
theorem Wf.hfrefSourceSelected {x0} : Wf.Statement (.hfrefSourceSelected x0) := fun _ => rfl
theorem Wf.hfrefGood : Wf.Statement .hfrefGood := fun _ => rfl
theorem Wf.hfrefRetry : Wf.Statement .hfrefRetry := fun _ => rfl
theorem Wf.pllLock : Wf.Statement .pllLock := fun _ => rfl
theorem Wf.memoryInitialised : Wf.Statement .memoryInitialised := fun _ => rfl
theorem Wf.startupDiagnostics {x0} : Wf.Statement (.startupDiagnostics x0) := fun _ => rfl
theorem Wf.restore : Wf.Statement .restore := fun _ => rfl
theorem Wf.autostartImageRead : Wf.Statement .autostartImageRead := fun _ => rfl
theorem Wf.internalSync : Wf.Statement .internalSync := fun _ => rfl
theorem Wf.lfclkCheck {x0} : Wf.Statement (.lfclkCheck x0) := fun _ => rfl
theorem Wf.oscillatorStop : Wf.Statement .oscillatorStop := fun _ => rfl
theorem Wf.pwronLow : Wf.Statement .pwronLow := fun _ => rfl
theorem Wf.offend : Wf.Statement .offend := fun _ => rfl
theorem Wf.void : Wf.Statement .void := fun _ => rfl
theorem Wf.portTrained {x0} : Wf.Statement (.portTrained x0) := fun _ => rfl
theorem Wf.portLoss {x0} {x1} : Wf.Statement (.portLoss x0 x1) := fun _ => rfl
theorem Wf.enumerationFrame {x0} {x1} {x2} : Wf.Statement (.enumerationFrame x0 x1 x2) := fun _ => rfl
theorem Wf.cascadeStart {x0} : Wf.Statement (.cascadeStart x0) := fun _ => rfl
theorem Wf.echoFrame {x0} {x1} : Wf.Statement (.echoFrame x0 x1) := fun _ => rfl
theorem Wf.boundaryMarker {x0} {x1} {x2} {x3} {x4} : Wf.Statement (.boundaryMarker x0 x1 x2 x3 x4) := fun _ => rfl
theorem Wf.resolutionFrame {x0} : Wf.Statement (.resolutionFrame x0) := fun _ => rfl
theorem Wf.cascadeRecordMissing {x0} : Wf.Statement (.cascadeRecordMissing x0) := fun _ => rfl
theorem Wf.mirrorFrame {x0} : Wf.Statement (.mirrorFrame x0) := fun _ => rfl
theorem Wf.mirrorFrameDeadline : Wf.Statement .mirrorFrameDeadline := fun _ => rfl
theorem Wf.takeover {x0} : Wf.Statement (.takeover x0) := fun _ => rfl
theorem Wf.k283 : Wf.Statement .k283 := fun _ => rfl
theorem Wf.kavVector {x0} : Wf.Statement (.kavVector x0) := fun _ => rfl
theorem Wf.clockCheck {x0} {x1} {x2} : Wf.Statement (.clockCheck x0 x1 x2) := fun _ => rfl
theorem Wf.scanPassDone {x0} {x1} {x2} {x3} : Wf.Statement (.scanPassDone x0 x1 x2 x3) := fun _ => rfl
theorem Wf.watchdogExpiry : Wf.Statement .watchdogExpiry := fun _ => rfl
theorem Wf.cvuFirstPassDone {x0} : Wf.Statement (.cvuFirstPassDone x0) := fun _ => rfl
theorem Wf.cvuRescanDone {x0} : Wf.Statement (.cvuRescanDone x0) := fun _ => rfl
theorem Wf.associationResponseTimeout : Wf.Statement .associationResponseTimeout := fun _ => rfl
theorem Wf.plcTxDeadlineExpiry {x0} : Wf.Statement (.plcTxDeadlineExpiry x0) := fun _ => rfl
theorem Wf.mirrorSideTimeout : Wf.Statement .mirrorSideTimeout := fun _ => rfl
theorem Wf.fnReinitTzlTimeout {x0} : Wf.Statement (.fnReinitTzlTimeout x0) := fun _ => rfl
theorem Wf.directoryInitDone : Wf.Statement .directoryInitDone := fun _ => rfl
theorem Wf.identityWriteDone : Wf.Statement .identityWriteDone := fun _ => rfl
theorem Wf.cfPulseEdge {x0} : Wf.Statement (.cfPulseEdge x0) := fun _ => rfl
theorem Wf.pcieLinkUp {x0} {x1} : Wf.Statement (.pcieLinkUp x0 x1) := fun _ => rfl
theorem Wf.busMasterDisable {x0} {x1} : Wf.Statement (.busMasterDisable x0 x1) := fun _ => rfl
theorem Wf.domainSwitchComplete : Wf.Statement .domainSwitchComplete := fun _ => rfl
theorem Wf.dmaReadDone {x0} {x1} : Wf.Statement (.dmaReadDone x0 x1) := fun _ => rfl

end Sys2Proof.Laws
end

