-- ==== Sys2Proof/Tests/Slice0.lean ====
section
/-!
SUPPORT. Tests: ill-formed terms that WellFormed refuses, small checks of single steps against the spec's own numbers, and for each
statement with hypotheses a state and operands that meet them, clause by clause.
-/

namespace Sys2Proof.Tests

set_option Elab.async false

open Sys2Proof Sys2Proof.Machine

/-! Ill-formed terms, refused by the check they break -/

/-- A descriptor with a given first slot. -/
def descOf (d0 : BitVec 64) : Desc8 := { d0 := d0, d1 := 0, d2 := 0, d3 := 0, d4 := 0, d5 := 0, d6 := 0, d7 := 0 }

/-- A header for ill-formed host commands. -/
def hdr0 : CmdHdr := { src := .ring 0, tag := 0, dlv := false, deadline := 0 }

/-- An exposure that brings nothing. -/
def quiet : BoundaryIn := { chans := [], pin2 := [], flips := [], ecc := [], dPair := [], partner := none }

/-- A mirror frame that names a point that does not exist. -/
def mirror32 : MirFrame :=
  { bad := 0, expno := 0, ts := 0, handover := false, safe := false, points := [(32, true, [])], releases := [], counts := [], sum36 := 0 }

theorem test_wf_host_command_selectors :
    Instr.wellFormed (.coefLoad hdr0 0x200 0) = false ∧ Instr.wellFormed (.coefLoadCorr hdr0 0x100 0) = false ∧
      Instr.wellFormed (.snapshot hdr0 0 2 0) = false ∧ Instr.wellFormed (.snapshotAuto hdr0 0 1 0) = false ∧
      Instr.wellFormed (.rtcAdjustStep hdr0 1 0 0) = false ∧ Instr.wellFormed (.rtcAdjustSlew hdr0 0 0 0) = false ∧
      Instr.wellFormed (.fnReinit hdr0 6) = false ∧ Instr.wellFormed (.fnReinit hdr0 9) = false ∧
      Instr.wellFormed (.commandDeadlineExpiry .image) = false := by decide

theorem test_wf_net_descriptors :
    Instr.wellFormed (.dirAdd (descOf 2) (.fault .timeout 0)) = false ∧ Instr.wellFormed (.dirSet (descOf 1) (.fault .timeout 0)) = false ∧
      Instr.wellFormed (.dirRemove (descOf 4)) = false ∧ Instr.wellFormed (.dirRead (descOf 3)) = false ∧
      Instr.wellFormed (.ctxRead (descOf 0)) = false ∧ Instr.wellFormed (.ctxWrite (descOf 0x10) (.fault .timeout 0)) = false ∧
      Instr.wellFormed (.ctxWriteRekey (descOf 0x11) (.fault .timeout 0) (.fault .timeout 0)) = false ∧
      Instr.wellFormed (.ctxFree (descOf 0x13)) = false ∧ Instr.wellFormed (.reneg (descOf 0x12)) = false ∧
      Instr.wellFormed (.routeSet (descOf 0) (.fault .timeout 0)) = false := by decide

theorem test_wf_register_writes :
    Instr.wellFormed (.mbxGo .pcie 2) = false ∧ Instr.wellFormed (.softrst .pcie 1) = false ∧
      Instr.wellFormed (.targetMeter .pcie 0) = false ∧ Instr.wellFormed (.targetRun .pcie 1) = false ∧
      Instr.wellFormed (.targetStandby .pcie 1) = false ∧ Instr.wellFormed (.rtcCtlCommit .pcie 2) = false ∧
      Instr.wellFormed (.rtcCtlStep .pcie 3) = false ∧ Instr.wellFormed (.rtcCtlCapture .pcie 1) = false ∧
      Instr.wellFormed (.almctlArm .pcie 2) = false ∧ Instr.wellFormed (.almctlDisarm .pcie 1) = false ∧
      Instr.wellFormed (.urgentConversion .pcie 1) = false ∧ Instr.wellFormed (.load .pcie 2) = false ∧
      Instr.wellFormed (.csArm .pcie 0) = false ∧ Instr.wellFormed (.csDisarm .pcie 0x40000000) = false ∧
      Instr.wellFormed (.force .pcie 0) = false ∧ Instr.wellFormed (.remoteRead .pcie 0) = false ∧
      Instr.wellFormed (.handover .pcie 0) = false ∧ Instr.wellFormed (.refflip .pcie 0) = false ∧
      Instr.wellFormed (.init .pcie 2) = false ∧ Instr.wellFormed (.rehash .pcie 1) = false ∧
      Instr.wellFormed (.abort .pcie 1) = false := by decide

theorem test_wf_register_accesses :
    Instr.wellFormed (.rtcRamRead .pcie 24 0 32) = false ∧ Instr.wellFormed (.rcRegisterRead .pcie 2 32) = false ∧
      Instr.wellFormed (.lowestWordRead .pcie 1 32) = false ∧ Instr.wellFormed (.ldgFdataRead .pcie 24) = false ∧ Instr.wellFormed (.lowestWordWrite .pcie 3 0) = false ∧
      Instr.wellFormed (.registerWrite .pcie 0 24 0) = false := by decide

theorem test_wf_indexes :
    Instr.wellFormed (.suspend .pcie 4 1) = false ∧ Instr.wellFormed (.tripDisable .pcie 8 0) = false ∧
      Instr.wellFormed (.tripDisable .pcie 7 0x80000000) = false ∧ Instr.wellFormed (.ringEnable .pcie 16 0x80000000) = false ∧
      Instr.wellFormed (.ringDisable .pcie 3 0x80000000) = false ∧ Instr.wellFormed (.calfrcWrite .pcie 12 0) = false ∧
      Instr.wellFormed (.streamLoss 96) = false ∧ Instr.wellFormed (.bracketSwitch 48 0) = false ∧
      Instr.wellFormed (.bracketReturn 48 0) = false ∧ Instr.wellFormed (.zeroCrossing 8 true) = false ∧
      Instr.wellFormed (.frequencyRangeTimeout 8) = false ∧ Instr.wellFormed (.windowWrite 8) = false ∧
      Instr.wellFormed (.halfCycleDecision 8) = false ∧ Instr.wellFormed (.cfSlot 16) = false ∧
      Instr.wellFormed (.mintripExpiry 8) = false ∧ Instr.wellFormed (.pinChangeAccepted 16 true 0 false) = false ∧
      Instr.wellFormed (.missingPulse 16) = false ∧ Instr.wellFormed (.interruptModerationTimeout 16) = false ∧
      Instr.wellFormed (.calWindowEnd 32) = false ∧ Instr.wellFormed (.sequenceRun 4) = false := by decide

theorem test_wf_more_indexes :
    Instr.wellFormed (.negotiationStepTimeout 256) = false ∧ Instr.wellFormed (.refreshInterval 256) = false ∧
      Instr.wellFormed (.cascadeRecordMissing 8) = false ∧ Instr.wellFormed (.cvuFirstPassDone 4) = false ∧
      Instr.wellFormed (.cvuRescanDone 4) = false ∧ Instr.wellFormed (.cfPulseEdge 16) = false ∧
      Instr.wellFormed (.pcieLinkUp 3 1) = false ∧ Instr.wellFormed (.pcieLinkUp 1 4) = false ∧
      Instr.wellFormed (.fcvCalDone 0 [] none) = false ∧ Instr.wellFormed (.startupDiagnostics (some (16, 0))) = false ∧
      Instr.wellFormed (.enumerationFrame 8 8 0) = false ∧ Instr.wellFormed (.enumerationFrame 1 8 4) = false ∧
      Instr.wellFormed (.echoFrame 0 4) = false ∧ Instr.wellFormed (.scanPassDone 55 0 true []) = false ∧
      Instr.wellFormed (.supplyMonitorCrossing (.bank 12 true) true) = false ∧
      Instr.wellFormed (.overvoltageRepeat (.bank 12 true)) = false := by decide

theorem test_wf_exposure_inputs :
    Instr.wellFormed (.exposureBoundary { quiet with chans := [{ ch := 96, stream := [] }] }) = false ∧
      Instr.wellFormed (.syncEdge { quiet with pin2 := [(16, 0)] }) = false ∧
      Instr.wellFormed (.boundaryMarker { quiet with dPair := [(96, 0)] } 0 0) = false ∧
      Instr.wellFormed (.doorbellReadDone (.fault .timeout 0) [] [{ ring := 16, descs := [] }]) = false ∧
      Instr.wellFormed (.resolutionFrame { bad := 0, pos := 8, expno := 0, points := [], events := [], record := none }) = false ∧
      Instr.wellFormed (.mirrorFrame mirror32) = false := by decide

/-! Numbers of the spec -/

/-- The check values over the bytes "123456789" (R363). -/
theorem test_check_values :
    let l : List (BitVec 8) := [0x31, 0x32, 0x33, 0x34, 0x35, 0x36, 0x37, 0x38, 0x39]
    crcOut crc32cDef (crcRun crc32cDef crc32cDef.init l) = 0xE3069283 ∧
      crcOut crc32Def (crcRun crc32Def crc32Def.init l) = 0xCBF43926 ∧
      crcOut crc16Def (crcRun crc16Def crc16Def.init l) = 0x29B1 ∧ crcOut crc8Def (crcRun crc8Def crc8Def.init l) = 0xF4 := by
  decide +kernel

/-- The instant of the worked example of 00_scope.md, 2025-05-08 06:13:20, in seconds from the epoch. -/
theorem test_calendar_seconds : calendarSec 25 5 8 6 13 20 = 800000000 := by decide +kernel

/-- A state for single steps. -/
def idle (l : List Instr) : State := { State.reset with pending := l }

/-- A step on an empty queue lets one HFREF cycle pass (log 3). -/
theorem test_idle_step : step (idle []) = .next { idle [] with exp := { (idle []).exp with now := (idle []).exp.now + 1 } } := rfl

/-- A table word spells no command. -/
theorem test_no_words (n w : Nat) : decodeTableWord n w = none := rfl

/-! Witness states -/

/-- A state with fields set. -/
def setAll (l : List (Fld × Nat)) (s : State) : State := l.foldl (fun s e => s.put e.1 e.2) s

/-- A device at work: every domain on, start-up done, host interface up, the CMD ring running with four descriptors. -/
def up : State :=
  let s := setAll [(PWR_STAT_PDON, 0x3FF), (PWR_STAT_HFOK, 1), (PWR_STAT_LFOK, 1), (GLB_STAT_READY, 1), (HIF_STAT_LINKUP, 1), (HIF_STAT_BME, 1),
    (HIF_RSTAT_RUN 0, 1), (LDG_STAT_SEALED, 0)] State.reset
  let s := s.wr (HIF_RPIDX 0) 4
  { s with pwr := { s.pwr with phase := .done } }

def hr : CmdHdr := { src := .ring 0, tag := 7, dlv := false, deadline := 0 }
def hm : CmdHdr := { src := .mailbox .pcie, tag := 7, dlv := false, deadline := 0 }
def hd : CmdHdr := { src := .ring 0, tag := 7, dlv := true, deadline := 0x1000000 }

def withRtc (f : RtcState → RtcState) (s : State) : State := { s with rtc := f s.rtc }
def withExp (f : ExpState → ExpState) (s : State) : State := { s with exp := f s.exp }
def withLdg (f : LdgState → LdgState) (s : State) : State := { s with ldg := f s.ldg }
def withHif (f : HifState → HifState) (s : State) : State := { s with hif := f s.hif }
def withPrf (f : PrfState → PrfState) (s : State) : State := { s with prf := f s.prf }
def withEvt (f : EvtState → EvtState) (s : State) : State := { s with evt := f s.evt }
def withPlc (f : PlcState → PlcState) (s : State) : State := { s with plc := f s.plc }
def withFcv (f : FcvState → FcvState) (s : State) : State := { s with fcv := f s.fcv }
def withTzl (f : TzlState → TzlState) (s : State) : State := { s with tzl := f s.tzl }
def withSaf (f : SafState → SafState) (s : State) : State := { s with saf := f s.saf }
def withPwr (f : PwrState → PwrState) (s : State) : State := { s with pwr := f s.pwr }
def withTaken (l : List Taken) (s : State) : State := { s with taken := l }
def running (s : State) : State := withExp (fun e => { e with running := true, cur := 5, next := 6, startAt := 0 }) s
def postBuf (r : Nat) (b : BufDesc) (s : State) : State :=
  withHif (fun f => { f with rings := f.rings.modify r (fun a => { a with posted := a.posted ++ [b] }) }) ((s.setFlag (HIF_RSTAT_RUN r) true).wr (HIF_RPIDX r) 4)
def big : BufDesc := { addr := 0x100000, size := 0x10000, cookie := 9 }
def tk (op : BitVec 8) (h : CmdHdr) (w : Wait) : Taken := { op := op, hdr := h, wait := w, muted := false }
/-- Point 0 is a single-phase point with voltage channel 0 and current channel 1. -/
def point0 : State := setAll [(VGDEF_NV 0, 1), (MFE_CH_ROLE 0, 1), (MFE_CH_ROLE 1, 2), (MET_CUR_ICH0 0, 1)] up

/-! Witnesses of ClockRequests, TickEdgeAdvancesTime, SlewAlarmAndTemperature, BackupDomain, ClockHostCommands -/

def rtc1 : State := setAll [(RTC_STEPTICK_STEP, 5)] (up.wr RTC_STEPSEC_LO 0xFFFFFFFF)

def rtc2 : State := setAll [(RTC_STAT_CAPVALID, 1)] up

def rtc3 : State := up |> withRtc (fun r => {r with commit := true}) |> setAll [(RTC_STGFRAC_TICK, 5)]

def rtc4 : State := up |> withRtc (fun r => {r with commit := true, sec := 77, tick := 32767, step := some (3,3)}) |> setAll [(RTC_STGFRAC_TICK, 5), (RTC_STAT_OSF,1)]

def rtc5 : State := up |> withRtc (fun r => {r with commit := true, sec := 77}) |> setAll [(RTC_STGFRAC_FMT, 1), (RTC_STGCAL1_YEAR, 0xFFF)]

def rtc6 : State := up |> withRtc (fun r => {r with step := some (-3, 5), sec := 77, tick := 3}) |> setAll [(RTC_STAT_OSF, 1)]

def rtc7 : State := up |> withRtc (fun r => {r with capture := true, sec := 2^40+77, tick := 3})

def rtc8 : State := up |> withRtc (fun r => {r with tick := 32767})

def rtc9 : State := up |> withRtc (fun r => {r with tick := 32766, acc := 100000000})

def rtc10 : State := up |> withRtc (fun r => {r with tick := 0, acc := -100000000})

def rtc11 : State := up |> withRtc (fun r => {r with tick := 0, acc := -100000001, slewNext := some (5, 1), slewDur := some 1,slew := 3})

def rtc12 : State := up |> withRtc (fun r => {r with slewDur := some 1,slew := 3})

def rtc13 : State := setAll [(RTC_ALMCTL_ARMED,1)] up

def rtc14 : State := setAll [(RTC_ALMCTL_ARMED,1),(PWR_WAKE_ALARM,0),(RTC_PWRCTL_ALMON,0)] (up |> withRtc (fun r => {r with armAge := 1}))

def rtc15 : State := setAll [(RTC_ALMCTL_ARMED,1),(PWR_WAKE_ALARM,0),(RTC_PWRCTL_ALMON,0),(PWR_STAT_PDON,1)] (up |> withRtc (fun r => {r with armAge := 1}))

def rtc16 : State := setAll [(RTC_PER_EN, 1), (RTC_PER_N, 1)] up |> withRtc (fun r => {r with perCount := 127})

def rtc30 : State := up |> withRtc (fun r => {r with sec := secMax, tick := 32767})

def rtc17 : State := setAll [(RTC_TCCFG_TCEN,1)] up

def rtc18 : State := setAll [(RTC_TCCFG_TCEN,0)] up |> withRtc (fun r => {r with tcDue := 7})

def rtc19 : State := setAll [(RTC_TCHG_EN,1)] up

def rtc20 : State := up.wr (RTC_RAM 17) 5

def rtc21 : State := setAll [(RTC_BKCFG_BKMODE,1)] up

def rtc22 : State := up.wr (RTC_RAM 9) 0x12345678

def rtc23 : State := up.wr (RTC_RAM 23) 0x12345678

def rtc24 : State := setAll [(PWR_STAT_LFSUB,1)] up

def rtc25 : State := up |> withRtc (fun r => {r with onBattery := true})

def rtc29 : State := setAll [(RTC_STAT_VBLOW,1)] up |> withRtc (fun r => {r with vbLow := true})

def rtc26 : State := up |> withRtc (fun r => {r with cycle := some 77})

def rtc31 : State := setAll [(RTC_BKCFG_BKMODE, 1)] rtc26

def rtc27 : State := up |> withRtc (fun r => {r with pwronLow := true, supplyFell := true, lowAt := some 5, offtime := 9})

def rtc28 : State := up |> withRtc (fun r => {r with pwronLow := true, lowAt := some 5})

def rtc32 : State := up |> withRtc (fun r => {r with pwronLow := true, lowAt := some 5, offtime := 9})

theorem witness_ClockRequests_1_1_1 :
    (up.pd1On = true) ∧
    (bitAt (BitVec.toNat (1 : BitVec 32)) 0 = true) := by decide +kernel

theorem witness_ClockRequests_1_2_1 :
    (rtc1.pd1On = true) ∧
    (bitAt (BitVec.toNat (4 : BitVec 32)) 2 = true) ∧
    (rtc1.rtc.step = none) := by decide +kernel

theorem witness_ClockRequests_1_3_1 :
    (rtc2.pd1On = true) ∧
    (bitAt (BitVec.toNat (2 : BitVec 32)) 1 = true) ∧
    (rtc2.ready = true) ∧
    (rtc2.pdOn 5 = true) := by decide +kernel

theorem witness_ClockRequests_2_1_1 :
    (rtc3.beforeTick = rtc3.beforeTick) ∧
    (rtc3.beforeTick.lfTicks ≠ 0) ∧
    (rtc3.beforeTick.lfEdge = rtc3.beforeTick.lfEdge) ∧
    (rtc3.commitPending = true) ∧
    (rtc3.stagedTime = some 5) := by decide +kernel

theorem witness_ClockRequests_2_2_1 :
    (rtc5.beforeTick = rtc5.beforeTick) ∧
    (rtc5.beforeTick.lfTicks ≠ 0) ∧
    (rtc5.beforeTick.lfEdge = rtc5.beforeTick.lfEdge) ∧
    (rtc5.commitPending = true) ∧
    (rtc5.stagedTime = none) := by decide +kernel

theorem witness_ClockRequests_2_3_1 :
    (rtc6.beforeTick = rtc6.beforeTick) ∧
    (rtc6.beforeTick.lfTicks ≠ 0) ∧
    (rtc6.beforeTick.lfEdge = rtc6.beforeTick.lfEdge) ∧
    (rtc6.rtc.step = some ((-3 : ℤ), 5)) ∧
    (rtc6.commitPending = false) ∧
    ((0 : ℤ) ≤ ↑rtc6.beforeTick.lfEdge.ticks + (-3 : ℤ) * (32768 : ℤ) + ↑5) ∧
    (↑rtc6.beforeTick.lfEdge.ticks + (-3 : ℤ) * (32768 : ℤ) + ↑5 ≤ ↑secMax * (32768 : ℤ) + (32767 : ℤ)) := by decide +kernel

theorem witness_ClockRequests_2_4_1 :
    (rtc7.beforeTick = rtc7.beforeTick) ∧
    (rtc7.beforeTick.lfTicks ≠ 0) ∧
    (rtc7.beforeTick.lfEdge = rtc7.beforeTick.lfEdge) ∧
    (rtc7.rtc.capture = true) ∧
    (rtc7.pdOn 5 = true) := by decide +kernel

theorem witness_TickEdgeAdvancesTime_all_1 :
    (rtc8.rtc.tick < 32768) ∧
    (rtc8.rtc.sec ≤ secMax) ∧
    (rtc8.commitPending = false) ∧
    (rtc8.rtc.step = none) ∧
    (1 = if (100000000 : ℤ) ≤ rtc8.rtc.acc + rtc8.corrTotal then 2 else if rtc8.rtc.acc + rtc8.corrTotal ≤ (-100000000 : ℤ) then 0 else 1) := by decide +kernel

theorem witness_SlewAlarmAndTemperature_1_1_1 :
    (up.pd1On = true) ∧
    ((signedOf 17 (BitVec.toNat (131071 : BitVec 32) % 2 ^ 17)).natAbs ≤ 50000) := by decide +kernel

theorem witness_SlewAlarmAndTemperature_1_2_1 :
    (up.pd1On = true) ∧
    (50000 < (signedOf 17 (BitVec.toNat (50001 : BitVec 32) % 2 ^ 17)).natAbs) := by decide +kernel

theorem witness_SlewAlarmAndTemperature_1_3_1 :
    (rtc12.beforeTick = rtc12.beforeTick) ∧
    (rtc12.beforeTick.lfTicks ≠ 0) ∧
    (rtc12.beforeTick.slewEnds rtc12.beforeTick.lfTicks = true) := by decide +kernel

theorem witness_SlewAlarmAndTemperature_2_1_1 :
    (up.pd1On = true) ∧
    (bitAt (BitVec.toNat (1 : BitVec 32)) 0 = true) ∧
    (bitAt (BitVec.toNat (1 : BitVec 32)) 1 = false) := by decide +kernel

theorem witness_SlewAlarmAndTemperature_2_2_1 :
    (rtc13.pd1On = true) ∧
    (bitAt (BitVec.toNat (3 : BitVec 32)) 1 = true) := by decide +kernel

theorem witness_SlewAlarmAndTemperature_2_3_1_1 :
    (rtc14.beforeTick = rtc14.beforeTick) ∧
    (rtc14.beforeTick.lfTicks ≠ 0) ∧
    (rtc14.beforeTick.edgeTime = rtc14.beforeTick.edgeTime) ∧
    (rtc14.flag RTC_ALMCTL_ARMED = true) ∧
    (rtc14.beforeTick.edgeTime.alarmTicks ≤ rtc14.beforeTick.edgeTime.ticks) := by decide +kernel

theorem witness_SlewAlarmAndTemperature_2_3_2_1 :
    (rtc16.beforeTick = rtc16.beforeTick) ∧
    (rtc16.beforeTick.lfTicks ≠ 0) ∧
    (rtc16.beforeTick.edgeTime = rtc16.beforeTick.edgeTime) ∧
    (rtc16.beforeTick.edgeTime.rtc.perDue = true) := by decide +kernel

theorem witness_SlewAlarmAndTemperature_3_1_1 :
    (rtc17.flag RTC_TCCFG_TCEN = true) ∧
    (rtc17.rtc.tcDue = 0) := by decide +kernel

theorem witness_SlewAlarmAndTemperature_3_2_1 :
    (rtc18.writable (WriteBy.port Port.pcie) RTC_TCCFG = true) ∧
    (rtc18.flag RTC_TCCFG_TCEN = false) ∧
    (fieldOf (4294967295 : BitVec 32) RTC_TCCFG_TCEN = 1) := by decide +kernel

theorem witness_BackupDomain_1_1_1 :
    (up.writable (WriteBy.port Port.pcie) RTC_TCHG = true) ∧
    (BitVec.toNat (2768240641 : BitVec 32) / 2 ^ 24 = 165) ∧
    (fieldOf (2768240641 : BitVec 32) RTC_TCHG_EN = 1) := by decide +kernel

theorem witness_BackupDomain_1_2_1 :
    (rtc19.writable (WriteBy.port Port.pcie) RTC_TCHG = true) ∧
    (BitVec.toNat (2751463425 : BitVec 32) / 2 ^ 24 ≠ 165) := by decide +kernel

theorem witness_BackupDomain_2_1_1 :
    (rtc20.writable (WriteBy.port Port.pcie) RTC_BKCFG = true) ∧
    (rtc20.flag RTC_PWRCTL_CYC = false) ∧
    (fieldOf (1 : BitVec 32) RTC_BKCFG_BKMODE ≠ rtc20.get RTC_BKCFG_BKMODE) := by decide +kernel

theorem witness_BackupDomain_2_2_1 :
    (9 < 24) ∧
    (rtc22.pd1On = true) ∧
    (rtc22.rtc.badParity = []) := by decide +kernel

theorem witness_BackupDomain_2_3_1 :
    (23 < 24) ∧
    (rtc23.pd1On = true) ∧
    (16 ≠ 32) := by decide +kernel

theorem witness_BackupDomain_3_2_1 :
    (up.rtc.vbLow = false) ∧
    (up.rtc.onBattery = false) := by decide +kernel

theorem witness_BackupDomain_3_4_1 :
    (rtc25.rtc.vbLow = false) ∧
    (rtc25.rtc.onBattery = true) := by decide +kernel

theorem witness_BackupDomain_3_3_1 :
    (rtc29.rtc.vbLow = true) ∧
    (rtc29.flag RTC_STAT_VBLOW = true) := by decide +kernel

theorem witness_BackupDomain_4_1_1 :
    (rtc26.rtc.cycle = some (77 : BitVec 24)) ∧
    (rtc26.reach (rtc26.rtc.cycleAt + msCycles 1) = rtc26.reach (rtc26.rtc.cycleAt + msCycles 1)) := by decide +kernel

theorem witness_BackupDomain_4_2_1 :
    (rtc27.rtc.lowAt.isSome = true) ∧
    (rtc27.offendDue = true) ∧
    (rtc27.rtc.supplyFell = true) ∧
    (rtc27.rtc.pwronLow = true) := by decide +kernel

theorem witness_BackupDomain_4_3_1 :
    (rtc28.rtc.lowAt = some 5) ∧
    (rtc28.rtc.supplyFell = false) ∧
    (rtc28.rtc.offtime = (0 : BitVec 24) ∧ rtc28.reach (5 + msCycles 1000) = rtc28.reach (5 + msCycles 1000) ∧ Instr.void = Instr.void ∨ rtc28.rtc.offtime ≠ (0 : BitVec 24) ∧ rtc28.offendDue = true ∧ rtc28.reach (5 + msCycles 1000) = rtc28 ∧ (Instr.void = Instr.void ∨ Instr.void = Instr.offend)) := by decide +kernel

theorem witness_ClockHostCommands_1_1 :
    (up.Accepts hr) ∧
    (up.ready = true) ∧
    (up.pdOn 5 = true) := by unfold State.Accepts; decide +kernel

theorem witness_ClockHostCommands_2_1 :
    (up.Accepts hr) ∧
    (up.commitPending = false) := by unfold State.Accepts; decide +kernel

theorem witness_ClockHostCommands_3_1 :
    (up.Accepts hm) ∧
    (bitAt (BitVec.toNat (0 : BitVec 64)) 0 = false) ∧
    (up.rtc.step = none) := by unfold State.Accepts; decide +kernel

theorem witness_ClockHostCommands_4_1 :
    (up.Accepts hr) ∧
    ((-50000 : ℤ) = signedOf 17 ((-50000 : BitVec 64).toNat % 2 ^ 17)) ∧
    (bitAt (BitVec.toNat (1 : BitVec 64)) 0 = true) ∧
    ((-50000 : ℤ).natAbs ≤ 50000) := by unfold State.Accepts; decide +kernel

/-! Witnesses of PointCommandsWaitForBoundary, FilterCommandsActOrWait, SyncRequestsWaitForEdge, LedgerCommandsWait, ReleaseMovesWithheldEnergy, LedgerRecordsAreWritten, CalWindowEndWritesItsRecord -/

def ldg1 : State := setAll [(LDG_STAT_SEALED, 1), (FLT_CH_TAPSA 0, 3)] point0

def ldg2 : State := setAll [(FLT_CH_TAPSA 0, 3), (FLT_CH_TAPSB 0, 3)] point0

def ldg3 : State := running (setAll [(FLT_CH_FRUN 0, 1)] ldg2) |> withExp (fun e => { e with eff := ldg2.regs })

def ldg4 : State := setAll [(FLT_CH_FRUN 0, 1)] ldg2

def ldg5 : State := withTaken [tk 0x11 hm (.swap 0)] ldg4

def ldg5b : State := setAll [(FLT_CH_FADING 0, 1)] ldg4

def ldg6 : State := setAll [(FLT_CTL_SYNCPIN, 1)] up

def snap1 : SnapReq := { src := none, mask := 5, latent := false, auto := true, expno := some 4, ts := 77, pinq := [3], frozen := 0, kept := [], up := false }

def ldg7 : State := withLdg (fun l => { l with audit := 7, snaps := [{ src := none, mask := 5, latent := false, auto := true, expno := some 4, ts := 77, pinq := [3], frozen := 0, kept := [], up := false }] }) up

def ldg8 : State := withLdg (fun l => { l with regs := [(1*50+49, 77)] }) up

def rec1 : LedgerRecord := { kind := 1, expno := 2^64+3, ts := 5, flags := 0, mpmask := 1, seq := 0, audit := 0, regs := [], pinq := [] }

def lw1 : LdgWait := { src := none, auto := true, record := rec1 }

def lw2 : LdgWait := { src := some hr.src, auto := false, record := rec1 }

def ldg9 : State := postBuf 3 big (withLdg (fun l => { l with ldgQ := [{ src := none, auto := true, record := rec1 }] }) up)

def ldg10 : State := withTaken [tk 0x21 hr .snapshot] (postBuf 3 big (withLdg (fun l => { l with ldgQ := [{ src := some hr.src, auto := false, record := rec1 }] }) up))

def cal1 : CalWin := { src := .ring 0, point := 0, first := 0, count := 1, addr := 0x40, last := 0, tsFirst := 0, tsLast := 0, nexp := 3, ndisc := 0, naway := 0, ncreep := 0, flags := 4, svv := [], sii := [], svi := [], svq := [], nsamp := [], muMin := [], muMax := [], tot := [], ended := true }

def cal2 : CalWin := { cal1 with src := .mailbox .pcie, addr := 0xFF00000000000040, flags := 0 }

def ldg11 : State := withTaken [tk 0x22 hr (.calWindow 0)] (withLdg (fun l => { l with cals := [cal1] }) up)

def ldg12 : State := withTaken [tk 0x22 hm (.calWindow 0)] (withLdg (fun l => { l with cals := [cal2] }) up)

def ldgLw : State := withLdg (fun l => { l with ldgQ := [lw1, lw2] }) up

theorem witness_PointCommandsWaitForBoundary_1_1_1 :
    (up.canTake hr = true) ∧
    (hr.dlv = true → up.passed hr.deadline = false) := by decide +kernel

theorem witness_PointCommandsWaitForBoundary_1_2_1 :
    (point0.Accepts hr) ∧
    (point0.locked hr = false) ∧
    (∀ p < 32, bitAt (BitVec.toNat (1 : BitVec 64)) p = true → point0.pointOk p = true) := by unfold State.Accepts; decide +kernel

theorem witness_PointCommandsWaitForBoundary_1_3_1 :
    (up.Accepts hm) ∧
    (up.locked hm = false) := by unfold State.Accepts; decide +kernel

theorem witness_PointCommandsWaitForBoundary_2_1 :
    (point0.Accepts hr) ∧
    (point0.locked hr = false) ∧
    (∃ p < 32, bitAt (BitVec.toNat (3 : BitVec 64)) p = true ∧ point0.pointOk p = false) := by unfold State.Accepts; decide +kernel

theorem witness_PointCommandsWaitForBoundary_3_1_1 :
    (ldg1.Accepts hr) ∧
    (ldg1.locked hr = true) := by unfold State.Accepts; decide +kernel

theorem witness_PointCommandsWaitForBoundary_3_2_1 :
    (ldg1.Accepts hr) ∧
    (ldg1.locked hr = true) := by unfold State.Accepts; decide +kernel

theorem witness_PointCommandsWaitForBoundary_3_3_1_1 :
    (ldg1.Accepts hr) ∧
    (ldg1.locked hr = true) ∧
    (ldg1.filterChan (BitVec.toNat (0 : BitVec 64) % 2 ^ 7) = true) := by unfold State.Accepts; decide +kernel

theorem witness_PointCommandsWaitForBoundary_3_3_2_1 :
    (ldg1.Accepts hr) ∧
    (ldg1.locked hr = true) ∧
    (ldg1.filterChan (BitVec.toNat (0 : BitVec 64) % 2 ^ 7) = true) := by unfold State.Accepts; decide +kernel

theorem witness_PointCommandsWaitForBoundary_3_3_3_1 :
    (ldg1.Accepts hr) ∧
    (ldg1.locked hr = true) ∧
    (ldg1.filterChan (BitVec.toNat (0 : BitVec 64) % 2 ^ 7) = true) ∧
    (ldg1.taps (BitVec.toNat (0 : BitVec 64) % 2 ^ 7) (ldg1.actBank (BitVec.toNat (0 : BitVec 64) % 2 ^ 7)) ≠ 0) := by unfold State.Accepts; decide +kernel

theorem witness_FilterCommandsActOrWait_1_1_1_1 :
    (ldg2.Accepts hr) ∧
    (ldg2.locked hr = false) ∧
    (0 = BitVec.toNat (65536 : BitVec 64) % 2 ^ 7) ∧
    (ldg2.filterChan 0 = true) ∧
    (ldg2.Sizes) ∧
    (0 = BitVec.toNat (65536 : BitVec 64) / 2 ^ 8 % 4) ∧
    (0 ≤ 1) ∧
    (1 = BitVec.toNat (65536 : BitVec 64) / 2 ^ 16 % 2 ^ 7) ∧
    (1 ≤ 1) ∧
    (1 ≤ 64) ∧
    (BitVec.toNat (4096 : BitVec 64) % 8 = 0) ∧
    (ldg2.loadJudge 0 0 = none) ∧
    (windowOffset hr (BitVec.toNat (4096 : BitVec 64)) = none) ∧
    (ldg2.dmaOn = true) := by unfold State.Accepts State.Sizes; decide +kernel

theorem witness_FilterCommandsActOrWait_1_1_2_1 :
    (ldg2.Accepts hm) ∧
    (ldg2.locked hm = false) ∧
    (0 = BitVec.toNat (4194560 : BitVec 64) % 2 ^ 7) ∧
    (ldg2.filterChan 0 = true) ∧
    (ldg2.Sizes) ∧
    (1 = BitVec.toNat (4194560 : BitVec 64) / 2 ^ 8 % 4) ∧
    (1 ≤ 1) ∧
    (64 = BitVec.toNat (4194560 : BitVec 64) / 2 ^ 16 % 2 ^ 7) ∧
    (1 ≤ 64) ∧
    (64 ≤ 64) ∧
    (BitVec.toNat (18374686479671623680 : BitVec 64) % 8 = 0) ∧
    (ldg2.loadJudge 0 1 = none) ∧
    (windowOffset hm (BitVec.toNat (18374686479671623680 : BitVec 64)) = some 0) ∧
    (0 + 8 * 64 ≤ 2048) ∧
    (hm.dlv = true → ldg2.lateFor hm.deadline = false) ∧
    (∀ x ∈ ldg2.taken, x.hdr ≠ hm) := by unfold State.Accepts State.Sizes; decide +kernel

theorem witness_FilterCommandsActOrWait_1_2_1 :
    (ldg2.Accepts hr) ∧
    (ldg2.locked hr = false) ∧
    (0 = BitVec.toNat (512 : BitVec 64) % 2 ^ 7) ∧
    (ldg2.filterChan 0 = true) ∧
    (ldg2.Sizes) ∧
    (BitVec.toNat (512 : BitVec 64) / 2 ^ 8 % 4 = 2) ∧
    (BitVec.toNat (4096 : BitVec 64) % 8 = 0) ∧
    (windowOffset hr (BitVec.toNat (4096 : BitVec 64)) = none) ∧
    (ldg2.dmaOn = true) := by unfold State.Accepts State.Sizes; decide +kernel

theorem witness_FilterCommandsActOrWait_1_3_1_1 :
    (ldg3.Accepts hr) ∧
    (ldg3.locked hr = false) ∧
    (0 = BitVec.toNat (0 : BitVec 64) % 2 ^ 7) ∧
    (ldg3.filterChan 0 = true) ∧
    (ldg3.Sizes) ∧
    (ldg3.flag (FLT_CH_FADING 0) = false) ∧
    (ldg3.swapPending 0 = false) ∧
    (ldg3.taps 0 (1 - ldg3.actBank 0) ≠ 0) ∧
    (ldg3.flag (FLT_CH_FRUN 0) = true) := by unfold State.Accepts State.Sizes; decide +kernel

theorem witness_FilterCommandsActOrWait_1_3_2_1 :
    (ldg2.Accepts hr) ∧
    (ldg2.locked hr = false) ∧
    (0 = BitVec.toNat (0 : BitVec 64) % 2 ^ 7) ∧
    (ldg2.filterChan 0 = true) ∧
    (ldg2.Sizes) ∧
    (ldg2.flag (FLT_CH_FADING 0) = false) ∧
    (ldg2.swapPending 0 = false) ∧
    (ldg2.taps 0 (1 - ldg2.actBank 0) ≠ 0) ∧
    (ldg2.flag (FLT_CH_FRUN 0) = false) := by unfold State.Accepts State.Sizes; decide +kernel

theorem witness_FilterCommandsActOrWait_1_4_1_1 :
    (ldg3.Accepts hr) ∧
    (ldg3.locked hr = false) ∧
    (0 = BitVec.toNat (0 : BitVec 64) % 2 ^ 7) ∧
    (ldg3.filterChan 0 = true) ∧
    (ldg3.Sizes) ∧
    (ldg3.taps 0 (ldg3.actBank 0) ≠ 0) ∧
    (ldg3.exp.running = true) := by unfold State.Accepts State.Sizes; decide +kernel

theorem witness_FilterCommandsActOrWait_1_4_2_1 :
    (ldg2.Accepts hr) ∧
    (ldg2.locked hr = false) ∧
    (0 = BitVec.toNat (0 : BitVec 64) % 2 ^ 7) ∧
    (ldg2.filterChan 0 = true) ∧
    (ldg2.Sizes) ∧
    (ldg2.taps 0 (ldg2.actBank 0) ≠ 0) ∧
    (ldg2.exp.running = false) ∧
    (ldg2.flag (FLT_CH_FRUN 0) = false) := by unfold State.Accepts State.Sizes; decide +kernel

theorem witness_FilterCommandsActOrWait_1_5_1 :
    (ldg3.Accepts hr) ∧
    (ldg3.locked hr = false) ∧
    (0 = BitVec.toNat (0 : BitVec 64) % 2 ^ 7) ∧
    (ldg3.filterChan 0 = true) ∧
    (ldg3.Sizes) ∧
    (ldg3.exp.running = true) := by unfold State.Accepts State.Sizes; decide +kernel

theorem witness_FilterCommandsActOrWait_1_6_1 :
    (ldg4.Accepts hr) ∧
    (ldg4.locked hr = false) ∧
    (0 = BitVec.toNat (0 : BitVec 64) % 2 ^ 7) ∧
    (ldg4.filterChan 0 = true) ∧
    (ldg4.Sizes) ∧
    (ldg4.exp.running = false) ∧
    (ldg4.swapPending 0 = false) := by unfold State.Accepts State.Sizes; decide +kernel

theorem witness_FilterCommandsActOrWait_2_1_1 :
    (ldg5.Accepts hr) ∧
    (0 = BitVec.toNat (0 : BitVec 64) % 2 ^ 7) ∧
    (ldg5.filterChan 0 = true) ∧
    (0 = BitVec.toNat (0 : BitVec 64) / 2 ^ 8 % 4) ∧
    (0 ≤ 1) ∧
    (ldg5.locked hr = false) ∧
    (ldg5.flag (FLT_CH_FADING 0) = true ∨ ldg5.swapPending 0 = true) := by unfold State.Accepts; decide +kernel

theorem witness_FilterCommandsActOrWait_2_2_1_1 :
    (ldg5b.Accepts hr) ∧
    (0 = BitVec.toNat (65792 : BitVec 64) % 2 ^ 7) ∧
    (ldg5b.filterChan 0 = true) ∧
    (1 = BitVec.toNat (65792 : BitVec 64) / 2 ^ 8 % 4) ∧
    (1 ≤ 1) ∧
    (1 ≤ BitVec.toNat (65792 : BitVec 64) / 2 ^ 16 % 2 ^ 7) ∧
    (BitVec.toNat (65792 : BitVec 64) / 2 ^ 16 % 2 ^ 7 ≤ 64) ∧
    (BitVec.toNat (4096 : BitVec 64) % 8 = 0) ∧
    (windowBad hr (BitVec.toNat (4096 : BitVec 64)) (8 * (BitVec.toNat (65792 : BitVec 64) / 2 ^ 16 % 2 ^ 7)) = false) ∧
    (ldg5b.locked hr = false) ∧
    (ldg5b.flag (FLT_CH_FRUN 0) = true) ∧
    (ldg5b.flag (FLT_CH_FADING 0) = true) ∧
    (1 ≠ ldg5b.actBank 0) := by unfold State.Accepts; decide +kernel

theorem witness_FilterCommandsActOrWait_2_2_2_1 :
    (ldg5b.Accepts hr) ∧
    (0 = BitVec.toNat (4194304 : BitVec 64) % 2 ^ 7) ∧
    (ldg5b.filterChan 0 = true) ∧
    (0 = BitVec.toNat (4194304 : BitVec 64) / 2 ^ 8 % 4) ∧
    (0 ≤ 1) ∧
    (1 ≤ BitVec.toNat (4194304 : BitVec 64) / 2 ^ 16 % 2 ^ 7) ∧
    (BitVec.toNat (4194304 : BitVec 64) / 2 ^ 16 % 2 ^ 7 ≤ 64) ∧
    (BitVec.toNat (4096 : BitVec 64) % 8 = 0) ∧
    (windowBad hr (BitVec.toNat (4096 : BitVec 64)) (8 * (BitVec.toNat (4194304 : BitVec 64) / 2 ^ 16 % 2 ^ 7)) = false) ∧
    (ldg5b.locked hr = true ∨ ldg5b.flag (FLT_CH_FRUN 0) = true ∧ (0 = ldg5b.actBank 0 ∨ ldg5b.flag (FLT_CH_FADING 0) = false ∧ ldg5b.swapPending 0 = true)) := by unfold State.Accepts; decide +kernel

theorem witness_FilterCommandsActOrWait_2_3_1 :
    (ldg1.Accepts hr) ∧
    (0 = BitVec.toNat (0 : BitVec 64) % 2 ^ 7) ∧
    (ldg1.filterChan 0 = true) ∧
    (0 = BitVec.toNat (0 : BitVec 64) / 2 ^ 8 % 4) ∧
    (0 ≤ 1) ∧
    (ldg1.locked hr = true) := by unfold State.Accepts; decide +kernel

theorem witness_SyncRequestsWaitForEdge_1_1 :
    (up.flag PWR_STAT_ASBUSY = false) ∧
    (up.tzSlave = false) ∧
    (up.follows = false) ∧
    (up.pdOn 3 = true) ∧
    (up.exp.syncAt = none) ∧
    (up.Accepts hr) := by unfold State.Accepts; decide +kernel

theorem witness_SyncRequestsWaitForEdge_2_1 :
    (ldg6.flag PWR_STAT_ASBUSY = false) ∧
    (ldg6.tzSlave = false) ∧
    (ldg6.follows = false) ∧
    (ldg6.pdOn 3 = true) ∧
    (ldg6.exp.syncAt = none) ∧
    (ldg6.ready = true) ∧
    (ldg6.flag FLT_CTL_SYNCPIN = true) := by decide +kernel

theorem witness_LedgerCommandsWait_1_1 :
    (up.Accepts hr) ∧
    (bitAt (BitVec.toNat (0 : BitVec 64)) 1 = false) ∧
    (BitVec.truncate 32 (1 : BitVec 64) ≠ (0 : BitVec 32)) ∧
    (up.asBusyFor hr = false) := by unfold State.Accepts; decide +kernel

theorem witness_LedgerCommandsWait_2_1_1 :
    (up.Accepts hr) ∧
    (bitAt (BitVec.toNat (2 : BitVec 64)) 1 = true) ∧
    (bitAt (BitVec.toNat (2 : BitVec 64)) 0 = false) ∧
    (up.asBusyFor hr = false) ∧
    (BitVec.toNat (0 : BitVec 64) % 2 ^ 19 = 0) := by unfold State.Accepts; decide +kernel

theorem witness_LedgerCommandsWait_2_2_1 :
    (up.Accepts hm) ∧
    (bitAt (BitVec.toNat (2 : BitVec 64)) 1 = true) ∧
    (bitAt (BitVec.toNat (2 : BitVec 64)) 0 = false) ∧
    (up.asBusyFor hm = false) ∧
    (1 ≤ BitVec.toNat (500000 : BitVec 64) % 2 ^ 19) ∧
    (BitVec.toNat (500000 : BitVec 64) % 2 ^ 19 ≤ 500000) ∧
    (BitVec.truncate 32 (2147483648 : BitVec 64) ≠ (0 : BitVec 32)) := by unfold State.Accepts; decide +kernel

theorem witness_LedgerCommandsWait_3_1 :
    (0 = BitVec.toNat (65536 : BitVec 64) % 32) ∧
    (point0.Accepts hm) ∧
    (point0.pointOk 0 = true) ∧
    (BitVec.toNat (65536 : BitVec 64) / 2 ^ 16 % 2 ^ 16 ≠ 0) ∧
    (bitAt (BitVec.toNat (65536 : BitVec 64)) 8 = true ∨ (if point0.exp.running = true then point0.exp.cur.toNat + 1 else point0.exp.next.toNat) ≤ (BitVec.toNat (7 : BitVec 64) + 2 ^ 64 * BitVec.toNat (0 : BitVec 64)) % 2 ^ 72) ∧
    (BitVec.toNat (64 : BitVec 64) % 64 = 0) ∧
    (windowBad hm (BitVec.toNat (64 : BitVec 64)) 576 = false) ∧
    (∀ w ∈ point0.ldg.cals, w.point ≠ 0) ∧
    (point0.ldg.cals.length < 4) := by unfold State.Accepts; decide +kernel

theorem witness_LedgerCommandsWait_4_1 :
    ((running up).Accepts hr) ∧
    ((running up).exp.running = true) ∧
    ((1 : BitVec 10) = BitVec.ofNat 10 (BitVec.toNat (65543 : BitVec 64) / 2 ^ 16)) ∧
    ((5 : BitVec 108) = BitVec.ofNat 108 (BitVec.toNat (5 : BitVec 64) + 2 ^ 64 * BitVec.toNat (0 : BitVec 64))) ∧
    ((1 : BitVec 10) ≠ (0 : BitVec 10)) ∧
    ((5 : BitVec 108) = (0 : BitVec 108) ∨ (bitsOf 10 (BitVec.toNat (1 : BitVec 10))).length = 1) := by unfold State.Accepts; decide +kernel

theorem witness_LedgerCommandsWait_5_1 :
    (ldg7.ldg.snaps = [snap1]) ∧
    (snap1.expno = some (4 : BitVec 72)) ∧
    (snap1.up = false) ∧
    (ldg7.snapReady snap1 (4 : BitVec 72) = true) := by decide +kernel

theorem witness_ReleaseMovesWithheldEnergy_all_1 :
    (ldg8.Accepts hr) ∧
    (ldg8.exp.running = false) ∧
    (ldg8.exp.pipe = []) ∧
    (hr.dlv = true → ldg8.lateFor hr.deadline = false) ∧
    (∀ x ∈ ldg8.taken, x.hdr ≠ hr) ∧
    (1 = BitVec.toNat (33554433 : BitVec 64) % 32) ∧
    (9 < 10) ∧
    (BitVec.toNat (33554433 : BitVec 64) / 2 ^ 16 % 2 ^ 10 = 2 ^ 9) := by unfold State.Accepts; decide +kernel

theorem witness_LedgerRecordsAreWritten_1_1_1 :
    (ldg9.ldg.ldgQ = [lw1]) ∧
    (ldg9.ringRun 3 = true) ∧
    (ldg9.dmaOn = true) ∧
    ((ldg9.ring 3).posted = [big]) ∧
    (25984 ≤ big.size.toNat) ∧
    (ldg9.tzl.cascade = []) ∧
    (ldg9.slavePositions = []) ∧
    (lw1.src = none) := by decide +kernel

theorem witness_LedgerRecordsAreWritten_1_2_1 :
    (ldg10.ldg.ldgQ = [lw2]) ∧
    (ldg10.ringRun 3 = true) ∧
    (ldg10.dmaOn = true) ∧
    ((ldg10.ring 3).posted = [big]) ∧
    (25984 ≤ big.size.toNat) ∧
    (ldg10.tzl.cascade = []) ∧
    (ldg10.slavePositions = []) ∧
    (lw2.src = some (CmdSrc.ring (0 : BitVec 32))) ∧
    (ldg10.waiting (CmdSrc.ring (0 : BitVec 32)) Wait.snapshot = some (tk (33 : BitVec 8) hr Wait.snapshot)) ∧
    (ldg10.InTime (tk (33 : BitVec 8) hr Wait.snapshot)) := by unfold State.InTime; decide +kernel

theorem witness_LedgerRecordsAreWritten_2_1 :
    ((ldgLw.ring 3).posted = []) ∧
    (ldgLw.tzl.cascade = []) := by decide +kernel

theorem witness_CalWindowEndWritesItsRecord_all_1 :
    (ldg11.ldg.cals = [cal1]) ∧
    (cal1.ended = true) ∧
    (ldg11.calTaken cal1 = some (tk (34 : BitVec 8) hr (Wait.calWindow 0))) ∧
    (ldg11.InTime (tk (34 : BitVec 8) hr (Wait.calWindow 0))) ∧
    (windowBad (tk (34 : BitVec 8) hr (Wait.calWindow 0)).hdr cal1.addr.toNat 576 = false) ∧
    (windowOffset (tk (34 : BitVec 8) hr (Wait.calWindow 0)).hdr cal1.addr.toNat = none → ldg11.dmaOn = true) := by unfold State.InTime; decide +kernel

/-! Witnesses of ConverterRuns, ContactSheetsAreTaken, CheckValueScans -/

def fcv1 : State := withTaken [tk 0x40 hr .fcvCal] (withFcv (fun f => { f with cal := some hr.src }) up)

def fcv1r : State := fcv1.reach ((fcv1.fcv.calAt + 1048576) / 25)

def run0 : SeqRun := { s := 0, cmd := none, started := false, tsFirst := 0, seq := 0, nslot := 0, idx := 0 }

def run1 : SeqRun := { run0 with started := true, nslot := 2 }

def run1z : SeqRun := { run1 with idx := 1 }

def run3 : SeqRun := { s := 3, cmd := some (.ring 0, 0x40), started := true, tsFirst := 9, seq := 3, nslot := 2, idx := 0 }

def run3z : SeqRun := { run3 with idx := 1 }

def run3m : SeqRun := { run3 with cmd := some (.mailbox .pcie, 0xFF00000000000740), nslot := 16, idx := 15 }

def fcv2 : State := withFcv (fun f => { f with due := [run0, run3] }) up

def slotA : SlotRun := { avg := 0, skip := true, pga := 0, sub := 0, input := 0, drop := 0, acc := ConvSum.zero }

def slotB : SlotRun := { slotA with avg := 1, skip := false, drop := 0 }

def onRun (r : SeqRun) (q : SlotRun) : State := withFcv (fun f => { f with run := some r, slot := some q }) up

def after (s : State) : State := s.reach ((s.fcv.next + 11) / 25)

def tagOf (s : State) (q : SlotRun) (v : Conv) : Tagged := (s.convert q.input q.sub q.pga v).2

def slotC : SlotRun := { slotA with skip := false }

def wordOf (s : State) (q : SlotRun) (v : Conv) : BitVec 32 := SlotRun.word { q with acc := q.acc.add (tagOf s q v) }

def fcv4 : State := withTaken [tk 0x41 hr .fcvSeq] (onRun run3z slotC)

def fcv5 : State := withTaken [tk 0x41 hm .fcvSeq] (onRun run3m slotC)

def fcv6 : State := withFcv (fun f => { f with urgent := true, slot := some slotC }) (setAll [(FCV_URG_GO, 1)] up)

def fcv7 : State := setAll [(FCV_CALCTL_LOAD, 1), (FCV_STAT_UNCAL, 1)] up

def smp (w : BitVec 16) : CsSample := { word := w, uncal := false, ts := 0, fine := 0, at_ := 0, gap := false }

def fcv8 : State := withFcv (fun f => { f with cs := .armed, ring := [smp 0], mux := some (0, 0, 0) }) (setAll [(FCV_CSCTL_ARM, 1), (FCV_STAT_ARMED, 1), (FCV_CSLVL_LEN, 1), (FCV_CSLVL_LEVEL, 50), (FCV_CSCTL_INPUT, 0), (FCV_CSCTL_SUB, 0), (FCV_CSCTL_PGA, 0), (FCV_CSCTL_DEC, 0)] up)

def csTag (s : State) (c : Conv) : Tagged := (s.convert (s.get FCV_CSCTL_INPUT) (s.get FCV_CSCTL_SUB) (s.get FCV_CSCTL_PGA) c).2

def csSum (s : State) (c : Conv) : ConvSum := (s.fcv.part.getD ConvSum.zero).add (csTag s c)

def fcv12 : State := setAll [(FCV_CSTRG_SEN 2, 1), (FCV_CSTRG_CODE 2, 0x0101), (FCV_CSTRG_ANYIDX 2, 1)] (withExp (fun e => { e with chans := e.chans.modify 3 (fun c => { c with started := true }) }) fcv8)

def trg1 : CsTrig := { seq := 3, expno := 4, ts := 5, code := 0x301, index := 0, source := 0, evseq := 9, delayed := false, at_ := 0, pre := 65535 }

def trg2 : CsTrig := { trg1 with pre := 2 }

def postAt (g : CsTrig) : State := withFcv (fun f => { f with cs := .post, trig := some g, ring := [smp 4, smp 8, smp 12] }) up

def fcv10 : State := postBuf 11 big (withFcv (fun f => { f with cs := .held, trig := some trg2, ring := [smp 4, smp 8, smp 12], post := [smp 16, smp 20] }) (setAll [(FCV_CSCTL_ARM, 1)] up))

def fcv11 : State := setAll [(FCV_CSCTL_AUTO, 1)] fcv10

def arg1 : ScanArgs := { alg := 0, space := 1, region := 0, start := 0, len := 64, refIdx := none, part := false, cont := none }

def scn (a : ScanArgs) (first : Option (Nat × BitVec 36)) : Scan := { src := .ring 0, args := a, data := none, first := first, ref := 5, refCor := true, waiting := false }

def cvuAt (u : Nat) (x : Scan) : State := withTaken [tk 0x50 hr (.cvu u)] ({ setAll [(SAF_CTL_EN, 0)] up with cvu := { up.cvu with scans := up.cvu.scans.set u (some x) } })

def scnw : Scan := { scn arg1 none with waiting := true }

def cvu1 : State := cvuAt 3 (scn arg1 none)

def val1 : BitVec 36 := (cvu1.cvuPass 3 arg1 []).2

def arg2 : ScanArgs := { arg1 with refIdx := some 9 }

def cvu2 (x : RefEntry) : State := let s := cvuAt 0 (scn arg2 none); { s with cvu := { s.cvu with refs := s.cvu.refs.set 9 x } }

def cvu3 : State := cvuAt 1 (scn arg1 (some (64, val1)))

def cvu4 : State := cvuAt 1 (scn arg1 (some (64, val1 + 1)))

def ref1 : State := setAll [(CVU_REFSEL_IDX, 63), (SAF_CTL_EN, 0)] (withHif (fun f => { f with stagePcie := [(CVU_REFDATA_HI, 0xFFFFFFFF)] }) up)

def ref2 : State := setAll [(SAF_CTL_EN, 1)] ref1

theorem witness_ConverterRuns_1_1_1 :
    (up.Accepts hr) ∧
    (up.pdOn 6 = true) ∧
    (up.fcv.cal = none) := by unfold State.Accepts; decide +kernel

theorem witness_ConverterRuns_1_2_1_1 :
    (fcv1.fcv.cal = some (CmdSrc.ring (0 : BitVec 32))) ∧
    (fcv1r = fcv1.reach ((fcv1.fcv.calAt + 1048576) / 25)) ∧
    (fcv1.waiting (CmdSrc.ring (0 : BitVec 32)) Wait.fcvCal = some (tk (64 : BitVec 8) hr Wait.fcvCal)) ∧
    (fcv1r.InTime (tk (64 : BitVec 8) hr Wait.fcvCal)) := by unfold State.InTime; decide +kernel

theorem witness_ConverterRuns_1_2_2_1 :
    (fcv1.fcv.cal = some (CmdSrc.ring (0 : BitVec 32))) ∧
    (fcv1r = fcv1.reach ((fcv1.fcv.calAt + 1048576) / 25)) ∧
    (fcv1.waiting (CmdSrc.ring (0 : BitVec 32)) Wait.fcvCal = some (tk (64 : BitVec 8) hr Wait.fcvCal)) ∧
    (fcv1r.InTime (tk (64 : BitVec 8) hr Wait.fcvCal)) := by unfold State.InTime; decide +kernel

theorem witness_ConverterRuns_2_1_1 :
    (up.Accepts hr) ∧
    (up.pdOn 6 = true) ∧
    (up.asBusyFor hr = false) ∧
    (BitVec.toNat (3 : BitVec 64) % 256 ≤ 3) ∧
    (BitVec.toNat (64 : BitVec 64) % 64 = 0) ∧
    (windowBad hr (BitVec.toNat (64 : BitVec 64)) 144 = false) := by unfold State.Accepts; decide +kernel

theorem witness_ConverterRuns_2_2_1 :
    (fcv2.fcv.due = [run0, run3]) ∧
    (fcv2.fcv.run = none) ∧
    (fcv2.fcvOwner = 4 ∨ fcv2.fcvOwner = 7) ∧
    (run0.s < 4) := by decide +kernel

theorem witness_ConverterRuns_2_3_1_1 :
    ((onRun run1 slotA).fcv.run = some run1) ∧
    ((onRun run1 slotA).fcvOwner = 3) ∧
    (run1.s < 4) ∧
    ((onRun run1 slotA).fcv.slot = some slotA) ∧
    (tagOf (onRun run1 slotA) slotA (5000000 : Conv) = ((onRun run1 slotA).convert slotA.input slotA.sub slotA.pga (5000000 : Conv)).2) ∧
    (2 = if ((tagOf (onRun run1 slotA) slotA (5000000 : Conv)).change && slotA.skip) = true then 2 else slotA.drop) ∧
    (2 ≠ 0) := by decide +kernel

theorem witness_ConverterRuns_2_3_2_1 :
    ((onRun run1 slotB).fcv.run = some run1) ∧
    ((onRun run1 slotB).fcvOwner = 3) ∧
    (run1.s < 4) ∧
    ((onRun run1 slotB).fcv.slot = some slotB) ∧
    (tagOf (onRun run1 slotB) slotB (-5000000 : Conv) = ((onRun run1 slotB).convert slotB.input slotB.sub slotB.pga (-5000000 : Conv)).2) ∧
    (0 = if ((tagOf (onRun run1 slotB) slotB (-5000000 : Conv)).change && slotB.skip) = true then 2 else slotB.drop) ∧
    (0 = 0) ∧
    (slotB.acc.n + 1 < 2 ^ slotB.avg) := by decide +kernel

theorem witness_ConverterRuns_2_3_3_1_1 :
    ((onRun run1 slotC).fcv.run = some run1) ∧
    ((onRun run1 slotC).fcvOwner = 3) ∧
    (run1.s < 4) ∧
    ((onRun run1 slotC).fcv.slot = some slotC) ∧
    (tagOf (onRun run1 slotC) slotC (50000000 : Conv) = ((onRun run1 slotC).convert slotC.input slotC.sub slotC.pga (50000000 : Conv)).2) ∧
    (0 = if ((tagOf (onRun run1 slotC) slotC (50000000 : Conv)).change && slotC.skip) = true then 2 else slotC.drop) ∧
    (0 = 0) ∧
    (2 ^ slotC.avg ≤ slotC.acc.n + 1) ∧
    (after (onRun run1 slotC) = (onRun run1 slotC).reach (((onRun run1 slotC).fcv.next + 11) / 25)) ∧
    (wordOf (onRun run1 slotC) slotC (50000000 : Conv) = ({ avg := slotC.avg, skip := slotC.skip, pga := slotC.pga, sub := slotC.sub, input := slotC.input, drop := slotC.drop, acc := slotC.acc.add (tagOf (onRun run1 slotC) slotC (50000000 : Conv)) } : SlotRun).word) ∧
    (run1.idx < 16) ∧
    (run1.idx + 1 < run1.nslot) ∧
    ((after (onRun run1 slotC)).runLate run1 = none) := by decide +kernel

theorem witness_ConverterRuns_2_3_3_2_1 :
    ((onRun run1z slotC).fcv.run = some run1z) ∧
    ((onRun run1z slotC).fcvOwner = 3) ∧
    (run1z.s < 4) ∧
    ((onRun run1z slotC).fcv.slot = some slotC) ∧
    (tagOf (onRun run1z slotC) slotC (900000000 : Conv) = ((onRun run1z slotC).convert slotC.input slotC.sub slotC.pga (900000000 : Conv)).2) ∧
    (0 = if ((tagOf (onRun run1z slotC) slotC (900000000 : Conv)).change && slotC.skip) = true then 2 else slotC.drop) ∧
    (0 = 0) ∧
    (2 ^ slotC.avg ≤ slotC.acc.n + 1) ∧
    (after (onRun run1z slotC) = (onRun run1z slotC).reach (((onRun run1z slotC).fcv.next + 11) / 25)) ∧
    (wordOf (onRun run1z slotC) slotC (900000000 : Conv) = ({ avg := slotC.avg, skip := slotC.skip, pga := slotC.pga, sub := slotC.sub, input := slotC.input, drop := slotC.drop, acc := slotC.acc.add (tagOf (onRun run1z slotC) slotC (900000000 : Conv)) } : SlotRun).word) ∧
    (run1z.idx < 16) ∧
    (run1z.nslot ≤ run1z.idx + 1) ∧
    (run1z.cmd = none) := by decide +kernel

theorem witness_ConverterRuns_2_3_3_3_1 :
    (fcv4.fcv.run = some run3z) ∧
    (fcv4.fcvOwner = 3) ∧
    (run3z.s < 4) ∧
    (fcv4.fcv.slot = some slotC) ∧
    (tagOf fcv4 slotC (50000000 : Conv) = (fcv4.convert slotC.input slotC.sub slotC.pga (50000000 : Conv)).2) ∧
    (0 = if ((tagOf fcv4 slotC (50000000 : Conv)).change && slotC.skip) = true then 2 else slotC.drop) ∧
    (0 = 0) ∧
    (2 ^ slotC.avg ≤ slotC.acc.n + 1) ∧
    (after fcv4 = fcv4.reach ((fcv4.fcv.next + 11) / 25)) ∧
    (wordOf fcv4 slotC (50000000 : Conv) = ({ avg := slotC.avg, skip := slotC.skip, pga := slotC.pga, sub := slotC.sub, input := slotC.input, drop := slotC.drop, acc := slotC.acc.add (tagOf fcv4 slotC (50000000 : Conv)) } : SlotRun).word) ∧
    (run3z.idx < 16) ∧
    (run3z.nslot ≤ run3z.idx + 1) ∧
    (run3z.cmd = some (CmdSrc.ring (0 : BitVec 32), (64 : BitVec 64))) ∧
    (fcv4.waiting (CmdSrc.ring (0 : BitVec 32)) Wait.fcvSeq = some (tk (65 : BitVec 8) hr Wait.fcvSeq)) ∧
    ((after fcv4).InTime (tk (65 : BitVec 8) hr Wait.fcvSeq)) ∧
    (windowBad (tk (65 : BitVec 8) hr Wait.fcvSeq).hdr (BitVec.toNat (64 : BitVec 64)) 144 = false) ∧
    (windowOffset (tk (65 : BitVec 8) hr Wait.fcvSeq).hdr (BitVec.toNat (64 : BitVec 64)) = none → fcv4.dmaOn = true) := by unfold State.InTime; decide +kernel

theorem witness_ConverterRuns_3_1_1 :
    (up.writable (WriteBy.port Port.pcie) FCV_URG = true) ∧
    (bitAt (BitVec.toNat (2147483648 : BitVec 32)) 31 = true) ∧
    (up.fcvOwner = 7) := by decide +kernel

theorem witness_ConverterRuns_3_2_1 :
    (fcv1.writable (WriteBy.port Port.hspi) FCV_URG = true) ∧
    (bitAt (BitVec.toNat (4294967295 : BitVec 32)) 31 = true) ∧
    (fcv1.fcvOwner ≠ 7) := by decide +kernel

theorem witness_ConverterRuns_3_3_1 :
    (fcv6.fcvOwner = 5) ∧
    (fcv6.fcv.slot = some slotC) ∧
    (tagOf fcv6 slotC (40000000 : Conv) = (fcv6.convert slotC.input slotC.sub slotC.pga (40000000 : Conv)).2) ∧
    (((tagOf fcv6 slotC (40000000 : Conv)).change && slotC.skip) = false) ∧
    (slotC.drop = 0) ∧
    (2 ^ slotC.avg ≤ slotC.acc.n + 1) ∧
    (after fcv6 = fcv6.reach ((fcv6.fcv.next + 11) / 25)) := by decide +kernel

theorem witness_ConverterRuns_3_4_1 :
    (up.writable (WriteBy.port Port.pcie) FCV_CALCTL = true) ∧
    (bitAt (BitVec.toNat (1 : BitVec 32)) 0 = true) := by decide +kernel

theorem witness_ConverterRuns_3_5_1 :
    (fcv7.flag FCV_CALCTL_LOAD = true) ∧
    (fcv7.fcvOwner ≠ 1) ∧
    (fcv7.fcvOwner ≠ 2) := by decide +kernel

theorem witness_ContactSheetsAreTaken_1_1 :
    (up.evt.now = []) ∧
    (up.writable (WriteBy.port Port.pcie) FCV_CSCTL = true) ∧
    (bitAt (BitVec.toNat (1073741824 : BitVec 32)) 30 = true) ∧
    (bitAt (BitVec.toNat (1073741824 : BitVec 32)) 31 = false) ∧
    (up.fcv.cs = CsPhase.off) := by decide +kernel

theorem witness_ContactSheetsAreTaken_2_1 :
    (fcv8.evt.now = []) ∧
    (fcv8.writable (WriteBy.port Port.pcie) FCV_CSCTL = true) ∧
    (bitAt (BitVec.toNat (0 : BitVec 32)) 30 = false) ∧
    (bitAt (BitVec.toNat (0 : BitVec 32)) 31 = false) ∧
    (fcv8.fcv.cs = CsPhase.armed) := by decide +kernel

theorem witness_ContactSheetsAreTaken_3_1 :
    (fcv8.evt.now = []) ∧
    (fcv8.writable (WriteBy.port Port.pcie) FCV_CSCTL = true) ∧
    (bitAt (BitVec.toNat (3221225472 : BitVec 32)) 30 = true) ∧
    (bitAt (BitVec.toNat (3221225472 : BitVec 32)) 31 = true) ∧
    (fcv8.fcv.cs = CsPhase.armed) := by decide +kernel

theorem witness_ContactSheetsAreTaken_4_1 :
    (fcv8.evt.now = []) ∧
    (fcv8.fcv.cs = CsPhase.armed) ∧
    (fcv8.fcvOwner = 4) ∧
    (fcv8.fcv.post = []) ∧
    (fcv8.fcv.ring.getLast? = some (smp (0 : BitVec 16))) ∧
    (fcv8.fcv.trig = none) ∧
    (csTag fcv8 (10000000 : Conv) = (fcv8.convert (fcv8.get FCV_CSCTL_INPUT) (fcv8.get FCV_CSCTL_SUB) (fcv8.get FCV_CSCTL_PGA) (10000000 : Conv)).2) ∧
    (csSum fcv8 (10000000 : Conv) = (fcv8.fcv.part.getD ConvSum.zero).add (csTag fcv8 (10000000 : Conv))) ∧
    (2 ^ fcv8.get FCV_CSCTL_DEC ≤ (csSum fcv8 (10000000 : Conv)).n) ∧
    ((csSum fcv8 (10000000 : Conv)).settle = false) ∧
    ((102 : ℤ) = signedOf 14 (unsignedOf 14 (roundDiv (csSum fcv8 (10000000 : Conv)).sum (2 ^ fcv8.get FCV_CSCTL_DEC)))) ∧
    (fcv8.get FCV_CSPRE_PRE < 65535) ∧
    (fcv8.flag FCV_CSLVL_LEN = true) ∧
    (if fcv8.flag FCV_CSLVL_SLOPE = true then (102 : ℤ) ≤ signedOf 14 (fcv8.get FCV_CSLVL_LEVEL) ∧ signedOf 14 (fcv8.get FCV_CSLVL_LEVEL) < (smp (0 : BitVec 16)).value else signedOf 14 (fcv8.get FCV_CSLVL_LEVEL) ≤ (102 : ℤ) ∧ (smp (0 : BitVec 16)).value < signedOf 14 (fcv8.get FCV_CSLVL_LEVEL)) := by decide +kernel

theorem witness_ContactSheetsAreTaken_5_1 :
    (fcv12.evt.now = []) ∧
    (fcv12.exp.running = false) ∧
    (3 < 96) ∧
    ((fcv12.chan 3).started = true) ∧
    ((fcv12.chan 3).lost = false) ∧
    ((fcv12.chan 3).held = false) ∧
    (fcv12.pdOn 5 = true) ∧
    (fcv12.pdOn 6 = true) ∧
    (fcv12.fcv.cs = CsPhase.armed) ∧
    (2 < 4) ∧
    (fcv12.flag (FCV_CSTRG_SEN 2) = true) ∧
    (fcv12.get (FCV_CSTRG_CODE 2) = 257) ∧
    (fcv12.flag (FCV_CSTRG_ANYIDX 2) = true) ∧
    (∀ j < 4, fcv12.flag (FCV_CSTRG_SEN j) = true → fcv12.get (FCV_CSTRG_CODE j) = 257) ∧
    (fcv12.Sizes) := by unfold State.Sizes; decide +kernel

theorem witness_ContactSheetsAreTaken_6_1_1 :
    ((postAt trg1).evt.now = []) ∧
    ((postAt trg1).fcv.cs = CsPhase.post) ∧
    ((postAt trg1).fcv.trig = some trg1) ∧
    ((postAt trg1).fcvOwner = 2) ∧
    (csTag (postAt trg1) (10000000 : Conv) = ((postAt trg1).convert ((postAt trg1).get FCV_CSCTL_INPUT) ((postAt trg1).get FCV_CSCTL_SUB) ((postAt trg1).get FCV_CSCTL_PGA) (10000000 : Conv)).2) ∧
    (csSum (postAt trg1) (10000000 : Conv) = ((postAt trg1).fcv.part.getD ConvSum.zero).add (csTag (postAt trg1) (10000000 : Conv))) ∧
    (2 ^ (postAt trg1).get FCV_CSCTL_DEC ≤ (csSum (postAt trg1) (10000000 : Conv)).n) ∧
    (trg1.at_ ≤ (csSum (postAt trg1) (10000000 : Conv)).at_) ∧
    ((postAt trg1).fcv.post.length + 1 = 65536 - trg1.pre) := by decide +kernel

theorem witness_ContactSheetsAreTaken_6_2_1 :
    ((postAt trg2).evt.now = []) ∧
    ((postAt trg2).fcv.cs = CsPhase.post) ∧
    ((postAt trg2).fcv.trig = some trg2) ∧
    ((postAt trg2).fcvOwner = 2) ∧
    (csTag (postAt trg2) (10000000 : Conv) = ((postAt trg2).convert ((postAt trg2).get FCV_CSCTL_INPUT) ((postAt trg2).get FCV_CSCTL_SUB) ((postAt trg2).get FCV_CSCTL_PGA) (10000000 : Conv)).2) ∧
    (csSum (postAt trg2) (10000000 : Conv) = ((postAt trg2).fcv.part.getD ConvSum.zero).add (csTag (postAt trg2) (10000000 : Conv))) ∧
    (2 ^ (postAt trg2).get FCV_CSCTL_DEC ≤ (csSum (postAt trg2) (10000000 : Conv)).n) ∧
    (trg2.at_ ≤ (csSum (postAt trg2) (10000000 : Conv)).at_) ∧
    ((postAt trg2).fcv.post.length + 1 < 65536 - trg2.pre) := by decide +kernel

theorem witness_ContactSheetsAreTaken_7_1 :
    (fcv10.evt.now = []) ∧
    (fcv10.fcv.cs = CsPhase.held) ∧
    (fcv10.fcv.trig = some trg2) ∧
    (preSamples trg2.pre fcv10.fcv.ring fcv10.fcv.post = ([smp (8 : BitVec 16), smp (12 : BitVec 16)], false)) ∧
    (fcv10.ringRun 11 = true) ∧
    (fcv10.dmaOn = true) ∧
    ((fcv10.ring 11).posted = [big]) ∧
    (256 + 2 * ([smp (8 : BitVec 16), smp (12 : BitVec 16)].length + fcv10.fcv.post.length) ≤ big.size.toNat) := by decide +kernel

theorem witness_CheckValueScans_1_1_1 :
    (up.Sizes) ∧
    (up.Accepts hr) ∧
    (scanArgs (85899345952 : BitVec 64) (16 : BitVec 64) (0 : BitVec 64) = (0, (scanArgs (85899345952 : BitVec 64) (16 : BitVec 64) (0 : BitVec 64)).2)) ∧
    (up.scanBad 0 (scanArgs (85899345952 : BitVec 64) (16 : BitVec 64) (0 : BitVec 64)).2 = false) ∧
    ((scanArgs (85899345952 : BitVec 64) (16 : BitVec 64) (0 : BitVec 64)).2.space = 2 → windowBad hr (scanArgs (85899345952 : BitVec 64) (16 : BitVec 64) (0 : BitVec 64)).2.start (scanArgs (85899345952 : BitVec 64) (16 : BitVec 64) (0 : BitVec 64)).2.len = false) ∧
    (up.scanRefused 0 (scanArgs (85899345952 : BitVec 64) (16 : BitVec 64) (0 : BitVec 64)).2 = false) ∧
    ((scanArgs (85899345952 : BitVec 64) (16 : BitVec 64) (0 : BitVec 64)).2.space = 2 → windowOffset hr (scanArgs (85899345952 : BitVec 64) (16 : BitVec 64) (0 : BitVec 64)).2.start = none → up.dmaOn = true) := by unfold State.Accepts State.Sizes; decide +kernel

theorem witness_CheckValueScans_1_2_1 :
    ((cvuAt 3 scnw).Sizes) ∧
    (bitAt (BitVec.toNat (1 : BitVec 32)) 0 = true) ∧
    ((cvuAt 3 scnw).pdOn 5 = true) ∧
    ((cvuAt 3 scnw).scan 3 = some scnw) ∧
    (¬(3 = 3 ∧ (cvuAt 3 scnw).monitorHolds = true)) ∧
    ((cvuAt 3 scnw).scanCmd 3 = some (tk (80 : BitVec 8) hr (Wait.cvu 3))) ∧
    ((cvuAt 3 scnw).InTime (tk (80 : BitVec 8) hr (Wait.cvu 3))) ∧
    (0 = if (cvuAt 3 scnw).scanRuns 3 scnw = true then min (Config.unitsFed (cvuAt 3 scnw).free) scnw.args.len else ((cvuAt 3 scnw).rd (CVU_POS 3)).toNat) ∧
    (0 = if (cvuAt 3 scnw).scanRuns 3 scnw = true then ((cvuAt 3 scnw).cvuPass 3 (have __src := scnw.args; { alg := __src.alg, space := __src.space, region := __src.region, start := __src.start, len := 0, refIdx := __src.refIdx, part := __src.part, cont := __src.cont }) (scnw.data.getD [])).1 else (cvuAt 3 scnw).wide [CVU_RUN_LO 3, CVU_RUN_HI 3]) := by unfold State.InTime State.Sizes; decide +kernel

theorem witness_CheckValueScans_1_3_1_1 :
    (cvu1.Sizes) ∧
    (cvu1.scan 3 = some (scn arg1 none)) ∧
    (cvu1.scanRuns 3 (scn arg1 none) = true) ∧
    ((scn arg1 none).first = none) ∧
    (cvu1.regionOn (scn arg1 none).args = true) ∧
    (cvu1.scanCmd 3 = some (tk (80 : BitVec 8) hr (Wait.cvu 3))) ∧
    (cvu1.InTime (tk (80 : BitVec 8) hr (Wait.cvu 3))) ∧
    (val1 = (cvu1.cvuPass 3 (scn arg1 none).args ((scn arg1 none).data.getD [])).2) ∧
    ((scn arg1 none).args.refIdx = none) := by unfold State.InTime State.Sizes; decide +kernel

theorem witness_CheckValueScans_1_3_2_1 :
    ((cvu2 { value := val1, flips := (2 : BitVec 43) }).Sizes) ∧
    ((cvu2 { value := val1, flips := (2 : BitVec 43) }).scan 0 = some (scn arg2 none)) ∧
    ((cvu2 { value := val1, flips := (2 : BitVec 43) }).scanRuns 0 (scn arg2 none) = true) ∧
    ((scn arg2 none).first = none) ∧
    ((cvu2 { value := val1, flips := (2 : BitVec 43) }).regionOn (scn arg2 none).args = true) ∧
    ((cvu2 { value := val1, flips := (2 : BitVec 43) }).scanCmd 0 = some (tk (80 : BitVec 8) hr (Wait.cvu 0))) ∧
    ((cvu2 { value := val1, flips := (2 : BitVec 43) }).InTime (tk (80 : BitVec 8) hr (Wait.cvu 0))) ∧
    (val1 = ((cvu2 { value := val1, flips := (2 : BitVec 43) }).cvuPass 0 (scn arg2 none).args ((scn arg2 none).data.getD [])).2) ∧
    ((scn arg2 none).args.refIdx = some 9) ∧
    (refRead ((cvu2 { value := val1, flips := (2 : BitVec 43) }).refEntry 9) = (val1, true, false)) := by unfold State.InTime State.Sizes; decide +kernel

theorem witness_CheckValueScans_1_3_3_1 :
    ((cvu2 { value := val1, flips := (3 : BitVec 43) }).Sizes) ∧
    ((cvu2 { value := val1, flips := (3 : BitVec 43) }).scan 0 = some (scn arg2 none)) ∧
    ((cvu2 { value := val1, flips := (3 : BitVec 43) }).scanRuns 0 (scn arg2 none) = true) ∧
    ((scn arg2 none).first = none) ∧
    ((cvu2 { value := val1, flips := (3 : BitVec 43) }).regionOn (scn arg2 none).args = true) ∧
    ((cvu2 { value := val1, flips := (3 : BitVec 43) }).scanCmd 0 = some (tk (80 : BitVec 8) hr (Wait.cvu 0))) ∧
    ((cvu2 { value := val1, flips := (3 : BitVec 43) }).InTime (tk (80 : BitVec 8) hr (Wait.cvu 0))) ∧
    (val1 = ((cvu2 { value := val1, flips := (3 : BitVec 43) }).cvuPass 0 (scn arg2 none).args ((scn arg2 none).data.getD [])).2) ∧
    ((scn arg2 none).args.refIdx = some 9) ∧
    (refRead ((cvu2 { value := val1, flips := (3 : BitVec 43) }).refEntry 9) = (val1 ^^^ (3 : BitVec 36), false, true)) := by unfold State.InTime State.Sizes; decide +kernel

theorem witness_CheckValueScans_1_3_4_1 :
    ((cvu2 { value := val1 + (1 : BitVec 36), flips := (0 : BitVec 43) }).Sizes) ∧
    ((cvu2 { value := val1 + (1 : BitVec 36), flips := (0 : BitVec 43) }).scan 0 = some (scn arg2 none)) ∧
    ((cvu2 { value := val1 + (1 : BitVec 36), flips := (0 : BitVec 43) }).scanRuns 0 (scn arg2 none) = true) ∧
    ((scn arg2 none).first = none) ∧
    ((cvu2 { value := val1 + (1 : BitVec 36), flips := (0 : BitVec 43) }).regionOn (scn arg2 none).args = true) ∧
    ((cvu2 { value := val1 + (1 : BitVec 36), flips := (0 : BitVec 43) }).scanCmd 0 = some (tk (80 : BitVec 8) hr (Wait.cvu 0))) ∧
    ((cvu2 { value := val1 + (1 : BitVec 36), flips := (0 : BitVec 43) }).InTime (tk (80 : BitVec 8) hr (Wait.cvu 0))) ∧
    (val1 = ((cvu2 { value := val1 + (1 : BitVec 36), flips := (0 : BitVec 43) }).cvuPass 0 (scn arg2 none).args ((scn arg2 none).data.getD [])).2) ∧
    ((scn arg2 none).args.refIdx = some 9) ∧
    (refRead ((cvu2 { value := val1 + (1 : BitVec 36), flips := (0 : BitVec 43) }).refEntry 9) = (val1 + (1 : BitVec 36), false, false)) ∧
    (val1 ≠ val1 + (1 : BitVec 36)) := by unfold State.InTime State.Sizes; decide +kernel

theorem witness_CheckValueScans_1_4_1 :
    (cvu3.Sizes) ∧
    (cvu3.scan 1 = some (scn arg1 (some (64, val1)))) ∧
    (cvu3.scanRuns 1 (scn arg1 (some (64, val1))) = true) ∧
    ((scn arg1 (some (64, val1))).first = some (64, val1)) ∧
    (cvu3.regionOn (scn arg1 (some (64, val1))).args = true) ∧
    (cvu3.scanCmd 1 = some (tk (80 : BitVec 8) hr (Wait.cvu 1))) ∧
    (cvu3.InTime (tk (80 : BitVec 8) hr (Wait.cvu 1))) ∧
    (val1 = (cvu3.cvuPass 1 (scn arg1 (some (64, val1))).args ((scn arg1 (some (64, val1))).data.getD [])).2) ∧
    (2 = if val1 = val1 then 2 else 3) := by unfold State.InTime State.Sizes; decide +kernel

theorem witness_CheckValueScans_2_1_1_1 :
    (ref1.Sizes) ∧
    (ref1.pdOn 5 = true) ∧
    (63 = ref1.get CVU_REFSEL_IDX) ∧
    (ref1.monitorHolds = false ∨ 63 < 56) ∧
    (storeFind (ref1.staged (WriteBy.port Port.pcie)) CVU_REFDATA_HI = some (4294967295 : BitVec 32)) := by unfold State.Sizes; decide +kernel

theorem witness_CheckValueScans_2_1_2_1 :
    (ref1.Sizes) ∧
    (ref1.pdOn 5 = true) ∧
    (63 = ref1.get CVU_REFSEL_IDX) ∧
    (ref1.monitorHolds = false ∨ 63 < 56) ∧
    (ref1.writable (WriteBy.port Port.pcie) CVU_REFFLIP = true) ∧
    (bitAt (BitVec.toNat (2147494405 : BitVec 32)) 31 = true) := by unfold State.Sizes; decide +kernel

theorem witness_CheckValueScans_2_2_1_1 :
    (ref2.Sizes) ∧
    (ref2.pdOn 5 = true) ∧
    (63 = ref2.get CVU_REFSEL_IDX) ∧
    (ref2.monitorHolds = true) ∧
    (56 ≤ 63) := by unfold State.Sizes; decide +kernel

theorem witness_CheckValueScans_2_2_2_1 :
    (ref2.Sizes) ∧
    (ref2.pdOn 5 = true) ∧
    (63 = ref2.get CVU_REFSEL_IDX) ∧
    (ref2.monitorHolds = true) ∧
    (56 ≤ 63) := by unfold State.Sizes; decide +kernel

/-! Witnesses of ProofCommandsAndSeal, ProofIsWrittenToItsSlot, JournalAndFramPort -/

def prf1 : State := setAll [(RTC_BKCFG_BKMODE, 1)] up

def prf2 : State := setAll [(RTC_BKCFG_BKMODE, 1), (RTC_PWRCTL_PERON, 1)] (running up)

def prf3 : State := setAll [(LDG_STAT_SEALED, 1)] up

def prf4 : State := withPrf (fun p => { p with sealN := true }) prf3

def prf5 : State := withTaken [tk 0x71 hr .seal] (withPrf (fun p => { p with idJobs := [.seal (some (.ring 0)) 0] }) prf3)

def prf6 : State := withTaken [tk 0x72 hr .unseal] (withPrf (fun p => { p with idJobs := [.unseal (.ring 0), .fresh] }) prf3)

def job1 : ProofJob := { kind := 1, expno := 4, ts := 9, pinq := [5], cmds := [], cycle := none, frozen := 0, kept := [] }

def prf7 : State := withPrf (fun p => { p with due := [job1], nextSeq := 3 }) up

def prec : LedgerRecord := { kind := 1, expno := 2 ^ 70 + 4, ts := 5, flags := 0, mpmask := 1, seq := 3, audit := 0, regs := [(3, 7)], pinq := [] }

def prf8 : State := setAll [(LDG_CTL_VERIFY, 1)] (withPrf (fun p => { p with phase := .writing, job := some job1, record := some prec, attempt := 1, fram := [(0x30FFF, 7), (0x37800, 5), (0x37BFF, 3)] }) up)

def prf9 : State := withPrf (fun p => { p with phase := .readback, job := some job1, record := some prec, attempt := 1 }) up

def prf10 : State := setAll [(LDG_CTL_VERIFY, 0)] prf8

def job2 : ProofJob := { job1 with cmds := [.ring 0] }

def prf11 : State := withTaken [tk 0x70 hr .proofNow] (withPrf (fun p => { p with phase := .readback, job := some job2, record := some prec, attempt := 1 }) up)

def jent : JournalEntry := { jkind := 3, ts := 1, expno := 2, p0 := 3, p1 := 4, p2 := 5 }

def prf12 : State := withPrf (fun p => { p with journal := [jent], jpos := 127, jseq := 9, fram := [(0x3FFBF, 3), (0x3FFC1, 3)] }) up

def prf13 : State := withPrf (fun p => { p with journal := [jent, jent], jpos := 0 }) up

def prf14 : State := withPrf (fun p => { p with portData := 77 }) (setAll [(LDG_FSTAT_RDY, 1), (LDG_FADDR_ADDR, 0xFFFF)] up)

def prf15 : State := setAll [(LDG_FADDR_ADDR, 0x400)] up

def prf16 : State := setAll [(LDG_FADDR_ADDR, 0xC3FF)] up

def prf17 : State := withPrf (fun p => { p with port := [.read 0x40], fram := [(0x40, 1), (0x43, 0x80)] }) up

def prf18 : State := withPrf (fun p => { p with port := [.write 0x1000 0x00340056, .read 4], fram := [(0xFFF, 1), (0x1001, 0x80)] }) up

theorem witness_ProofCommandsAndSeal_1_1_1 :
    ((running up).Accepts hr) ∧
    ((running up).exp.running = true) ∧
    ((running up).flag PWR_STAT_ASBUSY = false) := by unfold State.Accepts; decide +kernel

theorem witness_ProofCommandsAndSeal_1_2_1_1 :
    (prf2.Accepts hr) ∧
    ((26 : BitVec 24) = BitVec.truncate 24 (26 : BitVec 64)) ∧
    (prf2.flag RTC_BKCFG_BKMODE = true) ∧
    (prf2.flag RTC_PWRCTL_CYC = false) ∧
    (26 ≤ BitVec.toNat (26 : BitVec 24) ∨ (26 : BitVec 24) = (0 : BitVec 24) ∧ (prf2.flag RTC_PWRCTL_ALMON = true ∨ prf2.flag RTC_PWRCTL_PERON = true)) ∧
    (prf2.exp.running = true) := by unfold State.Accepts; decide +kernel

theorem witness_ProofCommandsAndSeal_1_2_2_1 :
    (prf1.Accepts hm) ∧
    ((16777215 : BitVec 24) = BitVec.truncate 24 (4294967295 : BitVec 64)) ∧
    (prf1.flag RTC_BKCFG_BKMODE = true) ∧
    (prf1.flag RTC_PWRCTL_CYC = false) ∧
    (26 ≤ BitVec.toNat (16777215 : BitVec 24) ∨ (16777215 : BitVec 24) = (0 : BitVec 24) ∧ (prf1.flag RTC_PWRCTL_ALMON = true ∨ prf1.flag RTC_PWRCTL_PERON = true)) ∧
    (prf1.exp.running = false) := by unfold State.Accepts; decide +kernel

theorem witness_ProofCommandsAndSeal_2_1_1 :
    (up.Accepts hr) ∧
    (up.sealed = false) := by unfold State.Accepts; decide +kernel

theorem witness_ProofCommandsAndSeal_2_2_1 :
    (prf3.Accepts hm) ∧
    (prf3.sealed = true) := by unfold State.Accepts; decide +kernel

theorem witness_ProofCommandsAndSeal_2_3_1 :
    (up.pdOn 5 = true) ∧
    (up.sealed = false) := by decide +kernel

theorem witness_ProofCommandsAndSeal_2_4_1 :
    (prf3.pdOn 5 = true) := by decide +kernel

theorem witness_ProofCommandsAndSeal_2_5_1 :
    (prf3.Accepts hm) ∧
    (prf3.prf.sealN = false) ∧
    (prf3.flag PWR_STAT_ASBUSY = false) ∧
    (prf3.sealed = true) := by unfold State.Accepts; decide +kernel

theorem witness_ProofCommandsAndSeal_2_6_1 :
    (prf4.Accepts hr) ∧
    (prf4.prf.sealN = true) := by unfold State.Accepts; decide +kernel

theorem witness_ProofCommandsAndSeal_2_7_1 :
    (prf5.prf.phase = ProofPhase.idle) ∧
    (prf5.prf.idJobs = [IdentityJob.seal (some (CmdSrc.ring (0 : BitVec 32))) (0 : BitVec 64)]) ∧
    (prf5.waiting (CmdSrc.ring (0 : BitVec 32)) Wait.seal = some (tk (113 : BitVec 8) hr Wait.seal)) ∧
    (prf5.InTime (tk (113 : BitVec 8) hr Wait.seal)) := by unfold State.InTime; decide +kernel

theorem witness_ProofCommandsAndSeal_2_8_1 :
    (prf6.prf.phase = ProofPhase.idle) ∧
    (prf6.prf.idJobs = [IdentityJob.unseal (CmdSrc.ring (0 : BitVec 32)), IdentityJob.fresh]) ∧
    (prf6.waiting (CmdSrc.ring (0 : BitVec 32)) Wait.unseal = some (tk (114 : BitVec 8) hr Wait.unseal)) ∧
    (prf6.InTime (tk (114 : BitVec 8) hr Wait.unseal)) := by unfold State.InTime; decide +kernel

theorem witness_ProofIsWrittenToItsSlot_1_1_1 :
    (prf7.prf.due = [job1]) ∧
    (prf7.writerBusy = false) ∧
    (prf7.coveredTo job1.expno = true) := by decide +kernel

theorem witness_ProofIsWrittenToItsSlot_1_2_1 :
    (prf8.prf.phase = ProofPhase.writing) ∧
    (prf8.prf.job = some job1) ∧
    (prf8.prf.record = some prec) ∧
    (job1.kind ≠ (2 : BitVec 8)) ∧
    (prf8.flag LDG_CTL_VERIFY = true) := by decide +kernel

theorem witness_ProofIsWrittenToItsSlot_1_3_1 :
    (prf9.prf.phase = ProofPhase.readback) ∧
    (prf9.prf.job = some job1) ∧
    (prf9.prf.record = some prec) ∧
    (prf9.prf.attempt < 2) := by decide +kernel

theorem witness_ProofIsWrittenToItsSlot_2_1_1 :
    (prf10.prf.job = some job1) ∧
    (prf10.prf.record = some prec) ∧
    (job1.kind ≠ (2 : BitVec 8)) ∧
    (job1.cycle = none) ∧
    (Instr.proofWriteDone = Instr.proofWriteDone ∧ prf10.prf.phase = ProofPhase.writing ∧ prf10.flag LDG_CTL_VERIFY = false ∨ Instr.proofWriteDone = Instr.proofReadbackDone true ∧ prf10.prf.phase = ProofPhase.readback) ∧
    (job1.cmds = []) := by decide +kernel

theorem witness_ProofIsWrittenToItsSlot_2_2_1 :
    (prf11.prf.job = some job2) ∧
    (prf11.prf.record = some prec) ∧
    (job2.kind ≠ (2 : BitVec 8)) ∧
    (job2.cycle = none) ∧
    (Instr.proofReadbackDone true = Instr.proofWriteDone ∧ prf11.prf.phase = ProofPhase.writing ∧ prf11.flag LDG_CTL_VERIFY = false ∨ Instr.proofReadbackDone true = Instr.proofReadbackDone true ∧ prf11.prf.phase = ProofPhase.readback) ∧
    (job2.cmds = [CmdSrc.ring (0 : BitVec 32)]) ∧
    (prf11.waiting (CmdSrc.ring (0 : BitVec 32)) Wait.proofNow = some (tk (112 : BitVec 8) hr Wait.proofNow)) ∧
    (prf11.InTime (tk (112 : BitVec 8) hr Wait.proofNow)) := by unfold State.InTime; decide +kernel

theorem witness_JournalAndFramPort_1_1 :
    (prf12.writerBusy = false) ∧
    (prf12.prf.journal = [jent]) ∧
    (prf12.prf.jpos < 128) := by decide +kernel

theorem witness_JournalAndFramPort_2_1_1 :
    (up.writable (WriteBy.port Port.pcie) LDG_FADDR = true) := by decide +kernel

theorem witness_JournalAndFramPort_2_2_1 :
    (up.pd1On = true) ∧
    (up.pdOn 5 = true) := by decide +kernel

theorem witness_JournalAndFramPort_2_4_1_1 :
    (prf15.pdOn 5 = true) ∧
    (4096 = 4 * prf15.get LDG_FADDR_ADDR) ∧
    (4096 ≤ 4096) ∧
    (4096 < 200704) ∧
    (prf15.sealed = false) ∧
    (prf15.flag PWR_STAT_ASBUSY = false) ∧
    (prf15.flag PWR_STAT_PFAIL = false) ∧
    (prf15.portWrites < 16) := by decide +kernel

theorem witness_JournalAndFramPort_2_4_2_1 :
    (prf14.pdOn 5 = true) ∧
    (262140 = 4 * prf14.get LDG_FADDR_ADDR) ∧
    (262140 < 4096 ∨ 200704 ≤ 262140 ∨ prf14.sealed = true ∨ prf14.flag PWR_STAT_PFAIL = true) := by decide +kernel

theorem witness_JournalAndFramPort_2_6_1_1 :
    (prf17.writerBusy = false) ∧
    (prf17.flag PWR_STAT_PFAIL = false) ∧
    (prf17.prf.port = [PortAccess.read 64]) := by decide +kernel

theorem witness_JournalAndFramPort_2_6_2_1 :
    (prf18.writerBusy = false) ∧
    (prf18.flag PWR_STAT_PFAIL = false) ∧
    (prf18.prf.port = [PortAccess.write 4096 (3407958 : BitVec 32), PortAccess.read 4]) := by decide +kernel

theorem witness_JournalAndFramPort_2_3_1 :
    (16 ≠ 32) := by decide +kernel

theorem witness_JournalAndFramPort_2_5_1 :
    ((setAll [(PWR_STAT_PFAIL, 1)] prf18).writerBusy = false) ∧
    ((setAll [(PWR_STAT_PFAIL, 1)] prf18).flag PWR_STAT_PFAIL = true) ∧
    ((setAll [(PWR_STAT_PFAIL, 1)] prf18).prf.port = [PortAccess.write 4096 (3407958 : BitVec 32), PortAccess.read 4]) := by decide +kernel

/-! Witnesses of ExpiredCommandsEndWithDeadline, CommandOnBlockThatIsOffIsRefused, RegisterWriteStoresFields, ReadsAndWideAccesses, RegisterWritesThatActAtOnce, MailboxAndCommandReads, DoorbellsAndRings -/

def late1 : CmdHdr := { src := .ring 0, tag := 7, dlv := true, deadline := 5 }

def lateM : CmdHdr := { src := .mailbox .hspi, tag := 7, dlv := true, deadline := 5 }

def hif1 : State := withRtc (fun r => { r with sec := 3 }) up

def hif2 : State := withTaken [tk 0x11 late1 (.swap 0)] hif1

def hif3 : State := withTaken [tk 0x30 lateM .rtcCapture] hif1

def scn40 : Scan := { src := .ring 0, args := { alg := 0, space := 1, region := 0, start := 0, len := 64, refIdx := none, part := false, cont := none }, data := none, first := none, ref := 5, refCor := true, waiting := true }

def hif40 : State := let s := withTaken [tk 0x50 late1 (.cvu 3)] hif1; { s with cvu := { s.cvu with scans := s.cvu.scans.set 3 (some scn40) } }

def hif4 : State := setAll [(PWR_STAT_PDON, 0x203)] up

def hif5 : State := setAll [(MFE_LOSS_LOSS 1, 77)] up

def rowOf (o : Nat) : RegRow := (regRow o).getD { base := 0, stride := 0, count := 0, stride2 := 0, count2 := 0, domain := 0, reset := 0, fields := [] }

def hif5b : State := setAll [(FLT_SWREF_SWREF 95, 77), (PLC_RXMISS_RXMISS, 9)] up

def hif6 : State := withHif (fun f => { f with stageHspi := [(HIF_DBBASE_LO + 4, 0x9)] }) up

def hif7 : State := withHif (fun f => { f with stageHspi := [(NET_KEYBASE_LO + 4, 0xFFFFFFFF)] }) up

def hif8 : State := setAll [(HIF_CTL_GVEN, 1), (HIF_CTL_GVEC, 31), (MBX_STAT_OVERRUN, 1)] up

def hif9 : State := (((up.wr (MBX_CMD 0) 0).wr (MBX_CMD 1) 7))

def hif10 : State := (((up.wr (MBX_CMD 0) 0x99).wr (MBX_CMD 1) 7))

def hif11 : State := setAll [(MBX_STAT_BUSY, 1)] up

def ev1 : Event := { code := 0x301, index := 2, edge := .start, seq := 5, expno := 6, ts := 7, p0 := 8, p1 := 9, p2 := 10 }

def hif12 : State := withEvt (fun e => { e with queue := [ev1, ev1], dropPend := true }) up

def hif13 : State := withTaken [tk 0x10 hr (.coefDma 95 1 3)] (withHif (fun f => { f with dmaReads := [(4, .coef hr.src)] }) up)

def hif14 : State := withHif (fun f => { f with dbInFlight := true }) up

theorem witness_ExpiredCommandsEndWithDeadline_1_1_1 :
    (commandOf (Instr.mpStart late1 (5 : BitVec 64)) = some ((1 : BitVec 8), late1)) ∧
    (State.reset.canTake late1 = false) := by decide +kernel

theorem witness_ExpiredCommandsEndWithDeadline_1_2_1 :
    (commandOf (Instr.mpStart late1 (5 : BitVec 64)) = some ((1 : BitVec 8), late1)) ∧
    (hif1.canTake late1 = true) ∧
    (late1.dlv = true) ∧
    (hif1.passed late1.deadline = true) := by decide +kernel

theorem witness_ExpiredCommandsEndWithDeadline_2_1_1 :
    (tk (17 : BitVec 8) late1 (Wait.swap 0) ∈ hif2.taken) ∧
    (∀ y ∈ hif2.taken, y.hdr.src = (tk (17 : BitVec 8) late1 (Wait.swap 0)).hdr.src → y = tk (17 : BitVec 8) late1 (Wait.swap 0)) ∧
    ((tk (17 : BitVec 8) late1 (Wait.swap 0)).muted = false) ∧
    ((tk (17 : BitVec 8) late1 (Wait.swap 0)).hdr.dlv = true) ∧
    (judgedLater (tk (17 : BitVec 8) late1 (Wait.swap 0)).op = true) ∧
    (hif2.passed (tk (17 : BitVec 8) late1 (Wait.swap 0)).hdr.deadline = true) ∧
    (∀ (p : ℕ), (tk (17 : BitVec 8) late1 (Wait.swap 0)).wait ≠ Wait.calWindow p) ∧
    (∀ (u : ℕ), (tk (17 : BitVec 8) late1 (Wait.swap 0)).wait ≠ Wait.cvu u) := by
  refine ⟨?_, ?_, ?_, ?_, ?_, ?_, ?_, ?_⟩ <;> first | decide +kernel | (intro p h; cases h)

theorem witness_ExpiredCommandsEndWithDeadline_2_2_1 :
    (tk (80 : BitVec 8) late1 (Wait.cvu 3) ∈ hif40.taken) ∧
    (∀ y ∈ hif40.taken, y.hdr.src = (tk (80 : BitVec 8) late1 (Wait.cvu 3)).hdr.src → y = tk (80 : BitVec 8) late1 (Wait.cvu 3)) ∧
    ((tk (80 : BitVec 8) late1 (Wait.cvu 3)).muted = false) ∧
    ((tk (80 : BitVec 8) late1 (Wait.cvu 3)).hdr.dlv = true) ∧
    (judgedLater (tk (80 : BitVec 8) late1 (Wait.cvu 3)).op = true) ∧
    (hif40.passed (tk (80 : BitVec 8) late1 (Wait.cvu 3)).hdr.deadline = true) ∧
    ((tk (80 : BitVec 8) late1 (Wait.cvu 3)).wait = Wait.cvu 3) ∧
    (3 < 4) ∧
    (hif40.Sizes) ∧
    (hif40.scan 3 = some scn40) ∧
    (0 = if hif40.scanRuns 3 scn40 = true then min (Config.unitsFed hif40.free) scn40.args.len else (hif40.rd (CVU_POS 3)).toNat) ∧
    (0 = if hif40.scanRuns 3 scn40 = true then (hif40.cvuPass 3 (have __src := scn40.args; { alg := __src.alg, space := __src.space, region := __src.region, start := __src.start, len := 0, refIdx := __src.refIdx, part := __src.part, cont := __src.cont }) (scn40.data.getD [])).1 else hif40.wide [CVU_RUN_LO 3, CVU_RUN_HI 3]) := by unfold State.Sizes; decide +kernel

theorem witness_CommandOnBlockThatIsOffIsRefused_all_1 :
    (commandOf (Instr.seal hm) = some ((113 : BitVec 8), hm)) ∧
    (coreOps.contains (BitVec.toNat (113 : BitVec 8)) = true) ∧
    (hif4.canTake hm = true) ∧
    (hm.dlv = true → hif4.passed hm.deadline = false) ∧
    (hif4.serving = false) := by decide +kernel

theorem witness_RegisterWriteStoresFields_1_1_1 :
    (BitVec.toNat (8192 : BitVec 16) ∈ plainRegs) ∧
    (up.writable (WriteBy.port Port.pcie) (BitVec.toNat (8192 : BitVec 16)) = true) := by decide +kernel

theorem witness_RegisterWriteStoresFields_1_2_1 :
    (BitVec.toNat (8192 : BitVec 16) ∈ plainRegs) ∧
    (hif4.writable (WriteBy.port Port.pcie) (BitVec.toNat (8192 : BitVec 16)) = false) := by decide +kernel

theorem witness_RegisterWriteStoresFields_1_3_1 :
    (BitVec.toNat (8192 : BitVec 16) ∈ plainRegs) ∧
    (16 ≠ 32) := by decide +kernel

theorem witness_RegisterWriteStoresFields_2_1 :
    (95 < 96) ∧
    (up.writable (WriteBy.port Port.pcie) (MFE_CH 95) = true) := by decide +kernel

theorem witness_ReadsAndWideAccesses_1_1 :
    (hif5b.pd1On = true) ∧
    (hif5b.pdOn (regDomain (BitVec.ofNat 16 (FLT_SWREF 95)).toNat) = true) ∧
    (regRow (BitVec.ofNat 16 (FLT_SWREF 95)).toNat = some (rowOf (FLT_SWREF 95))) ∧
    (plainRead (BitVec.ofNat 16 (FLT_SWREF 95)).toNat) ∧
    (accessMask (rowOf (FLT_SWREF 95)) Access.rc ≠ 0) := by unfold plainRead; decide +kernel

theorem witness_ReadsAndWideAccesses_2_1 :
    (hif6.pd1On = true) ∧
    (hif6.pdOn (regDomain (BitVec.ofNat 16 HIF_DBBASE_LO).toNat) = true) ∧
    ((BitVec.ofNat 16 HIF_DBBASE_LO).toNat ∈ [HIF_DBBASE_LO, HIF_STBASE_LO, HIF_LVBASE_LO, NET_KEYBASE_LO]) ∧
    (storeFind (hif6.staged (WriteBy.port Port.hspi)) ((BitVec.ofNat 16 HIF_DBBASE_LO).toNat + 4) = some (9 : BitVec 32)) ∧
    (hif6.writable (WriteBy.port Port.hspi) (BitVec.ofNat 16 HIF_DBBASE_LO).toNat = true) := by decide +kernel

theorem witness_ReadsAndWideAccesses_3_1 :
    (up.pd1On = true) ∧
    (up.pdOn (regDomain (BitVec.ofNat 16 RTC_SEC_LO).toNat) = true) ∧
    ((BitVec.ofNat 16 RTC_SEC_LO).toNat ∈ [GLB_SERIAL_LO, LDG_AUDIT_LO, LDG_RGAP_LO, LDG_RSTOP_LO, RTC_SEC_LO, RTC_CAPSEC_LO]) := by decide +kernel

theorem witness_ReadsAndWideAccesses_4_1_1 :
    (hif5b.pd1On = true) ∧
    (hif5b.pdOn (regDomain (BitVec.ofNat 16 (FLT_SWREF 95)).toNat) = true) ∧
    (16 ≠ 32) ∧
    (regRow (BitVec.ofNat 16 (FLT_SWREF 95)).toNat = some (rowOf (FLT_SWREF 95))) ∧
    (accessMask (rowOf (FLT_SWREF 95)) Access.rc ≠ 0) := by decide +kernel

theorem witness_ReadsAndWideAccesses_4_2_1 :
    (up.pd1On = true) ∧
    (up.pdOn (regDomain (BitVec.ofNat 16 RTC_SEC_LO).toNat) = true) ∧
    (64 ≠ 32) ∧
    ((upperWords (BitVec.ofNat 16 RTC_SEC_LO).toNat).isEmpty = false) := by decide +kernel

theorem witness_RegisterWritesThatActAtOnce_1_1 :
    (11 < 12) ∧
    (up.writable (WriteBy.port Port.pcie) (MFE_BANK 11) = true) ∧
    (up.sealed = false) ∧
    (up.bankOk 11 = true) ∧
    (up.pdOn 2 = true) ∧
    (up.flag PAIR_STAT_RUN = false) := by decide +kernel

theorem witness_RegisterWritesThatActAtOnce_2_1 :
    (hif8.Inv) ∧
    (hif8.writable (WriteBy.port Port.pcie) GLB_IRQEN = true) := by unfold State.Inv; decide +kernel

theorem witness_MailboxAndCommandReads_1_1_1 :
    (bitAt (BitVec.toNat (1 : BitVec 32)) 0 = true) ∧
    (hif9.pd1On = true) ∧
    (hif9.ready = true) ∧
    (hif9.flag MBX_STAT_BUSY = false) ∧
    ((0 : BitVec 8) = BitVec.truncate 8 hif9.mbxDesc.d0) ∧
    (descHdr (CmdSrc.mailbox Port.pcie) hif9.mbxDesc = descHdr (CmdSrc.mailbox Port.pcie) hif9.mbxDesc) ∧
    ((descHdr (CmdSrc.mailbox Port.pcie) hif9.mbxDesc).dlv = true → hif9.passed (descHdr (CmdSrc.mailbox Port.pcie) hif9.mbxDesc).deadline = false) ∧
    ((0 : BitVec 8) = (0 : BitVec 8) ∧ 0 = stDone ∨ (0 : BitVec 8) ≠ (0 : BitVec 8) ∧ coreOps.contains (BitVec.toNat (0 : BitVec 8)) = false ∧ (0 : BitVec 8) ≠ (49 : BitVec 8) ∧ (0 : BitVec 8) ≠ (50 : BitVec 8) ∧ 0 = stBadarg) := by decide +kernel

theorem witness_MailboxAndCommandReads_1_2_1 :
    (bitAt (BitVec.toNat (1 : BitVec 32)) 0 = true) ∧
    (hif11.pd1On = true) ∧
    (hif11.flag MBX_STAT_BUSY = true) := by decide +kernel

theorem witness_MailboxAndCommandReads_1_3_1 :
    (hif12.Inv) ∧
    (hif12.ringRun 2 = false) ∧
    (hif12.evt.queue = [ev1, ev1]) := by unfold State.Inv; decide +kernel

theorem witness_MailboxAndCommandReads_2_1_1 :
    (hif13.Sizes) ∧
    (95 < 96) ∧
    (1 ≤ 1) ∧
    (hif13.hif.dmaReads = [(4, DmaUse.coef (tk (16 : BitVec 8) hr (Wait.coefDma 95 1 3)).hdr.src)]) ∧
    (tk (16 : BitVec 8) hr (Wait.coefDma 95 1 3) ∈ hif13.taken) ∧
    ((tk (16 : BitVec 8) hr (Wait.coefDma 95 1 3)).wait = Wait.coefDma 95 1 3) ∧
    (∀ y ∈ hif13.taken, y.hdr.src = (tk (16 : BitVec 8) hr (Wait.coefDma 95 1 3)).hdr.src → y = tk (16 : BitVec 8) hr (Wait.coefDma 95 1 3)) ∧
    (hif13.InTime (tk (16 : BitVec 8) hr (Wait.coefDma 95 1 3))) ∧
    ([(1 : BitVec 64), (2 : BitVec 64), (18446744073709551615 : BitVec 64)].length = 3) ∧
    (3 ≤ 64) := by unfold State.InTime State.Sizes; decide +kernel

theorem witness_MailboxAndCommandReads_2_2_1 :
    (hif13.Sizes) ∧
    (95 < 96) ∧
    (1 ≤ 1) ∧
    (hif13.hif.dmaReads = [(4, DmaUse.coef (tk (16 : BitVec 8) hr (Wait.coefDma 95 1 3)).hdr.src)]) ∧
    (tk (16 : BitVec 8) hr (Wait.coefDma 95 1 3) ∈ hif13.taken) ∧
    ((tk (16 : BitVec 8) hr (Wait.coefDma 95 1 3)).wait = Wait.coefDma 95 1 3) ∧
    (∀ y ∈ hif13.taken, y.hdr.src = (tk (16 : BitVec 8) hr (Wait.coefDma 95 1 3)).hdr.src → y = tk (16 : BitVec 8) hr (Wait.coefDma 95 1 3)) ∧
    (hif13.InTime (tk (16 : BitVec 8) hr (Wait.coefDma 95 1 3))) := by unfold State.InTime State.Sizes; decide +kernel

theorem witness_DoorbellsAndRings_1_1_1 :
    (up.pdOn 9 = true) ∧
    (up.flag HIF_STAT_LINKUP = true) ∧
    (up.flag HIF_STAT_BME = true) ∧
    (up.get HIF_STAT_DSTATE = 0) := by decide +kernel

theorem witness_DoorbellsAndRings_1_2_1_1 :
    (hif14.hif.dbInFlight = true) ∧
    (hif14.hif.fetched = []) ∧
    (∀ r < 16, hif14.ringRun r = true → ((List.flatMap (fun x => (1 : BitVec 32) :: List.replicate 15 (0 : BitVec 32)) (List.range 16)).getD (16 * r) (0 : BitVec 32) - hif14.ringC r).toNat ≤ 2 ^ hif14.get (HIF_RCFG_LOG2SIZE r)) := by decide +kernel

theorem witness_DoorbellsAndRings_1_2_2_1 :
    (hif14.hif.dbInFlight = true) ∧
    (hif14.hif.fetched = []) ∧
    (∀ r < 16, hif14.ringRun r = true → ([(1 : BitVec 32)].getD (16 * r) (0 : BitVec 32) - hif14.ringC r).toNat ≤ 2 ^ hif14.get (HIF_RCFG_LOG2SIZE r)) ∧
    (hif14.ready = true) ∧
    (hif14.ringRun 0 = true) ∧
    ([(1 : BitVec 32)].getD 0 (0 : BitVec 32) = hif14.ringC 0 + (1 : BitVec 32)) ∧
    (hif14.takenRing < 64) ∧
    (BitVec.truncate 8 ({ d0 := (30064771072 : BitVec 64), d1 := (0 : BitVec 64), d2 := (0 : BitVec 64), d3 := (0 : BitVec 64), d4 := (0 : BitVec 64), d5 := (0 : BitVec 64), d6 := (0 : BitVec 64), d7 := (0 : BitVec 64) } : Desc8).d0 = (0 : BitVec 8)) ∧
    (bitAt ({ d0 := (30064771072 : BitVec 64), d1 := (0 : BitVec 64), d2 := (0 : BitVec 64), d3 := (0 : BitVec 64), d4 := (0 : BitVec 64), d5 := (0 : BitVec 64), d6 := (0 : BitVec 64), d7 := (0 : BitVec 64) } : Desc8).d0.toNat 8 = false) := by decide +kernel

/-! Witnesses of SerialFrames -/

theorem witness_SerialFrames_1_1_1 :
    (up.pd1On = true) ∧
    (BitVec.toNat (8192 : BitVec 16) % 4 = 0) := by decide +kernel

theorem witness_SerialFrames_1_2_1 :
    (up.pd1On = true) ∧
    (BitVec.toNat (8192 : BitVec 16) % 4 = 0) := by decide +kernel

theorem witness_SerialFrames_1_3_1 :
    (up.pd1On = true) ∧
    (BitVec.toNat (8192 : BitVec 16) % 4 = 0) := by decide +kernel

theorem witness_SerialFrames_1_4_1 :
    (up.pd1On = true) ∧
    (BitVec.toNat (8192 : BitVec 16) % 4 = 0) ∧
    (BitVec.toNat (8192 : BitVec 16) ∈ plainRegs) ∧
    (up.writable (WriteBy.port Port.hspi) (BitVec.toNat (8192 : BitVec 16)) = true) := by decide +kernel

theorem witness_SerialFrames_2_1 :
    (up.pd1On = true) ∧
    ((11 : BitVec 8) ≠ (11 : BitVec 8) ∨ BitVec.toNat (8193 : BitVec 16) % 4 ≠ 0) := by decide +kernel

theorem witness_SerialFrames_3_1 :
    (up.pd1On = true) ∧
    ((11 : BitVec 8) ≠ (2 : BitVec 8) ∨ BitVec.toNat (8192 : BitVec 16) % 4 ≠ 0) := by decide +kernel

/-! Witnesses of DoorbellsAndRings, RecordsGoToTheirRings, PcieFunctionStates -/

def hif15 : State := setAll [(HIF_RCFG_EN 0, 1), (HIF_RCFG_EN 8, 1), (HIF_RSTAT_RUN 8, 1), (HIF_RCFG_IEN 8, 1), (HIF_RCFG_VEC 8, 31), (HIF_RMOD_MODTIME 8, 1)] (withHif (fun f => { f with rings := f.rings.modify 8 (fun a => { a with irqCount := 3, irqSince := some 0 }) }) up)

def cpl1 : Completion := { op := 1, status := 0, mailbox := false, tag := 3, cmdIdx := 4, ts := 5, p0 := 6, p1 := 7, p2 := 8, expno := 9 }

def hif16 : State := withHif (fun f => { f with cplQ := [cpl1, cpl1] }) (setAll [(HIF_RSTAT_RUN 1, 1)] (up.wr (HIF_RPIDX 1) 1))

def hif17 : State := withEvt (fun e => { e with queue := [ev1, ev1], dropPend := true }) (setAll [(HIF_RSTAT_RUN 2, 1)] (up.wr (HIF_RPIDX 2) 1))

def rxr : PlcRxRecord := { mtype := 5, slots := [1, 2], frame := [3, 4], ts := 5 }

def hif18 : State := postBuf 10 { addr := 0x100, size := 18, cookie := 3 } (withPlc (fun p => { p with rxQ := [rxr] }) up)

def hif19 : State := withPlc (fun p => { p with cache := [(3, true), (4, false)] }) up

def hif20 : State := setAll [(HIF_STAT_LINKUP, 0)] up

def hif21 : State := withTaken [tk 0x10 hr (.coefDma 95 1 3), tk 0x20 hm .sync] (withHif (fun f => { f with cplQ := [cpl1], fetched := [(3, { d0 := 0x700000000, d1 := 0, d2 := 0, d3 := 0, d4 := 0, d5 := 0, d6 := 0, d7 := 0 })] }) hif15)

theorem witness_DoorbellsAndRings_1_3_1 :
    (hif14.hif.dbInFlight = true) := by decide +kernel

theorem witness_DoorbellsAndRings_2_1_1 :
    (12 < 13) ∧
    (up.writable (WriteBy.port Port.pcie) (HIF_RCFG 12) = true) ∧
    (bitAt (BitVec.toNat (4294967295 : BitVec 32)) 31 = true) ∧
    (up.flag (HIF_RCFG_EN 12) = false) := by decide +kernel

theorem witness_DoorbellsAndRings_2_2_1 :
    (8 < 13) ∧
    (hif15.writable (WriteBy.port Port.pcie) (HIF_RCFG 8) = true) ∧
    (bitAt (BitVec.toNat (0 : BitVec 32)) 31 = false) ∧
    (hif15.flag (HIF_RCFG_EN 8) = true) := by decide +kernel

theorem witness_DoorbellsAndRings_2_3_1 :
    (8 < 13) ∧
    (hif15.writable (WriteBy.port Port.pcie) (HIF_RCFG 8) = true) ∧
    (hif15.Sizes) ∧
    ((hif15.ring 8).irqSince = some 0) ∧
    (hif15.get (HIF_RMOD_MODTIME 8) ≠ 0) ∧
    (hif15.flag (HIF_RCFG_IEN 8) = true) := by unfold State.Sizes; decide +kernel

theorem witness_RecordsGoToTheirRings_1_1 :
    (hif16.dmaOn = true) ∧
    (hif16.hif.cplQ = [cpl1, cpl1]) ∧
    (hif16.ringRun 1 = true) ∧
    (0 < hif16.ringOwned 1) ∧
    (hif16.hif.fetched = []) := by decide +kernel

theorem witness_RecordsGoToTheirRings_2_1 :
    (hif17.dmaOn = true) ∧
    (hif17.Inv) ∧
    (hif17.evt.queue = [ev1, ev1]) ∧
    (hif17.ringRun 2 = true) ∧
    (0 < hif17.ringOwned 2) := by unfold State.Inv; decide +kernel

theorem witness_RecordsGoToTheirRings_3_1 :
    (hif18.dmaOn = true) ∧
    (hif18.plc.rxQ = [rxr]) ∧
    (hif18.ringRun 10 = true) ∧
    ((hif18.ring 10).posted = [({ addr := (256 : BitVec 64), size := (18 : BitVec 32), cookie := (3 : BitVec 32) } : BufDesc)]) ∧
    ((slotBytes rxr.slots ++ rxr.frame).length ≤ ({ addr := (256 : BitVec 64), size := (18 : BitVec 32), cookie := (3 : BitVec 32) } : BufDesc).size.toNat) := by decide +kernel

theorem witness_RecordsGoToTheirRings_4_1 :
    (hif19.dmaOn = true) := by decide +kernel

theorem witness_PcieFunctionStates_1_1 :
    (hif20.pdOn 9 = true) ∧
    (hif20.ready = true) ∧
    (hif20.flag HIF_STAT_LINKUP = false) ∧
    (1 = 1 ∨ 1 = 2) ∧
    (2 = 1 ∨ 2 = 2) := by decide +kernel

theorem witness_PcieFunctionStates_2_1 :
    ((setAll [(GLB_STAT_READY, 0)] hif20).pdOn 9 = true) ∧
    ((setAll [(GLB_STAT_READY, 0)] hif20).ready = false) := by decide +kernel

theorem witness_PcieFunctionStates_3_1 :
    (up.pdOn 9 = true) ∧
    (up.flag HIF_STAT_LINKUP = true) := by decide +kernel

theorem witness_PcieFunctionStates_4_1 :
    (up.pdOn 9 = true) ∧
    (up.flag HIF_STAT_LINKUP = true) ∧
    (true = true ∨ true = false) := by decide +kernel

/-! Witnesses of StartUpRowsFollowInOrder, RestoreMakesReady, ResetsAct, DeviceStatesAndPowerFail, MonitorsAndClockChecks -/

def ph (x : Phase) : State := withPwr (fun p => { p with phase := x }) up

def pwr1 : State := withRtc (fun r => { r with onBattery := true }) (withPwr (fun p => { p with phase := .backup, cause := 2 }) State.reset)

def pwr2 : State := withPwr (fun p => { p with phase := .inReset, cause := 8 }) (setAll [(PWR_RSTCAUSE_POR, 1)] State.reset)

def pwr3 : State := setAll [(GLB_STRAP_AUTOSTART, 0), (GLB_STAT_READY, 0), (PWR_STAT_STATE, 3)] (ph .restoring)

def pwr4 : State := setAll [(GLB_STRAP_AUTOSTART, 1), (GLB_STAT_READY, 0), (PWR_CTL_TARGET, 0), (PWR_STAT_STATE, 3)] (ph .restoring)

def pwr5 : State := ph .image

def pwr6 : State := withPrf (fun p => { p with imagesTried := [0] }) (ph .image)

def imgHead (crc : Nat) : List (BitVec 8) := slotBytes [0x000149435644, 0, 3, 0x48, 0, BitVec.ofNat 64 crc, 0, 0, 0x800000000]

def img0 : List (BitVec 8) := imgHead (crc32c (imgHead 0))

def pwr18 : State := (setAll [(GLB_STRAP_MSTR, 1)] pwr5).framWrite 0x1000 img0

def pwr7 : State := setAll [(PWR_STAT_STATE, 4), (PWR_CTL_PFRST, 1)] up

def pwr8 : State := setAll [(SAF_CTL_EN, 1), (SAF_CTL_WDTEN, 1)] (running up)

def pwr9 : State := withRtc (fun r => { r with onBattery := true, sec := 77, slew := 3 }) (setAll [(RTC_ALMCTL_ARMED, 1), (RTC_PER_EN, 1), (RTC_BKCFG_BKMODE, 1)] (withPwr (fun p => { p with phase := .backup }) State.reset))

def st (n : Nat) (s : State) : State := setAll [(PWR_STAT_STATE, n)] s

def pwr10 : State := withPwr (fun p => { p with change := .toMeter }) (setAll [(PWR_CTL_TARGET, 1), (PWR_STAT_STATE, 3)] (running up))

def pwr11 : State := withPwr (fun p => { p with change := .toRun }) (setAll [(PWR_CTL_TARGET, 0), (PWR_STAT_STATE, 3)] (running up))

def pwr12 : State := withPwr (fun p => { p with change := .toStandby }) (setAll [(PWR_CTL_TARGET, 2), (PWR_STAT_STATE, 3)] (withTaken [tk 0x20 hm .sync, tk 0x20 hr .sync] up))

def pwr13 : State := withPwr (fun p => { p with phase := .standby }) (setAll [(PWR_CTL_TARGET, 2), (PWR_STAT_STATE, 2), (PWR_STAT_PDON, 3), (PWR_WAKE_ALARM, 1), (RTC_ALMCTL_FIRED, 1), (PWR_WAKE_PERIODIC, 1), (RTC_PERSTAT_WAKE, 1), (GLB_STAT_READY, 0)] up)

def rec2 : LedgerRecord := { kind := 2, expno := 2^64+3, ts := 5, flags := 0, mpmask := 0xFFFFFFFF, seq := 9, audit := 0, regs := [(3, 77)], pinq := [] }

def jobE : ProofJob := { kind := 2, expno := 2^64+3, ts := 5, pinq := [], cmds := [], cycle := none, frozen := 0, kept := [] }

def pwr14 : State := withPrf (fun p => { p with phase := .writing, job := some jobE, record := some rec2 }) (withPwr (fun p => { p with pfRunning := true }) (setAll [(PWR_STAT_PFAIL, 1)] up))

def pwr15 : State := withPwr (fun p => { p with pfRunning := true }) (setAll [(PWR_STAT_PFAIL, 1)] up)

def pwr16 : State := setAll [(PWR_CTL_INTMON, 0)] up

def pwr17 : State := withPwr (fun p => { p with monNow := 0x1FE }) up

def rec5 : LedgerRecord := { kind := 1, expno := 2^64+3, ts := 5, flags := 0, mpmask := 0xFFFFFFFF, seq := 9, audit := 6, regs := [(3, 77)], pinq := [] }

def pwr19 : State := let s := setAll [(GLB_SERIAL_LO_SERIAL, 7)] pwr3; s.framWrite 0x31000 (s.proofBytes rec5)

theorem witness_StartUpRowsFollowInOrder_1_1 :
    (State.reset.pwr.phase = Phase.inReset ∨ State.reset.pwr.phase = Phase.backup) ∧
    (State.reset.pwr.pd1Kept = false) := by decide +kernel

theorem witness_StartUpRowsFollowInOrder_2_1_1 :
    ((ph Phase.sourceSelect).pwr.pfRunning = false) ∧
    ((ph Phase.sourceSelect).pwr.phase = Phase.sourceSelect ∨ (ph Phase.sourceSelect).pwr.phase = Phase.hfRetry) := by decide +kernel

theorem witness_StartUpRowsFollowInOrder_2_2_1 :
    ((ph Phase.hfWait).pwr.pfRunning = false) ∧
    ((ph Phase.hfWait).pwr.phase = Phase.hfWait) := by decide +kernel

theorem witness_StartUpRowsFollowInOrder_2_3_1 :
    ((ph Phase.hfWait).pwr.pfRunning = false) ∧
    ((ph Phase.hfWait).pwr.phase = Phase.hfWait) := by decide +kernel

theorem witness_StartUpRowsFollowInOrder_2_4_1 :
    ((ph Phase.pllWait).pwr.pfRunning = false) ∧
    ((ph Phase.pllWait).pwr.phase = Phase.pllWait) := by decide +kernel

theorem witness_StartUpRowsFollowInOrder_2_5_1 :
    ((ph Phase.memInit).pwr.pfRunning = false) ∧
    ((ph Phase.memInit).pwr.phase = Phase.memInit) ∧
    ((ph Phase.memInit).Sizes) := by unfold State.Sizes; decide +kernel

theorem witness_StartUpRowsFollowInOrder_2_6_1 :
    ((ph Phase.diag).pwr.pfRunning = false) ∧
    ((ph Phase.diag).pwr.phase = Phase.diag) := by decide +kernel

theorem witness_StartUpRowsFollowInOrder_2_7_1 :
    ((ph Phase.diag).pwr.pfRunning = false) ∧
    (13 < 14) ∧
    ((ph Phase.diag).pwr.phase = Phase.diag) := by decide +kernel

theorem witness_RestoreMakesReady_1_1 :
    (pwr3.pwr.phase = Phase.restoring) ∧
    (pwr3.pwr.pfRunning = false) := by decide +kernel

theorem witness_RestoreMakesReady_2_1_1 :
    (pwr5.pwr.phase = Phase.image) ∧
    (pwr5.pwr.pfRunning = false) ∧
    (pwr5.imagePick = some 0) ∧
    (pwr5.imageValid 0 = none) ∧
    (pwr5.prf.imagesTried = []) := by decide +kernel

theorem witness_RestoreMakesReady_2_2_1 :
    (pwr6.pwr.phase = Phase.image) ∧
    (pwr6.pwr.pfRunning = false) ∧
    (pwr6.imagePick = some 1) ∧
    (pwr6.imageValid 1 = none) ∧
    (pwr6.prf.imagesTried = [1 - 1]) := by decide +kernel

theorem witness_RestoreMakesReady_2_3_1 :
    (pwr18.pwr.phase = Phase.image) ∧
    (pwr18.pwr.pfRunning = false) ∧
    (pwr18.imagePick = some 0) ∧
    (pwr18.imageValid 0 = some []) ∧
    (pwr18.flag GLB_STRAP_MSTR = true) := by decide +kernel

theorem witness_ResetsAct_1_1 :
    ((∃ p v, Instr.softrst Port.pcie (3573547009 : BitVec 32) = Instr.softrst p v ∧ (8 : BitVec 7) = (8 : BitVec 7) ∧ up.pd1On = true ∧ v.toNat / 2 ^ 24 = 213 ∧ bitAt v.toNat 0 = true) ∨ Instr.softrst Port.pcie (3573547009 : BitVec 32) = Instr.resetN ∧ (8 : BitVec 7) = (4 : BitVec 7) ∧ up.pwr.phase ≠ Phase.backup ∨ Instr.softrst Port.pcie (3573547009 : BitVec 32) = Instr.powerFailRecovery ∧ (8 : BitVec 7) = (64 : BitVec 7) ∧ up.devState = stPfhold ∧ up.flag PWR_CTL_PFRST = true ∧ up.pwr.monNow &&& (126 : BitVec 9) = (0 : BitVec 9) ∨ Instr.softrst Port.pcie (3573547009 : BitVec 32) = Instr.watchdogExpiry ∧ (8 : BitVec 7) = (16 : BitVec 7) ∧ up.flag SAF_CTL_EN = true ∧ up.flag SAF_CTL_WDTEN = true ∧ up.monStarted = true ∧ up.exp.running = true ∧ up.flag PWR_STAT_PFAIL = false) := by
  first | exact Or.inl ⟨_, _, rfl, by decide +kernel⟩ | exact Or.inr (by decide +kernel)

theorem witness_ResetsAct_1_2 :
    ((∃ p v, Instr.resetN = Instr.softrst p v ∧ (4 : BitVec 7) = (8 : BitVec 7) ∧ (running up).pd1On = true ∧ v.toNat / 2 ^ 24 = 213 ∧ bitAt v.toNat 0 = true) ∨ Instr.resetN = Instr.resetN ∧ (4 : BitVec 7) = (4 : BitVec 7) ∧ (running up).pwr.phase ≠ Phase.backup ∨ Instr.resetN = Instr.powerFailRecovery ∧ (4 : BitVec 7) = (64 : BitVec 7) ∧ (running up).devState = stPfhold ∧ (running up).flag PWR_CTL_PFRST = true ∧ (running up).pwr.monNow &&& (126 : BitVec 9) = (0 : BitVec 9) ∨ Instr.resetN = Instr.watchdogExpiry ∧ (4 : BitVec 7) = (16 : BitVec 7) ∧ (running up).flag SAF_CTL_EN = true ∧ (running up).flag SAF_CTL_WDTEN = true ∧ (running up).monStarted = true ∧ (running up).exp.running = true ∧ (running up).flag PWR_STAT_PFAIL = false) := by
  first | exact Or.inl ⟨_, _, rfl, by decide +kernel⟩ | exact Or.inr (by decide +kernel)

theorem witness_ResetsAct_1_3 :
    ((∃ p v, Instr.powerFailRecovery = Instr.softrst p v ∧ (64 : BitVec 7) = (8 : BitVec 7) ∧ pwr7.pd1On = true ∧ v.toNat / 2 ^ 24 = 213 ∧ bitAt v.toNat 0 = true) ∨ Instr.powerFailRecovery = Instr.resetN ∧ (64 : BitVec 7) = (4 : BitVec 7) ∧ pwr7.pwr.phase ≠ Phase.backup ∨ Instr.powerFailRecovery = Instr.powerFailRecovery ∧ (64 : BitVec 7) = (64 : BitVec 7) ∧ pwr7.devState = stPfhold ∧ pwr7.flag PWR_CTL_PFRST = true ∧ pwr7.pwr.monNow &&& (126 : BitVec 9) = (0 : BitVec 9) ∨ Instr.powerFailRecovery = Instr.watchdogExpiry ∧ (64 : BitVec 7) = (16 : BitVec 7) ∧ pwr7.flag SAF_CTL_EN = true ∧ pwr7.flag SAF_CTL_WDTEN = true ∧ pwr7.monStarted = true ∧ pwr7.exp.running = true ∧ pwr7.flag PWR_STAT_PFAIL = false) := by
  first | exact Or.inl ⟨_, _, rfl, by decide +kernel⟩ | exact Or.inr (by decide +kernel)

theorem witness_ResetsAct_1_4 :
    ((∃ p v, Instr.watchdogExpiry = Instr.softrst p v ∧ (16 : BitVec 7) = (8 : BitVec 7) ∧ pwr8.pd1On = true ∧ v.toNat / 2 ^ 24 = 213 ∧ bitAt v.toNat 0 = true) ∨ Instr.watchdogExpiry = Instr.resetN ∧ (16 : BitVec 7) = (4 : BitVec 7) ∧ pwr8.pwr.phase ≠ Phase.backup ∨ Instr.watchdogExpiry = Instr.powerFailRecovery ∧ (16 : BitVec 7) = (64 : BitVec 7) ∧ pwr8.devState = stPfhold ∧ pwr8.flag PWR_CTL_PFRST = true ∧ pwr8.pwr.monNow &&& (126 : BitVec 9) = (0 : BitVec 9) ∨ Instr.watchdogExpiry = Instr.watchdogExpiry ∧ (16 : BitVec 7) = (16 : BitVec 7) ∧ pwr8.flag SAF_CTL_EN = true ∧ pwr8.flag SAF_CTL_WDTEN = true ∧ pwr8.monStarted = true ∧ pwr8.exp.running = true ∧ pwr8.flag PWR_STAT_PFAIL = false) := by
  first | exact Or.inl ⟨_, _, rfl, by decide +kernel⟩ | exact Or.inr (by decide +kernel)

theorem witness_ResetsAct_2_1_1 :
    ((running up).pwr.phase ≠ Phase.backup) ∧
    ((running up).rtc.vbLow = false) := by decide +kernel

theorem witness_ResetsAct_2_2_1 :
    ((running up).pwr.phase ≠ Phase.inReset) ∧
    ((running up).pwr.phase ≠ Phase.backup) ∧
    ((running up).pwr.phase ≠ Phase.standby) := by decide +kernel

theorem witness_ResetsAct_2_3_1 :
    (true = true ∨ (running up).rtc.onBattery = true) := by decide +kernel

theorem witness_DeviceStatesAndPowerFail_1_1_1_1 :
    ((st 0 up).writable (WriteBy.port Port.pcie) PWR_CTL = true) ∧
    ((st 0 up).flag PWR_STAT_PFAIL = false) ∧
    ((st 0 up).devState = stRun) ∧
    (BitVec.toNat (1 : BitVec 32) % 4 = 1) := by decide +kernel

theorem witness_DeviceStatesAndPowerFail_1_1_2_1 :
    ((st 1 up).writable (WriteBy.port Port.hspi) PWR_CTL = true) ∧
    ((st 1 up).flag PWR_STAT_PFAIL = false) ∧
    ((st 1 up).devState = stMeter) ∧
    (BitVec.toNat (4294967292 : BitVec 32) % 4 = 0) := by decide +kernel

theorem witness_DeviceStatesAndPowerFail_1_1_3_1 :
    ((st 1 (running up)).writable (WriteBy.port Port.hspi) PWR_CTL = true) ∧
    ((st 1 (running up)).flag PWR_STAT_PFAIL = false) ∧
    ((st 1 (running up)).devState = stRun ∨ (st 1 (running up)).devState = stMeter) ∧
    (BitVec.toNat (2 : BitVec 32) % 4 = 2) := by decide +kernel

theorem witness_DeviceStatesAndPowerFail_1_2_1 :
    (pwr10.pwr.change = Change.toMeter) ∧
    (pwr10.pwr.want = none) := by decide +kernel

theorem witness_DeviceStatesAndPowerFail_1_3_1 :
    (pwr11.pwr.change = Change.toRun) ∧
    (pwr11.pwr.want = none) := by decide +kernel

theorem witness_DeviceStatesAndPowerFail_1_4_1 :
    (pwr12.pwr.change = Change.toStandby) ∧
    (pwr12.pwr.want = none) ∧
    (pwr12.exp.running = false) ∧
    (pwr12.proofOpen (3 : BitVec 8) = false) ∧
    (pwr12.prf.phase = ProofPhase.idle) := by decide +kernel

theorem witness_DeviceStatesAndPowerFail_1_5_1 :
    (pwr13.devState = stStandby) ∧
    (pwr13.flag PWR_STAT_PFAIL = false) ∧
    (WakeCause.alarm = WakeCause.alarm ∧ pwr13.flag PWR_WAKE_ALARM = true ∧ pwr13.flag RTC_ALMCTL_FIRED = true ∨ WakeCause.alarm = WakeCause.periodic ∧ pwr13.flag PWR_WAKE_PERIODIC = true ∧ pwr13.flag RTC_PERSTAT_WAKE = true ∨ WakeCause.alarm = WakeCause.target (2 : BitVec 32) ∧ pwr13.writable (WriteBy.port Port.hspi) PWR_CTL = true ∧ BitVec.toNat (2 : BitVec 32) % 4 ≤ 1) := by decide +kernel

theorem witness_DeviceStatesAndPowerFail_2_1_1 :
    ((running up).pd1On = true) ∧
    ((running up).flag PWR_STAT_PFAIL = false) := by decide +kernel

theorem witness_DeviceStatesAndPowerFail_2_2_1 :
    (pwr14.pwr.pfRunning = true) ∧
    (pwr14.devState ≠ stPfhold) ∧
    (pwr14.prf.phase = ProofPhase.writing) ∧
    (pwr14.prf.job = some jobE) ∧
    (jobE.kind = (2 : BitVec 8)) ∧
    (pwr14.prf.record = some rec2) := by decide +kernel

theorem witness_DeviceStatesAndPowerFail_2_3_1 :
    (pwr15.pwr.pfRunning = true) ∧
    (pwr15.devState ≠ stPfhold) ∧
    (pwr15.prf.job = none) := by decide +kernel

theorem witness_MonitorsAndClockChecks_1_1 :
    (Monitor.pfVddio ∈ [Monitor.pfVddio, Monitor.ovVddc, Monitor.ovVdda, Monitor.ovVddio]) ∧
    (pwr16.pd1On = true) ∧
    (pwr16.flag PWR_CTL_INTMON = false) ∧
    (bitAt pwr16.pwr.monNow.toNat (monBit Monitor.pfVddio) = false) := by decide +kernel

theorem witness_MonitorsAndClockChecks_2_1 :
    (Monitor.pfVdda ∈ [Monitor.pfVddio, Monitor.pfVddc, Monitor.pfVdda, Monitor.ovVddc, Monitor.ovVdda, Monitor.ovVddio]) ∧
    (bitAt pwr17.pwr.monNow.toNat (monBit Monitor.pfVdda) = true) := by decide +kernel

theorem witness_MonitorsAndClockChecks_3_1 :
    (Monitor.ovVddc ∈ [Monitor.ovVddc, Monitor.ovVdda, Monitor.ovVddio]) ∧
    (bitAt pwr17.pwr.monNow.toNat (monBit Monitor.ovVddc) = true) ∧
    (pwr17.pdOn 5 = true) ∧
    (pwr17.reach (pwr17.pwr.ovAt.getD (monBit Monitor.ovVddc - 4) 0 + msCycles 1) = pwr17.reach (pwr17.pwr.ovAt.getD (monBit Monitor.ovVddc - 4) 0 + msCycles 1)) := by decide +kernel

theorem witness_MonitorsAndClockChecks_4_1 :
    ((st 0 up).flag PWR_STAT_HFOK = true) := by decide +kernel

/-! Witnesses of ExposuresFollowEachOther, DevelopmentAndStreams, ResolutionEntersLedgerOnce -/

def noIn : BoundaryIn := { chans := [], pin2 := [], flips := [], ecc := [], dPair := [], partner := none }

def noUp : EngineUpset := { ss := [], p := [], lanes := [] }

def exp1 : State := withExp (fun e => { e with syncAt := some 40000 }) (running up)

def exp2 : State := withExp (fun e => { e with syncAt := some 30000, syncSrc := 2 }) (setAll [(FLT_STAT_SYNCPEND, 1)] (running point0))

def exp3 : State := withExp (fun e => { e with syncAt := some 3000, syncSrc := 1, next := 9 }) (setAll [(FLT_STAT_SYNCPEND, 1)] up)

def exp4 : State := withPwr (fun p => { p with phase := .internalSync }) (setAll [(PWR_STAT_ASBUSY, 1)] point0)

def chs1 : List ChanSum := [{ ch := 0, ss := 2 ^ 60, n := 32 }, { ch := 1, ss := 2 ^ 58, n := 32 }]

def el1 : ElemSum := { vch := 0, ich := 1, p := 2 ^ 58, n := 32, q := 5, a1 := 2 ^ 57, sv := 2 ^ 60, si := 2 ^ 58, settle := 0, loss := 0, ovr := 0 }

def eff1 : List (Nat × BitVec 32) := point0.regs

def snd1 : DevResult := { chans := chs1, points := [pointDev eff1 chs1 0 [el1]] }

def slot1 : Slot := { expno := 5, ts := 0x1000, startAt := 0, endAt := 32768, startTs := 0, short := false, words := [], roles := [], eff := eff1, running := 1, parBad := 0, ecc := [], mu := [], freq := [], pairC := none, awayOwn := false, awayOther := false }

def x1 : Expo := { slot := slot1, deadline := 0x100000, judged := 0, before := [], sound := snd1, dev := none, corrected := [], fix := none, replaying := false, replay := none, latent := 0, resolved := 0, fixed := 0, openCh := [], unconf := [], struck := false, ssCounted := false, viewed := false, compared := false, outcome := [], pairWait := [] }

def exp5 : State := withExp (fun e => { e with pipe := [x1] }) (running point0)

def x2 : Expo := { x1 with dev := some snd1, latent := 1 }

def exp6 : State := withLdg (fun l => { l with regs := [(0, 5), (40, 6)] }) (withExp (fun e => { e with pipe := [x2] }) (running point0))

def up1 : EngineUpset := { ss := [], p := [(0, 0, 5)], lanes := [] }

def x3 : Expo := { x2 with fix := some snd1, judged := 1, compared := true, replaying := true }

def exp7 : State := withLdg (fun l => { l with regs := [(0, 5), (40, 6)] }) (withExp (fun e => { e with pipe := [x3] }) (running point0))

def late60 (s : State) : State := withRtc (fun r => { r with sec := 3 }) s

def chS (n : Nat) (f : ChState → ChState) (s : State) : State := withExp (fun e => { e with chans := e.chans.modify n f }) s

def brS (n : Nat) (f : BrkState → BrkState) (s : State) : State := withExp (fun e => { e with brk := e.brk.modify n f }) s

def exp8 : State := chS 95 (fun c => { c with started := true }) (setAll [(SAF_CTL_EN, 1)] (running up))

def exp9 : State := chS 2 (fun c => { c with started := true }) (brS 1 (fun b => { b with on := true }) (setAll [(MFE_BRKST_SEL 1, 1)] (running up)))

def exp10 : State := brS 47 (fun b => { b with on := true, count := 50 }) (setAll [(MFE_BRKST_SEL 47, 0), (MFE_BRKSW_TOHG 47, 65535)] (running up))

theorem witness_ExposuresFollowEachOther_1_1 :
    ((running up).pwr.change ≠ Change.toStandby) ∧
    ((running up).tzl.jump = none) ∧
    (∀ x ∈ (running up).taken, ∀ (k : BitVec 8), x.wait ≠ Wait.reinit k) ∧
    ((running up).exp.running = true) ∧
    ((running up).follows = false) ∧
    (∀ (e : ℕ), (running up).exp.syncAt = some e → (running up).exp.startAt + 32768 < e) := by decide +kernel

theorem witness_ExposuresFollowEachOther_2_1 :
    (exp2.pwr.change ≠ Change.toStandby) ∧
    (exp2.tzl.jump = none) ∧
    (∀ x ∈ exp2.taken, ∀ (k : BitVec 8), x.wait ≠ Wait.reinit k) ∧
    (exp2.exp.syncAt = some 30000) ∧
    (exp2.noRun = false) ∧
    (exp2.exp.running = true → 30000 ≤ exp2.exp.startAt + 32768) := by decide +kernel

theorem witness_ExposuresFollowEachOther_3_1 :
    (exp4.pwr.change ≠ Change.toStandby) ∧
    (exp4.tzl.jump = none) ∧
    (∀ x ∈ exp4.taken, ∀ (k : BitVec 8), x.wait ≠ Wait.reinit k) ∧
    (exp4.pwr.phase = Phase.internalSync) ∧
    (exp4.pwr.pfRunning = false) := by decide +kernel

theorem witness_DevelopmentAndStreams_1_1 :
    (exp5.exp.pipe = [x1]) ∧
    (x1.dev = none) ∧
    (x1.fix = none) ∧
    (x1.compared = false) ∧
    (exp5.lateFor x1.deadline = false) ∧
    (x1.slot.parBad = 0) ∧
    (x1.slot.ecc = []) := by decide +kernel

theorem witness_ResolutionEntersLedgerOnce_1_1_1 :
    (exp6.exp.pipe = [x2]) ∧
    (exp6.taken = []) ∧
    (exp6.tzl.mode ≠ (2 : BitVec 2)) ∧
    (exp6.tzl.mirGot = []) ∧
    (exp6.inSafe = false) ∧
    (x2.slot.pairC = none) ∧
    (x2.pairWait = []) ∧
    (x2.resolved = (0 : BitVec 32)) ∧
    (noUp.lanes = []) ∧
    (snd1 = upsetResult x2.slot.eff x2.sound noUp) ∧
    (x2.dev = some snd1) ∧
    (x2.fix = none) ∧
    (x2.compared = false) ∧
    (x2.judged = (0 : BitVec 32)) ∧
    (exp6.lateFor x2.deadline = false) ∧
    (∀ p ∈ x2.points, pointAgrees x2.slot.eff snd1 snd1 p = true) ∧
    (∀ n ∈ x2.openCh, chanAgrees snd1 snd1 n = true) := by decide +kernel

theorem witness_ResolutionEntersLedgerOnce_1_2_1 :
    (exp6.exp.pipe = [x2]) ∧
    (exp6.taken = []) ∧
    (exp6.tzl.mode ≠ (2 : BitVec 2)) ∧
    (exp6.tzl.mirGot = []) ∧
    (exp6.inSafe = false) ∧
    (x2.slot.pairC = none) ∧
    (x2.pairWait = []) ∧
    (x2.resolved = (0 : BitVec 32)) ∧
    (up1.lanes = []) ∧
    (upsetResult eff1 snd1 up1 = upsetResult x2.slot.eff x2.sound up1) ∧
    (x2.dev = some snd1) ∧
    (x2.fix = none) ∧
    (x2.compared = false) ∧
    (x2.judged = (0 : BitVec 32)) ∧
    (exp6.lateFor x2.deadline = false) ∧
    (∃ p ∈ x2.points, pointAgrees x2.slot.eff snd1 (upsetResult eff1 snd1 up1) p = false) := by decide +kernel

theorem witness_ResolutionEntersLedgerOnce_2_1 :
    (exp7.exp.pipe = [x3]) ∧
    (exp7.taken = []) ∧
    (exp7.tzl.mode ≠ (2 : BitVec 2)) ∧
    (exp7.tzl.mirGot = []) ∧
    (exp7.inSafe = false) ∧
    (x3.slot.pairC = none) ∧
    (x3.pairWait = []) ∧
    (x3.resolved = (0 : BitVec 32)) ∧
    (noUp.lanes = []) ∧
    (snd1 = upsetResult x3.slot.eff x3.sound noUp) ∧
    (x3.fix = some snd1) ∧
    (x3.dev ≠ none) ∧
    (x3.compared = true) ∧
    (x3.replaying = true) ∧
    (∀ p ∈ x3.points, bitAt x3.judged.toNat p = true ∧ snd1.point p ≠ none) ∧
    (exp7.lateFor x3.deadline = false) := by decide +kernel

theorem witness_ResolutionEntersLedgerOnce_3_1 :
    ((late60 exp7).exp.pipe = [x3]) ∧
    ((late60 exp7).taken = []) ∧
    ((late60 exp7).tzl.mode ≠ (2 : BitVec 2)) ∧
    ((late60 exp7).tzl.mirGot = []) ∧
    ((late60 exp7).inSafe = false) ∧
    (x3.slot.pairC = none) ∧
    (x3.pairWait = []) ∧
    (x3.resolved = (0 : BitVec 32)) ∧
    (noUp.lanes = []) ∧
    (snd1 = upsetResult x3.slot.eff x3.sound noUp) ∧
    (x3.fix ≠ none) ∧
    (x3.replaying = true) ∧
    ((late60 exp7).lateFor x3.deadline = true) := by decide +kernel

theorem witness_ResolutionEntersLedgerOnce_4_1 :
    ((late60 exp6).exp.pipe = [x2]) ∧
    ((late60 exp6).taken = []) ∧
    ((late60 exp6).tzl.mode ≠ (2 : BitVec 2)) ∧
    ((late60 exp6).tzl.mirGot = []) ∧
    ((late60 exp6).inSafe = false) ∧
    (x2.slot.pairC = none) ∧
    (x2.pairWait = []) ∧
    (x2.resolved = (0 : BitVec 32)) ∧
    (noUp.lanes = []) ∧
    (snd1 = upsetResult x2.slot.eff x2.sound noUp) ∧
    (x2.dev = some snd1) ∧
    (x2.fix = none) ∧
    (x2.replay = none) ∧
    (x2.compared = false) ∧
    ((late60 exp6).passed x2.deadline = true) := by decide +kernel

theorem witness_DevelopmentAndStreams_2_1_1 :
    (exp8.Sizes) ∧
    (95 < 96) ∧
    ((exp8.chan 95).started = true) ∧
    ((exp8.chan 95).held = false) ∧
    ((exp8.chan 95).lost = false) ∧
    (exp8.pdOn 5 = true) := by unfold State.Sizes; decide +kernel

theorem witness_DevelopmentAndStreams_2_2_1_1 :
    (exp9.Sizes) ∧
    (1 < 48) ∧
    ((exp9.brk 1).on = true) ∧
    (exp9.flag (MFE_BRKST_SEL 1) = true) := by unfold State.Sizes; decide +kernel

theorem witness_DevelopmentAndStreams_2_2_2_1 :
    (exp10.Sizes) ∧
    (47 < 48) ∧
    ((exp10.brk 47).on = true) ∧
    (exp10.flag (MFE_BRKST_SEL 47) = false) ∧
    (exp10.flag (MFE_BRKST_HGLOSS 47) = false) ∧
    ((exp10.brk 47).canReturn 17 = true) := by unfold State.Sizes; decide +kernel

/-! Witnesses of ZeroCrossings, WindowsAndHalfCycles, CalibrationPulsesKeepTheirAmount, TripOutputs, PulseInputsCount -/

def wsmp (i : Nat) (z : Int) : WSample := { at_ := i * 1024 * 65536, z := z, settle := false, loss := false, ovr := false, expno := 4 }

def wv : List WSample := [wsmp 1 (-4294967296), wsmp 2 (-4294967296), wsmp 3 4294967296, wsmp 4 4294967296, wsmp 5 4294967296]

def nwv : List WSample := wv.map (fun w => { w with z := -w.z })

def grS (g : Nat) (f : GroupState → GroupState) (s : State) : State := withEvt (fun e => { e with groups := e.groups.modify g f }) s

def evt0 : State := withExp (fun e => { e with eff := point0.regs, now := 20000 }) (running point0)

def evt1 : State := withEvt (fun e => { e with samples := [(0, wv)] }) evt0

def cr1 : Nat × Nat × BitVec 72 := (evt1.nextCross 0 true).getD (0, 0, 0)

def evt2 : State := grS 0 (fun g => { g with lastRise := some (cr1.1 - 16384000 * 65536 / 50) }) evt1

def evt2c : State := withEvt (fun e => { e with samples := [(0, wv.map (fun w => { w with at_ := w.at_ + 16384000 * 65536 }))] }) evt0

def cr2 : Nat × Nat × BitVec 72 := (evt2c.nextCross 0 true).getD (0, 0, 0)

def evt3 : State := grS 0 (fun g => { g with lastRise := some (cr2.1 - 16384000 * 65536 / 50) }) evt2c

def evt4 : State := grS 0 (fun g => { g with lastRise := some (cr2.1 - 16384000 * 65536 / 10) }) evt2c

def evt5 : State := grS 0 (fun g => { g with lastRise := some (cr2.1 - 5000) }) evt2c

def evt6 : State := withEvt (fun e => { e with samples := [(0, nwv)] }) evt0

def cr3 : Nat × Nat × BitVec 72 := (evt6.nextCross 0 false).getD (0, 0, 0)

def evt7w : List WSample := [wsmp 1 (-5), wsmp 2000 (-5)]

def evt7 : State := withEvt (fun e => { e with samples := [(0, evt7w)] }) <| grS 0 (fun g => { g with lastRise := some 0, win := some { start := 0, tsStart := 0, stop := 0, tsStop := 0, fcyc := [], short := false, ext := [], flagged := false, seq := 0 } }) (setAll [(EVT_VGSTAT_LOCK 0, 1)] evt0)

def evt7d : Nat := secAt / 45 + 1

def uh1 : UHalf := { at_ := 5 * 1024 * 65536, from_ := some (1024 * 65536), ts := 9, exp := 4 }

def evt8 : State := grS 0 (fun g => { g with uhalf := [uh1, uh1] }) evt1

def uh2 : UHalf := { uh1 with exp := 5 }

def evt9 : State := grS 0 (fun g => { g with uhalf := [uh2] }) evt1

def win1 : Window := { start := 1024 * 65536, tsStart := 5, stop := 3 * 1024 * 65536, tsStop := 9, fcyc := [], short := false, ext := [some (5, 7)], flagged := false, seq := 3 }

def evt10 : State := postBuf 8 big (postBuf 8 big (grS 0 (fun g => { g with done := [win1] }) evt1))

def evt11 : State := postBuf 8 big (postBuf 8 big (grS 0 (fun g => { g with done := [win1] }) evt0))

def cfS (n : Nat) (f : CfState → CfState) (s : State) : State := { s with pio := { s.pio with cf := s.pio.cf.modify n f } }

def pio1 : State := cfS 3 (fun c => { c with acc := 1000, due := [70000] }) (setAll [(PIO_CFSTAT_RUN 3, 1), (PIO_CFK0_K 3, 300)] up)

def pio1e : State := withExp (fun e => { e with eff := pio1.regs }) pio1

def pio2 : State := cfS 3 (fun c => { c with slotEnd := 90000, sched := [(80000, 5), (85000, 5)] }) pio1e

def pio3 : State := cfS 15 (fun c => { c with high := some (900, 400), sched := [(1200, 7)] }) up

def pio3c : State := cfS 0 (fun c => { c with sched := [(1200, 7)] }) (up.wr (PIO_CFCNT 0) 0xFFFFFFFF)

def trS (n : Nat) (f : TripState → TripState) (s : State) : State := { s with pio := { s.pio with trip := s.pio.trip.modify n f } }

def pio4 : State := setAll [(PIO_TRCFG_EN 7, 1)] up

def pio5 : State := trS 7 (fun t => { t with tripped := true }) (setAll [(PIO_TRCFG_EN 7, 1), (PIO_TRSTAT_TRIPPED 7, 1), (PIO_TRSTAT_DRIVE 7, 1)] up)

def pio6 : State := trS 7 (fun t => { t with minUntil := some 999 }) pio5

def pio7 : State := withEvt (fun e => { e with pulses := [(0x0101, 3, 100), (0x0102, 3, 100)] }) up

def pio8 : State := trS 7 (fun t => { t with mismatch := 1 }) (withExp (fun e => { e with now := 100000 }) (setAll [(PIO_TRCFG_RBEN 7, 1), (PIO_TRSTAT_DRIVE 7, 1)] pio5))

def pin1 : State := setAll [(PIO_PINSTAT_RUN 15, 1)] up

def pin2 : State := setAll [(PIO_PINSTAT_RUN 15, 1), (PIO_PINCFG_EDGE 15, 1)] up

def pin3 : State := withExp (fun e => { e with running := true, cur := 5, next := 6, startAt := 1000, now := 1200 }) pin1

def pin4 : State := setAll [(PIO_PINSTAT_RUN 15, 1), (PIO_PINCFG_DEB 15, 20)] up

def pin5 : State := withExp (fun e => { e with eff := pin4.regs }) { pin4 with pio := { pin4.pio with pin := pin4.pio.pin.modify 15 (fun p => { p with changedAt := some 800 }) } }

def pio9 : State := setAll [(PIO_PINSTAT_RUN 4, 1), (PIO_PINSTAT_RUN 5, 1), (PIO_PINCFG_QUAD 4, 1)] up

def pio10 : State := withExp (fun e => { e with eff := pio9.regs }) pio9

def pio11 : State := setAll [(PIO_PINSTAT_RUN 4, 1), (PIO_PINWD_TIMEOUT 4, 5)] up

def pio12 : State := withExp (fun e => { e with eff := pio11.regs }) pio11

theorem witness_ZeroCrossings_1_1_1_1 :
    (evt1.Sizes) ∧
    (0 < 8) ∧
    (evt1.pdOn 5 = true) ∧
    (evt1.nextCross 0 true = some (cr1.1, cr1.2.1, cr1.2.2)) ∧
    (∀ (l : ℕ), (evt1.grp 0).lastRise = some l → secAt ≤ (cr1.1 - l) * 65) := by unfold State.Sizes; decide +kernel

theorem witness_ZeroCrossings_1_1_2_1 :
    (evt5.Sizes) ∧
    (0 < 8) ∧
    (evt5.pdOn 5 = true) ∧
    (evt5.nextCross 0 true = some (cr2.1, cr2.2.1, cr2.2.2)) ∧
    ((evt5.grp 0).lastRise = some (cr2.1 - 5000)) ∧
    ((cr2.1 - (cr2.1 - 5000)) * 65 < secAt) := by unfold State.Sizes; decide +kernel

theorem witness_ZeroCrossings_1_2_1 :
    (evt6.Sizes) ∧
    (0 < 8) ∧
    (evt6.pdOn 5 = true) ∧
    (evt6.nextCross 0 false = some (cr3.1, cr3.2.1, cr3.2.2)) ∧
    (∀ (l : ℕ), (evt6.grp 0).lastFall = some l → secAt ≤ (cr3.1 - l) * 65) := by unfold State.Sizes; decide +kernel

theorem witness_ZeroCrossings_2_1_1 :
    (0 < 8) ∧
    (evt7.Sizes) ∧
    (evt7.pdOn 5 = true) ∧
    (groupChans evt7.exp.eff 0 = [0]) ∧
    ((evt7.grp 0).lastRise = some 0) ∧
    (evt7d = 0 + evt7.heldAfter 0 0 + secAt / 45 + 1) ∧
    (evt7.samplesKnown 0 evt7d = true) ∧
    (evt7.riseBy 0 0 evt7d 64 (evt7.grp 0).seenRise = false) ∧
    ((evt7.grp 0).frange = none) ∧
    (evt7.reach (evt7d / 65536 + 1) = evt7.reach (evt7d / 65536 + 1)) := by unfold State.Sizes; decide +kernel

theorem witness_ZeroCrossings_2_2_1_1 :
    (up.evt.macFree = false) ∧
    (up.pdOn 7 = true) ∧
    (up.CanLog) ∧
    (groupChans up.exp.eff 0 = [] ∨ (up.grp 0).lastRise = none ∧ up.nextCross 0 true = none) := by unfold State.CanLog; decide +kernel

theorem witness_ZeroCrossings_2_2_2_1 :
    (evt7.evt.macFree = false) ∧
    (evt7.pdOn 7 = true) ∧
    (evt7.CanLog) ∧
    (groupChans evt7.exp.eff 0 = [0]) ∧
    ((evt7.grp 0).lastRise = some 0) ∧
    (evt7.samplesKnown 0 (0 + msCycles 50 * 65536) = true) ∧
    (evt7.riseBy 0 0 (0 + msCycles 50 * 65536) 64 (evt7.grp 0).seenRise = false) ∧
    (evt7.reach (msCycles 50) = evt7.reach ((0 + msCycles 50 * 65536) / 65536)) := by unfold State.CanLog; decide +kernel

theorem witness_WindowsAndHalfCycles_1_1_1 :
    (0 < 8) ∧
    (evt8.pdOn 5 = true) ∧
    (evt8.Sizes) ∧
    ((evt8.grp 0).uhalf = [uh1, uh1]) ∧
    (evt8.resolvedTo uh1.exp = true) ∧
    (∀ n ∈ groupChans evt8.exp.eff 0, evt8.samplesKnown n uh1.at_ = true) := by unfold State.Sizes; decide +kernel

theorem witness_WindowsAndHalfCycles_1_2_1 :
    (0 < 8) ∧
    (evt9.pdOn 5 = true) ∧
    (evt9.Sizes) ∧
    ((evt9.grp 0).uhalf = [uh2]) ∧
    (evt9.resolvedTo uh2.exp = false ∨ ∃ n ∈ groupChans evt9.exp.eff 0, evt9.samplesKnown n uh2.at_ = false) := by unfold State.Sizes; decide +kernel

theorem witness_WindowsAndHalfCycles_2_1 :
    (0 < 8) ∧
    (evt11.pdOn 5 = true) ∧
    (evt11.Sizes) ∧
    ((evt11.grp 0).done = [win1]) ∧
    ((evt11.grp 0).uhalf = []) ∧
    (∀ n ∈ evt11.windowChans 0, evt11.windowReady win1 n = true) ∧
    (evt11.ringRun 8 = true) ∧
    (evt11.dmaOn = true) ∧
    ((evt11.windowChans 0).length < (evt11.ring 8).posted.length) ∧
    (∀ b ∈ (evt11.ring 8).posted, 2176 ≤ b.size.toNat) := by unfold State.Sizes; decide +kernel

theorem witness_CalibrationPulsesKeepTheirAmount_1_1_1 :
    (3 < 16) ∧
    (pio1e.Sizes) ∧
    ((pio1e.cf 3).due = [70000]) ∧
    (pio1e.flag (PIO_CFSTAT_RUN 3) = true) ∧
    (pio1e.inSafe = false) ∧
    (pio1e.reach 70000 = pio1e.reach 70000) := by unfold State.Sizes; decide +kernel

theorem witness_CalibrationPulsesKeepTheirAmount_1_2_1 :
    (3 < 16) ∧
    ((setAll [(SAF_STAT_SAFE, 1)] pio2).Sizes) ∧
    (((setAll [(SAF_STAT_SAFE, 1)] pio2).cf 3).due = [70000]) ∧
    ((setAll [(SAF_STAT_SAFE, 1)] pio2).flag (PIO_CFSTAT_RUN 3) = false ∨ (setAll [(SAF_STAT_SAFE, 1)] pio2).inSafe = true) ∧
    ((setAll [(SAF_STAT_SAFE, 1)] pio2).reach 70000 = (setAll [(SAF_STAT_SAFE, 1)] pio2).reach 70000) := by unfold State.Sizes; decide +kernel

theorem witness_CalibrationPulsesKeepTheirAmount_2_1 :
    (15 < 16) ∧
    (pio3.Sizes) ∧
    ((pio3.cf 15).high = some (900, 400)) ∧
    (pio3.reach 900 = pio3.reach 900) := by unfold State.Sizes; decide +kernel

theorem witness_CalibrationPulsesKeepTheirAmount_3_1 :
    (3 < 16) ∧
    (pio2.Sizes) ∧
    ((pio2.cf 3).high = none) ∧
    ((pio2.cf 3).sched = [(80000, 5), (85000, 5)]) ∧
    (pio2.reach 80000 = pio2.reach 80000) := by unfold State.Sizes; decide +kernel

theorem witness_TripOutputs_1_1 :
    (7 < 8) ∧
    (pio4.Sizes) ∧
    (pio4.writable (WriteBy.port Port.pcie) PIO_TRHOST = true) ∧
    (bitAt (fieldOf (pio4.stored PIO_TRHOST (128 : BitVec 32)) PIO_TRHOST_HOST) 7 = true) ∧
    (pio4.flag (PIO_TRCFG_EN 7) = true) := by unfold State.Sizes; decide +kernel

theorem witness_TripOutputs_2_1 :
    (7 < 8) ∧
    (pio5.Sizes) ∧
    (pio5.writable (WriteBy.port Port.pcie) (PIO_TRCFG 7) = true) ∧
    (bitAt (pio5.stored (PIO_TRCFG 7) (0 : BitVec 32)).toNat 31 = false) ∧
    (pio5.flag (PIO_TRCFG_EN 7) = true) := by unfold State.Sizes; decide +kernel

theorem witness_TripOutputs_3_1 :
    (7 < 8) ∧
    ((setAll [(PIO_TRCFG_LATCH 7, 1)] pio5).Sizes) ∧
    ((setAll [(PIO_TRCFG_LATCH 7, 1)] pio5).writable (WriteBy.port Port.pcie) PIO_TRACK = true) ∧
    (bitAt (BitVec.toNat (128 : BitVec 32)) 7 = true) ∧
    ((setAll [(PIO_TRCFG_LATCH 7, 1)] pio5).tripSources 7 = 0) ∧
    (bitAt ((setAll [(PIO_TRCFG_LATCH 7, 1)] pio5).get PIO_TRHOST_HOST) 7 = false) ∧
    ((setAll [(PIO_TRCFG_LATCH 7, 1)] pio5).flag (PIO_TRCFG_EN 7) = true) ∧
    (((setAll [(PIO_TRCFG_LATCH 7, 1)] pio5).trip 7).tripped = true) ∧
    (∀ (u : ℕ), ((setAll [(PIO_TRCFG_LATCH 7, 1)] pio5).trip 7).minUntil = some u → u ≤ (setAll [(PIO_TRCFG_LATCH 7, 1)] pio5).exp.now) := by unfold State.Sizes; decide +kernel

theorem witness_TripOutputs_4_1 :
    (7 < 8) ∧
    (pio6.Sizes) ∧
    ((pio6.trip 7).minUntil = some 999) ∧
    (pio6.tripSources 7 = 0) ∧
    (bitAt (pio6.get PIO_TRHOST_HOST) 7 = false) ∧
    (pio6.flag (PIO_TRCFG_EN 7) = true) ∧
    ((pio6.trip 7).tripped = true) ∧
    (pio6.reach 999 = pio6.reach 999) := by unfold State.Sizes; decide +kernel

theorem witness_TripOutputs_5_1 :
    (7 < 8) ∧
    (pio7.Sizes) ∧
    (((257 : BitVec 16), (3 : BitVec 8), 100) ∈ pio7.evt.pulses) := by unfold State.Sizes; decide +kernel

theorem witness_TripOutputs_6_1 :
    (7 < 8) ∧
    (pio8.Sizes) ∧
    (pio8.flag (PIO_TRCFG_EN 7) = true) ∧
    (∀ m < 7, (pio8.trip m).mismatch = 0) ∧
    (100000 = match pio8.pio.readAt with | some r => max pio8.exp.now (r + 1) | none => pio8.exp.now) ∧
    (pio8.reach 114688 = pio8.reach (pio8.exp.startAt + (100000 - pio8.exp.startAt + 16383) / 16384 * 16384)) := by unfold State.Sizes; decide +kernel

theorem witness_PulseInputsCount_1_1 :
    (15 < 16) ∧
    (pin1.Sizes) ∧
    (pin1.pdOn 5 = true) ∧
    ((pin1.pin 15).level ≠ true) ∧
    (∀ (c : ℕ), (pin1.pin 15).changedAt = some c → c + pin1.debounce 15 ≤ 900) ∧
    (pin1.pinQuad 15 = false) ∧
    (pin1.flag (PIO_PINSTAT_RUN 15) = true) ∧
    (pin1.reach (900 + pin1.debounce 15) = pin1.reach (900 + pin1.debounce 15)) := by unfold State.Sizes; decide +kernel

theorem witness_PulseInputsCount_2_1 :
    (15 < 16) ∧
    (pin5.Sizes) ∧
    (pin5.pdOn 5 = true) ∧
    ((pin5.pin 15).level ≠ true) ∧
    (∀ (c : ℕ), (pin5.pin 15).changedAt = some c → 900 < c + pin5.debounce 15) ∧
    ((pin5.pin 15).changedAt ≠ none) := by unfold State.Sizes; decide +kernel

theorem witness_PulseInputsCount_3_1_1 :
    (5 < 16) ∧
    (pio10.Sizes) ∧
    (pio10.pdOn 5 = true) ∧
    ((pio10.pin 5).level ≠ true) ∧
    (∀ i ∈ [5 - 5 % 2, 5 - 5 % 2 + 1], ∀ (c : ℕ), (pio10.pin i).changedAt = some c → c + pio10.debounce 5 ≤ 900) ∧
    (pio10.pinQuad 5 = true) ∧
    (pio10.flag (PIO_PINSTAT_RUN (5 - 5 % 2)) = true) ∧
    (pio10.exp.running = false ∨ pio10.exp.startAt ≤ 900) ∧
    (pio10.reach (900 + pio10.debounce 5) = pio10.reach (900 + pio10.debounce 5)) := by unfold State.Sizes; decide +kernel

theorem witness_PulseInputsCount_3_2_1 :
    (4 < 16) ∧
    (pio10.Sizes) ∧
    (pio10.pdOn 5 = true) ∧
    ((pio10.pin 4).level ≠ true) ∧
    (∀ i ∈ [4 - 4 % 2, 4 - 4 % 2 + 1], ∀ (c : ℕ), (pio10.pin i).changedAt = some c → c + pio10.debounce 4 ≤ 900) ∧
    (pio10.pinQuad 4 = true) ∧
    (pio10.flag (PIO_PINSTAT_RUN (4 - 4 % 2)) = true) ∧
    (pio10.exp.running = false ∨ pio10.exp.startAt ≤ 900) ∧
    (pio10.reach (900 + pio10.debounce 4) = pio10.reach (900 + pio10.debounce 4)) := by unfold State.Sizes; decide +kernel

theorem witness_PulseInputsCount_4_1 :
    (4 < 16) ∧
    (pio12.Sizes) ∧
    (pio12.pdOn 5 = true) ∧
    (pio12.flag (PIO_PINSTAT_RUN 4) = true) ∧
    (pio12.effGet (PIO_PINWD_TIMEOUT 4) ≠ 0) ∧
    ((pio12.pin 4).missing = none) ∧
    (pio12.reach (msCycles 100) = pio12.reach (max (pio12.pin 4).startedAt ((pio12.pin 4).newest.headD 0) + pio12.effGet (PIO_PINWD_TIMEOUT 4) * msCycles 20)) := by unfold State.Sizes; decide +kernel

/-! Witnesses of MonitorChecks, ReinitialisationsActOrWait, TozarPortsAndForms, CascadeEventsAndRemoteAccesses, MirroredPair -/

def saf1 : State := withExp (fun e => { e with lastEnded := some (4, 99) }) (running up)

def saf2 : State := let s := withSaf (fun f => { f with dueSeg := [57, 60], failedSeg := [60] }) up; { s with cvu := { s.cvu with refs := s.cvu.refs.set 60 { value := s.segmentSum 60, flips := 0 } } }

def saf3 : State := withExp (fun e => { e with lastEnded := some (2^64+7, 99) }) point0

def mst : State := withTzl (fun t => { t with mode := 1, enumerated := true }) (setAll [(GLB_STRAP_MSTR, 1), (TZL_CTL_MODE, 1), (TZL_STAT_DNTRN, 1), (TZL_STAT_NDEV, 3)] up)

def slv : State := withTzl (fun t => { t with mode := 1, enumerated := true }) (setAll [(GLB_STRAP_MSTR, 0), (TZL_STAT_UPTRN, 1)] up)

def withLast (s : State) : State := withExp (fun e => { e with lastEnded := some (2^64+7, 99) }) s

def alone : State := withTzl (fun t => { t with mode := 0 }) (setAll [(GLB_STRAP_MSTR, 1)] up)

def saf4 : State := withTaken [tk 0x60 hr .reinitTzl] mst

def mst0 : State := withTzl (fun t => { t with dnLost := true }) (setAll [(TZL_STAT_DNTRN, 0)] mst)

def tz1 : State := withTzl (fun t => { t with masterTs := some (0x1000, 0) }) (running slv)

def rf1 : ResFrame := { bad := 0, pos := 2, expno := 5, points := [], events := [[1, 2]], record := none }

def cw1 : CasWait := { src := none, expno := 5, p0 := 0, p1 := 0, p2 := 0, left := [1, 2], got := [], at_ := 3 }

def mstC : State := withTzl (fun t => { t with cascade := [cw1] }) mst

def mstE : State := withTzl (fun t => { t with events := [(2, [1]), (3, [2])] }) mst

def tz2 : State := withTzl (fun t => { t with remote := some (false, 2, 0x1000, 0) }) (setAll [(TZL_RSTAT_BUSY, 1)] mst)

def tz3 : State := withTzl (fun t => { t with remote := some (true, 2, 0x1000, 9) }) (setAll [(TZL_RSTAT_BUSY, 1)] mst)

def stb : State := withTzl (fun t => { t with mode := 2, side := true, enumerated := true }) (setAll [(GLB_STRAP_MSTR, 1), (TZL_STAT_UPTRN, 1), (TZL_CTL_MIRSIDE, 1), (TZL_CTL_MODE, 2)] up)

def mf1 : MirFrame := { bad := 1, expno := 5, ts := 0x9999, handover := false, safe := false, points := [(0, true, (List.range 40)), (31, false, (List.range 10))], releases := [], counts := List.replicate 16 3, sum36 := 0 }

def mf2 : MirFrame := { mf1 with points := [(0, true, (List.range 40)), (0, true, (List.range 40)), (40, true, [1])] }

def act : State := setAll [(TZL_STAT_ACTIVE, 1)] stb

def tz4 : State := withExp (fun e => { e with now := 10000000 }) (withRtc (fun r => { r with sec := 100 }) (withTzl (fun t => { t with sums := [(5, 0, 0)] }) stb))

def tz5 : State := withExp (fun e => { e with running := true, cur := 5, next := 6, startAt := 0 }) <| withTzl (fun t => { t with takeover := some 3, own := [(5, 31, List.range 40)] }) (setAll [(TZL_STAT_UPTRN, 0)] stb)

def tz6 : State := withTzl (fun t => { t with enumerated := false }) (setAll [(TZL_STAT_UPTRN, 0)] stb)

theorem witness_MonitorChecks_1_1 :
    (saf1.saf.reinit = none) ∧
    (saf1.monStarted = true) ∧
    (saf1.exp.running = true) ∧
    (saf1.saf.kavDone = false) ∧
    (saf1.kavOpen = true) := by decide +kernel

theorem witness_MonitorChecks_2_1_1 :
    (saf1.saf.reinit = none) ∧
    (saf1.monStarted = true) ∧
    (true = true) ∧
    (true = true) ∧
    (true = true ∨ saf1.flag PWR_STAT_LFOK = false) := by decide +kernel

theorem witness_MonitorChecks_2_2_1 :
    (saf1.saf.reinit = none) ∧
    (saf1.monStarted = true) ∧
    (true = false ∨ true = false ∨ false = false ∧ saf1.flag PWR_STAT_LFOK = true) := by decide +kernel

theorem witness_MonitorChecks_3_1_1 :
    (saf2.saf.reinit = none) ∧
    (saf2.monStarted = true) ∧
    (saf2.flag SAF_CTL_EN = true) ∧
    (saf2.saf.dueSeg.contains 60 = true) ∧
    (refRead (saf2.refEntry 60) = (saf2.segmentSum 60, false, false)) ∧
    (saf2.segmentSum 60 + (0 : BitVec 36) = saf2.segmentSum 60) := by decide +kernel

theorem witness_MonitorChecks_3_2_1 :
    (saf2.saf.reinit = none) ∧
    (saf2.monStarted = true) ∧
    (saf2.flag SAF_CTL_EN = true) ∧
    (saf2.saf.dueSeg.contains 60 = true) ∧
    (refRead (saf2.refEntry 60) = (saf2.segmentSum 60, false, false)) ∧
    (saf2.segmentSum 60 + (1 : BitVec 36) ≠ saf2.segmentSum 60) := by decide +kernel

theorem witness_ReinitialisationsActOrWait_1_1 :
    (1 = BitVec.toNat (1 : BitVec 64) % 2 ^ 8) ∧
    ((running up).Accepts hr) ∧
    ((running up).flag PWR_STAT_ASBUSY = false) ∧
    (1 ≤ 1) ∧
    (1 ≤ 5) ∧
    ((running up).exp.running = true) := by unfold State.Accepts; decide +kernel

theorem witness_ReinitialisationsActOrWait_2_1 :
    (1 = BitVec.toNat (1 : BitVec 64) % 2 ^ 8) ∧
    (saf3.Accepts hr) ∧
    (saf3.flag PWR_STAT_ASBUSY = false) ∧
    (1 ≤ 1) ∧
    (1 ≤ 5) ∧
    (saf3.exp.running = false) ∧
    (saf3.exp.pipe = []) ∧
    (saf3.taken = []) ∧
    (saf3.exp.lastEnded = some ((2 : BitVec 72) ^ 64 + (7 : BitVec 72), (99 : BitVec 64))) := by unfold State.Accepts; decide +kernel

theorem witness_ReinitialisationsActOrWait_3_1 :
    (0 = BitVec.toNat (0 : BitVec 64) % 2 ^ 8) ∧
    (saf3.Accepts hr) ∧
    (saf3.flag PWR_STAT_ASBUSY = false) ∧
    (saf3.saf.reinit = none) := by unfold State.Accepts; decide +kernel

theorem witness_ReinitialisationsActOrWait_4_1_1 :
    (0 = BitVec.toNat (0 : BitVec 64) % 2 ^ 8) ∧
    (mst.Accepts hr) ∧
    (mst.flag PWR_STAT_ASBUSY = false) ∧
    (mst.flag TZL_CTL_MIRSIDE = mst.tzl.side) ∧
    (mst.tzl.mode = if mst.flag GLB_STRAP_MSTR = true then BitVec.ofNat 2 (mst.get TZL_CTL_MODE) else (1 : BitVec 2)) ∧
    (mst.tzl.mode = (1 : BitVec 2)) := by unfold State.Accepts; decide +kernel

theorem witness_ReinitialisationsActOrWait_4_2_1 :
    (0 = BitVec.toNat (0 : BitVec 64) % 2 ^ 8) ∧
    ((withLast alone).Accepts hm) ∧
    ((withLast alone).flag PWR_STAT_ASBUSY = false) ∧
    ((withLast alone).flag TZL_CTL_MIRSIDE = (withLast alone).tzl.side) ∧
    ((withLast alone).tzl.mode = if (withLast alone).flag GLB_STRAP_MSTR = true then BitVec.ofNat 2 ((withLast alone).get TZL_CTL_MODE) else (1 : BitVec 2)) ∧
    ((withLast alone).tzl.mode ≠ (1 : BitVec 2)) ∧
    ((withLast alone).exp.lastEnded = some ((2 : BitVec 72) ^ 64 + (7 : BitVec 72), (99 : BitVec 64))) ∧
    (∀ x ∈ (withLast alone).taken, x.hdr ≠ hm) := by unfold State.Accepts; decide +kernel

theorem witness_ReinitialisationsActOrWait_5_1 :
    (0 = BitVec.toNat (0 : BitVec 64) % 2 ^ 8) ∧
    (saf4.reach (saf4.tzl.reinitAt + msCycles 10) = saf4.reach (saf4.tzl.reinitAt + msCycles 10)) ∧
    (List.filter (fun y => y.wait == Wait.reinitTzl) saf4.taken = [tk (96 : BitVec 8) hr Wait.reinitTzl]) ∧
    ((saf4.reach (saf4.tzl.reinitAt + msCycles 10)).InTime (tk (96 : BitVec 8) hr Wait.reinitTzl)) := by unfold State.InTime; decide +kernel

theorem witness_TozarPortsAndForms_1_1_1 :
    (mst0.portUsed TzPort.down = true) ∧
    (mst0.flag (portFlag TzPort.down) = false) := by decide +kernel

theorem witness_TozarPortsAndForms_1_2_1_1 :
    (mst.flag (portFlag TzPort.down) = true) ∧
    ((mst.tzSlave && TzPort.down == TzPort.up && mst.tzl.enumerated && !mst.flag TZL_STAT_ISLAND) = false) ∧
    (mst.CanLog) := by unfold State.CanLog; decide +kernel

theorem witness_TozarPortsAndForms_1_2_2_1 :
    ((running slv).flag (portFlag TzPort.up) = true) ∧
    ((running slv).tzSlave = true) ∧
    (TzPort.up = TzPort.up) ∧
    ((running slv).tzl.enumerated = true) ∧
    ((running slv).flag TZL_STAT_ISLAND = false) := by decide +kernel

theorem witness_TozarPortsAndForms_2_1_1 :
    (mst.evt.now = []) ∧
    (mst.tzMaster = true) ∧
    (mst.flag TZL_STAT_DNTRN = true) ∧
    (1 ≤ 8) ∧
    (8 ≤ 8) := by decide +kernel

theorem witness_TozarPortsAndForms_2_2_1_1 :
    (slv.evt.now = []) ∧
    (slv.tzSlave = true) ∧
    (slv.flag TZL_STAT_UPTRN = true) ∧
    (6 < 7) := by decide +kernel

theorem witness_TozarPortsAndForms_2_2_2_1 :
    (slv.evt.now = []) ∧
    (slv.tzSlave = true) ∧
    (slv.flag TZL_STAT_UPTRN = true) ∧
    (7 ≤ 7) ∧
    (slv.CanLog) := by unfold State.CanLog; decide +kernel

theorem witness_TozarPortsAndForms_2_3_1_1 :
    (mst.evt.now = []) ∧
    ((9 : BitVec 72) = if BitVec.toNat (9 : BitVec 72) < (mst.highest + (1 : BitVec 72)).toNat then mst.highest + (1 : BitVec 72) else (9 : BitVec 72)) ∧
    (mst.tzl.enumerated = true) ∧
    (mst.tzMaster = true) := by decide +kernel

theorem witness_TozarPortsAndForms_2_3_2_1 :
    ((running slv).evt.now = []) ∧
    ((6 : BitVec 72) = if BitVec.toNat (2 : BitVec 72) < ((running slv).highest + (1 : BitVec 72)).toNat then (running slv).highest + (1 : BitVec 72) else (2 : BitVec 72)) ∧
    ((running slv).tzl.enumerated = true) ∧
    ((running slv).tzSlave = true) ∧
    ((running slv).flag TZL_STAT_UPTRN = true) := by decide +kernel

theorem witness_TozarPortsAndForms_2_4_1 :
    (slv.evt.now = []) ∧
    (slv.tzSlave = true ∧ slv.flag TZL_STAT_UPTRN = true ∨ slv.mirStandby = true ∧ slv.mirLinked = true) := by decide +kernel

theorem witness_TozarPortsAndForms_2_5_1 :
    (slv.evt.now = []) ∧
    (slv.follows = true) ∧
    (slv.pdOn 5 = true) ∧
    (slv.pwr.phase = Phase.done) ∧
    (slv.noRun = false) ∧
    (slv.pwr.change ≠ Change.toStandby) ∧
    (slv.tzl.mode = (1 : BitVec 2) → slv.tzl.enumerated = true ∧ slv.tzl.waiting = false) ∧
    (slv.tzl.takeover = none) := by decide +kernel

theorem witness_CascadeEventsAndRemoteAccesses_1_1 :
    (mst.evt.now = []) ∧
    (mst.tzMaster = true) ∧
    (mst.tzl.enumerated = true) ∧
    (mst.flag TZL_STAT_DNTRN = true) ∧
    (mst.exp.pipe = []) ∧
    (rf1.record = none) ∧
    (mst.tzl.events.length + rf1.events.length ≤ 256) := by decide +kernel

theorem witness_CascadeEventsAndRemoteAccesses_2_1 :
    (mstC.evt.now = []) ∧
    (mstC.tzl.cascade = [cw1]) ∧
    (cw1.left = [1, 2]) ∧
    (cw1.got = []) ∧
    (mstC.CanLog) ∧
    (mstC.reach (3 + msCycles 5) = mstC.reach (cw1.at_ + msCycles 5)) := by unfold State.CanLog; decide +kernel

theorem witness_CascadeEventsAndRemoteAccesses_3_1 :
    (mstE.evt.now = []) ∧
    (mstE.pdOn 9 = true) := by decide +kernel

theorem witness_CascadeEventsAndRemoteAccesses_4_1_1 :
    (mst.evt.now = []) ∧
    (mst.flag TZL_RSTAT_BUSY = false) ∧
    (mst.writable (WriteBy.port Port.pcie) TZL_RADDR = true) ∧
    (bitAt (BitVec.toNat (2147483664 : BitVec 32)) 31 = true) ∧
    (fieldOf (mst.stored TZL_RADDR (2147483664 : BitVec 32)) TZL_RADDR_POS = fieldOf (mst.stored TZL_RADDR (2147483664 : BitVec 32)) TZL_RADDR_POS) ∧
    (BitVec.ofNat 16 (4 * fieldOf (mst.stored TZL_RADDR (2147483664 : BitVec 32)) TZL_RADDR_OFFSET) = BitVec.ofNat 16 (4 * fieldOf (mst.stored TZL_RADDR (2147483664 : BitVec 32)) TZL_RADDR_OFFSET)) := by decide +kernel

theorem witness_CascadeEventsAndRemoteAccesses_4_2_1 :
    (mst.evt.now = []) ∧
    (mst.flag TZL_RSTAT_BUSY = false) ∧
    (mst.writable (WriteBy.port Port.hspi) TZL_RDATA = true) ∧
    (mst.get TZL_RADDR_POS = mst.get TZL_RADDR_POS) ∧
    (BitVec.ofNat 16 (4 * mst.get TZL_RADDR_OFFSET) = BitVec.ofNat 16 (4 * mst.get TZL_RADDR_OFFSET)) := by decide +kernel

theorem witness_CascadeEventsAndRemoteAccesses_5_1_1 :
    (tz2.evt.now = []) ∧
    (tz2.tzl.remote = some (false, 2, (4096 : BitVec 16), (0 : BitVec 32))) ∧
    (tz2.tzMaster = true) ∧
    (tz2.flag TZL_STAT_DNTRN = true) ∧
    (2 < tz2.get TZL_STAT_NDEV) := by decide +kernel

theorem witness_CascadeEventsAndRemoteAccesses_5_2_1 :
    (tz2.evt.now = []) ∧
    (tz2.tzl.remote = some (false, 2, (4096 : BitVec 16), (0 : BitVec 32))) := by decide +kernel

theorem witness_MirroredPair_2_1_1 :
    (tz4.evt.now = []) ∧
    (tz4.mirStandby = true) ∧
    (tz4.tzl.takeover = none) ∧
    (∃ c ∈ tz4.tzl.sums, tz4.passed (mirDue c.2.2) = true) := by decide +kernel

theorem witness_MirroredPair_2_2_1 :
    (tz5.evt.now = []) ∧
    (tz5.tzl.takeover = some (3 : BitVec 64)) ∧
    (tz5.mirStandby = true) ∧
    (tz5.exp.running = true) ∧
    (tz5.exp.pipe = []) ∧
    (tz5.taken = []) ∧
    (tz5.pwr.change ≠ Change.toStandby) ∧
    (tz5.tzl.jump = none) ∧
    (tz5.tzl.own = [((5 : BitVec 72), 31, List.range 40)]) := by decide +kernel

theorem witness_MirroredPair_2_3_1_1 :
    (act.evt.now = []) ∧
    (act.tzl.mode = (2 : BitVec 2)) ∧
    (act.flag TZL_STAT_ACTIVE = true) := by decide +kernel

theorem witness_MirroredPair_2_3_2_1 :
    (act.evt.now = []) ∧
    (act.tzl.mode = (2 : BitVec 2)) ∧
    (act.flag TZL_STAT_ACTIVE = true) ∧
    (act.writable (WriteBy.port Port.pcie) TZL_MIRCTL = true) ∧
    (bitAt (BitVec.toNat (1 : BitVec 32)) 0 = true) := by decide +kernel

theorem witness_MirroredPair_2_4_1 :
    (tz6.evt.now = []) ∧
    (tz6.tzl.mode = (2 : BitVec 2)) ∧
    (tz6.tzl.side = true) ∧
    (tz6.ready = true) ∧
    (tz6.flag TZL_STAT_UPTRN = false) ∧
    (tz6.tzl.enumerated = false) ∧
    (tz6.reach (tz6.pwr.readyAt + msCycles 100) = tz6.reach (tz6.pwr.readyAt + msCycles 100)) := by decide +kernel

/-! Witnesses of Reception, MacFramesAreActedOn, FramesAreQueued, TransmissionsUseTheLine, NetworkTimers, DirectoryAndContexts -/

def plcOn : State := setAll [(PLC_CTL_RXEN, 1), (PLC_CTL_TXEN, 1), (NET_CTL_EN, 1), (PLC_STAT_VLDOK, 1), (PLC_CTL_NETID, 9), (PLC_RXCFG_CDTH, 4), (PLC_RXCFG_IMPEN, 0), (PLC_STAT_MASKERR, 0)] up

def plcCal : State := withFcv (fun f => { f with cal := some (.ring 0) }) plcOn

def plcRx : State := withFcv (fun f => { f with reception := true }) (setAll [(PLC_STAT_RXBUSY, 1), (PLC_STAT_CD, 1)] plcOn)

def nb (laddr : BitVec 24) : NeighCtx := { NeighCtx.reset with valid := true, eui := 0x77, laddr := laddr, keyIdx := BitVec.ofNat 16 noKey }

def ctxS (i : Nat) (f : NeighCtx → NeighCtx) (s : State) : State := withPlc (fun p => { p with ctxs := p.ctxs.modify i f }) s

def plcNb : State := ctxS 3 (fun _ => nb 5) plcRx

def fcOf (ftype mode nseg nsym daddr tspec : Nat) (ack : Bool) : Fc :=
  { ftype := ftype, gi := 2, mode := mode, rate := 0, mapId := 0, fsn := 33, netId := 9, saddr := 5, daddr := daddr, nseg := nseg, nsym := nsym,
    ackReq := ack, tspec := tspec }

def rxOf (f : Fc) (segs : List RxSeg) : RxIn :=
  { fc := f.bits, tsFirst := 0x400, tsEnd := 0x1000, fcSyms := [], syms := [], est := [], noise := 0, segs := segs, snrMet := true, undecoded := [], keys := [] }

def macHead (mtype flags orig final rseq : Nat) : List (BitVec 8) :=
  bytesLE 16 (mtype + flags * 2 ^ 8 + orig * 2 ^ 16 + final * 2 ^ 40 + rseq * 2 ^ 112)

def segOf (seq idx count : Nat) (data : List (BitVec 8)) : BitVec 64 × List (BitVec 8) :=
  (BitVec.ofNat 64 (seq + idx * 2 ^ 16 + (count - 1) * 2 ^ 20 + (data.length - 1) * 2 ^ 24), data ++ List.replicate (512 - data.length) 0)

def frame1 : List (BitVec 8) := macHead 1 0 5 0 0 ++ [1, 2, 3]

def fcD : Fc := fcOf 1 1 2 8 0 0 true

def rxD : RxIn := rxOf fcD [some (segOf 7 0 1 frame1), none]

def endD (s : State) : State := s.reach (s.hfAt 0x1000)

def fcB : Fc := fcOf 1 2 1 8 0xFFFFFF 0 true

def rxB : RxIn := rxOf fcB [some (segOf 7 0 2 frame1)]

def fcS : Fc := fcOf 2 1 0 0 0 0 false

def rxS : RxIn := rxOf fcS []

def mtx : MacTx := { plcNb.ownFrame 1 5 0 [1, 2] with id := 8, todo := [(0, 1)], link := some 3 }

def txS : TxNow := { TxNow.plain 1 (some 3) with fsn := 33, nseg := 1, ackReq := true, segs := [(8, 0)], ended := true, deadline := 0x2000 }

def plcSk : State := withPlc (fun p => { p with tx := some txS, queue := [mtx] }) plcNb

def fcSo : Fc := fcOf 3 1 0 0 0 2 false

def sin1 : SoundIn := { snr := [40, 41], erasure := [], cir := 7 }

def plcNg : State := ctxS 3 (fun c => { c with neg := some (plcNb.newNeg false 1) }) plcNb

def plcNi : State := ctxS 3 (fun c => { c with neg := some (plcNb.newNeg true 1) }) plcNb

def fcR : Fc := fcOf 4 2 1 8 0 0 true

def rxR : RxIn := rxOf fcR [some (segOf 0 0 8 (List.replicate 512 0x21))]

def bR : List ToneMap := (List.range 4).map (fun q => mapOf (((List.replicate 512 (0x21 : BitVec 8)).drop (912 * q)).take 912))

def plcSt : State := setAll [(NET_CTL_ROLE, 1)] plcNb

def fcBe : Fc := fcOf 0 1 0 0 0xFFFFFF (4000 * 2 ^ 61 + 17 * 2 ^ 83 + 200 * 2 ^ 91) false

def asm1 : Assembly := { nb := 3, seq := 7, count := 1, parts := [(0, frame1)], safelight := true, ts := 9 }

def plcFr : State := withPlc (fun p => { p with ready := [asm1] }) plcNb

def dirE : DirEntry := { node := 0x99, laddr := 6, state := 1, hops := 0, keyIdx := BitVec.ofNat 16 noKey, nh := 0, heard := 0, sent := 0, recvd := 0, failed := 0, retx := 0, cookie := 0 }

def dirT0 : DirTable := { tbase := 0x1000, tovf := 0x9000, bkt := 1, ovfn := 4, seed := 0, slots := [], ovf := [], chains := [], freed := [], fresh := 0 }

def dirT : DirTable := match dirT0.add dirE with | some (t, _) => t | none => dirT0

def withDir (s : State) : State := withPlc (fun p => { p with dir := some dirT, cache := [(0x99, false)] }) (setAll [(NET_STAT_DIRRDY, 1), (NET_DIRCTL_INIT, 0)] s)

def plcDir : State := withDir plcNb

def asFrame : List (BitVec 8) := macHead 2 0 0xFFFFFF 0 0 ++ bytesLE 8 0x99

def fcF : Fc := fcOf 1 1 1 8 0 0 true

def rxF (frame : List (BitVec 8)) : RxIn := rxOf fcF [some (segOf 21 0 1 frame)]

def rsFrame : List (BitVec 8) := macHead 3 2 0 0xFFFFFF 77 ++ bytesLE 8 (0x1234 + 65535 * 2 ^ 32)

def plcAs : State := withPlc (fun p => { p with assocReq := some 77, assocDeadline := some 0x1000 }) plcSt

def fcFs : Fc := fcOf 1 1 1 8 0xFFFFFF 0 false

def rxFs (frame : List (BitVec 8)) : RxIn := rxOf fcFs [some (segOf 21 0 1 frame)]

def rtFrame : List (BitVec 8) := macHead 4 0 0 0xFFFFFF 0 ++ bytesLE 8 0x99 ++ bytesLE 8 (0x55 + 2 * 2 ^ 24 + 3 * 2 ^ 32) ++ bytesLE 16 0

def plcRt : State := withDir (setAll [(NET_CTL_RPT, 1)] plcSt)

def plcTx : State := setAll [(HIF_RSTAT_RUN 9, 1), (HIF_RSTAT_RUN 12, 1), (PLC_STAT_RXBUSY, 0), (PLC_STAT_CD, 0)] ((withDir (ctxS 3 (fun _ => nb 5) plcOn)).wr (HIF_RPIDX 9) 4 |>.wr (HIF_RPIDX 12) 4)

def dsc (d0 d1 d2 d3 d4 : BitVec 64) : Desc8 := { d0 := d0, d1 := d1, d2 := d2, d3 := d3, d4 := d4, d5 := 0, d6 := 0, d7 := 0 }

def okB (n : Nat) : Fetch (List (BitVec 8)) := .ok (List.replicate n 0x5A)

def mwait : MacTx := { plcTx.ownFrame 1 0 0x99 [1, 2] with desc := some (9, 0), node := 0x99 }

def plcLk : State := withPlc (fun p => { p with lookWait := [mwait], cache := [] }) plcTx

def mdue : MacTx := { mwait with id := 8, deadline := some 0x100, todo := [(0, 0)] }

def plcDue : State := withRtc (fun r => { r with sec := 100 }) (withHif (fun f => { f with rings := f.rings.modify 9 (fun a => { a with open_ := [(0, false)] }) }) (withPlc (fun p => { p with queue := [mdue] }) plcTx))

def mdue2 : MacTx := { mdue with waitResp := true }

def plcDue2 : State := withPlc (fun p => { p with queue := [mdue2], ready := [{ nb := 3, seq := 7, count := 1, parts := [(0, frame1)], safelight := true, ts := 9 }] }) plcDue

def plcCp : State := withExp (fun e => { e with now := msCycles 3 }) (withPlc (fun p => { p with bStart := some 0, bpLen := msCycles 40, cpEnd := 200, queue := [mtx] }) plcTx)

def mbc : MacTx := { plcTx.ownFrame 1 0xFFFFFF 0 [1, 2] with id := 8, bcast := true, todo := [(0, 0)] }

def plcBk : State := withPlc (fun p => { p with queue := [mbc], backoff := some 0 }) plcCp

def txN : TxNow := { txS with ended := false }

def plcTn : State := setAll [(PLC_STAT_TXBUSY, 1)] (withPlc (fun p => { p with tx := some txN }) plcTx)

def txC : TxNow := { txN with cut := true, ackReq := false }

def plcTc : State := withPlc (fun p => { p with tx := some txC }) plcTn

def sd1 : SackDue := { laddr := 5, fsn := 33, failed := [1], mapInv := some 0, nb := 3, at_ := 900 }

def plcSd : State := withPlc (fun p => { p with sackDue := some sd1 }) plcTx

def plcSr : State := withFcv (fun f => { f with reception := true }) (setAll [(PLC_STAT_RXBUSY, 1)] plcSd)

def plcTo : State := withRtc (fun r => { r with sec := 100 }) (withPlc (fun p => { p with tx := some txS, queue := [mtx] }) plcTx)

def plcHot : State := withPlc (fun p => { p with overTemp := true }) plcTx

def plcBp : State := withPlc (fun p => { p with bStart := some 900, bpLen := 655360, bSeq := 255 }) plcTx

def plcBm : State := setAll [(NET_CTL_ROLE, 1), (NET_STAT_ASSOC, 1), (NET_STAT_MISSED, 7)] plcBp

def plcBm1 : State := setAll [(NET_STAT_MISSED, 3)] plcBm

def dirE2 : DirEntry := { dirE with state := 2 }

def dirT2 : DirTable := match dirT0.add dirE2 with | some (t, _) => t | none => dirT0

def plcLo : State := withRtc (fun r => { r with sec := 100 }) (withPlc (fun p => { p with dir := some dirT2 }) plcTx)

def plcAt : State := withRtc (fun r => { r with sec := 100 }) (setAll [(NET_CTL_ROLE, 1)] (withPlc (fun p => { p with assocReq := some 5, assocDeadline := some 0x1000 }) plcTx))

def ng (init : Bool) (k : Nat) : Negotiation := plcTx.newNeg init k

def plcN (init : Bool) (k : Nat) : State := withRtc (fun r => { r with sec := 100 }) (ctxS 3 (fun c => { c with neg := some (ng init k) }) plcTx)

def plcRf : State := withRtc (fun r => { r with sec := 100 }) (setAll [(PLC_LINKCFG_REFINT, 2)] plcTx)

def plcRh : State := withPlc (fun p => { p with newDir := some dirT0 }) plcTx

def plcIn : State := withPlc (fun p => { p with initBusy := some dirT0 }) plcTx

def dirTe : DirTable := { dirT0 with seed := 7 }

def plcRc (b : Nat) : State := setAll [(NET_RHCUR_RHCUR, b), (NET_STAT_REHASH, 1)] (withPlc (fun p => { p with dir := some dirT0, newDir := some dirTe }) plcTx)

def img : List (BitVec 8) := List.replicate 64 3

def eAdd : DirEntry := { entryOf 0x42 (bytesToSlots 8 img) with heard := 0, sent := 0, recvd := 0, failed := 0, retx := 0 }

def pl99 : DirPlace := (dirT.find 0x99).getD (.slot 0)

def img4k : List (BitVec 8) := bytesLE 8 0x77 ++ bytesLE 8 (0x66 + 2 ^ 32) ++ List.replicate 4080 1

def plcKy : State := ctxS 3 (fun c => { c with key := 0x31, keyOk := true }) plcTx

def plcHo : State := ctxS 3 (fun c => { c with negHold := 0x999 }) plcTx

theorem witness_Reception_1_1_1_1_1 :
    (plcOn.pdOn 6 = true) ∧
    (plcOn.pdOn 7 = true) ∧
    (plcOn.flag PLC_CTL_RXEN = true) ∧
    (plcOn.flag PLC_STAT_MASKERR = false) ∧
    (plcOn.flag PLC_STAT_TXBUSY = false) ∧
    (plcOn.fcv.cal = none) ∧
    (exceedsBy 1000000 10 (5 * plcOn.get PLC_RXCFG_CDTH) = true) := by decide +kernel

theorem witness_Reception_1_1_1_2_1 :
    (plcOn.pdOn 6 = true) ∧
    (plcOn.pdOn 7 = true) ∧
    (plcOn.flag PLC_CTL_RXEN = true) ∧
    (plcOn.flag PLC_STAT_MASKERR = false) ∧
    (plcOn.flag PLC_STAT_TXBUSY = false) ∧
    (plcOn.fcv.cal = none) := by decide +kernel

theorem witness_Reception_1_1_2_1 :
    (plcCal.pdOn 6 = true) ∧
    (plcCal.pdOn 7 = true) ∧
    (plcCal.flag PLC_CTL_RXEN = true) ∧
    (plcCal.flag PLC_STAT_MASKERR = false) ∧
    (plcCal.flag PLC_STAT_TXBUSY = false) ∧
    (plcCal.fcv.cal ≠ none) ∧
    (exceedsBy 1000000 10 (5 * plcCal.get PLC_RXCFG_CDTH) = true) ∧
    (Instr.scheduledReceive ∈ [Instr.scheduledReceive, Instr.carrierDetection 1000000 10]) := by decide +kernel

theorem witness_Reception_1_2_1 :
    (exceedsBy 10 10 (5 * plcOn.get PLC_RXCFG_CDTH) = false) := by decide +kernel

theorem witness_Reception_1_3_1 :
    (plcRx.fcv.reception = true) := by decide +kernel

theorem witness_Reception_2_1_1 :
    (plcNb.Hears rxD fcD 3) ∧
    (plcNb.Sizes) ∧
    (endD plcNb = plcNb.reach (plcNb.hfAt rxD.tsEnd)) ∧
    (rxD.segs = (plcNb.rxPayload rxD fcD 3).2) ∧
    (plcNb.flag PLC_RXCFG_IMPEN = false) ∧
    (rxD.snrMet = true) := by unfold State.Sizes State.Hears; decide +kernel

theorem witness_Reception_2_2_1 :
    (plcNb.Hears rxD fcD 3) ∧
    (plcNb.Sizes) ∧
    (endD plcNb = plcNb.reach (plcNb.hfAt rxD.tsEnd)) ∧
    (rxD.segs = (plcNb.rxPayload rxD fcD 3).2) ∧
    (fcD.ftype = 1) ∧
    (fcD.mode ≠ 0) ∧
    ([1] = List.filter (fun k => Option.isNone (rxD.segs.getD k none)) (List.range fcD.nseg)) := by unfold State.Sizes State.Hears; decide +kernel

theorem witness_Reception_2_3_1 :
    (plcSk.Hears rxS fcS 3) ∧
    (plcSk.Sizes) ∧
    (endD plcSk = plcSk.reach (plcSk.hfAt rxS.tsEnd)) ∧
    ([] = (plcSk.rxPayload rxS fcS 3).2) ∧
    (fcS.ftype = 2) ∧
    (plcSk.plc.tx = some txS) ∧
    (txS.ended = true) ∧
    (txS.nb = some 3) ∧
    (txS.fsn.toNat = fcS.fsn) ∧
    (txS.ftype = 1) ∧
    (tsKey rxS.tsEnd ≤ tsKey txS.deadline) := by unfold State.Sizes State.Hears; decide +kernel

theorem witness_Reception_2_4_1 :
    (plcNb.Hears (rxOf fcSo []) fcSo 3) ∧
    (plcNb.Sizes) ∧
    (endD plcNb = plcNb.reach (plcNb.hfAt (rxOf fcSo []).tsEnd)) ∧
    ([] = (plcNb.rxPayload (rxOf fcSo []) fcSo 3).2) ∧
    (fcSo.ftype = 3) ∧
    ((plcNb.ctx 3).neg = none) ∧
    (bitAt fcSo.tspec 2 = false) := by unfold State.Sizes State.Hears; decide +kernel

theorem witness_Reception_2_5_1 :
    (plcNg.Hears rxR fcR 3) ∧
    (plcNg.Sizes) ∧
    (endD plcNg = plcNg.reach (plcNg.hfAt rxR.tsEnd)) ∧
    (rxR.segs = (plcNg.rxPayload rxR fcR 3).2) ∧
    (fcR.ftype = 4) ∧
    ((plcNg.ctx 3).neg = some (plcNb.newNeg false 1)) ∧
    (∀ k < fcR.nseg, rxR.segs.getD k none ≠ none) ∧
    (bR = List.map (fun q => mapOf (List.take 912 (List.drop (912 * q) (List.map (fun x => (segRead x).2.2.2) (List.filterMap id rxR.segs)).flatten))) (List.range 4)) := by unfold State.Sizes State.Hears; decide +kernel

theorem witness_Reception_2_6_1 :
    (plcSt.Hears (rxOf fcBe []) fcBe 3) ∧
    (plcSt.Sizes) ∧
    (endD plcSt = plcSt.reach (plcSt.hfAt (rxOf fcBe []).tsEnd)) ∧
    ([] = (plcSt.rxPayload (rxOf fcBe []) fcBe 3).2) ∧
    (fcBe.ftype = 0) ∧
    (plcSt.station = true) := by unfold State.Sizes State.Hears; decide +kernel

theorem witness_MacFramesAreActedOn_1_1 :
    (plcFr.Sizes) ∧
    (plcFr.plc.ready = [asm1]) ∧
    (frame1 = (List.map (fun x => x.2) asm1.parts).flatten) ∧
    (16 ≤ frame1.length) ∧
    (natLE (List.take 16 frame1) = natLE (List.take 16 frame1)) ∧
    (bitAt (natLE (List.take 16 frame1)) 8 = false) ∧
    ((plcFr.ctx asm1.nb).keyIdx.toNat = noKey) ∧
    (bitsAt (natLE (List.take 16 frame1)) 0 8 = 1) ∧
    (bitAt (natLE (List.take 16 frame1)) 9 = false) ∧
    (bitsAt (natLE (List.take 16 frame1)) 40 24 = plcFr.ownLaddr.toNat ∨ bitsAt (natLE (List.take 16 frame1)) 40 24 = 16777215) ∧
    (plcFr.plc.rxQ.length < 16) := by unfold State.Sizes; decide +kernel

theorem witness_MacFramesAreActedOn_2_1_1 :
    (plcDir.Sizes) ∧
    (plcDir.HearsFrame (rxF asFrame) 3 21 asFrame) ∧
    (natLE (List.take 16 asFrame) = natLE (List.take 16 asFrame)) ∧
    (endD plcDir = plcDir.reach (plcDir.hfAt (rxF asFrame).tsEnd)) ∧
    (bitsAt (natLE (List.take 16 asFrame)) 0 8 = 2) ∧
    (plcDir.station = false) ∧
    (bitsAt (natLE (List.take 16 asFrame)) 40 24 = 0 ∨ bitsAt (natLE (List.take 16 asFrame)) 40 24 = 16777215) ∧
    ((153 : BitVec 64) = BitVec.ofNat 64 (natLE (List.take 8 (List.drop 16 asFrame)))) ∧
    (plcDir.dirFind (153 : BitVec 64) = some dirE) ∧
    (plcDir.dirSeen (153 : BitVec 64) = true) ∧
    (plcDir.plc.cache.length ≤ 4096) ∧
    (dirE.state = (1 : BitVec 3) ∨ dirE.state = (2 : BitVec 3) ∨ dirE.state = (3 : BitVec 3)) := by
  refine ⟨?_, ?_, ?_, ?_, ?_, ?_, ?_, ?_, ?_, ?_, ?_, ?_⟩ <;> first
    | decide +kernel
    | (unfold State.Sizes; decide +kernel)
    | exact ⟨fcRead (rxF asFrame).fc, ((rxF asFrame).segs.headD none).getD (0, []), by unfold State.Hears; decide +kernel⟩

theorem witness_MacFramesAreActedOn_2_2_1 :
    (plcAs.Sizes) ∧
    (plcAs.HearsFrame (rxFs rsFrame) 3 21 rsFrame) ∧
    (natLE (List.take 16 rsFrame) = natLE (List.take 16 rsFrame)) ∧
    (endD plcAs = plcAs.reach (plcAs.hfAt (rxFs rsFrame).tsEnd)) ∧
    (bitsAt (natLE (List.take 16 rsFrame)) 0 8 = 3) ∧
    (plcAs.station = true) ∧
    (plcAs.flag NET_STAT_ASSOC = false) ∧
    (plcAs.plc.assocReq = some (77 : BitVec 16)) ∧
    (plcAs.plc.assocDeadline = some (4096 : BitVec 64)) ∧
    (BitVec.toNat (77 : BitVec 16) = bitsAt (natLE (List.take 16 rsFrame)) 112 16) ∧
    (tsKey (rxFs rsFrame).tsEnd ≤ tsKey (4096 : BitVec 64)) := by
  refine ⟨?_, ?_, ?_, ?_, ?_, ?_, ?_, ?_, ?_, ?_, ?_⟩ <;> first
    | decide +kernel
    | (unfold State.Sizes; decide +kernel)
    | exact ⟨fcRead (rxFs rsFrame).fc, ((rxFs rsFrame).segs.headD none).getD (0, []), by unfold State.Hears; decide +kernel⟩

theorem witness_MacFramesAreActedOn_2_3_1 :
    (plcRt.Sizes) ∧
    (plcRt.HearsFrame (rxFs rtFrame) 3 21 rtFrame) ∧
    (natLE (List.take 16 rtFrame) = natLE (List.take 16 rtFrame)) ∧
    (endD plcRt = plcRt.reach (plcRt.hfAt (rxFs rtFrame).tsEnd)) ∧
    (bitsAt (natLE (List.take 16 rtFrame)) 0 8 = 4) ∧
    (plcRt.station = true) ∧
    (plcRt.flag NET_CTL_RPT = true) ∧
    (bitsAt (natLE (List.take 16 rtFrame)) 40 24 = plcRt.ownLaddr.toNat ∨ bitsAt (natLE (List.take 16 rtFrame)) 40 24 = 16777215) ∧
    ((List.drop 16 rtFrame).length = 32) ∧
    ((153 : BitVec 64) = BitVec.ofNat 64 (natLE (List.take 8 (List.drop 16 rtFrame)))) ∧
    (85 + 2 * 2 ^ 24 + 3 * 2 ^ 32 = natLE (List.take 8 (List.drop 8 (List.drop 16 rtFrame)))) ∧
    (plcRt.dirFind (153 : BitVec 64) = some dirE) := by
  refine ⟨?_, ?_, ?_, ?_, ?_, ?_, ?_, ?_, ?_, ?_, ?_, ?_⟩ <;> first
    | decide +kernel
    | (unfold State.Sizes; decide +kernel)
    | exact ⟨fcRead (rxFs rtFrame).fc, ((rxFs rtFrame).segs.headD none).getD (0, []), by unfold State.Hears; decide +kernel⟩

theorem witness_FramesAreQueued_1_1_1 :
    (plcTx.nextDesc 9 = some (0 : BitVec 32)) ∧
    (0 = bitsAt (dsc (0 : BitVec 64) (0 : BitVec 64) (153 : BitVec 64) (0 : BitVec 64) (0 : BitVec 64)).d4.toNat 0 16) ∧
    (plcTx.txRefused = true ∨ 0 = 0 ∨ (if bitAt (dsc (0 : BitVec 64) (0 : BitVec 64) (153 : BitVec 64) (0 : BitVec 64) (0 : BitVec 64)).d0.toNat 0 = true then 8168 else 8176) < 0) ∧
    ((plcTx.ring 9).open_ = []) ∧
    (plcTx.Sizes) := by unfold State.Sizes; decide +kernel

theorem witness_FramesAreQueued_1_2_1_1 :
    (plcTx.nextDesc 9 = some (0 : BitVec 32)) ∧
    (9 = bitsAt (dsc (8 : BitVec 64) (0 : BitVec 64) (0 : BitVec 64) (0 : BitVec 64) (9 : BitVec 64)).d4.toNat 0 16) ∧
    (plcTx.txRefused = false) ∧
    (okB 9 = Fetch.ok (List.replicate 9 (90 : BitVec 8))) ∧
    (1 ≤ 9) ∧
    (9 ≤ if bitAt (dsc (8 : BitVec 64) (0 : BitVec 64) (0 : BitVec 64) (0 : BitVec 64) (9 : BitVec 64)).d0.toNat 0 = true then 8168 else 8176) ∧
    (bitAt (dsc (8 : BitVec 64) (0 : BitVec 64) (0 : BitVec 64) (0 : BitVec 64) (9 : BitVec 64)).d0.toNat 3 = true) := by decide +kernel

theorem witness_FramesAreQueued_1_2_2_1_1 :
    (plcTx.nextDesc 9 = some (0 : BitVec 32)) ∧
    (9 = bitsAt (dsc (0 : BitVec 64) (0 : BitVec 64) (68 : BitVec 64) (0 : BitVec 64) (9 : BitVec 64)).d4.toNat 0 16) ∧
    (plcTx.txRefused = false) ∧
    (okB 9 = Fetch.ok (List.replicate 9 (90 : BitVec 8))) ∧
    (1 ≤ 9) ∧
    (9 ≤ if bitAt (dsc (0 : BitVec 64) (0 : BitVec 64) (68 : BitVec 64) (0 : BitVec 64) (9 : BitVec 64)).d0.toNat 0 = true then 8168 else 8176) ∧
    (bitAt (dsc (0 : BitVec 64) (0 : BitVec 64) (68 : BitVec 64) (0 : BitVec 64) (9 : BitVec 64)).d0.toNat 3 = false) ∧
    (¬(plcTx.station = true ∧ (dsc (0 : BitVec 64) (0 : BitVec 64) (68 : BitVec 64) (0 : BitVec 64) (9 : BitVec 64)).d2 = (0 : BitVec 64))) ∧
    (plcTx.dirReady = true) ∧
    ((plcTx.plc.cache.any fun e => e.1 == (dsc (0 : BitVec 64) (0 : BitVec 64) (68 : BitVec 64) (0 : BitVec 64) (9 : BitVec 64)).d2) = false) := by decide +kernel

theorem witness_FramesAreQueued_1_2_2_2_1 :
    (plcTx.nextDesc 9 = some (0 : BitVec 32)) ∧
    (9 = bitsAt (dsc (0 : BitVec 64) (0 : BitVec 64) (153 : BitVec 64) (0 : BitVec 64) (9 : BitVec 64)).d4.toNat 0 16) ∧
    (plcTx.txRefused = false) ∧
    (okB 9 = Fetch.ok (List.replicate 9 (90 : BitVec 8))) ∧
    (1 ≤ 9) ∧
    (9 ≤ if bitAt (dsc (0 : BitVec 64) (0 : BitVec 64) (153 : BitVec 64) (0 : BitVec 64) (9 : BitVec 64)).d0.toNat 0 = true then 8168 else 8176) ∧
    (bitAt (dsc (0 : BitVec 64) (0 : BitVec 64) (153 : BitVec 64) (0 : BitVec 64) (9 : BitVec 64)).d0.toNat 3 = false) ∧
    (¬(plcTx.station = true ∧ (dsc (0 : BitVec 64) (0 : BitVec 64) (153 : BitVec 64) (0 : BitVec 64) (9 : BitVec 64)).d2 = (0 : BitVec 64))) ∧
    (plcTx.dirReady = true) ∧
    ((plcTx.plc.cache.any fun e => e.1 == (dsc (0 : BitVec 64) (0 : BitVec 64) (153 : BitVec 64) (0 : BitVec 64) (9 : BitVec 64)).d2) = true) ∧
    (plcTx.dirFind (dsc (0 : BitVec 64) (0 : BitVec 64) (153 : BitVec 64) (0 : BitVec 64) (9 : BitVec 64)).d2 = some dirE) := by decide +kernel

theorem witness_FramesAreQueued_2_1_1 :
    (plcLk.plc.lookWait = [mwait]) ∧
    (plcLk.dmaOn = true) ∧
    (plcLk.dirFind mwait.node = some dirE) := by decide +kernel

theorem witness_FramesAreQueued_2_2_1 :
    (plcLk.plc.lookWait = [mwait]) := by decide +kernel

theorem witness_FramesAreQueued_3_1 :
    (plcTx.nextDesc 12 = some (0 : BitVec 32)) ∧
    (bitsAt (dsc (32 : BitVec 64) (153 : BitVec 64) (0 : BitVec 64) (64 : BitVec 64) (0 : BitVec 64)).d0.toNat 0 8 = 32) ∧
    (plcTx.dirReady = true) ∧
    (plcTx.txRefused = false) ∧
    (plcTx.dirFind (dsc (32 : BitVec 64) (153 : BitVec 64) (0 : BitVec 64) (64 : BitVec 64) (0 : BitVec 64)).d1 = some dirE) ∧
    (32 ≤ bitsAt (dsc (32 : BitVec 64) (153 : BitVec 64) (0 : BitVec 64) (64 : BitVec 64) (0 : BitVec 64)).d3.toNat 0 32) ∧
    (bitsAt (dsc (32 : BitVec 64) (153 : BitVec 64) (0 : BitVec 64) (64 : BitVec 64) (0 : BitVec 64)).d3.toNat 0 32 ≤ 8160) ∧
    (bitsAt (dsc (32 : BitVec 64) (153 : BitVec 64) (0 : BitVec 64) (64 : BitVec 64) (0 : BitVec 64)).d3.toNat 0 32 % 32 = 0) := by decide +kernel

theorem witness_FramesAreQueued_4_1_1 :
    (mdue ∈ plcDue.plc.queue) ∧
    (mdue.desc = some (9, (0 : BitVec 32))) ∧
    (mdue.deadline = some (256 : BitVec 64)) ∧
    (plcDue.passed (256 : BitVec 64) = true) ∧
    (∀ m' ∈ plcDue.plc.queue ++ plcDue.plc.lookWait, m'.desc = mdue.desc → m' = mdue) ∧
    ((mdue.waitResp && plcDue.arrivalPending (256 : BitVec 64)) = false) := by decide +kernel

theorem witness_FramesAreQueued_4_2_1 :
    (mdue2 ∈ plcDue2.plc.queue) ∧
    (mdue2.desc = some (9, (0 : BitVec 32))) ∧
    (mdue2.deadline = some (256 : BitVec 64)) ∧
    (plcDue2.passed (256 : BitVec 64) = true) ∧
    (∀ m' ∈ plcDue2.plc.queue ++ plcDue2.plc.lookWait, m'.desc = mdue2.desc → m' = mdue2) ∧
    ((mdue2.waitResp && plcDue2.arrivalPending (256 : BitVec 64)) = true) := by decide +kernel

theorem witness_TransmissionsUseTheLine_1_1 :
    (plcCp.reach 0 = plcCp.reach plcCp.plc.txAfter) ∧
    (plcCp.txIdle = true) ∧
    (plcCp.hasWork = true) ∧
    ((plcCp.reach 0).allocNow = none) ∧
    ((plcCp.reach 0).contentionNow = some ((plcCp.reach 0).contentionNow.getD 0)) ∧
    (plcCp.flag PLC_STAT_CD = false) ∧
    (plcCp.plc.backoff = none) := by decide +kernel

theorem witness_TransmissionsUseTheLine_2_1 :
    (plcBk.plc.backoff = some 0) ∧
    (plcBk.reach 0 = plcBk.reach 0) ∧
    ((plcBk.reach 0).contentionNow = some ((plcBk.reach 0).contentionNow.getD 0)) ∧
    (plcBk.txIdle = true) ∧
    (plcBk.plc.queue = [mbc]) ∧
    (mbc.bcast = true) ∧
    (mbc.waitResp = false) ∧
    (mbc.todo ≠ []) ∧
    (∀ i < 256, (plcBk.ctx i).valid = true → (plcBk.ctx i).neg = none) ∧
    ((plcBk.reach 0).segsToSend none mbc.todo.length mbc.todo.length ((plcBk.reach 0).contentionNow.getD 0) false ≠ 0) := by decide +kernel

theorem witness_TransmissionsUseTheLine_3_1 :
    (plcTn.plc.tx = some txN) ∧
    (txN.ended = false) := by decide +kernel

theorem witness_TransmissionsUseTheLine_4_1 :
    (plcSd.plc.sackDue = some sd1) ∧
    (plcSd.reach 900 = plcSd.reach sd1.at_) ∧
    (plcSd.txAble = true) ∧
    (plcSd.plc.tx = none) := by decide +kernel

theorem witness_TransmissionsUseTheLine_5_1 :
    (plcTo.plc.tx = some txS) ∧
    (txS.ended = true) ∧
    (plcTo.passed txS.deadline = true) := by decide +kernel

theorem witness_TransmissionsUseTheLine_6_1 :
    (plcTn.pdOn 7 = true) ∧
    (plcTn.CanLog) ∧
    (plcTn.plc.overTemp = false) := by unfold State.CanLog; decide +kernel

theorem witness_TransmissionsUseTheLine_7_1 :
    (plcHot.CanLog) ∧
    (plcHot.plc.overTemp = true) := by unfold State.CanLog; decide +kernel

theorem witness_NetworkTimers_1_1 :
    (656260 = match plcBp.plc.bStart with | some b => b + plcBp.plc.bpLen | none => plcBp.exp.now) ∧
    (plcBp.reach 656260 = plcBp.reach 656260) ∧
    (plcBp.station = false) ∧
    (plcBp.flag NET_CTL_EN = true) ∧
    (plcBp.pdOn 7 = true) := by decide +kernel

theorem witness_NetworkTimers_2_1 :
    (plcBm.plc.bStart = some 900) ∧
    (plcBm.reach (900 + 655360 + msCycles 2) = plcBm.reach (900 + plcBm.plc.bpLen + msCycles 2)) ∧
    (plcBm.station = true) ∧
    (plcBm.flag NET_CTL_EN = true) ∧
    (plcBm.pdOn 7 = true) := by decide +kernel

theorem witness_NetworkTimers_3_1 :
    (plcLo.dirFind (153 : BitVec 64) = some dirE2) ∧
    (plcLo.station = false) ∧
    (dirE2.state = (2 : BitVec 3)) ∧
    (plcLo.CanLog) ∧
    (tsKey dirE2.heard + plcLo.get NET_CTL_LOSTTO * plcLo.beaconUnits ≤ tsKey plcLo.ts) := by unfold State.CanLog; decide +kernel

theorem witness_NetworkTimers_4_1 :
    (plcAt.plc.assocDeadline = some (4096 : BitVec 64)) ∧
    (plcAt.passed (4096 : BitVec 64) = true) ∧
    (plcAt.arrivalPending (4096 : BitVec 64) = false) ∧
    (plcAt.station = true) ∧
    (plcAt.flag NET_STAT_ASSOC = false) := by decide +kernel

theorem witness_NetworkTimers_5_1 :
    (3 < 256) ∧
    ((plcN true 1).Sizes) ∧
    (((plcN true 1).ctx 3).neg = some (ng true 1)) ∧
    ((plcN true 1).passed (tsLater (ng true 1).tPrev (2 * (plcN true 1).beaconUnits)) = true) := by unfold State.Sizes; decide +kernel

theorem witness_NetworkTimers_6_1 :
    (3 < 256) ∧
    (plcRf.Sizes) ∧
    ((plcRf.ctx 3).valid = true) ∧
    ((plcRf.ctx 3).neg = none) ∧
    ((plcRf.ctx 3).newestNeg + plcRf.get PLC_LINKCFG_REFINT * 2 ^ 24 < tsKey plcRf.ts) ∧
    (tsKey (plcRf.ctx 3).negHold ≤ tsKey plcRf.ts) := by unfold State.Sizes; decide +kernel

theorem witness_DirectoryAndContexts_1_1_1_1 :
    (plcTx.writable (WriteBy.port Port.pcie) NET_DIRCTL = true) ∧
    (bitAt (BitVec.toNat (1 : BitVec 32)) 0 = true) := by decide +kernel

theorem witness_DirectoryAndContexts_1_1_2_1 :
    (plcTx.writable (WriteBy.port Port.pcie) NET_DIRCTL = true) ∧
    (bitAt (BitVec.toNat (2 : BitVec 32)) 0 = false) ∧
    (bitAt (BitVec.toNat (2 : BitVec 32)) 1 = true) ∧
    (bitAt (BitVec.toNat (2 : BitVec 32)) 2 = false) ∧
    (plcTx.dirReady = true) ∧
    (plcTx.plc.newDir = none) := by decide +kernel

theorem witness_DirectoryAndContexts_1_1_3_1 :
    (plcRh.writable (WriteBy.port Port.hspi) NET_DIRCTL = true) ∧
    (bitAt (BitVec.toNat (4 : BitVec 32)) 0 = false) ∧
    (bitAt (BitVec.toNat (4 : BitVec 32)) 1 = false) ∧
    (bitAt (BitVec.toNat (4 : BitVec 32)) 2 = true) ∧
    (plcRh.plc.newDir = some dirT0) ∧
    (plcRh.CanLog) := by unfold State.CanLog; decide +kernel

theorem witness_DirectoryAndContexts_1_2_1 :
    (plcIn.plc.initBusy = some dirT0) ∧
    (plcIn.dmaOn = true) := by decide +kernel

theorem witness_DirectoryAndContexts_1_3_1 :
    ((plcRc 0).plc.dir = some dirT0) ∧
    ((plcRc 0).plc.newDir = some dirTe) ∧
    ((plcRc 0).dmaOn = true) ∧
    (0 = (plcRc 0).get NET_RHCUR_RHCUR) ∧
    (List.filterMap dirT0.entry (dirT0.places 0) = []) := by decide +kernel

theorem witness_DirectoryAndContexts_1_4_1_1 :
    (plcTx.nextDesc 12 = some (0 : BitVec 32)) ∧
    (plcTx.dirReady = true) ∧
    (plcTx.plc.dir = some dirT) ∧
    (bitsAt (dsc (1 : BitVec 64) (66 : BitVec 64) (0 : BitVec 64) (64 : BitVec 64) (0 : BitVec 64)).d0.toNat 0 8 = 1) ∧
    (64 ≤ bitsAt (dsc (1 : BitVec 64) (66 : BitVec 64) (0 : BitVec 64) (64 : BitVec 64) (0 : BitVec 64)).d3.toNat 0 32) ∧
    (dirT.find (dsc (1 : BitVec 64) (66 : BitVec 64) (0 : BitVec 64) (64 : BitVec 64) (0 : BitVec 64)).d1 = none) ∧
    (dirT.count < 131072) ∧
    (eAdd = have __src := entryOf (dsc (1 : BitVec 64) (66 : BitVec 64) (0 : BitVec 64) (64 : BitVec 64) (0 : BitVec 64)).d1 (bytesToSlots 8 img); { node := __src.node, laddr := __src.laddr, state := __src.state, hops := __src.hops, keyIdx := __src.keyIdx, nh := __src.nh, heard := (0 : BitVec 64), sent := (0 : BitVec 32), recvd := (0 : BitVec 32), failed := (0 : BitVec 32), retx := (0 : BitVec 32), cookie := __src.cookie }) ∧
    (dirT.add eAdd = some (match dirT.add eAdd with | some (t, snd) => t | none => dirT0, match dirT.add eAdd with | some (fst, p) => p | none => DirPlace.slot 0)) := by decide +kernel

theorem witness_DirectoryAndContexts_1_4_2_1 :
    (plcTx.nextDesc 12 = some (0 : BitVec 32)) ∧
    (plcTx.dirReady = true) ∧
    (plcTx.plc.dir = some dirT) ∧
    (bitsAt (dsc (2 : BitVec 64) (153 : BitVec 64) (0 : BitVec 64) (64 : BitVec 64) (5 : BitVec 64)).d0.toNat 0 8 = 2) ∧
    (64 ≤ bitsAt (dsc (2 : BitVec 64) (153 : BitVec 64) (0 : BitVec 64) (64 : BitVec 64) (5 : BitVec 64)).d3.toNat 0 32) ∧
    (plcTx.dirFind (dsc (2 : BitVec 64) (153 : BitVec 64) (0 : BitVec 64) (64 : BitVec 64) (5 : BitVec 64)).d1 = some dirE) := by decide +kernel

theorem witness_DirectoryAndContexts_1_4_3_1 :
    (plcTx.nextDesc 12 = some (0 : BitVec 32)) ∧
    (plcTx.dirReady = true) ∧
    (plcTx.plc.dir = some dirT) ∧
    (bitsAt (dsc (3 : BitVec 64) (153 : BitVec 64) (0 : BitVec 64) (64 : BitVec 64) (5 : BitVec 64)).d0.toNat 0 8 = 3) ∧
    (dirT.find (dsc (3 : BitVec 64) (153 : BitVec 64) (0 : BitVec 64) (64 : BitVec 64) (5 : BitVec 64)).d1 = some pl99) ∧
    ((dirT.entry pl99).isSome = true) := by decide +kernel

theorem witness_DirectoryAndContexts_1_4_4_1 :
    (plcTx.nextDesc 12 = some (0 : BitVec 32)) ∧
    (plcTx.dirReady = true) ∧
    (plcTx.plc.dir = some dirT) ∧
    (bitsAt (dsc (4 : BitVec 64) (153 : BitVec 64) (16384 : BitVec 64) (64 : BitVec 64) (0 : BitVec 64)).d0.toNat 0 8 = 4) ∧
    (64 ≤ bitsAt (dsc (4 : BitVec 64) (153 : BitVec 64) (16384 : BitVec 64) (64 : BitVec 64) (0 : BitVec 64)).d3.toNat 0 32) ∧
    ((if plcTx.copiedToo (dsc (4 : BitVec 64) (153 : BitVec 64) (16384 : BitVec 64) (64 : BitVec 64) (0 : BitVec 64)).d1 = true then plcTx.plc.newDir else plcTx.plc.dir) = some dirT) ∧
    (dirT.find (dsc (4 : BitVec 64) (153 : BitVec 64) (16384 : BitVec 64) (64 : BitVec 64) (0 : BitVec 64)).d1 = some pl99) := by decide +kernel

theorem witness_DirectoryAndContexts_2_1_1 :
    (plcTx.Sizes) ∧
    (plcTx.nextDesc 12 = some (0 : BitVec 32)) ∧
    (3 = bitsAt (dsc (16 : BitVec 64) (3 : BitVec 64) (16384 : BitVec 64) (4096 : BitVec 64) (0 : BitVec 64)).d1.toNat 0 8) ∧
    (bitsAt (dsc (16 : BitVec 64) (3 : BitVec 64) (16384 : BitVec 64) (4096 : BitVec 64) (0 : BitVec 64)).d0.toNat 0 8 = 16) ∧
    ((plcTx.ctx 3).valid = true) ∧
    (4096 ≤ bitsAt (dsc (16 : BitVec 64) (3 : BitVec 64) (16384 : BitVec 64) (4096 : BitVec 64) (0 : BitVec 64)).d3.toNat 0 32) := by unfold State.Sizes; decide +kernel

theorem witness_DirectoryAndContexts_2_2_1_1 :
    (plcTx.Sizes) ∧
    (plcTx.nextDesc 12 = some (0 : BitVec 32)) ∧
    (3 = bitsAt (dsc (17 : BitVec 64) (3 : BitVec 64) (16384 : BitVec 64) (4096 : BitVec 64) (0 : BitVec 64)).d1.toNat 0 8) ∧
    (bitsAt (dsc (17 : BitVec 64) (3 : BitVec 64) (16384 : BitVec 64) (4096 : BitVec 64) (0 : BitVec 64)).d0.toNat 0 8 = 17) ∧
    (4096 ≤ bitsAt (dsc (17 : BitVec 64) (3 : BitVec 64) (16384 : BitVec 64) (4096 : BitVec 64) (0 : BitVec 64)).d3.toNat 0 32) ∧
    (natLE (List.take 8 (List.drop 8 img4k)) = natLE (List.take 8 (List.drop 8 img4k))) ∧
    (bitAt (dsc (17 : BitVec 64) (3 : BitVec 64) (16384 : BitVec 64) (4096 : BitVec 64) (0 : BitVec 64)).d4.toNat 1 = false) := by unfold State.Sizes; decide +kernel

theorem witness_DirectoryAndContexts_2_2_2_1_1 :
    (plcTx.Sizes) ∧
    (plcTx.nextDesc 12 = some (0 : BitVec 32)) ∧
    (3 = bitsAt (dsc (17 : BitVec 64) (3 : BitVec 64) (16384 : BitVec 64) (4096 : BitVec 64) (2 : BitVec 64)).d1.toNat 0 8) ∧
    (bitsAt (dsc (17 : BitVec 64) (3 : BitVec 64) (16384 : BitVec 64) (4096 : BitVec 64) (2 : BitVec 64)).d0.toNat 0 8 = 17) ∧
    (4096 ≤ bitsAt (dsc (17 : BitVec 64) (3 : BitVec 64) (16384 : BitVec 64) (4096 : BitVec 64) (2 : BitVec 64)).d3.toNat 0 32) ∧
    (natLE (List.take 8 (List.drop 8 img4k)) = natLE (List.take 8 (List.drop 8 img4k))) ∧
    (bitAt (dsc (17 : BitVec 64) (3 : BitVec 64) (16384 : BitVec 64) (4096 : BitVec 64) (2 : BitVec 64)).d4.toNat 1 = true) ∧
    (¬((plcTx.ctx 3).keyOk = true ∧ (plcTx.ctx 3).key = (49 : BitVec 128))) := by unfold State.Sizes; decide +kernel

theorem witness_DirectoryAndContexts_2_2_2_2_1 :
    (plcKy.Sizes) ∧
    (plcKy.nextDesc 12 = some (0 : BitVec 32)) ∧
    (3 = bitsAt (dsc (17 : BitVec 64) (3 : BitVec 64) (16384 : BitVec 64) (4096 : BitVec 64) (2 : BitVec 64)).d1.toNat 0 8) ∧
    (bitsAt (dsc (17 : BitVec 64) (3 : BitVec 64) (16384 : BitVec 64) (4096 : BitVec 64) (2 : BitVec 64)).d0.toNat 0 8 = 17) ∧
    (4096 ≤ bitsAt (dsc (17 : BitVec 64) (3 : BitVec 64) (16384 : BitVec 64) (4096 : BitVec 64) (2 : BitVec 64)).d3.toNat 0 32) ∧
    (natLE (List.take 8 (List.drop 8 img4k)) = natLE (List.take 8 (List.drop 8 img4k))) ∧
    (bitAt (dsc (17 : BitVec 64) (3 : BitVec 64) (16384 : BitVec 64) (4096 : BitVec 64) (2 : BitVec 64)).d4.toNat 1 = true) ∧
    ((plcKy.ctx 3).keyOk = true) ∧
    ((plcKy.ctx 3).key = (49 : BitVec 128)) := by unfold State.Sizes; decide +kernel

theorem witness_DirectoryAndContexts_2_3_1 :
    (plcTx.Sizes) ∧
    (plcTx.nextDesc 12 = some (0 : BitVec 32)) ∧
    (3 = bitsAt (dsc (18 : BitVec 64) (3 : BitVec 64) (16384 : BitVec 64) (0 : BitVec 64) (0 : BitVec 64)).d1.toNat 0 8) ∧
    (bitsAt (dsc (18 : BitVec 64) (3 : BitVec 64) (16384 : BitVec 64) (0 : BitVec 64) (0 : BitVec 64)).d0.toNat 0 8 = 18) ∧
    ((plcTx.ctx 3).valid = true) ∧
    (plcTx.ctxQueued 3 = false) := by unfold State.Sizes; decide +kernel

theorem witness_DirectoryAndContexts_2_4_1 :
    (plcTx.Sizes) ∧
    (plcTx.nextDesc 12 = some (0 : BitVec 32)) ∧
    (3 = bitsAt (dsc (19 : BitVec 64) (3 : BitVec 64) (0 : BitVec 64) (0 : BitVec 64) (0 : BitVec 64)).d1.toNat 0 8) ∧
    (bitsAt (dsc (19 : BitVec 64) (3 : BitVec 64) (0 : BitVec 64) (0 : BitVec 64) (0 : BitVec 64)).d0.toNat 0 8 = 19) ∧
    ((plcTx.ctx 3).valid = true) := by unfold State.Sizes; decide +kernel

/-! Witnesses of the statements about the machine as a whole, and of the two that a table of hypotheses does not fit -/

theorem witness_StepRunsFrontCommand_1 : (idle [.tickEdge]).pending = .tickEdge :: [] := rfl

theorem witness_StepRunsFrontCommand_2 : (idle []).pending = [] := rfl

theorem witness_EveryCommandCompletes_2 : ∃ t, exec .tickEdge State.reset = .next t := ⟨_, rfl⟩

theorem witness_StepKeepsInvariant_all : (idle [.tickEdge]).Inv ∧ ∃ t, step (idle [.tickEdge]) = .next t :=
  ⟨by unfold State.Inv; decide +kernel, _, rfl⟩

theorem witness_StepKeepsSizes_all : (idle [.tickEdge]).Sizes ∧ ∃ t, step (idle [.tickEdge]) = .next t :=
  ⟨by unfold State.Sizes; decide +kernel, _, rfl⟩

theorem witness_FramChangesOnlyByItsWriters_all :
    mayWriteFram .tickEdge = false ∧ ∃ t, exec .tickEdge State.reset = .next t := ⟨rfl, _, rfl⟩

theorem witness_LedgerChangesOnlyByItsCommands_all :
    mayChangeLedger .tickEdge = false ∧ ∃ t, exec .tickEdge State.reset = .next t := ⟨rfl, _, rfl⟩

theorem witness_MirroredPair_1_1_none : stb.tzl.mirLast = none := by decide +kernel

theorem witness_MirroredPair_1_1_sums : stb.tzl.sums = [] := by decide +kernel

theorem witness_MirroredPair_1_1 :
    (stb.mirStandby = true ∧ stb.tzl.enumerated = true ∧ stb.mirLinked = true ∧ stb.taken = []) ∧
      (∀ k, stb.tzl.mirLast = some k → k.toNat < mf1.expno.toNat) ∧
      (∀ c ∈ stb.tzl.sums, c.1 = mf1.expno → stb.lateFor (mirDue c.2.2) = false) ∧ mf1.releases = [] ∧ stb.Sizes :=
  ⟨by decide +kernel, fun k h => absurd (witness_MirroredPair_1_1_none.symm.trans h) (by simp),
    fun _ h => (List.not_mem_nil (witness_MirroredPair_1_1_sums ▸ h)).elim, by decide +kernel, by unfold State.Sizes; decide +kernel⟩

end Sys2Proof.Tests
end

section
/-!
Settles O38.  An exposure's open channels are channel numbers, which the state does not bound, and the pick-up of overcurrent shows a
channel n as bit n % 32 of the register EVT_OCNOW (n / 32).  For n = 117505 that is SAF_STAT.SAFE: a pick-up of that channel, while the
exposure is compared, puts the device in safe state, and the point's increments are withheld instead of fixed.
-/

namespace Sys2Proof.Machine
namespace StrayOvercurrent

/-- The channel whose picked-up state is shown in SAF_STAT.SAFE. -/
def strayChan : Nat := 117505

/-- The point's development: one unit of increment in its first register. -/
def strayPoint : PointDev := { point := 0, elems := [], incs := [1], creep := false }

/-- What both engines compute: the stray channel over its pick-up value, and the point. -/
def strayDev : DevResult := { chans := [{ ch := strayChan, ss := 0, n := 1 }], points := [strayPoint] }

/-- The exposure's slot: point 0 runs, and the stray channel is a current channel. -/
def straySlot : Slot :=
  { expno := 5, ts := 0x1000, startAt := 0, endAt := 32768, startTs := 0, short := false, words := [],
    roles := List.replicate (strayChan + 1) 2, eff := [], running := 1, parBad := 0, ecc := [], mu := [], freq := [], pairC := none,
    awayOwn := false, awayOther := false }

/-- The exposure, developed and not yet compared. -/
def strayExpo : Expo :=
  { slot := straySlot, deadline := 0x100000, judged := 0, before := [], sound := strayDev, dev := some strayDev, corrected := [],
    fix := none, replaying := false, replay := none, latent := 0, resolved := 0, fixed := 0, openCh := [strayChan], unconf := [],
    struck := false, ssCounted := false, viewed := false, compared := false, outcome := [], pairWait := [] }

/-- Every power domain is on, and overcurrent of the stray channel is enabled. -/
def strayState : State :=
  { State.reset with
    regs := [(PWR_STAT, 0x3FF <<< 16)]
    exp := { ExpState.reset with pipe := [strayExpo], eff := [(EVT_OCCFG strayChan, 0x80000000)] } }

/-- The fixer's upset: none. -/
def noUpset : EngineUpset := { ss := [], p := [], lanes := [] }

/-- The stray channel's register and bit are those of SAF_STAT.SAFE. -/
theorem ocnow_strayChan : EVT_OCNOW (strayChan / 32) = SAF_STAT_SAFE.off ∧ strayChan % 32 = SAF_STAT_SAFE.lsb := by decide +kernel

/-- A point's ledger register after an outcome that goes on. -/
def ledgerAfter (o : Host.Outcome State Fault Refusal) (p i : Nat) : Option (BitVec 108) :=
  match o with
  | .next t => some (t.ledgerReg p i)
  | _ => none

/-- The comparison takes nothing into the point's first register: the device is in safe state by then. -/
theorem ledgerAfter_strayState : ledgerAfter (exec (.fixerComparison noUpset) strayState) 0 0 = some 0 := by decide +kernel

theorem points_strayExpo : strayExpo.points = [0] := by decide +kernel

theorem pointAgrees_strayExpo :
    pointAgrees straySlot.eff strayDev (upsetResult straySlot.eff strayDev noUpset) 0 = true := by decide +kernel

theorem chanAgrees_strayExpo :
    chanAgrees strayDev (upsetResult straySlot.eff strayDev noUpset) strayChan = true := by decide +kernel

/-- The first register would have to hold the increment. -/
theorem ledgerReg_strayState : strayState.ledgerReg 0 0 = 0 := by decide +kernel

end StrayOvercurrent
end Sys2Proof.Machine

open Sys2Proof.Machine Sys2Proof.Machine.StrayOvercurrent in
/-- Refutes O38: an open channel whose EVT_OCNOW bit is SAF_STAT.SAFE is confirmed with its exposure, so a point on which both engines
agree is withheld. -/
theorem not_resolutionEntersLedgerOnce : ¬ Obligations.ResolutionEntersLedgerOnce := by
  unfold Obligations.ResolutionEntersLedgerOnce
  intro h
  obtain ⟨hcompare, -⟩ := h strayState strayExpo noUpset _ rfl rfl (by decide +kernel) rfl (by decide +kernel) rfl rfl rfl rfl rfl
  obtain ⟨hagree, -⟩ := hcompare strayDev rfl rfl rfl rfl (by decide +kernel)
  have hpoints : ∀ p ∈ strayExpo.points,
      pointAgrees straySlot.eff strayDev (upsetResult straySlot.eff strayDev noUpset) p = true := by
    simpa [points_strayExpo] using pointAgrees_strayExpo
  have hchans : ∀ n ∈ strayExpo.openCh, chanAgrees strayDev (upsetResult straySlot.eff strayDev noUpset) n = true := by
    simpa [strayExpo] using chanAgrees_strayExpo
  obtain ⟨t, hexec, -, hledger⟩ := hagree hpoints hchans
  have hfixed := hledger 0 strayPoint (by simp [points_strayExpo]) rfl 0 (by decide)
  have hheld := ledgerAfter_strayState
  rw [hexec, ledgerAfter, hfixed, ledgerReg_strayState] at hheld
  exact absurd hheld (by decide)

end

section
/-!
Settles O37.  A command that waits for a boundary holds its channel number, which the state does not bound, and FLT_CH is an array of
words: FLT_CH 448 is MET_CFG 0.  A FILT_START of channel 448 that acts at the sync edge sets FRUN there, so a point's setting changes.
-/

namespace Sys2Proof.Machine

/-- The first boundary of a run up to the front end, which takes up the settings and a SYNC. -/
def State.firstFront (s : State) (t : Nat) (src : Option (BitVec 3)) : State × Option (BitVec 3) × Bool :=
  let s := (s.reach t).expireLatent
  (s.beginExposure t none).refillSlot.startAccount.frontStep s.ts true src

/-- The first boundary of a run from the taken commands on, when no exposure has ended yet and a SYNC that is neither the ball's nor a
command's takes effect. -/
def State.firstRest (s : State) (b : BoundaryIn) (before : List (Bool × Nat)) (ran : Nat)
    (front : State × Option (BitVec 3) × Bool) : State :=
  let t := front.1.modTzl (fun z => { z with cut := false })
  let t := t.taken.foldl (fun (t : State) c => t.cmdBoundary (front.1.exp.cur - 1) s.exp.pipe false c) t
  let t := ((t.windowStep front.2.1 front.2.2).chErr before ran).netsetShow
  (t.blocksBegin b none []).wdtRestart.takeOver

/-- The first boundary of a run is its front end and the rest. -/
theorem boundary_first (s : State) (b : BoundaryIn) (t : Nat) (k : BitVec 3) (hrun : (s.reach t).expireLatent.exp.running = false)
    (hk : (k == 1#3 || k == 2#3) = false) (hlast : (s.firstFront t (some k)).1.exp.lastEnded = none) :
    s.boundary b t (some k) none =
      (s.reach t).expireLatent.firstRest b ((s.reach t).expireLatent.exp.chans.map (fun c => (c.started, c.role.toNat)))
        (s.reach t).expireLatent.runMask (s.firstFront t (some k)) := by
  simp only [State.firstFront] at hlast
  simp [State.boundary, State.firstFront, State.firstRest, hrun, hk, hlast]

/-- A sync edge while no exposure runs is the first boundary of a run. -/
theorem exec_syncEdge_first (s : State) (b : BoundaryIn) (at_ : Nat) (hat : s.exp.syncAt = some at_) (hno : s.noRun = false)
    (hrun : s.exp.running = false) :
    exec (.syncEdge b) s = .next ((State.boundary
      ((s.modExp (fun e => { e with syncAt := none })).setFlag FLT_STAT_SYNCPEND false) b at_ (some s.exp.syncSrc) none).settle
        s.irqLive) := by
  change execSyncEdge b s = _
  simp [execSyncEdge, finish, hat, hno, hrun]

namespace StrayFilter

/-- A FILT_START of channel 448 that waits for the boundary. -/
def strayStart : Taken :=
  { op := 0x13, hdr := { src := .ring 0, tag := 0, dlv := false, deadline := 0 }, wait := .filtStart 448, muted := true }

/-- A SYNC is recognised while no exposure runs, and the command waits for its edge. -/
def strayState : State :=
  { State.reset with
    taken := [strayStart]
    prf := { State.reset.prf with started := true }
    exp := { ExpState.reset with syncAt := some 0, chans := [], brk := [] } }

/-- The edge's own changes before its boundary. -/
def edgeState : State := (strayState.modExp (fun e => { e with syncAt := none })).setFlag FLT_STAT_SYNCPEND false

/-- After the front end of the boundary: the first exposure runs, and the SYNC is recorded. -/
def frontState : State :=
  { strayState with
    regs := [(FLT_SYNCCNT, 1), (FLT_SYNCTS_HI, 0x30000000)]
    exp := { strayState.exp with syncAt := none, running := true, startTs := 0x3000000000000000 } }

theorem reach_edgeState : (edgeState.reach 0).expireLatent = edgeState := by decide +kernel

theorem edgeState_running : edgeState.exp.running = false := by decide +kernel

theorem edgeState_chans : edgeState.exp.chans = [] := by decide +kernel

theorem edgeState_runMask : edgeState.runMask = 0 := by decide +kernel

theorem firstFront_edgeState : edgeState.firstFront 0 (some 0) = (frontState, some 0, false) := by decide +kernel

theorem edge_rest_sets_metCfg : (edgeState.firstRest .empty [] 0 (frontState, some 0, false)).rd (MET_CFG 0) = 0x8000 := by
  decide +kernel

theorem strayState_metCfg : strayState.rd (MET_CFG 0) = 0 := by decide +kernel

/-- The sync edge of this state is a first boundary whose rest sets FRUN of the stray channel. -/
theorem exec_syncEdge_strayState :
    exec (.syncEdge .empty) strayState =
      .next ((edgeState.firstRest .empty [] 0 (frontState, some 0, false)).settle strayState.irqLive) := by
  have hedge := exec_syncEdge_first strayState .empty 0 rfl (by decide +kernel) rfl
  change _ = Host.Outcome.next ((edgeState.boundary .empty 0 (some 0) none).settle strayState.irqLive) at hedge
  rw [hedge, boundary_first _ _ _ _ (by rw [reach_edgeState]; exact edgeState_running) rfl
    (by rw [firstFront_edgeState]; rfl), reach_edgeState, firstFront_edgeState,
    edgeState_chans, edgeState_runMask]
  rfl

end StrayFilter
end Sys2Proof.Machine

open Sys2Proof.Machine Sys2Proof.Machine.StrayFilter in
/-- Refutes O37: a waiting FILT_START of channel 448 sets bit 15 of MET_CFG 0 at the sync edge. -/
theorem not_exposuresFollowEachOther : ¬ Obligations.ExposuresFollowEachOther := by
  unfold Obligations.ExposuresFollowEachOther
  intro h
  obtain ⟨-, hedge, -⟩ := h strayState .empty (by decide +kernel) rfl (by decide +kernel)
  obtain ⟨t, hexec, -, -, -, -, -, -, -, hplain, -⟩ := hedge 0 rfl (by decide +kernel) (by decide +kernel)
  have hkept := hplain (MET_CFG 0) (by decide +kernel)
  rw [exec_syncEdge_strayState] at hexec
  rw [← Host.Outcome.next.inj hexec, State.settle_rd (by decide), edge_rest_sets_metCfg, strayState_metCfg] at hkept
  exact absurd hkept (by decide)

end

section
/-!
SUPPORT. The frames of strikes, of the pulse accumulators and of the front end's announcements (R107, R114, R122, R223, R421 to R423).
-/

namespace Sys2Proof.Machine

/-! One part of the state changes -/

theorem frame_modExp (s : State) (f : ExpState → ExpState) : s.Frame (s.modExp f) [.exposure] [] :=
  ⟨fun p hp => by cases p <;> simp [Part.Same, State.framByte] at *, fun _ _ _ => rfl, rfl⟩

theorem frame_modChan (s : State) (n : Nat) (f : ChState → ChState) : s.Frame (s.modChan n f) [.exposure] [] :=
  frame_modExp s (fun e => { e with chans := e.chans.modify n f })

theorem frame_modBrk (s : State) (m : Nat) (f : BrkState → BrkState) : s.Frame (s.modBrk m f) [.exposure] [] :=
  frame_modExp s _

theorem frame_modSaf (s : State) (f : SafState → SafState) : s.Frame (s.modSaf f) [.safety] [] :=
  ⟨fun p hp => by cases p <;> simp [Part.Same, State.framByte] at *, fun _ _ _ => rfl, rfl⟩

theorem frame_modCf (s : State) (n : Nat) (f : CfState → CfState) : s.Frame (s.modCf n f) [.pulses] [] :=
  ⟨fun p hp => by cases p <;> simp [Part.Same, State.framByte, State.modCf] at *, fun _ _ _ => rfl, rfl⟩

theorem frame_modTrip (s : State) (n : Nat) (f : TripState → TripState) : s.Frame (s.modTrip n f) [] [] :=
  ⟨fun p _ => by cases p <;> simp [Part.Same, State.framByte], fun _ _ _ => rfl, rfl⟩

theorem frame_modHif (s : State) (f : HifState → HifState) : s.Frame (s.modHif f) [.host] [] :=
  ⟨fun p hp => by cases p <;> simp [Part.Same, State.framByte] at *, fun _ _ _ => rfl, rfl⟩

/-- The losses of an exposure that are to act when it is resolved (R221). -/
theorem frame_lossWait (s : State) (w : Nat × BitVec 64 × BitVec 72 × BitVec 64) :
    s.Frame (s.modEvt (fun e => { e with lossWait := e.lossWait ++ [w] })) [.windows] [] :=
  ⟨fun p hp => by cases p <;> simp [Part.Same, State.framByte] at *, fun _ _ _ => rfl, rfl⟩

/-! Registers and events -/

theorem frame_setBit (s : State) (off i : Nat) (on : Bool) : s.Frame (s.setBit off i on) [] [off] := frame_wr _ _ _

/-- A register that the end of a command may change is in no frame's way. -/
theorem frame_wr_endReg (s : State) (off : Nat) (v : BitVec 32) (he : endReg off = true) : s.Frame (s.wr off v) [] [] := by
  obtain ⟨hparts, hregs, hpending⟩ := frame_wr s off v
  refine ⟨hparts, fun k _ hk => hregs k ?_ hk, hpending⟩
  rintro hmem
  rw [List.mem_singleton.mp hmem, he] at hk
  cases hk

/-- An event's decision leaves the registers. -/
theorem State.eventT_rd (s : State) (ts : BitVec 64) (c i : Nat) (g : EvEdge) (p0 p1 p2 k : Nat) :
    (s.eventT ts c i g p0 p1 p2).rd k = s.rd k := State.rd_of_regs (State.eventX_regs _ _ _ _ _ _ _ _ _) k

theorem frame_eventT (s : State) (ts : BitVec 64) (c i : Nat) (g : EvEdge) (p0 p1 p2 : Nat) :
    s.Frame (s.eventT ts c i g p0 p1 p2) [] [] := by
  refine ⟨fun p _ => ?_, fun _ _ _ => State.eventT_rd _ _ _ _ _ _ _ _ _, by simp [State.eventT]⟩
  cases p
  case windows => exact State.eventX_windows _ _ _ _ _ _ _ _ _
  all_goals simp [Part.Same, State.framByte, State.eventT]

/-! Pulse outputs -/

theorem frame_cfAdd (s : State) (n : Nat) (d : Int) : s.Frame (s.cfAdd n d) [.pulses] [PIO_CFSTAT n] :=
  ((frame_modCf _ _ _).seq (frame_setFlag _ _ _)).mono (by simp) (List.Subset.refl _)

theorem frame_cfCancel (s : State) (n : Nat) : s.Frame (s.cfCancel n) [.pulses] [PIO_CFSTAT n] :=
  State.Frame.ite (fun _ => State.Frame.refl _ _ _)
    (fun _ => ((frame_modCf _ _ _).seq (frame_cfAdd _ _ _)).mono (by simp) (by simp))

theorem frame_cfRelease (s : State) (n : Nat) : s.Frame (s.cfRelease n) [.pulses] [PIO_CFSTAT n] :=
  (((frame_cfCancel _ _).seq (frame_modCf _ _ _)).seq (frame_setFlag _ (PIO_CFSTAT_HIGH n) _)).mono (by simp)
    (by simp [PIO_CFSTAT_HIGH])

/-! Trip outputs -/

theorem frame_tripBall (s : State) {n : Nat} (hn : n < 8) (low : Bool) : s.Frame (s.tripBall n low) [] [] :=
  State.Frame.ite (fun _ => State.Frame.refl _ _ _)
    (fun _ => (frame_wr_endReg _ _ _ (endReg_trstat hn)).trans (frame_modTrip _ _ _))

/-! Strikes and the safe state -/

theorem frame_faultUpdate (s : State) : s.Frame s.faultUpdate [.safety] [] := frame_modSaf _ _

theorem frame_reinitShow (s : State) (target status : Nat) : s.Frame (s.reinitShow target status) [] [SAF_REINIT] :=
  State.Frame.ite (fun _ => (frame_put _ SAF_REINIT_TARGET _).trans (frame_put _ SAF_REINIT_STATUS _))
    (fun _ => State.Frame.refl _ _ _)

/-- The safe state releases the pulse and trip outputs (R423). -/
theorem frame_enterSafe (s : State) (d : Nat) :
    s.Frame (s.enterSafe d) [.safety, .pulses] ([SAF_STAT, SAF_SSEXP] ++ (List.range 16).map (fun n => PIO_CFSTAT n)) := by
  unfold State.enterSafe
  refine State.Frame.ite (fun _ => State.Frame.refl _ _ _) (fun _ => ?_)
  have hshow : s.Frame (((s.setFlag SAF_STAT_SAFE true).put SAF_STAT_CAUSE d).put SAF_SSEXP_SSEXP 0) [] [SAF_STAT, SAF_SSEXP] :=
    (((frame_setFlag _ _ _).seq (frame_put _ _ _)).seq (frame_put _ _ _)).mono (by simp) (by decide)
  have hpulses (t : State) : t.Frame (State.each 16 (fun n s => s.cfRelease n) t) [.pulses]
      ((List.range 16).map (fun n => PIO_CFSTAT n)) :=
    frame_each _ _ _ (fun n hn u => (frame_cfRelease u n).mono (List.Subset.refl _)
      (by simpa using ⟨n, hn, rfl⟩))
  have htrips (t : State) : t.Frame (State.each 8 (fun n s =>
      (s.tripBall n false).modTrip n (fun x => { x with driven := false })) t) [] [] :=
    frame_each _ _ _ (fun n hn u => (frame_tripBall u hn false).trans (frame_modTrip _ _ _))
  exact ((((hshow.seq (hpulses _)).seq (htrips _)).seq (frame_event _ _ _ _ _ _ _)).seq (frame_faultUpdate _)).mono
    (by simp) (by simp)

theorem frame_safetyFail (s : State) (d : Nat) :
    s.Frame (s.safetyFail d) [.safety, .taken, .host, .writer] ([SAF_STAT, SAF_REINIT] ++ cplRegs) := by
  unfold State.safetyFail
  refine State.Frame.ite (fun _ => State.Frame.refl _ _ _) (fun _ => ?_)
  exact ((((frame_modSaf _ _).seq (frame_setFlag _ SAF_STAT_REINIT _)).seq (frame_reinitShow _ _ _)).seq (frame_doneAll _ _ _ _)).mono
    (by simp) (by decide)

theorem frame_makeLasting (s : State) (d : Nat) :
    s.Frame (s.makeLasting d) [.pulses, .safety, .taken, .host, .writer]
      ([SAF_LASTING, SAF_STAT, SAF_SSEXP, SAF_REINIT] ++ (List.range 16).map (fun n => PIO_CFSTAT n) ++ cplRegs) := by
  unfold State.makeLasting
  refine State.Frame.ite (fun _ => State.Frame.refl _ _ _) (fun _ => ?_)
  have hfail := ((frame_put s SAF_LASTING_LASTING (s.get SAF_LASTING_LASTING + 2 ^ d)).seq (frame_safetyFail _ d))
  refine State.Frame.ite (fun _ => (hfail.seq (frame_enterSafe _ d)).mono (by simp) (by decide)) (fun _ => hfail.mono (by simp) (by decide))

theorem State.get_bump_self (s : State) (f : Fld) (n : Nat) (h : f.lsb + f.width ≤ 32) :
    (s.bump f n).get f = min (s.get f + n) (2 ^ f.width - 1) := by
  have hpos : 0 < 2 ^ f.width := by positivity
  rw [State.bump, State.get_put_self s f _ h, Nat.mod_eq_of_lt (by omega)]

/-- A strike is counted; it may be lasting (R421, R422). -/
theorem State.strike_cases (s : State) (d detail : Nat) (hon : s.pdOn 5 = true) :
    ∃ u, s.Frame u [.safety] [SAF_STRK d] ∧
      u.get (SAF_STRK_STRK d) = min (s.get (SAF_STRK_STRK d) + 1) (2 ^ (SAF_STRK_STRK d).width - 1) ∧
      (s.strike d detail = u ∨ s.strike d detail = u.makeLasting d) := by
  have hframe (f : SafState → SafState) (n m : Nat) :
      s.Frame (((s.modSaf f).bump (SAF_STRK_STRK d) 1).eventT s.ts 0x0601 d .momentary n m detail) [.safety] [SAF_STRK d] :=
    ((frame_modSaf _ _).seq (frame_bump _ (SAF_STRK_STRK d) _)).trans ((frame_eventT _ _ _ _ _ _ _ _).mono (by simp) (by simp))
  have hcount (f : SafState → SafState) (n m : Nat) :
      (((s.modSaf f).bump (SAF_STRK_STRK d) 1).eventT s.ts 0x0601 d .momentary n m detail).get (SAF_STRK_STRK d) =
        min (s.get (SAF_STRK_STRK d) + 1) (2 ^ (SAF_STRK_STRK d).width - 1) := by
    rw [State.get, State.eventT_rd]
    exact State.get_bump_self (s.modSaf f) (SAF_STRK_STRK d) 1 (by simp [SAF_STRK_STRK])
  obtain ⟨f, n, m, heq⟩ : ∃ f n m,
      s.strike d detail = ((s.modSaf f).bump (SAF_STRK_STRK d) 1).eventT s.ts 0x0601 d .momentary n m detail ∨
        s.strike d detail = (((s.modSaf f).bump (SAF_STRK_STRK d) 1).eventT s.ts 0x0601 d .momentary n m detail).makeLasting d := by
    unfold State.strike State.strikeT State.strikeG
    rw [if_neg (by simp [hon])]
    exact ⟨_, _, _, (ite_eq_or_eq _ _ _).symm⟩
  exact ⟨_, hframe f n m, hcount f n m, heq⟩

/-- A strike changes the counters of the diagnostic, and when it is lasting the safe state and the commands that wait for it. -/
theorem frame_strike (s : State) {d : Nat} (hd : d < 14) (detail : Nat) :
    s.Frame (s.strike d detail) [.pulses, .safety, .taken, .host, .writer] strikeRegs := by
  by_cases hon : s.pdOn 5 = true
  · have hstrk : SAF_STRK d ∈ strikeRegs := by
      simp only [strikeRegs, List.append_assoc]
      exact List.mem_append_left _ (List.mem_map_of_mem (List.mem_range.mpr hd))
    obtain ⟨u, hu, -, heq⟩ := s.strike_cases d detail hon
    have hcounted : s.Frame u [.pulses, .safety, .taken, .host, .writer] strikeRegs := hu.mono (by simp) (by simpa using hstrk)
    rcases heq with heq | heq <;> rw [heq]
    · exact hcounted
    · exact hcounted.trans ((frame_makeLasting u d).mono (by simp) (by decide))
  · rw [State.strike, State.strikeT, State.strikeG, if_pos (by simp [hon])]
    exact State.Frame.refl _ _ _

/-- A strike counts once (R421). -/
theorem State.strike_count (s : State) {d : Nat} (hd : d < 14) (detail : Nat) (hon : s.pdOn 5 = true) :
    (s.strike d detail).get (SAF_STRK_STRK d) = min (s.get (SAF_STRK_STRK d) + 1) (2 ^ (SAF_STRK_STRK d).width - 1) := by
  have hapart : ∀ d < 14, endReg (SAF_STRK d) = false ∧
      SAF_STRK d ∉ [SAF_LASTING, SAF_STAT, SAF_SSEXP, SAF_REINIT] ++ (List.range 16).map (fun n => PIO_CFSTAT n) ++ cplRegs := by
    decide
  obtain ⟨u, -, hcount, heq⟩ := s.strike_cases d detail hon
  rcases heq with heq | heq <;> rw [heq]
  · exact hcount
  · rw [(frame_makeLasting u d).get (SAF_STRK_STRK d) (hapart d hd).2 (hapart d hd).1, hcount]

end Sys2Proof.Machine
end

section
/-!
SUPPORT. What the front end's announcements do (R107, R110, R114, R115, R122): stream losses and the switches of bracketed pairs.
-/

namespace Sys2Proof.Machine

/-! Fields, bits and members -/

theorem bitAt_eq_testBit (n i : Nat) : bitAt n i = n.testBit i := by
  rw [bitAt, Nat.testBit_eq_decide_div_mod_eq]; rfl

/-- A 32-bit number with bit i cleared and set again has bit i. -/
theorem bitAt_setBit_nat (v : Nat) {i : Nat} (hi : i < 32) :
    bitAt (BitVec.ofNat 32 (v - v / 2 ^ i % 2 * 2 ^ i + 1 * 2 ^ i)).toNat i = true := by
  have hpos : 0 < 2 ^ i := by positivity
  have hsplit : v - v / 2 ^ i % 2 * 2 ^ i + 1 * 2 ^ i = v % 2 ^ i + 2 ^ i * (2 * (v / 2 ^ i / 2) + 1) := by
    have hdiv := Nat.div_add_mod v (2 ^ i)
    have hhalf := Nat.div_add_mod (v / 2 ^ i) 2
    have hle : v / 2 ^ i % 2 * 2 ^ i ≤ v := by
      calc v / 2 ^ i % 2 * 2 ^ i ≤ v / 2 ^ i * 2 ^ i := Nat.mul_le_mul_right _ (Nat.mod_le _ _)
        _ ≤ v := Nat.div_mul_le_self _ _
    zify [hle] at *
    linear_combination (-1 : Int) * hdiv - (2 : Int) ^ i * hhalf
  rw [bitAt_eq_testBit, BitVec.toNat_ofNat, Nat.testBit_mod_two_pow, hsplit, Nat.testBit_eq_decide_div_mod_eq,
    Nat.add_mul_div_left _ _ hpos, Nat.div_eq_of_lt (Nat.mod_lt v hpos)]
  simp [hi, Nat.add_mod]

theorem State.bitAt_rd_setBit (s : State) (off : Nat) {i : Nat} (hi : i < 32) :
    bitAt ((s.setBit off i true).rd off).toNat i = true := by
  rw [State.setBit, State.rd_wr, if_pos rfl]
  exact bitAt_setBit_nat _ hi

theorem State.chan_modChan_self (s : State) {n : Nat} (f : ChState → ChState) (hn : n < s.exp.chans.length) :
    (s.modChan n f).chan n = f (s.chan n) := by
  simp [State.chan, State.modChan, List.getD_eq_getElem?_getD, hn]

theorem State.brk_modBrk_self (s : State) {m : Nat} (f : BrkState → BrkState) (hm : m < s.exp.brk.length) :
    (s.modBrk m f).brk m = f (s.brk m) := by
  simp [State.brk, State.modBrk, List.getD_eq_getElem?_getD, hm]

/-! Bracketed pairs -/

theorem frame_brkLow (s : State) (m k : Nat) : s.Frame (s.brkLow m k) [.exposure] [MFE_BRKST m, MFE_BRKSW m] :=
  State.Frame.ite
    (fun _ => ((frame_modBrk _ _ _).seq ((frame_setFlag _ (MFE_BRKST_SEL m) _).seq (frame_bump _ (MFE_BRKSW_TOLG m) _))))
    (fun _ => State.Frame.refl _ _ _)

theorem frame_brkHigh (s : State) (m k : Nat) : s.Frame (s.brkHigh m k) [.exposure] [MFE_BRKST m, MFE_BRKSW m] :=
  State.Frame.ite
    (fun _ => ((frame_modBrk _ _ _).seq ((frame_setFlag _ (MFE_BRKST_SEL m) _).seq (frame_bump _ (MFE_BRKSW_TOHG m) _))))
    (fun _ => State.Frame.refl _ _ _)

/-- A pair's switch leaves the channels. -/
theorem State.brkLow_chan (s : State) (m k n : Nat) : (s.brkLow m k).chan n = s.chan n := by
  unfold State.brkLow; split <;> simp [State.chan, State.modBrk]

theorem State.brkLow_of_sel (s : State) {m k : Nat} (hon : (s.brk m).on = true) (hsel : s.flag (MFE_BRKST_SEL m) = true) :
    s.brkLow m k = ((s.modBrk m (fun b => { b with timeline := b.timeline ++ [(k, false)], fired := true, toLg := b.toLg + 1 })).setFlag
      (MFE_BRKST_SEL m) false).bump (MFE_BRKSW_TOLG m) 1 := by
  simp [State.brkLow, hon, hsel]

theorem State.brkHigh_of_canReturn (s : State) {m k : Nat} (hon : (s.brk m).on = true) (hsel : s.flag (MFE_BRKST_SEL m) = false)
    (hloss : s.flag (MFE_BRKST_HGLOSS m) = false) (hreturn : (s.brk m).canReturn k = true) :
    s.brkHigh m k = ((s.modBrk m (fun b => { b with timeline := b.timeline ++ [(k, true)], toHg := b.toHg + 1 })).setFlag
      (MFE_BRKST_SEL m) true).bump (MFE_BRKSW_TOHG m) 1 := by
  simp [State.brkHigh, hon, hsel, hloss, hreturn]

/-- The registers that the end of a command may change lie above the front end's and the metering points'. -/
theorem endReg_low {off : Nat} (h : off < 11924) : endReg off = false := by
  have htrip : ∀ n < 8, 11924 ≤ PIO_TRSTAT n ∧ 11924 ≤ PIO_TRCNT n := by decide
  have hany : (List.range 8).any (fun n => off == PIO_TRSTAT n || off == PIO_TRCNT n) = false := by
    refine List.any_eq_false.mpr (fun n hn => ?_)
    obtain ⟨hstat, hcnt⟩ := htrip n (List.mem_range.mp hn)
    simp only [Bool.or_eq_true, beq_iff_eq]
    omega
  have hne : ∀ k, 11924 ≤ k → (off == k) = false := fun k hk => beq_eq_false_iff_ne.mpr (by omega)
  simp only [endReg, hany, hne EVT_DROPCNT (by decide), hne MBX_IRQPEND (by decide), hne MSIX_PBA (by decide),
    hne FCV_STAT (by decide), hne FCV_CSMISS (by decide), Bool.or_self]

/-- What the announcement of a pair's switch shows at the end of its command: SEL, the pair's own state, and the counter. -/
theorem State.switch_shown (s : State) (b : Nat) {m : Nat} (hm : m < s.exp.brk.length) (hm' : m < 48) (sel : Bool) (f : BrkState → BrkState)
    {c : Fld} (hoff : c.off = MFE_BRKSW m) (hc : c.lsb + c.width ≤ 32) :
    ((((s.modBrk m f).setFlag (MFE_BRKST_SEL m) sel).bump c 1).settle b).flag (MFE_BRKST_SEL m) = sel ∧
      ((((s.modBrk m f).setFlag (MFE_BRKST_SEL m) sel).bump c 1).settle b).brk m = f (s.brk m) ∧
      ((((s.modBrk m f).setFlag (MFE_BRKST_SEL m) sel).bump c 1).settle b).get c = min (s.get c + 1) (2 ^ c.width - 1) := by
  have hapart : c.off ≠ (MFE_BRKST_SEL m).off := by simp [hoff, MFE_BRKST_SEL, MFE_BRKST, MFE_BRKSW]
  have hst : endReg (MFE_BRKST m) = false := endReg_low (by unfold MFE_BRKST; omega)
  have hsw : endReg (MFE_BRKSW m) = false := endReg_low (by unfold MFE_BRKSW; omega)
  refine ⟨?_, ?_, ?_⟩
  · rw [State.settle_flag hst _ b (MFE_BRKST_SEL m) rfl, State.flag, State.bump, State.get_put_ne _ _ _ _ hapart]
    exact State.flag_setFlag_self (s.modBrk m f) (MFE_BRKST_SEL m) sel (by simp [MFE_BRKST_SEL]) (by simp [MFE_BRKST_SEL])
  · rw [← s.brk_modBrk_self f hm]
    simp [State.brk]
  · rw [State.settle_get hsw _ b c hoff, State.get_bump_self _ c 1 hc, State.setFlag, State.get_put_ne _ _ _ _ hapart.symm]
    rfl

/-- The pair goes to its low-gain member (R114, R122). -/
theorem exec_bracketSwitch {s : State} (hs : s.Sizes) {m k : Nat} (hm : m < 48) (hon : (s.brk m).on = true)
    (hsel : s.flag (MFE_BRKST_SEL m) = true) :
    ∃ t, exec (.bracketSwitch m k) s = .next t ∧ t.flag (MFE_BRKST_SEL m) = false ∧
      (t.brk m).timeline = (s.brk m).timeline ++ [(k, false)] ∧
      t.get (MFE_BRKSW_TOLG m) = min (s.get (MFE_BRKSW_TOLG m) + 1) 65535 ∧ s.Frame t [.exposure] [MFE_BRKST m, MFE_BRKSW m] := by
  obtain ⟨-, hlen, -⟩ := hs
  refine ⟨(s.brkLow m k).settle s.irqLive, rfl, ?_⟩
  have hframe := (frame_brkLow s m k).settle s.irqLive
  rw [State.brkLow_of_sel s hon hsel] at hframe ⊢
  obtain ⟨hflag, hbrk, hget⟩ := s.switch_shown s.irqLive (hlen ▸ hm) hm false
    (fun b => { b with timeline := b.timeline ++ [(k, false)], fired := true, toLg := b.toLg + 1 }) (c := MFE_BRKSW_TOLG m) rfl
    (by simp [MFE_BRKSW_TOLG])
  exact ⟨hflag, by rw [hbrk], hget, hframe⟩

/-- The pair returns to its high-gain member (R115, R121, R122). -/
theorem exec_bracketReturn {s : State} (hs : s.Sizes) {m k : Nat} (hm : m < 48) (hon : (s.brk m).on = true)
    (hsel : s.flag (MFE_BRKST_SEL m) = false) (hloss : s.flag (MFE_BRKST_HGLOSS m) = false)
    (hreturn : (s.brk m).canReturn k = true) :
    ∃ t, exec (.bracketReturn m k) s = .next t ∧ t.flag (MFE_BRKST_SEL m) = true ∧
      (t.brk m).timeline = (s.brk m).timeline ++ [(k, true)] ∧
      t.get (MFE_BRKSW_TOHG m) = min (s.get (MFE_BRKSW_TOHG m) + 1) 65535 ∧ s.Frame t [.exposure] [MFE_BRKST m, MFE_BRKSW m] := by
  obtain ⟨-, hlen, -⟩ := hs
  refine ⟨(s.brkHigh m k).settle s.irqLive, rfl, ?_⟩
  have hframe := (frame_brkHigh s m k).settle s.irqLive
  rw [State.brkHigh_of_canReturn s hon hsel hloss hreturn] at hframe ⊢
  obtain ⟨hflag, hbrk, hget⟩ := s.switch_shown s.irqLive (hlen ▸ hm) hm true
    (fun b => { b with timeline := b.timeline ++ [(k, true)], toHg := b.toHg + 1 }) (c := MFE_BRKSW_TOHG m) rfl
    (by simp [MFE_BRKSW_TOHG])
  exact ⟨hflag, by rw [hbrk], hget, hframe⟩

/-! Stream loss -/

theorem State.settle_chan (s : State) (b n : Nat) : (s.settle b).chan n = s.chan n := by simp [State.chan]

/-- A loss is shown for its channel (R107). -/
def State.lossMarked (s : State) (n cause : Nat) : State :=
  ((s.modChan n (fun c => { c with lost := true, lostNow := true, byBank := cause == 2 })).setBit (MFE_LOSS (n / 32)) (n % 32) true).setBit
    (MFE_LOSSNOW (n / 32)) (n % 32) true

/-- A loss's event is decided, or waits for the exposure in progress (R221). -/
def State.lossNoted (s : State) (n cause : Nat) : State :=
  if s.exp.running then s.modEvt (fun e => { e with lossWait := e.lossWait ++ [(n, BitVec.ofNat 64 cause, s.exp.cur, s.ts)] })
  else s.event 0x0101 n .start cause 0 0

/-- A running pair whose high-gain member is lost goes to the other one (R110). -/
def State.lossPair (s : State) (n : Nat) : State :=
  if (s.chan n).role = roleBrkHi ∧ (s.brk (n / 2)).on then
    (s.brkLow (n / 2) 0).setFlag (MFE_BRKST_HGLOSS (n / 2)) true
  else s

theorem State.declareLoss_of_started (s : State) {n : Nat} (cause : Nat) (hstarted : (s.chan n).started = true)
    (hlost : (s.chan n).lost = false) :
    s.declareLoss n cause = (((s.lossMarked n cause).strike dStream n).lossNoted n cause).lossPair n := by
  simp [State.declareLoss, hstarted, hlost, State.lossMarked, State.lossNoted, State.lossPair]

theorem frame_lossMarked (s : State) (n cause : Nat) :
    s.Frame (s.lossMarked n cause) [.exposure] [MFE_LOSS (n / 32), MFE_LOSSNOW (n / 32)] :=
  (frame_modChan _ _ _).seq ((frame_setBit _ _ _ _).seq (frame_setBit _ _ _ _))

theorem frame_lossNoted (s : State) (n cause : Nat) : s.Frame (s.lossNoted n cause) [.windows] [] :=
  State.Frame.ite (fun _ => frame_lossWait _ _) (fun _ => (frame_event _ _ _ _ _ _ _).mono (by simp) (by simp))

theorem frame_lossPair (s : State) (n : Nat) : s.Frame (s.lossPair n) [.exposure] [MFE_BRKST (n / 2), MFE_BRKSW (n / 2)] :=
  State.Frame.ite
    (fun _ => ((frame_brkLow _ _ _).seq (frame_setFlag _ (MFE_BRKST_HGLOSS (n / 2)) _)).mono (by simp) (by simp [MFE_BRKST_HGLOSS]))
    (fun _ => State.Frame.refl _ _ _)

/-- What follows a loss's mark leaves the channels. -/
theorem State.lossPair_chan (s : State) (n k : Nat) : (s.lossPair n).chan k = s.chan k := by
  unfold State.lossPair
  split
  · rw [← State.brkLow_chan s (n / 2) 0 k]; simp [State.chan]
  · rfl

theorem State.lossNoted_chan (s : State) (n cause k : Nat) : (s.lossNoted n cause).chan k = s.chan k := by
  unfold State.lossNoted; split <;> simp [State.chan]

/-- The front end's registers and those of strikes are apart. -/
theorem strikeRegs_high : ∀ off ∈ strikeRegs, 8192 ≤ off := by decide

/-- What the mark of a loss shows. -/
theorem State.lossMarked_shown (s : State) {n : Nat} (cause : Nat) (hn : n < s.exp.chans.length) (hn' : n < 96) :
    ((s.lossMarked n cause).chan n).lost = true ∧ bitAt ((s.lossMarked n cause).rd (MFE_LOSS (n / 32))).toNat (n % 32) = true ∧
      bitAt ((s.lossMarked n cause).rd (MFE_LOSSNOW (n / 32))).toNat (n % 32) = true := by
  have hbit : n % 32 < 32 := Nat.mod_lt _ (by decide)
  have hapart : MFE_LOSS (n / 32) ∉ [MFE_LOSSNOW (n / 32)] := by unfold MFE_LOSS MFE_LOSSNOW; simp
  refine ⟨?_, ?_, State.bitAt_rd_setBit _ _ hbit⟩
  · change ((s.modChan n _).chan n).lost = true
    rw [State.chan_modChan_self _ _ hn]
  · rw [State.lossMarked, (frame_setBit _ _ _ _).rd hapart (endReg_low (by unfold MFE_LOSS; omega))]
    exact State.bitAt_rd_setBit _ _ hbit

theorem exec_streamLoss_eq (s : State) (n : Nat) :
    exec (.streamLoss n) s = .next ((if (s.chan n).held then s else s.declareLoss n 0).settle s.irqLive) := rfl

/-- A loss is shown for its channel, strikes once, and a pair that loses its high-gain member goes to the other one (R107, R110). -/
theorem exec_streamLoss {s : State} (hs : s.Sizes) {n : Nat} (hn : n < 96) (hstarted : (s.chan n).started = true)
    (hheld : (s.chan n).held = false) (hlost : (s.chan n).lost = false) (hon : s.pdOn 5 = true) :
    ∃ t, exec (.streamLoss n) s = .next t ∧ (t.chan n).lost = true ∧ bitAt (t.rd (MFE_LOSS (n / 32))).toNat (n % 32) = true ∧
      bitAt (t.rd (MFE_LOSSNOW (n / 32))).toNat (n % 32) = true ∧
      t.get (SAF_STRK_STRK 2) = min (s.get (SAF_STRK_STRK 2) + 1) (2 ^ (SAF_STRK_STRK 2).width - 1) ∧
      s.Frame t [.exposure, .windows, .pulses, .safety, .taken, .host, .writer]
        ([MFE_LOSS (n / 32), MFE_LOSSNOW (n / 32), MFE_BRKST (n / 2), MFE_BRKSW (n / 2)] ++ strikeRegs) := by
  obtain ⟨hlen, -⟩ := hs
  rw [exec_streamLoss_eq, if_neg (by simp [hheld]), s.declareLoss_of_started 0 hstarted hlost]
  obtain ⟨hchan, hloss, hnow⟩ := s.lossMarked_shown 0 (hlen ▸ hn) hn
  have hmarked := frame_lossMarked s n 0
  generalize s.lossMarked n 0 = marked at hchan hloss hnow hmarked ⊢
  have hpd : marked.pdOn 5 = true := by
    rw [State.pdOn, hmarked.get PWR_STAT_PDON (by simp [PWR_STAT_PDON, PWR_STAT, MFE_LOSS, MFE_LOSSNOW]; omega) (by decide)]
    exact hon
  have hcount : (marked.strike dStream n).get (SAF_STRK_STRK 2) = _ := marked.strike_count (d := 2) (by decide) n hpd
  have hstruck : marked.Frame (marked.strike dStream n) _ _ := frame_strike marked (by decide) n
  have hrest := (((frame_lossNoted (marked.strike dStream n) n 0).seq (frame_lossPair _ n)).settle s.irqLive)
  have hafter := hstruck.seq hrest
  have hpair : ∀ m, 4400 ≤ MFE_BRKST m ∧ 4400 ≤ MFE_BRKSW m := fun m => by unfold MFE_BRKST MFE_BRKSW; omega
  have hkept : ∀ off, off < 4400 →
      ((((marked.strike dStream n).lossNoted n 0).lossPair n).settle s.irqLive).rd off = marked.rd off := by
    intro off hoff
    refine hafter.rd (fun hmem => ?_) (endReg_low (by omega))
    simp only [List.nil_append, List.mem_append, List.mem_cons, List.not_mem_nil, or_false] at hmem
    rcases hmem with hmem | hmem | hmem
    · exact absurd (strikeRegs_high off hmem) (by omega)
    · exact absurd (hpair (n / 2)).1 (by omega)
    · exact absurd (hpair (n / 2)).2 (by omega)
  have hstrk : (SAF_STRK_STRK 2).off ∉ [] ++ [MFE_BRKST (n / 2), MFE_BRKSW (n / 2)] := by
    simp only [List.nil_append, List.mem_cons, List.not_mem_nil, or_false, SAF_STRK_STRK, SAF_STRK, MFE_BRKST, MFE_BRKSW]
    omega
  have hbefore : marked.get (SAF_STRK_STRK 2) = s.get (SAF_STRK_STRK 2) := by
    refine hmarked.get (SAF_STRK_STRK 2) ?_ (by decide)
    simp only [List.mem_cons, List.not_mem_nil, or_false, SAF_STRK_STRK, SAF_STRK, MFE_LOSS, MFE_LOSSNOW]
    omega
  refine ⟨_, rfl, ?_, ?_, ?_, ?_, (hmarked.seq hafter).mono (by simp) (fun off h => ?_)⟩
  · rw [State.settle_chan, State.lossPair_chan, State.lossNoted_chan, State.chan, (State.strike_keeps _ _ _).2.1]
    exact hchan
  · rw [hkept _ (by unfold MFE_LOSS; omega), hloss]
  · rw [hkept _ (by unfold MFE_LOSSNOW; omega), hnow]
  · rw [hrest.get (SAF_STRK_STRK 2) hstrk (by decide), hcount, hbefore]
  · simp only [List.mem_append, List.mem_cons, List.not_mem_nil, or_false, List.nil_append] at h ⊢
    tauto

end Sys2Proof.Machine
end

section
/-!
Settles O39.  An exposure alone in the pipe, developed and not yet fixed, passes through publication: for each running point the exposure
becomes latent and the pulse outputs in latent-pulse mode take the increment, then the live view is written; comparison and completion
find nothing to do.
-/

namespace Sys2Proof.Machine

/-- The registers that publication may change. -/
def showRegs : List Nat := (List.range 32).map (fun p => MET_STAT p) ++ (List.range 16).map (fun n => PIO_CFSTAT n)

/-- The parts that a development's publication may change. -/
def showParts : List Part := [.exposure, .host, .pulses, .safety]

/-- The exposure, latent for the points of a mask; `v` when its live view was written. -/
def Expo.shown (x : Expo) (l : BitVec 32) (v : Bool) : Expo := { x with latent := l, viewed := v }

/-- From s to t the only exposure x of the pipe was published for some points, and nothing else happened beside what publication
changes. -/
def State.Shows (s t : State) (x : Expo) (l : BitVec 32) (v : Bool) : Prop :=
  t.exp = { s.exp with pipe := [x.shown l v] } ∧ s.Frame t showParts showRegs

theorem State.Shows.step {s t u : State} {x : Expo} {l l' : BitVec 32} {v v' : Bool} {parts : List Part} {regs : List Nat}
    (h : s.Shows t x l v) (hexp : u.exp = { t.exp with pipe := [x.shown l' v'] }) (hframe : t.Frame u parts regs)
    (hparts : parts ⊆ showParts) (hregs : regs ⊆ showRegs) : s.Shows u x l' v' := by
  obtain ⟨hpipe, hsofar⟩ := h
  exact ⟨by rw [hexp, hpipe], hsofar.trans (hframe.mono hparts hregs)⟩

/-- The timestamp of an instant depends on the time bases alone. -/
theorem State.ts_of_same {s t : State} (hmaster : t.tzl.masterTs = s.tzl.masterTs) (hosf : t.flag RTC_STAT_OSF = s.flag RTC_STAT_OSF)
    (hhf : t.hfOn = s.hfOn) (hclock : t.rtc = s.rtc) (hnow : t.exp.now = s.exp.now) (hedge : t.exp.edgeAt = s.exp.edgeAt) :
    t.ts = s.ts := by
  unfold State.ts State.rtcKey
  rw [hmaster, hosf, hhf, hclock, hnow, hedge]

/-- Publication takes no time. -/
theorem State.Shows.lateFor {s t : State} {x : Expo} {l : BitVec 32} {v : Bool} (h : s.Shows t x l v) (d : BitVec 64) :
    t.lateFor d = s.lateFor d := by
  obtain ⟨hexp, hframe⟩ := h
  have hlink : ({ t.tzl with fwd := [] } : TzlState) = { s.tzl with fwd := [] } := hframe.part (p := .link) (by decide)
  have hts : t.ts = s.ts := State.ts_of_same (congrArg TzlState.masterTs hlink :) (hframe.flag _ (by decide) (by decide))
    (hframe.flag PWR_STAT_HFOK (by decide) (by decide)) (hframe.part (p := .clock) (by decide)) (by rw [hexp]) (by rw [hexp])
  rw [State.lateFor, hts, State.lateFor]

theorem State.modExpo_single {s : State} {y : Expo} (hpipe : s.exp.pipe = [y]) (f : Expo → Expo) :
    (s.modExpo y.slot.expno f).exp = { s.exp with pipe := [f y] } := by
  simp [State.modExpo, hpipe]

theorem frame_modExpo (s : State) (e : BitVec 72) (f : Expo → Expo) : s.Frame (s.modExpo e f) [.exposure] [] := frame_modExp _ _

theorem State.expo_single {s : State} {y : Expo} (hpipe : s.exp.pipe = [y]) : s.expo y.slot.expno = some y := by
  simp [State.expo, hpipe]

/-! What publication does beside the pipe -/

theorem State.cfPublish_exp (s : State) (e : BitVec 72) (p : Nat) (incs : List Nat) : (s.cfPublish e p incs).exp = s.exp := by
  refine each_exp _ _ _ (fun n u => ?_)
  dsimp only
  split
  · simp [State.cfAdd]
  · rfl

theorem frame_cfPublish (s : State) (e : BitVec 72) (p : Nat) (incs : List Nat) :
    s.Frame (s.cfPublish e p incs) [.pulses] ((List.range 16).map (fun n => PIO_CFSTAT n)) := by
  unfold State.cfPublish
  refine frame_each _ _ _ (fun n hn u => State.Frame.ite (fun _ => ?_) (fun _ => State.Frame.refl _ _ _))
  exact ((frame_cfAdd _ _ _).seq (frame_modCf _ _ _)).mono (by simp) (by simpa using ⟨n, hn, rfl⟩)

theorem frame_latentFlag (s : State) {p : Nat} (hp : p < 32) : s.Frame (s.latentFlag p) [] showRegs :=
  (frame_setFlag _ (MET_STAT_LATENT p) _).mono (by simp)
    (by simpa [showRegs, MET_STAT_LATENT] using Or.inl ⟨p, hp, rfl⟩)

theorem frame_liveView (s : State) (x : Expo) (r : DevResult) : s.Frame (s.liveView x r) [.host] [] := by
  unfold State.liveView
  refine State.Frame.ite (fun _ => State.Frame.refl _ _ _) (fun _ => ?_)
  change s.Frame ((((s.modHif (fun h => { h with lvSeq := s.hif.lvSeq + 1 + 1 })).emit _).emit _).emit _) _ _
  exact (frame_modHif s _).trans (((frame_emit _ _).trans ((frame_emit _ _).trans (frame_emit _ _))).mono (by simp) (by simp))

theorem State.liveView_exp (s : State) (x : Expo) (r : DevResult) : (s.liveView x r).exp = s.exp := by
  unfold State.liveView; split <;> rfl

/-! Publication -/

/-- One point of a development r of exposure x is published, when it may be (R29). -/
def State.publishPoint (s : State) (x : Expo) (r : DevResult) (p : Nat) : State :=
  let blocked := s.exp.pipe.any (fun y =>
    decide (y.slot.expno.toNat < x.slot.expno.toNat) && bitAt y.slot.running.toNat p && !bitAt y.resolved.toNat p)
  match s.expo x.slot.expno with
  | some y =>
    if blocked || s.lateFor y.deadline || bitAt y.latent.toNat p || bitAt y.resolved.toNat p then s
    else
      let incs := match r.point p with | some d => d.incs | none => []
      let s := s.modExpo x.slot.expno (fun z => { z with latent := z.latent ||| bit32 p })
      (s.cfPublish x.slot.expno p incs).latentFlag p
  | none => s

/-- The live view of an exposure follows once it is published for every running point (R200). -/
def State.publishView (s : State) (x : Expo) : State :=
  match s.expo x.slot.expno, x.dev with
  | some y, some r =>
    if !y.viewed && y.points.all (fun p => bitAt (y.latent ||| y.resolved).toNat p) then
      (s.liveView y r).modExpo x.slot.expno (fun z => { z with viewed := true })
    else s
  | _, _ => s

theorem State.publish_eq (s : State) :
    s.publish = (fun t : State => t.exp.pipe.foldl State.publishView t) (s.exp.pipe.foldl (fun s x =>
      match x.dev with
      | none => s
      | some r => x.points.foldl (fun s p => s.publishPoint x r p) s) s) := rfl

theorem State.publish_single {s : State} {x : Expo} {r : DevResult} (hpipe : s.exp.pipe = [x]) (hdev : x.dev = some r) :
    s.publish = (fun t : State => t.exp.pipe.foldl State.publishView t) (x.points.foldl (fun s p => s.publishPoint x r p) s) := by
  rw [State.publish_eq, hpipe]
  simp only [List.foldl_cons, List.foldl_nil, hdev]

theorem bitAt_or (a b : BitVec 32) (p : Nat) : bitAt (a ||| b).toNat p = (bitAt a.toNat p || bitAt b.toNat p) := by
  simp [bitAt_eq_testBit]

theorem bitAt_bit32 {p : Nat} (hp : p < 32) : bitAt (bit32 p).toNat p = true := by
  have hlt : 2 ^ p < 2 ^ 32 := Nat.pow_lt_pow_right (by decide) hp
  rw [bitAt_eq_testBit, bit32, BitVec.toNat_ofNat, Nat.mod_eq_of_lt hlt, Nat.testBit_two_pow_self]

/-- A point whose turn it is becomes latent. -/
theorem State.Shows.publishPoint {s t : State} {x : Expo} {l : BitVec 32} {v : Bool} (h : s.Shows t x l v)
    (hlate : s.lateFor x.deadline = false) (l₀ : BitVec 32) (v₀ : Bool) (r : DevResult) {p : Nat} (hp : p < 32) :
    ∃ l', s.Shows (t.publishPoint (x.shown l₀ v₀) r p) x l' v ∧ bitAt (l' ||| x.resolved).toNat p = true ∧
      ∀ q, bitAt (l ||| x.resolved).toNat q = true → bitAt (l' ||| x.resolved).toNat q = true := by
  have hpipe : t.exp.pipe = [x.shown l v] := by rw [h.1]
  have hexpo : t.expo (x.shown l₀ v₀).slot.expno = some (x.shown l v) := State.expo_single hpipe
  unfold State.publishPoint
  rw [hexpo, hpipe]
  by_cases hout : bitAt (l ||| x.resolved).toNat p = true
  · refine ⟨l, ?_, hout, fun q hq => hq⟩
    rw [bitAt_or, Bool.or_eq_true] at hout
    simpa [Expo.shown, h.lateFor, hlate, hout] using h
  · refine ⟨l ||| bit32 p, ?_, by simp only [bitAt_or, bitAt_bit32 hp, Bool.or_true, Bool.true_or], fun q hq => ?_⟩
    · rw [bitAt_or, Bool.or_eq_true, not_or] at hout
      obtain ⟨hl, hr⟩ := hout
      simp only [Expo.shown, List.any_cons, List.any_nil, lt_irrefl, decide_false, Bool.false_and, Bool.or_self, h.lateFor, hlate,
        hl, hr, Bool.false_eq_true, if_false]
      refine h.step (parts := showParts) (regs := showRegs) ?_ ?_ (List.Subset.refl _) (List.Subset.refl _)
      · change (State.cfPublish _ _ _ _).exp = _
        rw [State.cfPublish_exp]
        exact State.modExpo_single hpipe _
      · exact ((frame_modExpo _ _ _).seq ((frame_cfPublish _ _ _ _).seq (frame_latentFlag _ hp))).mono (by decide)
          (by simp [showRegs])
    · simp only [bitAt_or, Bool.or_eq_true] at hq ⊢
      tauto

/-- Every point whose turn it is becomes latent. -/
theorem State.Shows.publishPoints {s : State} {x : Expo} {v : Bool} (hlate : s.lateFor x.deadline = false) (l₀ : BitVec 32) (v₀ : Bool)
    (r : DevResult) : (pts : List Nat) → (∀ p ∈ pts, p < 32) → {t : State} → {l : BitVec 32} → s.Shows t x l v →
    ∃ l', s.Shows (pts.foldl (fun s p => s.publishPoint (x.shown l₀ v₀) r p) t) x l' v ∧
      (∀ p ∈ pts, bitAt (l' ||| x.resolved).toNat p = true) ∧
      ∀ q, bitAt (l ||| x.resolved).toNat q = true → bitAt (l' ||| x.resolved).toNat q = true
  | [], _, _, l, h => ⟨l, h, by simp, fun _ hq => hq⟩
  | p :: pts, hpts, _, _, h => by
    obtain ⟨l₁, h₁, hp, hmono₁⟩ := h.publishPoint hlate l₀ v₀ r (hpts p List.mem_cons_self)
    obtain ⟨l₂, h₂, hall, hmono₂⟩ := State.Shows.publishPoints hlate l₀ v₀ r pts (fun q hq => hpts q (List.mem_cons_of_mem _ hq)) h₁
    refine ⟨l₂, h₂, fun q hq => ?_, fun q hq => hmono₂ q (hmono₁ q hq)⟩
    rcases List.mem_cons.mp hq with rfl | hq
    · exact hmono₂ _ hp
    · exact hall q hq

/-- The live view is written or not. -/
theorem State.Shows.publishView {s t : State} {x : Expo} {l : BitVec 32} {v : Bool} (h : s.Shows t x l v) {r : DevResult}
    (hdev : x.dev = some r) : ∃ v', s.Shows (t.publishView (x.shown l v)) x l v' := by
  have hpipe : t.exp.pipe = [x.shown l v] := by rw [h.1]
  have hexpo : t.expo (x.shown l v).slot.expno = some (x.shown l v) := State.expo_single hpipe
  have hdev' : (x.shown l v).dev = some r := hdev
  unfold State.publishView
  rw [hexpo, hdev']
  dsimp only
  split
  · refine ⟨true, h.step (parts := showParts) (regs := showRegs) ?_ ?_ (List.Subset.refl _) (List.Subset.refl _)⟩
    · have hview : (t.liveView (x.shown l v) r).exp.pipe = [x.shown l v] := by rw [State.liveView_exp, hpipe]
      rw [State.modExpo_single hview, State.liveView_exp]
      rfl
    · exact ((frame_liveView _ _ _).seq (frame_modExpo _ _ _)).mono (by decide) (by simp)
  · exact ⟨v, h⟩

/-- Every running point of a developed exposure is published. -/
theorem State.Shows.publish {s t : State} {x : Expo} {l : BitVec 32} {v : Bool} (h : s.Shows t x l v)
    (hlate : s.lateFor x.deadline = false) {r : DevResult} (hdev : x.dev = some r) :
    ∃ l' v', s.Shows t.publish x l' v' ∧ ∀ p ∈ x.points, bitAt (l' ||| x.resolved).toNat p = true := by
  have hpipe : t.exp.pipe = [x.shown l v] := by rw [h.1]
  have hpts : ∀ p ∈ x.points, p < 32 := fun p hp => List.mem_range.mp (List.mem_filter.mp hp).1
  obtain ⟨l', hpub, hall, -⟩ := State.Shows.publishPoints hlate l v r x.points hpts h
  obtain ⟨v', hview⟩ := hpub.publishView hdev
  refine ⟨l', v', ?_, hall⟩
  have hpipe' := congrArg ExpState.pipe hpub.1
  rw [State.publish_single (x := x.shown l v) hpipe hdev, show (x.shown l v).points = x.points from rfl]
  simp only [hpipe', List.foldl_cons, List.foldl_nil]
  exact hview

/-! Comparison and completion have nothing to do -/

theorem State.compareExpo_of_not_fixed {s : State} {y : Expo} (hpipe : s.exp.pipe = [y]) (hfix : y.fix = none) :
    s.compareExpo y.slot.expno = s := by
  rw [State.compareExpo, State.expo_single hpipe]
  dsimp only
  split
  · next hf => rw [hfix] at hf; cases hf
  · rfl

theorem State.sweep_of_not_compared {s : State} {y : Expo} (hpipe : s.exp.pipe = [y]) (hcompared : y.compared = false) :
    s.sweep = s := by
  rw [State.sweep, hpipe]
  simp [State.expo_single hpipe, Expo.closed, hcompared]

/-- Rounds of publication, comparison and completion publish the exposure and do no more. -/
theorem State.Shows.settlePipe {s : State} {x : Expo} (hlate : s.lateFor x.deadline = false) {r : DevResult} (hdev : x.dev = some r)
    (hfix : x.fix = none) (hcompared : x.compared = false) : (n : Nat) → {t : State} → {l : BitVec 32} → {v : Bool} → s.Shows t x l v →
    ∃ l' v', s.Shows (t.settlePipe (n + 1)) x l' v' ∧ ∀ p ∈ x.points, bitAt (l' ||| x.resolved).toNat p = true
  | n, t, l, v, h => by
    obtain ⟨l₁, v₁, hpub, hall⟩ := h.publish hlate hdev
    have hpipe : t.publish.exp.pipe = [x.shown l₁ v₁] := by rw [hpub.1]
    have hround : t.settlePipe (n + 1) = t.publish.settlePipe n := by
      rw [State.settlePipe, hpipe]
      simp only [List.foldl_cons, List.foldl_nil]
      rw [State.compareExpo_of_not_fixed hpipe hfix, State.sweep_of_not_compared hpipe hcompared]
    rw [hround]
    cases n with
    | zero => exact ⟨l₁, v₁, hpub, hall⟩
    | succ n => exact State.Shows.settlePipe hlate hdev hfix hcompared n hpub

/-- The lanes of the trip logic agree again. -/
theorem State.Shows.lanesClear {s t : State} {x : Expo} {l : BitVec 32} {v : Bool} (h : s.Shows t x l v) :
    s.Shows (t.modSaf (fun a => { a with laneBad := [] })) x l v :=
  h.step (by rw [State.modSaf_exp, h.1]) (frame_modSaf _ _) (by decide) (by simp)

/-! The development -/

theorem State.readSlot_sound (s : State) {x : Slot} (hpar : x.parBad = 0) (hecc : x.ecc = []) : s.readSlot x = s := by
  simp [State.readSlot, hpar, hecc]

/-- The development of the exposure alone in the pipe. -/
theorem exec_developmentDone_eq {s : State} {x : Expo} (u : EngineUpset) (hpipe : s.exp.pipe = [x]) (hdev : x.dev = none)
    (hpar : x.slot.parBad = 0) (hecc : x.slot.ecc = []) :
    exec (.developmentDone u) s = .next (((s.modExpo x.slot.expno (fun y =>
      { y with dev := some (upsetResult x.slot.eff x.sound u) })).withLanes u (fun s => s.settlePipe 3)).settle s.irqLive) := by
  have hfind : s.exp.pipe.find? (fun x => x.dev.isNone || (x.replaying && !s.lateFor x.deadline)) = some x := by
    simp [hpipe, hdev]
  change execDevelopmentDone u s = _
  unfold execDevelopmentDone finish
  beta_reduce
  rw [hfind]
  simp only [hdev, Option.isSome_none, Bool.false_eq_true, if_false, State.readSlot_sound s hpar hecc, ite_self]

/-- The exposure with its development. -/
def Expo.developed (x : Expo) (u : EngineUpset) : Expo := { x with dev := some (upsetResult x.slot.eff x.sound u) }

/-- The pipe holds the development, and nothing is published yet. -/
theorem State.Shows.developed {s : State} {x : Expo} (u : EngineUpset) (hpipe : s.exp.pipe = [x]) :
    s.Shows ((s.modExpo x.slot.expno (fun y => { y with dev := some (upsetResult x.slot.eff x.sound u) })).modSaf
      (fun a => { a with laneBad := u.lanes })) (x.developed u) x.latent x.viewed := by
  refine ⟨?_, ((frame_modExpo _ _ _).seq (frame_modSaf _ _)).mono (by decide) (by simp)⟩
  rw [State.modSaf_exp, State.modExpo_single hpipe]
  rfl

/-- A finished development is published for every running point (R29). -/
theorem exec_developmentDone {s : State} {x : Expo} (u : EngineUpset) (hpipe : s.exp.pipe = [x]) (hdev : x.dev = none)
    (hfix : x.fix = none) (hcompared : x.compared = false) (hlate : s.lateFor x.deadline = false) (hpar : x.slot.parBad = 0)
    (hecc : x.slot.ecc = []) :
    ∃ t, exec (.developmentDone u) s = .next t ∧
      (∃ y, t.exp.pipe = [y] ∧ y.slot = x.slot ∧ y.dev = some (upsetResult x.slot.eff x.sound u) ∧ y.fix = none ∧
        ∀ p ∈ x.points, bitAt (y.latent ||| y.resolved).toNat p = true) ∧ s.Frame t showParts showRegs := by
  rw [exec_developmentDone_eq u hpipe hdev hpar hecc, State.withLanes]
  have hlate' : s.lateFor (x.developed u).deadline = false := hlate
  have hfix' : (x.developed u).fix = none := hfix
  have hcompared' : (x.developed u).compared = false := hcompared
  have hdev' : (x.developed u).dev = some (upsetResult x.slot.eff x.sound u) := rfl
  obtain ⟨l, v, hshown, hall⟩ := (State.Shows.developed u hpipe).settlePipe hlate' hdev' hfix' hcompared' 2
  have hend := hshown.lanesClear
  refine ⟨_, rfl, ⟨(x.developed u).shown l v, ?_, rfl, rfl, hfix, hall⟩, hend.2.settle _⟩
  rw [(State.settle_keeps _ _).2.1, hend.1]

end Sys2Proof.Machine

open Sys2Proof.Machine in
/-- Settles O39: publication of the exposure alone in the pipe, and the front end's announcements. -/
theorem developmentAndStreams : Obligations.DevelopmentAndStreams := by
  refine ⟨fun s x u hpipe hdev hfix hcompared hlate hpar hecc =>
    exec_developmentDone u hpipe hdev hfix hcompared hlate hpar hecc, fun s hs => ⟨fun n hn hstarted hheld hlost hon =>
    exec_streamLoss hs hn hstarted hheld hlost hon, fun m k hm hon => ⟨fun hsel => exec_bracketSwitch hs hm hon hsel,
    fun hsel hloss hreturn => exec_bracketReturn hs hm hon hsel hloss hreturn⟩⟩⟩

end

section
/-!
SUPPORT. The frames of the powerline's shared operations (R323 to R331, R401), and the fields of the powerline state each of them
changes: the directory with its cache, the neighbour contexts, the queue of MAC frames.
-/

namespace Sys2Proof.Machine

theorem frame_modPlc (s : State) (f : PlcState → PlcState) : s.Frame (s.modPlc f) [.powerline] [] :=
  ⟨fun p hp => by cases p <;> simp [Part.Same, State.framByte] at *, fun _ _ _ => rfl, rfl⟩

/-! Descriptors (R401) -/

theorem frame_takeDesc (s : State) (r : Nat) (i : BitVec 32) : s.Frame (s.takeDesc r i) [.host] [] := frame_modRing _ _ _

theorem frame_descDone (s : State) (r : Nat) (i : BitVec 32) (wb : Nat) :
    s.Frame (s.descDone r i wb) [.host] [HIF_RCIDX r] := by
  have hwritten (w : HostWrite) (f : RingAux → RingAux) : s.Frame ((s.hostWrite w).modRing r f) [.host] [HIF_RCIDX r] :=
    ((frame_hostWrite _ _).seq (frame_modRing _ _ _)).mono (by simp) (by simp)
  unfold State.descDone
  exact State.Frame.ite (fun _ => hwritten _ _) (fun _ => (hwritten _ _).trans (frame_returnDescs _ _ _))

theorem State.descDone_plc (s : State) (r : Nat) (i : BitVec 32) (wb : Nat) : (s.descDone r i wb).plc = s.plc :=
  (frame_descDone s r i wb).part (p := .powerline) (by decide)

/-! The directory (R326, R329) -/

/-- From s to t the directory, its copy and its cache may have changed, and the host may have been written to. -/
def State.DirStep (s t : State) : Prop :=
  s.Frame t [.powerline] [] ∧ ∃ d n c, t.plc = { s.plc with dir := d, newDir := n, cache := c }

theorem State.DirStep.refl (s : State) : s.DirStep s := ⟨State.Frame.refl _ _ _, s.plc.dir, s.plc.newDir, s.plc.cache, rfl⟩

theorem State.DirStep.trans {s t u : State} (h : s.DirStep t) (k : t.DirStep u) : s.DirStep u := by
  obtain ⟨hframe, d, n, c, hplc⟩ := h
  obtain ⟨kframe, d', n', c', kplc⟩ := k
  exact ⟨hframe.trans kframe, d', n', c', by rw [kplc, hplc]⟩

/-- What does not depend on the directory stays. -/
theorem State.DirStep.keeps {s t : State} (h : s.DirStep t) {α : Type} (g : PlcState → α)
    (hg : ∀ p d n c, g { p with dir := d, newDir := n, cache := c } = g p) : g t.plc = g s.plc := by
  obtain ⟨-, d, n, c, hplc⟩ := h
  rw [hplc]
  exact hg _ _ _ _

theorem State.DirStep.hostWrite {s t : State} (h : s.DirStep t) (w : HostWrite) : s.DirStep (t.hostWrite w) := by
  obtain ⟨hframe, d, n, c, hplc⟩ := h
  exact ⟨hframe.trans ((frame_hostWrite t w).mono (by simp) (by simp)), d, n, c,
    (show (t.hostWrite w).plc = t.plc from (frame_hostWrite t w).part (p := .powerline) (by decide)).trans hplc⟩

theorem State.DirStep.modPlc {s t : State} (h : s.DirStep t) (f : PlcState → PlcState)
    (hf : ∀ p, ∃ d n c, f p = { p with dir := d, newDir := n, cache := c }) : s.DirStep (t.modPlc f) := by
  obtain ⟨d, n, c, hp⟩ := hf t.plc
  exact h.trans ⟨frame_modPlc _ _, d, n, c, hp⟩

theorem State.DirStep.setDir {s t : State} (h : s.DirStep t) (d : Option DirTable) :
    s.DirStep (t.modPlc (fun p => { p with dir := d })) := h.modPlc _ (fun _ => ⟨_, _, _, rfl⟩)

theorem State.DirStep.setNewDir {s t : State} (h : s.DirStep t) (d : Option DirTable) :
    s.DirStep (t.modPlc (fun p => { p with newDir := d })) := h.modPlc _ (fun _ => ⟨_, _, _, rfl⟩)

theorem dirStep_writeBack (s : State) (node : BitVec 64) : s.DirStep (s.writeBack node) := by
  unfold State.writeBack
  dsimp only
  repeat' split
  all_goals solve_by_elim [State.DirStep.hostWrite, State.DirStep.refl]

theorem dirStep_cacheUse (s : State) (node : BitVec 64) (dirty : Bool) : s.DirStep (s.cacheUse node dirty) := by
  unfold State.cacheUse
  dsimp only
  split
  · exact ((State.DirStep.refl s).modPlc _ (fun _ => ⟨_, _, _, rfl⟩)).trans (dirStep_writeBack _ _)
  · exact (State.DirStep.refl s).modPlc _ (fun _ => ⟨_, _, _, rfl⟩)

theorem dirStep_dirMod (s : State) (node : BitVec 64) (now : Bool) (f : DirEntry → DirEntry) : s.DirStep (s.dirMod node now f) := by
  unfold State.dirMod State.dirEmit
  dsimp only
  repeat' split
  all_goals solve_by_elim [State.DirStep.hostWrite, State.DirStep.setDir, State.DirStep.setNewDir, State.DirStep.refl]

theorem dirStep_dirTouch (s : State) (node : BitVec 64) (f : DirEntry → DirEntry) : s.DirStep (s.dirTouch node f) := by
  unfold State.dirTouch
  split
  · exact (dirStep_cacheUse _ _ _).trans (dirStep_dirMod _ _ _ _)
  · exact State.DirStep.refl s

/-! Neighbour contexts (R323) -/

/-- Registers that allocating a context may change. -/
def ctxRegs : List Nat := [NET_CTXFULL, HIF_STAT, HIF_DMAERR]

/-- From s to t contexts may have changed, and a context's allocation may have failed. -/
def State.CtxStep (s t : State) : Prop := s.Frame t [.powerline] ctxRegs ∧ ∃ c, t.plc = { s.plc with ctxs := c }

theorem State.CtxStep.refl (s : State) : s.CtxStep s := ⟨State.Frame.refl _ _ _, s.plc.ctxs, rfl⟩

theorem State.CtxStep.trans {s t u : State} (h : s.CtxStep t) (k : t.CtxStep u) : s.CtxStep u := by
  obtain ⟨hframe, c, hplc⟩ := h
  obtain ⟨kframe, c', kplc⟩ := k
  exact ⟨hframe.trans kframe, c', by rw [kplc, hplc]⟩

/-- What does not depend on the contexts stays. -/
theorem State.CtxStep.keeps {s t : State} (h : s.CtxStep t) {α : Type} (g : PlcState → α) (hg : ∀ p c, g { p with ctxs := c } = g p) :
    g t.plc = g s.plc := by
  obtain ⟨-, c, hplc⟩ := h
  rw [hplc]
  exact hg _ _

theorem frame_modCtx (s : State) (i : Nat) (f : NeighCtx → NeighCtx) : s.Frame (s.modCtx i f) [.powerline] [] := frame_modPlc _ _

theorem ctxStep_modCtx (s : State) (i : Nat) (f : NeighCtx → NeighCtx) : s.CtxStep (s.modCtx i f) :=
  ⟨(frame_modCtx _ _ _).mono (by simp) (by simp), _, rfl⟩

theorem ctxStep_readKey (s : State) (i : Nat) (key : Fetch (BitVec 128)) : s.CtxStep (s.readKey i key) := by
  unfold State.readKey
  split
  · exact State.CtxStep.refl s
  · cases key with
    | ok k => exact ctxStep_modCtx _ _ _
    | fault c a =>
      refine ⟨(frame_dmaFault s 19 c a).mono (by simp) (by decide), s.plc.ctxs, ?_⟩
      exact (frame_dmaFault s 19 c a).part (p := .powerline) (by decide)

theorem ctxStep_ctxAlloc (s : State) (eui : BitVec 64) (laddr : BitVec 24) (keyIdx : BitVec 16) (key : Fetch (BitVec 128)) :
    s.CtxStep (s.ctxAlloc eui laddr keyIdx key).1 := by
  unfold State.ctxAlloc
  dsimp only
  split
  · exact ⟨(frame_bump s NET_CTXFULL_COUNT 1).mono (by simp) (by decide), s.plc.ctxs, rfl⟩
  · exact ((ctxStep_modCtx _ _ _).trans (ctxStep_modCtx _ _ _)).trans (ctxStep_readKey _ _ _)

theorem ctxStep_ctxFor (s : State) (laddr : BitVec 24) (key : Fetch (BitVec 128)) : s.CtxStep (s.ctxFor laddr key).1 := by
  unfold State.ctxFor
  split
  · exact State.CtxStep.refl s
  · split <;> exact ctxStep_ctxAlloc _ _ _ _ _

/-! The queue of MAC frames (R310, R331, R334) -/

theorem frame_enqueue (s : State) (m : MacTx) : s.Frame (s.enqueue m) [.powerline] [] := frame_modPlc _ _

/-- A MAC frame that is queued gets its number, its sequence and its segments. -/
def State.queued (s : State) (m : MacTx) : MacTx :=
  { m with id := s.plc.nextId, seq := s.plc.macSeq, queuedAt := s.ts,
           todo := (List.range (segCount (16 + m.body.length + (if m.prot then 8 else 0)))).map (fun i => (i, 0)) }

theorem State.enqueue_queue (s : State) (m : MacTx) : (s.enqueue m).plc.queue = s.plc.queue ++ [s.queued m] := rfl

theorem frame_modFrame (s : State) (id : Nat) (f : MacTx → MacTx) : s.Frame (s.modFrame id f) [.powerline] [] := frame_modPlc _ _

theorem frame_frameEnd (s : State) (m : MacTx) (status : Nat) : s.Frame (s.frameEnd m status) [.powerline, .host] descRegs := by
  unfold State.frameEnd
  dsimp only
  split
  · exact ((frame_modPlc _ _).seq (frame_descDone _ _ _ _)).mono (by simp) (by decide)
  · exact ((frame_modPlc _ _).seq (frame_descDone _ _ _ _)).mono (by simp) (by decide)
  · exact (frame_modPlc _ _).mono (by simp) (by simp)

/-- A MAC frame that ends leaves the queue, and nothing else of the powerline changes. -/
theorem State.frameEnd_plc (s : State) (m : MacTx) (status : Nat) :
    (s.frameEnd m status).plc = { s.plc with queue := s.plc.queue.filter (fun x => x.id != m.id) } := by
  unfold State.frameEnd State.netDone
  dsimp only
  split
  · rw [State.descDone_plc]; rfl
  · rw [State.descDone_plc]; rfl
  · rfl

/-! Lookups (R329) -/

theorem frame_lookupLost (s : State) : s.Frame s.lookupLost [] [NET_LOOKMISS, NET_STAT] := by
  have hcount := frame_bump s NET_LOOKMISS_COUNT 1
  exact State.Frame.ite (fun _ => hcount.mono (by simp) (by decide))
    (fun _ => ((hcount.seq (frame_setFlag _ _ _)).seq (frame_event _ _ _ _ _ _ _)).mono (by simp) (by decide))

theorem frame_lookupServed (s : State) : s.Frame s.lookupServed [] [NET_STAT] :=
  State.Frame.ite (fun _ => ((frame_setFlag _ _ _).seq (frame_event _ _ _ _ _ _ _)).mono (by simp) (by decide))
    (fun _ => State.Frame.refl _ _ _)

/-- A lookup that was lost is counted and shown. -/
theorem State.lookupLost_shown (s : State) : s.lookupLost.flag NET_STAT_DIRUNR = true ∧
    s.lookupLost.get NET_LOOKMISS_COUNT = min (s.get NET_LOOKMISS_COUNT + 1) (2 ^ 32 - 1) := by
  have hcount : (s.bump NET_LOOKMISS_COUNT 1).get NET_LOOKMISS_COUNT = min (s.get NET_LOOKMISS_COUNT + 1) (2 ^ 32 - 1) :=
    State.get_bump_self s NET_LOOKMISS_COUNT 1 (by decide)
  unfold State.lookupLost
  dsimp only
  split
  · next hunr => exact ⟨hunr, hcount⟩
  · refine ⟨?_, ?_⟩
    · rw [State.event_flag, State.flag_setFlag_self _ _ _ (by decide) (by decide)]
    · rw [State.event_get, State.setFlag, State.get_put_ne _ _ _ _ (by decide), hcount]

theorem State.lookupServed_shown (s : State) : s.lookupServed.flag NET_STAT_DIRUNR = false := by
  unfold State.lookupServed
  split
  · rw [State.event_flag, State.flag_setFlag_self _ _ _ (by decide) (by decide)]
  · next hserved => exact Bool.eq_false_iff.mpr hserved

end Sys2Proof.Machine
end

section
/-!
Settles O52 (R39, R401, R402).  PLC_TX, the directory lookup and ROUTE_SET each end in one queued MAC frame, in one lookup that waits, or in
the completion of the descriptor.
-/

namespace Sys2Proof.Machine

/-! Descriptors (R401) -/

theorem State.ring_hostWrite (s : State) (w : HostWrite) (r : Nat) : (s.hostWrite w).ring r = s.ring r := by
  unfold State.hostWrite; split <;> rfl

theorem State.ring_modRing_self (s : State) {r : Nat} (f : RingAux → RingAux) (hr : r < s.hif.rings.length) :
    (s.modRing r f).ring r = f (s.ring r) := by
  simp [State.ring, State.modRing, List.getD_eq_getElem?_getD, hr]

/-- C of a ring advances by the descriptors returned. -/
theorem State.ringC_returnDescs (s : State) {r : Nat} (n : Nat) (he : endReg (HIF_RCIDX r) = false) :
    (s.returnDescs r n).ringC r = s.ringC r + BitVec.ofNat 32 n := by
  unfold State.returnDescs State.statusRing State.ringC
  rw [(frame_moderate _ _ _).rd (by simp) he, (frame_hostWrite _ _).rd (by simp) he, (frame_hostWrite _ _).rd (by simp) he, State.rd_wr,
    if_pos rfl]

/-- The only descriptor in progress completes: C advances by one. -/
theorem State.ringC_descDone_only (s : State) {r : Nat} {i : BitVec 32} (wb : Nat) (hopen : (s.ring r).open_ = [(i, false)])
    (he : endReg (HIF_RCIDX r) = false) : (s.descDone r i wb).ringC r = s.ringC r + 1 := by
  have hwritten (w : HostWrite) (f : RingAux → RingAux) : ((s.hostWrite w).modRing r f).ringC r = s.ringC r := by
    unfold State.ringC
    rw [(frame_modRing _ _ _).rd (by simp) he, (frame_hostWrite _ _).rd (by simp) he]
  unfold State.descDone
  dsimp only
  rw [State.ring_hostWrite, hopen]
  simp only [List.map_cons, List.map_nil, if_true, List.takeWhile_cons, List.takeWhile_nil, List.length_cons, List.length_nil, Nat.zero_add,
    Nat.one_ne_zero, if_false]
  rw [State.ringC_returnDescs _ _ he, hwritten]
  rfl

/-! PLC_TX (R401) -/

/-- The MAC frame of a PLC_TX descriptor i with payload l. -/
def State.txFrame (s : State) (d : Desc8) (i : BitVec 32) (l : List (BitVec 8)) : MacTx :=
  let h := d.d0.toNat
  { s.ownFrame 0x01 0xFFFFFF d.d2 (l.take (bitsAt d.d4.toNat 0 16)) with
    desc := some (9, i), deadline := if bitAt h 4 then some d.d1 else none, bcast := bitAt h 3, prot := bitAt h 0 && !bitAt h 3,
    resp := bitAt h 1, respReq := bitAt h 2, rseq := if bitAt h 1 then BitVec.ofNat 16 (bitsAt d.d4.toNat 16 16) else 0 }

/-- The length of a PLC_TX payload is out of range. -/
def txLenBad (d : Desc8) : Prop :=
  bitsAt d.d4.toNat 0 16 = 0 ∨ (if bitAt d.d0.toNat 0 then 8168 else 8176) < bitsAt d.d4.toNat 0 16

theorem State.plcTx_rejected {s : State} {d : Desc8} {i : BitVec 32} (payload : Fetch (List (BitVec 8))) (key : Fetch (BitVec 128))
    (hnext : s.nextDesc 9 = some i) (hbad : s.txRefused = true ∨ txLenBad d) :
    ∃ st, s.plcTx d payload key = (s.takeDesc 9 i).descDone 9 i st := by
  have hrefused : (s.takeDesc 9 i).txRefused = s.txRefused := rfl
  unfold State.plcTx
  rw [hnext]
  dsimp only
  rw [hrefused]
  split
  · exact ⟨_, rfl⟩
  · next hok => exact ⟨_, if_pos (hbad.resolve_left hok)⟩

/-- A descriptor in order. -/
theorem State.plcTx_accepted {s : State} {d : Desc8} {i : BitVec 32} {l : List (BitVec 8)} (key : Fetch (BitVec 128))
    (hnext : s.nextDesc 9 = some i) (hok : s.txRefused = false) (hlen : ¬ txLenBad d) :
    s.plcTx d (.ok l) key =
      if bitAt d.d0.toNat 3 then (s.takeDesc 9 i).enqueue (s.txFrame d i l)
      else if s.station ∧ d.d2 = 0 then
        match s.dirByLaddr 0 with
        | some e => (s.takeDesc 9 i).enqueueTo { s.txFrame d i l with final := 0 } (some e) key
        | none => (s.takeDesc 9 i).enqueue { s.txFrame d i l with final := 0, node := 0 }
      else if ¬ s.dirReady then (s.takeDesc 9 i).descDone 9 i stBadarg
      else if s.plc.cache.any (fun e => e.1 == d.d2) then
        match s.dirFind d.d2 with
        | some e => ((s.takeDesc 9 i).cacheUse d.d2 false).enqueueTo (s.txFrame d i l) (some e) key
        | none => (s.takeDesc 9 i).descDone 9 i stBadarg
      else (s.takeDesc 9 i).modPlc (fun p => { p with lookWait := p.lookWait ++ [s.txFrame d i l] }) := by
  have hrefused : (s.takeDesc 9 i).txRefused = false := hok
  unfold txLenBad at hlen
  unfold State.plcTx
  rw [hnext]
  dsimp only
  rw [hrefused, if_neg (by decide), if_neg hlen]
  rfl

/-- A frame whose destination's entry was looked up is queued for it; a neighbour without a context gets one. -/
theorem State.enqueueTo_entry (s : State) (m : MacTx) (e : DirEntry) (key : Fetch (BitVec 128)) :
    (∃ m', (s.enqueueTo m (some e) key).plc.queue = s.plc.queue ++ [m'] ∧ m'.desc = m.desc ∧ m'.final = e.laddr ∧ m'.prot = m.prot) ∧
      (s.enqueueTo m (some e) key).plc.lookWait = s.plc.lookWait ∧
      s.Frame (s.enqueueTo m (some e) key) [.powerline] (if e.hops = 0 then ctxRegs else []) := by
  unfold State.enqueueTo
  dsimp only
  split
  · next hnew =>
    have hctx := ctxStep_ctxFor s e.laddr key
    refine ⟨⟨(s.ctxFor e.laddr key).1.queued { m with final := e.laddr, node := e.node }, ?_, rfl, rfl, rfl⟩, ?_, ?_⟩
    · rw [State.enqueue_queue, hctx.keeps PlcState.queue (fun _ _ => rfl)]
    · exact hctx.keeps PlcState.lookWait (fun _ _ => rfl)
    · rw [if_pos hnew.1]
      exact hctx.1.trans ((frame_enqueue _ _).mono (by simp) (by simp))
  · exact ⟨⟨s.queued { m with final := e.laddr, node := e.node }, rfl, rfl, rfl, rfl⟩, rfl, (frame_enqueue _ _).mono (by simp) (by simp)⟩

/-- A frame is queued after its entry was used from the cache or brought into it. -/
theorem State.enqueueTo_cached (s : State) (n : BitVec 64) (m : MacTx) (e : DirEntry) (key : Fetch (BitVec 128)) :
    (∃ m', ((s.cacheUse n false).enqueueTo m (some e) key).plc.queue = s.plc.queue ++ [m'] ∧ m'.desc = m.desc ∧
        m'.final = e.laddr ∧ m'.prot = m.prot) ∧
      ((s.cacheUse n false).enqueueTo m (some e) key).plc.lookWait = s.plc.lookWait ∧
      s.Frame ((s.cacheUse n false).enqueueTo m (some e) key) [.powerline] (if e.hops = 0 then ctxRegs else []) := by
  have hused := dirStep_cacheUse s n false
  obtain ⟨⟨m', hqueue, hm'⟩, hwait, hframe⟩ := (s.cacheUse n false).enqueueTo_entry m e key
  refine ⟨⟨m', ?_, hm'⟩, ?_, (hused.1.mono (by simp) (by simp)).trans hframe⟩
  · rw [hqueue, hused.keeps PlcState.queue (fun _ _ _ _ => rfl)]
  · rw [hwait, hused.keeps PlcState.lookWait (fun _ _ _ _ => rfl)]

/-! The settled obligation's clauses -/

theorem endReg_HIF_RCIDX_9 : endReg (HIF_RCIDX 9) = false := by decide

/-- A descriptor refused or of a length out of range completes. -/
theorem exec_plcTx_rejected {s : State} {d : Desc8} {i : BitVec 32} (payload : Fetch (List (BitVec 8))) (key : Fetch (BitVec 128))
    (hnext : s.nextDesc 9 = some i) (hbad : s.txRefused = true ∨ txLenBad d) (hopen : (s.ring 9).open_ = []) (hs : s.Sizes) :
    ∃ t, exec (.plcTx d payload key) s = .next t ∧ t.ringC 9 = s.ringC 9 + 1 ∧ t.plc = s.plc ∧ s.Frame t [.host] [HIF_RCIDX 9] := by
  obtain ⟨-, -, -, -, -, -, -, -, -, -, hrings, -⟩ := hs
  obtain ⟨st, htx⟩ := State.plcTx_rejected payload key hnext hbad
  have hexec : exec (.plcTx d payload key) s = .next ((s.plcTx d payload key).settle s.irqLive) := rfl
  have htaken : ((s.takeDesc 9 i).ring 9).open_ = [(i, false)] := by
    rw [State.takeDesc, State.ring_modRing_self _ _ (by omega), hopen]; rfl
  rw [hexec, htx]
  refine ⟨_, rfl, ?_, ?_, (((frame_takeDesc _ _ _).seq (frame_descDone _ _ _ _)).settle _).mono (by simp) (by simp)⟩
  · rw [State.ringC, State.settle_rd endReg_HIF_RCIDX_9]
    exact State.ringC_descDone_only _ _ htaken endReg_HIF_RCIDX_9
  · rw [(State.settle_keeps _ _).2.2.2.1, State.descDone_plc]
    rfl

theorem exec_plcTx_eq (s : State) (d : Desc8) (payload : Fetch (List (BitVec 8))) (key : Fetch (BitVec 128)) :
    exec (.plcTx d payload key) s = .next ((s.plcTx d payload key).settle s.irqLive) := rfl

/-- A broadcast is queued. -/
theorem exec_plcTx_broadcast {s : State} {d : Desc8} {i : BitVec 32} {l : List (BitVec 8)} (key : Fetch (BitVec 128))
    (hnext : s.nextDesc 9 = some i) (hok : s.txRefused = false) (hlen : ¬ txLenBad d) (hbcast : bitAt d.d0.toNat 3 = true) :
    ∃ t m, exec (.plcTx d (.ok l) key) s = .next t ∧ t.plc.queue = s.plc.queue ++ [m] ∧ m.desc = some (9, i) ∧ m.bcast = true ∧
      m.mtype = 1 ∧ m.body = l.take (bitsAt d.d4.toNat 0 16) ∧ m.seq = s.plc.macSeq ∧ s.Frame t [.powerline, .host] [] := by
  rw [exec_plcTx_eq, State.plcTx_accepted key hnext hok hlen, if_pos hbcast]
  refine ⟨_, s.queued (s.txFrame d i l), rfl, ?_, rfl, hbcast, rfl, rfl, rfl,
    (((frame_takeDesc _ _ _).seq (frame_enqueue _ _)).settle _).mono (by simp) (by simp)⟩
  rw [(State.settle_keeps _ _).2.2.2.1]
  rfl

/-- A destination that the cache does not hold is looked up. -/
theorem exec_plcTx_lookup {s : State} {d : Desc8} {i : BitVec 32} {l : List (BitVec 8)} (key : Fetch (BitVec 128))
    (hnext : s.nextDesc 9 = some i) (hok : s.txRefused = false) (hlen : ¬ txLenBad d) (hbcast : bitAt d.d0.toNat 3 = false)
    (hdest : ¬ (s.station = true ∧ d.d2 = 0)) (hready : s.dirReady = true) (hcache : s.plc.cache.any (fun e => e.1 == d.d2) = false) :
    ∃ t m, exec (.plcTx d (.ok l) key) s = .next t ∧ t.plc.lookWait = s.plc.lookWait ++ [m] ∧ m.desc = some (9, i) ∧ m.node = d.d2 ∧
      m.body = l.take (bitsAt d.d4.toNat 0 16) ∧ s.Frame t [.powerline, .host] [] := by
  rw [exec_plcTx_eq, State.plcTx_accepted key hnext hok hlen, if_neg (by simp [hbcast]), if_neg hdest, if_neg (by simp [hready]),
    if_neg (by simp [hcache])]
  refine ⟨_, s.txFrame d i l, rfl, ?_, rfl, rfl, rfl, (((frame_takeDesc _ _ _).seq (frame_modPlc _ _)).settle _).mono (by simp) (by simp)⟩
  rw [(State.settle_keeps _ _).2.2.2.1]
  rfl

/-- A destination in the cache gets the frame at once. -/
theorem exec_plcTx_cached {s : State} {d : Desc8} {i : BitVec 32} {l : List (BitVec 8)} {e : DirEntry} (key : Fetch (BitVec 128))
    (hnext : s.nextDesc 9 = some i) (hok : s.txRefused = false) (hlen : ¬ txLenBad d) (hbcast : bitAt d.d0.toNat 3 = false)
    (hdest : ¬ (s.station = true ∧ d.d2 = 0)) (hready : s.dirReady = true) (hcache : s.plc.cache.any (fun e => e.1 == d.d2) = true)
    (hfind : s.dirFind d.d2 = some e) :
    ∃ t m, exec (.plcTx d (.ok l) key) s = .next t ∧ t.plc.queue = s.plc.queue ++ [m] ∧ m.desc = some (9, i) ∧ m.final = e.laddr ∧
      m.prot = bitAt d.d0.toNat 0 ∧ s.Frame t [.powerline, .host] (if e.hops = 0 then ctxRegs else []) := by
  rw [exec_plcTx_eq, State.plcTx_accepted key hnext hok hlen, if_neg (by simp [hbcast]), if_neg hdest, if_neg (by simp [hready]),
    if_pos hcache, hfind]
  obtain ⟨⟨m, hqueue, hdesc, hfinal, hprot⟩, -, hframe⟩ := (s.takeDesc 9 i).enqueueTo_cached d.d2 (s.txFrame d i l) e key
  refine ⟨_, m, rfl, ?_, hdesc, hfinal, ?_, (((frame_takeDesc _ _ _).seq hframe).settle _).mono (by simp) (by simp)⟩
  · rw [(State.settle_keeps _ _).2.2.2.1, hqueue]
    rfl
  · rw [hprot]
    simp [State.txFrame, hbcast]

/-! The lookup (R329) -/

theorem exec_directoryLookupMiss_eq (s : State) (served : Fetch Unit) (key : Fetch (BitVec 128)) :
    exec (.directoryLookupMiss served key) s = .next ((s.lookupDone served key).settle s.irqLive) := rfl

theorem State.lookupServed_dirFind (s : State) (node : BitVec 64) : s.lookupServed.dirFind node = s.dirFind node := by
  have hplc : s.lookupServed.plc = s.plc := (frame_lookupServed s).part (p := .powerline) (by decide)
  have hready : s.lookupServed.dirReady = s.dirReady := by
    unfold State.lookupServed State.dirReady
    split
    · rw [State.event_flag, State.flag_setFlag_other _ _ _ _ (by decide) (by decide)]
    · rfl
  unfold State.dirFind
  rw [hplc, hready]

/-- The entry of the oldest lookup is there. -/
theorem State.lookupDone_served {s : State} {m : MacTx} {rest : List MacTx} {e : DirEntry} (key : Fetch (BitVec 128))
    (hwait : s.plc.lookWait = m :: rest) (hdma : s.dmaOn = true) (hfind : s.dirFind m.node = some e) :
    s.lookupDone (.ok ()) key =
      ((s.modPlc (fun p => { p with lookWait := rest })).lookupServed.cacheUse m.node false).enqueueTo m (some e) key := by
  have hdma' : (s.modPlc (fun p => { p with lookWait := rest })).dmaOn = true := hdma
  have hfind' : (s.modPlc (fun p => { p with lookWait := rest })).lookupServed.dirFind m.node = some e := by
    rw [State.lookupServed_dirFind]; exact hfind
  unfold State.lookupDone
  rw [hwait]
  dsimp only
  rw [hdma']
  dsimp only
  rw [hfind']

/-- A lookup served queues the frame of the oldest descriptor that waits for one. -/
theorem exec_directoryLookupMiss_served {s : State} {m : MacTx} {rest : List MacTx} {e : DirEntry} (key : Fetch (BitVec 128))
    (hwait : s.plc.lookWait = m :: rest) (hdma : s.dmaOn = true) (hfind : s.dirFind m.node = some e) :
    ∃ t m', exec (.directoryLookupMiss (.ok ()) key) s = .next t ∧ t.plc.queue = s.plc.queue ++ [m'] ∧ t.plc.lookWait = rest ∧
      m'.desc = m.desc ∧ m'.final = e.laddr ∧ t.flag NET_STAT_DIRUNR = false ∧
      s.Frame t [.powerline] (NET_STAT :: (if e.hops = 0 then ctxRegs else [])) := by
  have htaken := frame_modPlc s (fun p => { p with lookWait := rest })
  have hserved := frame_lookupServed (s.modPlc (fun p => { p with lookWait := rest }))
  have hshown := (s.modPlc (fun p => { p with lookWait := rest })).lookupServed_shown
  have hplc : (s.modPlc (fun p => { p with lookWait := rest })).lookupServed.plc = { s.plc with lookWait := rest } :=
    hserved.part (p := .powerline) (by decide)
  rw [exec_directoryLookupMiss_eq, State.lookupDone_served key hwait hdma hfind]
  generalize (s.modPlc (fun p => { p with lookWait := rest })).lookupServed = u at hserved hshown hplc ⊢
  obtain ⟨⟨m', hqueue, hdesc, hfinal, -⟩, hlook, hframe⟩ := u.enqueueTo_cached m.node m e key
  refine ⟨_, m', rfl, ?_, ?_, hdesc, hfinal, ?_, ?_⟩
  · rw [(State.settle_keeps _ _).2.2.2.1, hqueue, hplc]
  · rw [(State.settle_keeps _ _).2.2.2.1, hlook, hplc]
  · rw [(hframe.settle s.irqLive).flag NET_STAT_DIRUNR ?_ (by decide), hshown]
    split <;> decide
  · exact (((htaken.seq hserved).seq hframe).settle _).mono (by simp) (by simp)

/-- Registers that a lookup's failure may change beside its descriptor's. -/
def lookRegs : List Nat := [NET_STAT, NET_LOOKMISS, HIF_STAT, HIF_DMAERR]

/-- A lookup that faults, or meets no DMA, is lost, and its frame ends. -/
theorem State.lookupDone_fault {s : State} {m : MacTx} {rest : List MacTx} (key : Fetch (BitVec 128)) (c : DmaCause) (a : BitVec 64)
    (hwait : s.plc.lookWait = m :: rest) :
    ∃ u, s.lookupDone (.fault c a) key = u.lookupLost.frameEnd m stFault ∧ u.plc = { s.plc with lookWait := rest } ∧
      s.Frame u [.powerline] [HIF_STAT, HIF_DMAERR] := by
  have htaken := frame_modPlc s (fun p => { p with lookWait := rest })
  have hfault := frame_dmaFault (s.modPlc (fun p => { p with lookWait := rest })) 19 c a
  unfold State.lookupDone
  rw [hwait]
  dsimp only
  cases (s.modPlc (fun p => { p with lookWait := rest })).dmaOn
  · exact ⟨_, rfl, rfl, htaken.mono (by simp) (by simp)⟩
  · exact ⟨_, rfl, hfault.part (p := .powerline) (by decide), (htaken.seq hfault).mono (by simp) (by simp)⟩

/-- A lookup that faults is counted, and ends its descriptor. -/
theorem exec_directoryLookupMiss_fault {s : State} {m : MacTx} {rest : List MacTx} (key : Fetch (BitVec 128)) (c : DmaCause) (a : BitVec 64)
    (hwait : s.plc.lookWait = m :: rest) :
    ∃ t, exec (.directoryLookupMiss (.fault c a) key) s = .next t ∧ t.plc.lookWait = rest ∧ t.flag NET_STAT_DIRUNR = true ∧
      t.get NET_LOOKMISS_COUNT = min (s.get NET_LOOKMISS_COUNT + 1) (2 ^ 32 - 1) ∧
      s.Frame t [.powerline, .host] (lookRegs ++ descRegs) := by
  obtain ⟨u, hdone, hplc, hframe⟩ := State.lookupDone_fault key c a hwait
  obtain ⟨hunr, hcount⟩ := u.lookupLost_shown
  have hlost := frame_lookupLost u
  have hend := (frame_frameEnd u.lookupLost m stFault).settle s.irqLive
  rw [exec_directoryLookupMiss_eq, hdone]
  refine ⟨_, rfl, ?_, ?_, ?_, ((hframe.seq hlost).seq hend).mono (by simp) (by decide)⟩
  · rw [(State.settle_keeps _ _).2.2.2.1, State.frameEnd_plc]
    have hkept : u.lookupLost.plc = u.plc := hlost.part (p := .powerline) (by decide)
    rw [hkept, hplc]
  · rw [hend.flag NET_STAT_DIRUNR (by decide) (by decide), hunr]
  · rw [hend.get NET_LOOKMISS_COUNT (by decide) (by decide), hcount, hframe.get NET_LOOKMISS_COUNT (by decide) (by decide)]

/-! ROUTE_SET (R402) -/

/-- The route-set frame of a NET descriptor i to an entry of the directory. -/
def State.routeFrame (s : State) (i : BitVec 32) (e : DirEntry) (body : List (BitVec 8)) : MacTx :=
  { s.ownFrame 0x04 e.laddr e.node body with desc := some (12, i), prot := decide (e.keyIdx.toNat ≠ noKey) }

/-- A ROUTE_SET to a node of the directory queues its route-set frame. -/
theorem exec_routeSet {s : State} {d : Desc8} {i : BitVec 32} {e : DirEntry} (l : List (BitVec 8)) (hnext : s.nextDesc 12 = some i)
    (hop : bitsAt d.d0.toNat 0 8 = 0x20) (hready : s.dirReady = true) (hok : s.txRefused = false) (hfind : s.dirFind d.d1 = some e)
    (hlo : 32 ≤ bitsAt d.d3.toNat 0 32) (hhi : bitsAt d.d3.toNat 0 32 ≤ 8160) (hunit : bitsAt d.d3.toNat 0 32 % 32 = 0) :
    ∃ t m, exec (.routeSet d (.ok l)) s = .next t ∧ t.plc.queue = s.plc.queue ++ [m] ∧ m.desc = some (12, i) ∧ m.mtype = 4 ∧
      m.final = e.laddr ∧ m.body = l.take (bitsAt d.d3.toNat 0 32) ∧ s.Frame t [.powerline, .host] [] := by
  have hready' : (s.takeDesc 12 i).dirReady = true := hready
  have hok' : (s.takeDesc 12 i).txRefused = false := hok
  have hfind' : (s.takeDesc 12 i).dirFind d.d1 = some e := hfind
  have hexec : exec (.routeSet d (.ok l)) s = .next ((s.netTake 0x20 d (fun s i => s.opRouteSet d (.ok l) i)).settle s.irqLive) := rfl
  have hrange : ¬ (bitsAt d.d3.toNat 0 32 < 32 ∨ 8160 < bitsAt d.d3.toNat 0 32 ∨ bitsAt d.d3.toNat 0 32 % 32 ≠ 0) := by omega
  have hset : s.netTake 0x20 d (fun s i => s.opRouteSet d (.ok l) i) = (s.takeDesc 12 i).enqueue
      ((s.takeDesc 12 i).routeFrame i e (l.take (bitsAt d.d3.toNat 0 32))) := by
    unfold State.netTake
    rw [hnext]
    dsimp only
    rw [if_pos hop]
    unfold State.opRouteSet
    dsimp only
    rw [if_neg (by simp [hready', hok']), hfind']
    dsimp only
    rw [if_neg hrange]
    rfl
  rw [hexec, hset]
  refine ⟨_, (s.takeDesc 12 i).queued ((s.takeDesc 12 i).routeFrame i e (l.take (bitsAt d.d3.toNat 0 32))), rfl, ?_, rfl, rfl, rfl, rfl,
    (((frame_takeDesc _ _ _).seq (frame_enqueue _ _)).settle _).mono (by simp) (by simp)⟩
  rw [(State.settle_keeps _ _).2.2.2.1, State.enqueue_queue]
  rfl

/-! Deadlines (R39, R334) -/

/-- A PLC_TX frame that ends completes its own descriptor alone. -/
theorem frame_frameEnd_tx (s : State) {m : MacTx} {i : BitVec 32} (status : Nat) (hdesc : m.desc = some (9, i)) :
    s.Frame (s.frameEnd m status) [.powerline, .host] [HIF_RCIDX 9] := by
  unfold State.frameEnd
  rw [hdesc]
  exact ((frame_modPlc _ _).seq (frame_descDone _ _ _ _)).mono (by simp) (by simp)

/-- The frame of descriptor idx may end by its deadline: it has passed, and no answer in time waits to be acted on. -/
def State.txDue (s : State) (idx : BitVec 32) (m : MacTx) : Bool :=
  m.desc == some (9, idx) && (match m.deadline with | some d => s.passed d && !(m.waitResp && s.arrivalPending d) | none => false)

theorem exec_plcTxDeadlineExpiry_eq (s : State) (idx : BitVec 32) :
    exec (.plcTxDeadlineExpiry idx) s = .next ((match (s.plc.queue ++ s.plc.lookWait).find? (s.txDue idx) with
      | some m => (s.modPlc (fun p => { p with lookWait := p.lookWait.filter (fun x => x.desc != m.desc) })).frameEnd m stDeadline
      | none => s).settle s.irqLive) := rfl

section Deadline
variable {s : State} {m : MacTx} {idx : BitVec 32} {d : BitVec 64}
variable (hdesc : m.desc = some (9, idx)) (hdeadline : m.deadline = some d) (hpassed : s.passed d = true)
variable (honly : ∀ m' ∈ s.plc.queue ++ s.plc.lookWait, m'.desc = m.desc → m' = m)

include hdesc hdeadline hpassed in
theorem State.txDue_self : s.txDue idx m = !(m.waitResp && s.arrivalPending d) := by
  simp [State.txDue, hdesc, hdeadline, hpassed]

include hdesc honly in
/-- A frame found due is the descriptor's only one. -/
theorem State.eq_of_txDue {m' : MacTx} (hmem : m' ∈ s.plc.queue ++ s.plc.lookWait) (hdue : s.txDue idx m' = true) : m' = m := by
  unfold State.txDue at hdue
  rw [Bool.and_eq_true, beq_iff_eq] at hdue
  exact honly m' hmem (hdue.1.trans hdesc.symm)

include hdesc hdeadline hpassed honly

/-- A descriptor whose deadline passes completes. -/
theorem exec_plcTxDeadlineExpiry_due (hmem : m ∈ s.plc.queue) (hfree : (m.waitResp && s.arrivalPending d) = false) :
    ∃ t, exec (.plcTxDeadlineExpiry idx) s = .next t ∧ t.plc.queue = s.plc.queue.filter (fun x => x.id != m.id) ∧
      s.Frame t [.powerline, .host] [HIF_RCIDX 9] := by
  have hself : s.txDue idx m = true := by rw [State.txDue_self hdesc hdeadline hpassed, hfree]; rfl
  have hfind : (s.plc.queue ++ s.plc.lookWait).find? (s.txDue idx) = some m := by
    obtain ⟨m', hm'⟩ := Option.isSome_iff_exists.mp (List.find?_isSome.mpr ⟨m, List.mem_append_left _ hmem, hself⟩)
    rw [hm', State.eq_of_txDue hdesc honly (List.mem_of_find?_eq_some hm') (List.find?_some hm')]
  rw [exec_plcTxDeadlineExpiry_eq, hfind]
  dsimp only
  refine ⟨_, rfl, ?_, ?_⟩
  · rw [(State.settle_keeps _ _).2.2.2.1, State.frameEnd_plc]
    rfl
  · exact (((frame_modPlc _ _).seq (frame_frameEnd_tx _ _ hdesc)).settle _).mono (by simp) (by simp)

/-- A response that may have arrived keeps the descriptor open. -/
theorem exec_plcTxDeadlineExpiry_waits (hwaits : (m.waitResp && s.arrivalPending d) = true) :
    ∃ t, exec (.plcTxDeadlineExpiry idx) s = .next t ∧ t.plc = s.plc ∧ s.Frame t [] [] := by
  have hself : s.txDue idx m = false := by rw [State.txDue_self hdesc hdeadline hpassed, hwaits]; rfl
  have hfind : (s.plc.queue ++ s.plc.lookWait).find? (s.txDue idx) = none := by
    refine List.find?_eq_none.mpr (fun m' hmem hdue => ?_)
    rw [State.eq_of_txDue hdesc honly hmem hdue, hself] at hdue
    cases hdue
  rw [exec_plcTxDeadlineExpiry_eq, hfind]
  exact ⟨_, rfl, (State.settle_keeps _ _).2.2.2.1, (State.Frame.refl _ _ _).settle _⟩

end Deadline

end Sys2Proof.Machine

open Sys2Proof.Machine in
/-- Settles O52: each command's branch is taken, and what it queues, keeps or completes is read off. -/
theorem framesAreQueued : Obligations.FramesAreQueued := by
  unfold Obligations.FramesAreQueued
  intro s
  refine ⟨?_, ?_, ?_, ?_⟩
  · rintro d payload key i len hnext rfl
    refine ⟨fun hbad hopen hs => exec_plcTx_rejected payload key hnext hbad hopen hs, ?_⟩
    rintro l hok rfl hpos hmax
    have hlen : ¬ txLenBad d := by unfold txLenBad; omega
    exact ⟨fun hbcast => exec_plcTx_broadcast key hnext hok hlen hbcast, fun hbcast hdest hready =>
      ⟨fun hcache => exec_plcTx_lookup key hnext hok hlen hbcast hdest hready hcache,
        fun e hcache hfind => exec_plcTx_cached key hnext hok hlen hbcast hdest hready hcache hfind⟩⟩
  · intro m rest key hwait
    exact ⟨fun e hdma hfind => exec_directoryLookupMiss_served key hwait hdma hfind,
      fun c a => exec_directoryLookupMiss_fault key c a hwait⟩
  · intro d i e l hnext hop hready hok hfind hlo hhi hunit
    exact exec_routeSet l hnext hop hready hok hfind hlo hhi hunit
  · intro m idx d hmem hdesc hdeadline hpassed honly
    exact ⟨fun hfree => exec_plcTxDeadlineExpiry_due hdesc hdeadline hpassed honly hmem hfree,
      fun hwaits => exec_plcTxDeadlineExpiry_waits hdesc hdeadline hpassed honly hwaits⟩

end

section
/-!
SUPPORT. The converter's owner and the powerline's requests for reception (R44, R269, R270, R308).
-/

namespace Sys2Proof.Machine

theorem frame_modFcv (s : State) (f : FcvState → FcvState) : s.Frame (s.modFcv f) [.converter] [] :=
  ⟨fun p hp => by cases p <;> simp [Part.Same, State.framByte] at *, fun _ _ _ => rfl, rfl⟩

theorem frame_fcvShow (s : State) : s.Frame s.fcvShow [] [FCV_STAT] :=
  (((((frame_put s FCV_STAT_OWNER _).trans (frame_setFlag _ FCV_STAT_CALRUN _)).trans (frame_setFlag _ FCV_STAT_ARMED _)).trans
    (frame_setFlag _ FCV_STAT_CAPT _)).trans (frame_setFlag _ FCV_STAT_HELD _))

/-- The owner's status follows what was done to the converter. -/
theorem frame_fcvDo (s : State) (f : FcvState → FcvState) : s.Frame (s.fcvDo f) [.converter] [FCV_STAT] := by
  unfold State.fcvDo
  dsimp only
  split
  · exact ((frame_modFcv _ _).seq (frame_fcvShow _)).mono (by simp) (by simp)
  · exact (((frame_modFcv _ _).trans (frame_modFcv _ _)).seq (frame_fcvShow _)).mono (by simp) (by simp)

theorem State.fcvDo_reception (s : State) (f : FcvState → FcvState) : (s.fcvDo f).fcv.reception = (f s.fcv).reception := by
  unfold State.fcvDo
  dsimp only
  split <;> rfl

theorem State.settle_reception (s : State) (b : Nat) : (s.settle b).fcv.reception = s.fcv.reception := by
  have hapart : (s.settle b).fcv.apart = s.fcv.apart := State.settle_same s b .converter
  exact (congrArg FcvState.reception hapart :)

theorem frame_urgentLost (s : State) : s.Frame s.urgentLost [.converter] [FCV_URGRES, FCV_URG] := by
  unfold State.urgentLost
  split
  · exact (((frame_wr _ _ _).seq (frame_setFlag _ FCV_URG_GO _)).seq (frame_modFcv _ _)).mono (by simp) (by decide)
  · exact State.Frame.refl _ _ _

/-- The converter is free for reception unless it calibrates itself (R44, R269). -/
theorem State.receive_free (s : State) (hcal : s.fcv.cal = none) :
    ∃ u, s.receive = (u, true) ∧ u.fcv.reception = true ∧ s.Frame u [.converter] [FCV_STAT, FCV_URG, FCV_URGRES] := by
  refine ⟨_, if_neg (by simp [hcal]), State.fcvDo_reception _ _, ?_⟩
  exact ((frame_urgentLost _).seq (frame_fcvDo _ _)).mono (by simp) (by decide)

theorem State.receive_held (s : State) (hcal : s.fcv.cal ≠ none) : s.receive = (s, false) :=
  if_pos (Option.isSome_iff_ne_none.mpr hcal)

/-- Reception is possible: the domains are on, the receiver is enabled, the mask is sound, and the device does not transmit. -/
def State.MayReceive (s : State) : Prop :=
  s.pdOn 6 = true ∧ s.pdOn 7 = true ∧ s.flag PLC_CTL_RXEN = true ∧ s.flag PLC_STAT_MASKERR = false ∧ s.flag PLC_STAT_TXBUSY = false

theorem State.MayReceive.request {s : State} (h : s.MayReceive) (detected : Bool) :
    s.rxRequest detected = (if (if detected then s.setFlag PLC_STAT_CD true else s).receive.2
      then (if detected then s.setFlag PLC_STAT_CD true else s).receive.1.setFlag PLC_STAT_RXBUSY true
      else (if detected then s.setFlag PLC_STAT_CD true else s).receive.1.bump PLC_RXMISS_RXMISS 1) := by
  obtain ⟨h6, h7, hen, hmask, htx⟩ := h
  exact if_neg (by simp [h6, h7, hen, hmask, htx])

/-- A request takes the converter. -/
theorem State.MayReceive.taken {s : State} (h : s.MayReceive) (hcal : s.fcv.cal = none) (detected : Bool) :
    (s.rxRequest detected).fcv.reception = true ∧ (s.rxRequest detected).flag PLC_STAT_RXBUSY = true ∧
      (s.rxRequest detected).flag PLC_STAT_CD = (detected || s.flag PLC_STAT_CD) ∧
      s.Frame (s.rxRequest detected) [.converter] [PLC_STAT, FCV_STAT, FCV_URG, FCV_URGRES] := by
  have hshown : s.Frame (if detected then s.setFlag PLC_STAT_CD true else s) [] [PLC_STAT] :=
    State.Frame.ite (fun _ => frame_setFlag _ _ _) (fun _ => State.Frame.refl _ _ _)
  have hcd : (if detected then s.setFlag PLC_STAT_CD true else s).flag PLC_STAT_CD = (detected || s.flag PLC_STAT_CD) := by
    cases detected
    · rfl
    · exact State.flag_setFlag_self _ _ _ (by decide) (by decide)
  have hcal' : (if detected then s.setFlag PLC_STAT_CD true else s).fcv.cal = none := by cases detected <;> exact hcal
  rw [h.request]
  generalize (if detected then s.setFlag PLC_STAT_CD true else s) = t at hshown hcd hcal' ⊢
  obtain ⟨u, hreceive, hreception, hframe⟩ := t.receive_free hcal'
  rw [hreceive, if_pos rfl]
  refine ⟨hreception, State.flag_setFlag_self _ _ _ (by decide) (by decide), ?_,
    ((hshown.seq hframe).seq (frame_setFlag _ _ _)).mono (by simp) (by decide)⟩
  rw [State.flag_setFlag_other _ _ _ _ (by decide) (by decide), hframe.flag _ (by decide) (by decide), hcd]

/-- A request that finds the converter calibrating itself is counted. -/
theorem State.MayReceive.missed {s : State} (h : s.MayReceive) (hcal : s.fcv.cal ≠ none) (detected : Bool) :
    (s.rxRequest detected).get PLC_RXMISS_RXMISS = min (s.get PLC_RXMISS_RXMISS + 1) (2 ^ PLC_RXMISS_RXMISS.width - 1) ∧
      s.Frame (s.rxRequest detected) [] [PLC_STAT, PLC_RXMISS] := by
  have hshown : s.Frame (if detected then s.setFlag PLC_STAT_CD true else s) [] [PLC_STAT] :=
    State.Frame.ite (fun _ => frame_setFlag _ _ _) (fun _ => State.Frame.refl _ _ _)
  have hcal' : (if detected then s.setFlag PLC_STAT_CD true else s).fcv.cal ≠ none := by cases detected <;> exact hcal
  rw [h.request]
  generalize (if detected then s.setFlag PLC_STAT_CD true else s) = t at hshown hcal' ⊢
  rw [t.receive_held hcal', if_neg (by simp)]
  refine ⟨?_, (hshown.seq (frame_bump _ PLC_RXMISS_RXMISS _)).mono (by simp) (by decide)⟩
  rw [State.get_bump_self _ _ _ (by decide), hshown.get _ (by decide) (by decide)]

/-- Reception releases the converter. -/
theorem State.rxRelease_held {s : State} (h : s.fcv.reception = true) :
    s.rxRelease.fcv.reception = false ∧ s.rxRelease.flag PLC_STAT_RXBUSY = false ∧ s.rxRelease.flag PLC_STAT_CD = false ∧
      s.Frame s.rxRelease [.converter] [PLC_STAT, FCV_STAT] := by
  unfold State.rxRelease State.receiveEnd
  rw [if_pos h]
  have hreception := s.fcvDo_reception (fun f => { f with reception := false })
  refine ⟨hreception, ?_, State.flag_setFlag_self _ _ _ (by decide) (by decide),
    (((frame_fcvDo _ _).seq (frame_setFlag _ _ _)).seq (frame_setFlag _ _ _)).mono (by simp) (by decide)⟩
  rw [State.flag_setFlag_other _ _ _ _ (by decide) (by decide)]
  exact State.flag_setFlag_self _ _ _ (by decide) (by decide)

end Sys2Proof.Machine
end

section
/-!
SUPPORT. What accepting a transmission does before its type decides (R285, R291, R293, R299, R301, R322): its head is counted, its sender
is heard, its payload is counted and tracked.
-/

namespace Sys2Proof.Machine

/-! The head (R291) -/

/-- Accepting a transmission leaves what its address is compared with. -/
theorem State.Frame.address {s t : State} {ps : List Part} (h : s.Frame t ps rxRegs) :
    t.get PLC_CTL_NETID = s.get PLC_CTL_NETID ∧ t.flag NET_CTL_EN = s.flag NET_CTL_EN ∧ t.onNet = s.onNet ∧ t.ownLaddr = s.ownLaddr := by
  have hrole : t.flag NET_CTL_ROLE = s.flag NET_CTL_ROLE := h.flag _ (by decide) (by decide)
  have hassoc : t.flag NET_STAT_ASSOC = s.flag NET_STAT_ASSOC := h.flag _ (by decide) (by decide)
  have hladdr : t.get NET_LADDR_LADDR = s.get NET_LADDR_LADDR := h.get _ (by decide) (by decide)
  refine ⟨h.get _ (by decide) (by decide), h.flag _ (by decide) (by decide), ?_, ?_⟩
  · rw [State.onNet, State.station, hrole, hassoc]; rfl
  · rw [State.ownLaddr, hrole, hladdr]; rfl

/-- The head of a transmission that is heard is counted and accepted. -/
theorem State.Hears.head {s : State} {r : RxIn} {f : Fc} {i : Nat} (h : s.Hears r f i) :
    ∃ u, s.rxHead r = (u, some f) ∧ u.get PLC_RXCNT_RXCNT = min (s.get PLC_RXCNT_RXCNT + 1) (2 ^ PLC_RXCNT_RXCNT.width - 1) ∧
      (s.reach (s.hfAt r.tsEnd)).Frame u [] [PLC_ERASYM, PLC_RXCNT] := by
  obtain ⟨hbusy, htx, hfc, hf, hnet, hen, haddr, -⟩ := h
  have herased := frame_bump (s.reach (s.hfAt r.tsEnd)) PLC_ERASYM_ERASYM ((s.rxErased r).1.filter id).length
  have hcounted := frame_bump ((s.reach (s.hfAt r.tsEnd)).bump PLC_ERASYM_ERASYM ((s.rxErased r).1.filter id).length) PLC_RXCNT_RXCNT 1
  have hframe := (herased.seq hcounted).mono (ps' := []) (offs' := [PLC_ERASYM, PLC_RXCNT]) (by simp) (by decide)
  obtain ⟨hnet', hen', hon', hladdr'⟩ := (hframe.mono (offs' := rxRegs) (List.Subset.refl _) (by decide)).address
  change _ = s.get PLC_CTL_NETID at hnet'
  change _ = s.flag NET_CTL_EN at hen'
  change _ = s.onNet at hon'
  change _ = s.ownLaddr at hladdr'
  refine ⟨_, ?_, ?_, hframe⟩
  · unfold State.rxHead
    rw [if_neg (by simp [hbusy, htx])]
    dsimp only
    rw [if_neg (by simp [hfc]), ← hf, hnet', hen', hon', hladdr']
    exact if_neg (by simpa [hnet, hen, or_iff_not_imp_left] using haddr)
  · rw [State.get_bump_self _ _ _ (by decide), herased.get _ (by decide) (by decide)]
    rfl

/-! The sender (R322) -/

theorem State.ctxOf_of_ctxs {s t : State} (h : t.plc.ctxs = s.plc.ctxs) (laddr : BitVec 24) : t.ctxOf laddr = s.ctxOf laddr := by
  unfold State.ctxOf State.ctx; rw [h]

theorem State.lt_of_ctxOf {s : State} {laddr : BitVec 24} {i : Nat} (h : s.ctxOf laddr = some i) : i < 256 :=
  List.mem_range.mp (List.mem_of_find?_eq_some h)

theorem State.ctx_modCtx_self (s : State) {i : Nat} (f : NeighCtx → NeighCtx) (hi : i < s.plc.ctxs.length) :
    (s.modCtx i f).ctx i = f (s.ctx i) := by
  simp [State.ctx, State.modCtx, List.getD_eq_getElem?_getD, hi]

/-- The sender's context and directory entry are heard. -/
theorem State.rxFrom_known {s : State} {r : RxIn} {f : Fc} {i : Nat} (h : s.ctxOf (BitVec.ofNat 24 f.saddr) = some i) :
    ∃ v, s.rxFrom r f = (v, some i) ∧ (s.modCtx i (fun c => { c with heard := r.tsEnd })).DirStep v := by
  have hctx : s.ctxFor (BitVec.ofNat 24 f.saddr) (rxKey r) = (s, some i) := by
    unfold State.ctxFor; rw [h]
  unfold State.rxFrom
  rw [hctx]
  exact ⟨_, rfl, dirStep_dirTouch _ _ _⟩

/-! The payload (R299, R301) -/

/-- What a payload's segments depend on beside the transmission. -/
theorem State.rxPayload_segs_of_same {s t : State} (r : RxIn) (f : Fc) (i : Nat) (herased : t.rxErased r = s.rxErased r)
    (hcaps : t.rxCaps i f = s.rxCaps i f) : (t.rxPayload r f i).2 = (s.rxPayload r f i).2 := by
  unfold State.rxPayload
  dsimp only
  rw [herased, hcaps]

theorem State.Frame.rxErased {s t : State} {ps : List Part} (h : s.Frame t ps rxRegs) (r : RxIn) : t.rxErased r = s.rxErased r := by
  have hen : t.flag PLC_RXCFG_IMPEN = s.flag PLC_RXCFG_IMPEN := h.flag _ (by decide) (by decide)
  have hth : t.get PLC_RXCFG_IMPTH = s.get PLC_RXCFG_IMPTH := h.get _ (by decide) (by decide)
  rw [State.rxErased, hen, hth]
  rfl

theorem State.Frame.carriers {s t : State} {ps : List Part} (h : s.Frame t ps rxRegs) : t.carriers = s.carriers := by
  have hmask : ∀ k < 53, PLC_MASK k ∉ rxRegs ∧ endReg (PLC_MASK k) = false := by decide
  unfold State.carriers
  refine List.flatMap_congr fun k hk => ?_
  obtain ⟨hrx, hend⟩ := hmask k (List.mem_range.mp hk)
  rw [h.rd hrx hend]

theorem State.rxCaps_of_same {s t : State} (i : Nat) (f : Fc) (hcarriers : t.carriers = s.carriers)
    (hmaps : (t.ctx i).maps = (s.ctx i).maps) : t.rxCaps i f = s.rxCaps i f := by
  have hmap : ∀ q, (t.ctx i).map q = (s.ctx i).map q := fun q => by unfold NeighCtx.map; rw [hmaps]
  unfold State.rxCaps
  simp only [hcarriers, hmap]

/-- The payload is counted and tracked. -/
theorem State.rxPayload_counts (s : State) (r : RxIn) (f : Fc) (i : Nat) :
    s.Frame (s.rxPayload r f i).1 [.powerline] [PLC_ERASYM, PLC_SEGERR] ∧
      (∃ k, (s.rxPayload r f i).1.plc = { s.plc with track := k }) ∧
      (s.rxPayload r f i).1.get PLC_SEGERR_SEGERR =
        min (s.get PLC_SEGERR_SEGERR + ((s.rxPayload r f i).2.filter Option.isNone).length) (2 ^ PLC_SEGERR_SEGERR.width - 1) := by
  unfold State.rxPayload
  dsimp only
  refine ⟨(((frame_bump _ PLC_ERASYM_ERASYM _).seq (frame_bump _ PLC_SEGERR_SEGERR _)).seq (frame_modPlc _ _)).mono (by simp) (by decide),
    ⟨_, rfl⟩, ?_⟩
  rw [State.modPlc_get, State.get_bump_self _ _ _ (by decide), (frame_bump s PLC_ERASYM_ERASYM _).get _ (by decide) (by decide)]

theorem State.rxPayload_segs (s : State) (r : RxIn) (f : Fc) (i : Nat) :
    ∃ words, (s.rxPayload r f i).2 = (List.range f.nseg).map (fun k => if segDecoded f.rate words k then r.segs.getD k none else none) := by
  unfold State.rxPayload
  exact ⟨_, rfl⟩

/-- Without a decoded word every segment counts as decoded. -/
theorem segDecoded_nil (rate k : Nat) : segDecoded rate [] k = true := by
  simp [segDecoded]

/-! An accepted transmission up to its type -/

/-- Neighbour i was heard at ts; the directory may have been touched, the channel tracked. -/
def State.Heard (s w : State) (i : Nat) (ts : BitVec 64) : Prop :=
  ∃ d n c k, w.plc = { s.plc with
    ctxs := s.plc.ctxs.modify i (fun x => { x with heard := ts }), dir := d, newDir := n, cache := c, track := k }

theorem State.Heard.keeps {s w : State} {i : Nat} {ts : BitVec 64} (h : s.Heard w i ts) {α : Type} (g : PlcState → α)
    (hg : ∀ p x d n c k, g { p with ctxs := x, dir := d, newDir := n, cache := c, track := k } = g p) : g w.plc = g s.plc := by
  obtain ⟨d, n, c, k, hplc⟩ := h
  rw [hplc]
  exact hg _ _ _ _ _ _

theorem State.Heard.ctx {s w : State} {i : Nat} {ts : BitVec 64} (h : s.Heard w i ts) (hi : i < s.plc.ctxs.length) :
    w.ctx i = { s.ctx i with heard := ts } := by
  obtain ⟨d, n, c, k, hplc⟩ := h
  rw [State.ctx, hplc]
  exact State.ctx_modCtx_self s (fun x => { x with heard := ts }) hi

/-- The states that a transmission's head, sender and payload leave, one after the other. -/
structure State.Received (s : State) (r : RxIn) (f : Fc) (i : Nat) (u v w : State) : Prop where
  head : s.rxHead r = (u, some f)
  sender : u.rxFrom r f = (v, some i)
  payload : v.rxPayload r f i = (w, (s.rxPayload r f i).2)
  frame : (s.reach (s.hfAt r.tsEnd)).Frame w [.powerline] rxRegs
  heard : s.Heard w i r.tsEnd
  ctx : w.ctx i = { s.ctx i with heard := r.tsEnd }
  counted : w.get PLC_RXCNT_RXCNT = min (s.get PLC_RXCNT_RXCNT + 1) (2 ^ PLC_RXCNT_RXCNT.width - 1)
  failed : w.get PLC_SEGERR_SEGERR =
    min (s.get PLC_SEGERR_SEGERR + ((s.rxPayload r f i).2.filter Option.isNone).length) (2 ^ PLC_SEGERR_SEGERR.width - 1)

theorem State.Hears.received {s : State} {r : RxIn} {f : Fc} {i : Nat} (h : s.Hears r f i) (hs : s.Sizes) :
    ∃ u v w, s.Received r f i u v w := by
  have hlen : s.plc.ctxs.length = 256 := by
    obtain ⟨-, -, -, -, -, -, -, -, -, -, -, hctxs, -⟩ := hs; exact hctxs
  obtain ⟨u, hhead, hcount, hu⟩ := h.head
  obtain ⟨-, -, -, -, -, -, -, hctxOf⟩ := h
  have hi : i < s.plc.ctxs.length := hlen ▸ State.lt_of_ctxOf hctxOf
  have huplc : u.plc = s.plc := hu.part (p := .powerline) (by decide)
  obtain ⟨v, hsender, htouch⟩ := State.rxFrom_known (r := r) ((State.ctxOf_of_ctxs (congrArg PlcState.ctxs huplc) _).trans hctxOf)
  have huv : u.Frame v [.powerline] [] := (frame_modCtx _ _ _).trans htouch.1
  have hv : (s.reach (s.hfAt r.tsEnd)).Frame v [.powerline] rxRegs := (hu.seq huv).mono (by simp) (by decide)
  obtain ⟨d, n, c, hvplc⟩ := htouch.2
  have hvctx : v.ctx i = { s.ctx i with heard := r.tsEnd } := by
    rw [State.ctx, hvplc]
    change (u.modCtx i _).ctx i = _
    rw [State.ctx_modCtx_self u _ (huplc ▸ hi), State.ctx, huplc]
    rfl
  have hsegs : (v.rxPayload r f i).2 = (s.rxPayload r f i).2 :=
    State.rxPayload_segs_of_same r f i (hv.rxErased r) (State.rxCaps_of_same i f hv.carriers (by rw [hvctx]))
  obtain ⟨hpay, ⟨k, hwplc⟩, hfail⟩ := v.rxPayload_counts r f i
  have hheard : s.Heard (v.rxPayload r f i).1 i r.tsEnd := by
    refine ⟨d, n, c, k, ?_⟩
    rw [hwplc, hvplc, State.modCtx, State.modPlc_plc, huplc]
  refine ⟨u, v, (v.rxPayload r f i).1, hhead, hsender, by rw [← hsegs], (hv.seq hpay).mono (by simp) (by decide), hheard,
    hheard.ctx hi, ?_, ?_⟩
  · rw [hpay.get _ (by decide) (by decide), huv.get _ (by decide) (by decide), hcount]
  · rw [hfail, hsegs, huv.get _ (by decide) (by decide), hu.get _ (by decide) (by decide)]
    rfl

end Sys2Proof.Machine
end

section
/-!
SUPPORT. What each type of transmission does once it is accepted (R293, R301, R305, R309, R316, R319).
-/

namespace Sys2Proof.Machine

/-! Time and types -/

/-- The time of an instant nearby depends on the time bases alone. -/
theorem State.Frame.hfAt {s t : State} (h : s.Frame t [.powerline] rxRegs) (ts : BitVec 64) : t.hfAt ts = s.hfAt ts := by
  have hlink : ({ t.tzl with fwd := [] } : TzlState) = { s.tzl with fwd := [] } := h.part (p := .link) (by decide)
  have hexp : t.exp = s.exp := h.part (p := .exposure) (by decide)
  have hts : t.ts = s.ts := State.ts_of_same (congrArg TzlState.masterTs hlink :) (h.flag _ (by decide) (by decide))
    (h.flag PWR_STAT_HFOK (by decide) (by decide)) (h.part (p := .clock) (by decide)) (by rw [hexp]) (by rw [hexp])
  rw [State.hfAt, State.hfAt, hts, hexp]

theorem State.Received.take {s u v w : State} {r : RxIn} {f : Fc} {i n : Nat} (h : s.Received r f i u v w) (hn : f.ftype = n)
    (g : State → Fc → State) : s.rxTake r n g = g u f := by
  unfold State.rxTake
  rw [h.head]
  exact if_pos hn

theorem State.Hears.fsn_lt {s : State} {r : RxIn} {f : Fc} {i : Nat} (h : s.Hears r f i) : f.fsn < 2 ^ 16 := by
  obtain ⟨-, -, -, rfl, -⟩ := h
  exact Nat.mod_lt _ (by decide)

/-! Segments -/

theorem State.rxPayload_length (s : State) (r : RxIn) (f : Fc) (i : Nat) : (s.rxPayload r f i).2.length = f.nseg := by
  obtain ⟨words, hsegs⟩ := s.rxPayload_segs r f i
  simp [hsegs]

/-- The segments that failed, counted and named. -/
theorem length_filter_isNone {α : Type} (l : List (Option α)) :
    (l.filter Option.isNone).length = ((List.range l.length).filter (fun k => (l.getD k none).isNone)).length := by
  have hmap : l = (List.range l.length).map (fun k => l.getD k none) := by
    refine List.ext_getElem (by simp) (fun k hk _ => ?_)
    simp [hk]
  conv_lhs => rw [hmap, List.filter_map, List.length_map]
  rfl

/-- Without impulse erasure and with the SNR met, a segment fails by its CRC alone (R301). -/
theorem State.rxPayload_segs_sound {s : State} {r : RxIn} (f : Fc) (i : Nat) (himp : s.flag PLC_RXCFG_IMPEN = false)
    (hsnr : r.snrMet = true) : (s.rxPayload r f i).2 = (List.range f.nseg).map (fun k => r.segs.getD k none) := by
  have herased : (s.rxErased r).2 = r.syms.map (fun _ => false) := by simp [State.rxErased, himp]
  unfold State.rxPayload
  simp [herased, hsnr, segDecoded_nil]

/-! Data (R293, R309) -/

theorem frame_assemble (s : State) (i : Nat) (sl : Bool) (ts : BitVec 64) (x : BitVec 64 × List (BitVec 8)) :
    s.Frame (s.assemble i sl ts x) [.powerline] [] := by
  unfold State.assemble
  dsimp only
  split <;> exact frame_modPlc _ _

theorem State.assemble_ctxs (s : State) (i : Nat) (sl : Bool) (ts : BitVec 64) (x : BitVec 64 × List (BitVec 8)) :
    (s.assemble i sl ts x).plc.ctxs = s.plc.ctxs := by
  unfold State.assemble
  dsimp only
  split <;> rfl

theorem foldl_ctxs {β : Type} (g : State → β → State) : (l : List β) → (s : State) → (∀ s x, (g s x).plc.ctxs = s.plc.ctxs) →
    (l.foldl g s).plc.ctxs = s.plc.ctxs
  | [], _, _ => rfl
  | x :: t, s, h => (foldl_ctxs g t (g s x) h).trans (h s x)

/-! Contexts edited on reception (R305, R306, R309, R330) -/

/-- From s to t contexts were edited, and what g shows of context i stays. -/
def State.CtxEdit {α : Type} (s t : State) (i : Nat) (g : NeighCtx → α) : Prop :=
  s.Frame t [.powerline] [] ∧ (∃ x, t.plc = { s.plc with ctxs := x }) ∧ g (t.ctx i) = g (s.ctx i)

theorem State.CtxEdit.refl {α : Type} (s : State) (i : Nat) (g : NeighCtx → α) : s.CtxEdit s i g :=
  ⟨State.Frame.refl _ _ _, ⟨s.plc.ctxs, rfl⟩, rfl⟩

theorem State.CtxEdit.trans {α : Type} {s t u : State} {i : Nat} {g : NeighCtx → α} (h : s.CtxEdit t i g) (k : t.CtxEdit u i g) :
    s.CtxEdit u i g := by
  obtain ⟨hframe, ⟨x, hplc⟩, hg⟩ := h
  obtain ⟨kframe, ⟨y, kplc⟩, kg⟩ := k
  exact ⟨hframe.trans kframe, ⟨y, by rw [kplc, hplc]⟩, kg.trans hg⟩

/-- What does not depend on the contexts stays. -/
theorem State.CtxEdit.keeps {α β : Type} {s t : State} {i : Nat} {g : NeighCtx → α} (h : s.CtxEdit t i g) (k : PlcState → β)
    (hk : ∀ p x, k { p with ctxs := x } = k p) : k t.plc = k s.plc := by
  obtain ⟨-, ⟨x, hplc⟩, -⟩ := h
  rw [hplc]
  exact hk _ _

theorem State.CtxEdit.ite {α : Type} {s t u : State} {i : Nat} {g : NeighCtx → α} {c : Prop} [Decidable c] (h : c → s.CtxEdit t i g)
    (k : ¬ c → s.CtxEdit u i g) : s.CtxEdit (if c then t else u) i g := by split <;> simp_all

theorem ctxEdit_modCtx {α : Type} (s : State) (i : Nat) {g : NeighCtx → α} (f : NeighCtx → NeighCtx) (hf : ∀ c, g (f c) = g c) :
    s.CtxEdit (s.modCtx i f) i g := by
  refine ⟨frame_modCtx _ _ _, ⟨_, rfl⟩, ?_⟩
  by_cases hi : i < s.plc.ctxs.length
  · rw [State.ctx_modCtx_self s f hi, hf]
  · simp [State.ctx, State.modCtx, List.getD_eq_getElem?_getD, hi]

theorem ctxEdit_event {α : Type} (s : State) (i c n : Nat) (g : NeighCtx → α) (e : EvEdge) (p0 p1 p2 : Nat) :
    s.CtxEdit (s.event c n e p0 p1 p2) i g := by
  have hplc : (s.event c n e p0 p1 p2).plc = s.plc := (frame_event s c n e p0 p1 p2).part (p := .powerline) (by decide)
  exact ⟨(frame_event _ _ _ _ _ _ _).mono (by simp) (by simp), ⟨s.plc.ctxs, hplc⟩, by rw [State.ctx, hplc]; rfl⟩

theorem ctxEdit_negStart {α : Type} (s : State) (i : Nat) {g : NeighCtx → α} (hg : ∀ c n, g { c with neg := n } = g c) :
    s.CtxEdit (s.negStart i) i g := by
  unfold State.negStart
  split
  · exact ctxEdit_modCtx _ _ _ (fun c => hg c _)
  · exact State.CtxEdit.refl _ _ _

theorem ctxEdit_invalidateMaps {α : Type} (s : State) (i cause fsn : Nat) {g : NeighCtx → α} (hg : ∀ c m, g { c with maps := m } = g c) :
    s.CtxEdit (s.invalidateMaps i cause fsn) i g :=
  (ctxEdit_modCtx _ _ _ (fun c => hg c _)).trans (ctxEdit_event _ _ _ _ _ _ _ _ _)

theorem ctxEdit_sentSegs {α : Type} (s : State) (i : Nat) (l : List Bool) {g : NeighCtx → α}
    (hg : ∀ c h n m, g { c with sentHist := h, sent := n, metric := m } = g c) : s.CtxEdit (s.sentSegs i l) i g :=
  (ctxEdit_modCtx s i _ (fun c => hg c _ _ c.metric)).trans (ctxEdit_modCtx _ i _ (fun c => hg c c.sentHist c.sent _))

theorem ctxEdit_rxSegs {α : Type} (s : State) (i q : Nat) (mapped : Bool) (l : List Bool) {g : NeighCtx → α}
    (hg : ∀ c h m n, g { c with rxHist := h, maps := m, neg := n } = g c) : s.CtxEdit (s.rxSegs i q mapped l) i g := by
  unfold State.rxSegs
  dsimp only
  refine State.CtxEdit.ite (fun _ => ?_) (fun _ => ctxEdit_modCtx s i _ (fun c => hg c _ _ c.neg))
  exact (ctxEdit_modCtx s i _ (fun c => hg c _ _ c.neg)).trans (ctxEdit_negStart _ i (fun c n => hg c c.rxHist c.maps n))

/-! A data transmission -/

/-- The answer due to a transmission (R309). -/
def State.sackFor (s : State) (r : RxIn) (f : Fc) (i : Nat) (failed : List Nat) : SackDue :=
  { laddr := BitVec.ofNat 24 f.saddr, fsn := BitVec.ofNat 16 f.fsn, failed := failed, mapInv := none, nb := i,
    at_ := s.hfAt r.tsEnd + usCycles 60 }

theorem State.rxData_safelight {s u v w : State} {r : RxIn} {f : Fc} {i : Nat} (h : s.Received r f i u v w) (hmode : f.mode ≠ 0) :
    ∃ x, (x.ctx i).heard = r.tsEnd ∧ w.Frame x [.powerline] [] ∧
      u.rxData r f = if f.ackReq ∧ f.daddr ≠ 0xFFFFFF then x.modPlc (fun p => { p with
        sackDue := some (x.sackFor r f i ((List.range f.nseg).filter (fun k => ((s.rxPayload r f i).2.getD k none).isNone))) }) else x := by
  unfold State.rxData
  rw [h.sender]
  simp only [hmode, decide_false, Bool.false_and, Bool.false_eq_true, if_false, h.payload]
  refine ⟨_, ?_, ?_, rfl⟩
  · obtain ⟨-, -, hheard⟩ := ctxEdit_rxSegs (g := NeighCtx.heard) _ i (bitsAt f.tspec 0 2) false
      ((s.rxPayload r f i).2.map (fun x => x.isNone)) (fun _ _ _ _ => rfl)
    refine hheard.trans ?_
    rw [State.ctx, foldl_ctxs _ _ _ (fun s x => by cases x; exacts [rfl, State.assemble_ctxs _ _ _ _ _])]
    exact congrArg NeighCtx.heard h.ctx
  · have hparts := frame_foldl (ps := [.powerline]) (os := [])
      (fun (s : State) (x : RxSeg) => match x with | some x => s.assemble i true r.tsEnd x | none => s) (s.rxPayload r f i).2 w
      (fun s x _ => by cases x; exacts [State.Frame.refl _ _ _, frame_assemble _ _ _ _ _])
    obtain ⟨hedit, -, -⟩ := ctxEdit_rxSegs (g := NeighCtx.heard) _ i (bitsAt f.tspec 0 2) false
      ((s.rxPayload r f i).2.map (fun x => x.isNone)) (fun _ _ _ _ => rfl)
    exact hparts.trans hedit

theorem exec_transmissionReceived_eq (r : RxIn) (s : State) :
    exec (.transmissionReceived r) s = .next ((s.rxTake r 1 (fun s f => s.rxData r f)).settle s.irqLive) := rfl

/-- A context after the command's end. -/
theorem State.settle_ctx (s : State) (b i : Nat) : (s.settle b).ctx i = s.ctx i := by
  unfold State.ctx
  rw [(State.settle_keeps _ _).2.2.2.1]

/-- A safelight data transmission is heard and counted, and one that asks for it is answered. -/
theorem exec_transmissionReceived_safelight {s : State} {r : RxIn} {f : Fc} {i : Nat} {failed : List Nat} (h : s.Hears r f i) (hs : s.Sizes)
    (htype : f.ftype = 1) (hmode : f.mode ≠ 0)
    (hfailed : failed = (List.range f.nseg).filter (fun k => ((s.rxPayload r f i).2.getD k none).isNone)) :
    ∃ t, exec (.transmissionReceived r) s = .next t ∧ (t.ctx i).heard = r.tsEnd ∧
      t.get PLC_RXCNT_RXCNT = min (s.get PLC_RXCNT_RXCNT + 1) (2 ^ PLC_RXCNT_RXCNT.width - 1) ∧
      t.get PLC_SEGERR_SEGERR = min (s.get PLC_SEGERR_SEGERR + failed.length) (2 ^ PLC_SEGERR_SEGERR.width - 1) ∧
      (f.ackReq = true → f.daddr ≠ 0xFFFFFF → ∃ d, t.plc.sackDue = some d ∧ d.fsn.toNat = f.fsn ∧ d.nb = i ∧ d.failed = failed ∧
        d.at_ = (s.reach (s.hfAt r.tsEnd)).hfAt r.tsEnd + usCycles 60) ∧ (s.reach (s.hfAt r.tsEnd)).Frame t [.powerline] rxRegs := by
  obtain ⟨u, v, w, hrx⟩ := h.received hs
  obtain ⟨x, hheard, hx, hdata⟩ := State.rxData_safelight hrx hmode
  have hcount : ((s.rxPayload r f i).2.filter Option.isNone).length = failed.length := by
    rw [length_filter_isNone, State.rxPayload_length, hfailed]
  rw [exec_transmissionReceived_eq, hrx.take htype, hdata, ← hfailed]
  have hreply : x.Frame (if f.ackReq ∧ f.daddr ≠ 0xFFFFFF then x.modPlc (fun p => { p with sackDue := some (x.sackFor r f i failed) }) else x)
      [.powerline] [] := State.Frame.ite (fun _ => frame_modPlc _ _) (fun _ => State.Frame.refl _ _ _)
  have hframe := ((hx.trans hreply).settle s.irqLive)
  refine ⟨_, rfl, ?_, ?_, ?_, ?_, (hrx.frame.seq hframe).mono (by simp) (by simp)⟩
  · rw [State.settle_ctx]
    split <;> exact hheard
  · rw [hframe.get _ (by decide) (by decide), hrx.counted]
  · rw [hframe.get _ (by decide) (by decide), hrx.failed, hcount]
  · intro hack hdaddr
    rw [if_pos ⟨hack, hdaddr⟩, (State.settle_keeps _ _).2.2.2.1]
    refine ⟨_, rfl, Nat.mod_eq_of_lt h.fsn_lt, rfl, rfl, ?_⟩
    exact congrArg (· + usCycles 60) (State.Frame.hfAt ((hrx.frame.seq hx).mono (by simp) (by simp)) r.tsEnd)

end Sys2Proof.Machine
end

section
/-!
SUPPORT. Soundings, reports and beacons once they are accepted (R305, R314 to R319).
-/

namespace Sys2Proof.Machine

/-! Soundings (R305) -/

theorem assocGet_assocPut_nil {α : Type} (d : α) (k : Nat) (v : α) : assocGet d (assocPut [] k v) k = v := by
  simp [assocGet, assocPut, storeInsert]

/-- The final maps are the initiator's to compute. -/
theorem State.negFinal_of_responder {s : State} {i : Nat} {n : Negotiation} (hneg : (s.ctx i).neg = some n) (hresp : n.initiator = false) :
    s.negFinal i = s := by
  unfold State.negFinal
  rw [hneg]
  simp [hresp]

/-- A negotiation that was begun as its end's responder, its first sounding of slot q at ts. -/
def Negotiation.FirstHeard (n : Negotiation) (ts : BitVec 64) (q : Nat) (m : SoundIn) : Prop :=
  n.initiator = false ∧ n.heard = BitVec.ofNat 4 (2 ^ q) ∧ assocGet [] n.snr q = m.snr ∧ n.t0 = ts

theorem State.newNeg_firstHeard (s : State) (ts : BitVec 64) (q : Nat) (m : SoundIn) :
    ({ s.newNeg false 1 with t0 := ts }.measure q m).FirstHeard ts q m :=
  ⟨rfl, BitVec.zero_or, assocGet_assocPut_nil _ _ _, rfl⟩

theorem Negotiation.FirstHeard.ite {n n' : Negotiation} {ts : BitVec 64} {q : Nat} {m : SoundIn} {c : Prop} [Decidable c]
    (h : n.FirstHeard ts q m) (h' : n'.FirstHeard ts q m) : (if c then n else n').FirstHeard ts q m := by
  split
  exacts [h, h']

theorem State.rxSounding_first {s u v w : State} {r : RxIn} {f : Fc} {i : Nat} (h : s.Received r f i u v w) (m : SoundIn)
    (hneg : (s.ctx i).neg = none) (hback : bitAt f.tspec 2 = false) :
    ∃ n, u.rxSounding r m f = (w.modCtx i (fun c => { c with neg := some n })).negFinal i ∧
      n.FirstHeard r.tsEnd (bitsAt f.tspec 0 2) m := by
  have hneg' : (w.ctx i).neg = none := by rw [h.ctx]; exact hneg
  have hfirst := w.newNeg_firstHeard r.tsEnd (bitsAt f.tspec 0 2) m
  unfold State.rxSounding
  rw [h.sender]
  dsimp only
  rw [h.payload, hneg', hback]
  exact ⟨_, rfl, .ite hfirst hfirst⟩

theorem exec_sounding_eq (r : RxIn) (m : SoundIn) (s : State) :
    exec (.sounding r m) s = .next ((s.rxTake r 3 (fun s f => s.rxSounding r m f)).settle s.irqLive) := rfl

/-- The sender's context stands in the table. -/
theorem State.Received.ctx_lt {s u v w : State} {r : RxIn} {f : Fc} {i : Nat} (h : s.Received r f i u v w) (hears : s.Hears r f i)
    (hs : s.Sizes) : i < w.plc.ctxs.length := by
  obtain ⟨-, -, -, -, -, -, -, -, -, -, -, hctxs, -⟩ := hs
  obtain ⟨-, -, -, -, -, -, -, hctxOf⟩ := hears
  obtain ⟨d, n, c, k, hplc⟩ := h.heard
  rw [hplc]
  simpa [hctxs] using State.lt_of_ctxOf hctxOf

/-- A first sounding begins a negotiation as responder. -/
theorem exec_sounding_first {s : State} {r : RxIn} {f : Fc} {i : Nat} (m : SoundIn) (h : s.Hears r f i) (hs : s.Sizes) (htype : f.ftype = 3)
    (hneg : (s.ctx i).neg = none) (hback : bitAt f.tspec 2 = false) :
    ∃ t n, exec (.sounding r m) s = .next t ∧ (t.ctx i).neg = some n ∧ n.FirstHeard r.tsEnd (bitsAt f.tspec 0 2) m ∧
      (s.reach (s.hfAt r.tsEnd)).Frame t [.powerline] rxRegs := by
  obtain ⟨u, v, w, hrx⟩ := h.received hs
  obtain ⟨n, hsound, hfirst⟩ := State.rxSounding_first hrx m hneg hback
  have hstored : ((w.modCtx i (fun c => { c with neg := some n })).ctx i).neg = some n := by
    rw [State.ctx_modCtx_self w _ (hrx.ctx_lt h hs)]
  rw [exec_sounding_eq, hrx.take htype, hsound, State.negFinal_of_responder hstored hfirst.1]
  refine ⟨_, n, rfl, ?_, hfirst, ((hrx.frame.seq (frame_modCtx _ _ _)).settle _).mono (by simp) (by simp)⟩
  rw [State.settle_ctx, hstored]

/-! Reports (R305) -/

/-- The bytes that a transmission's segments bring, one after the other. -/
def segBytes (segs : List RxSeg) : List (BitVec 8) := ((segs.filterMap id).map (fun x => (segRead x).2.2.2)).flatten

/-- What a report makes of a negotiation: the initiator takes it as the other end's loadings, the responder as its final maps. -/
def Negotiation.Reported (n n' : Negotiation) (b : List ToneMap) : Prop :=
  (n.initiator = false → n'.final = b) ∧ (n.initiator = true → n'.other = b.map (fun m => m.load))

/-- The final maps do not change what the other end reported. -/
theorem State.negFinal_other {s : State} {i : Nat} {n : Negotiation} (hi : i < s.plc.ctxs.length) (hneg : (s.ctx i).neg = some n) :
    s.Frame (s.negFinal i) [.powerline] [] ∧ ∃ n', ((s.negFinal i).ctx i).neg = some n' ∧ n'.other = n.other := by
  unfold State.negFinal
  rw [hneg]
  dsimp only
  split
  · refine ⟨frame_modCtx _ _ _, ?_⟩
    rw [State.ctx_modCtx_self s _ hi]
    exact ⟨_, rfl, rfl⟩
  · exact ⟨State.Frame.refl _ _ _, n, hneg, rfl⟩

/-- The maps of a tone-map report. -/
def mapsReported (segs : List RxSeg) : List ToneMap := (List.range 4).map (fun q => mapOf (((segBytes segs).drop (912 * q)).take 912))

/-- The initiator takes the responder's report. -/
def Negotiation.takeOther (n : Negotiation) (b : List ToneMap) (ts : BitVec 64) : Negotiation :=
  { n with other := b.map (fun m => m.load), tPrev := ts }

theorem State.rxReport_whole {s u v w : State} {r : RxIn} {f : Fc} {i : Nat} {n : Negotiation} (h : s.Received r f i u v w)
    (hi : i < w.plc.ctxs.length) (hneg : (s.ctx i).neg = some n)
    (hwhole : (List.range f.nseg).filter (fun k => ((s.rxPayload r f i).2.getD k none).isNone) = []) :
    ∃ x n', (x.ctx i).neg = some n' ∧ n.Reported n' (mapsReported (s.rxPayload r f i).2) ∧ w.Frame x [.powerline] [] ∧
      u.rxReport r f = if f.ackReq then x.modPlc (fun p => { p with sackDue := some (x.sackFor r f i []) }) else x := by
  have hneg' : (w.ctx i).neg = some n := by rw [h.ctx]; exact hneg
  unfold State.rxReport
  rw [h.sender]
  dsimp only
  rw [h.payload]
  dsimp only
  rw [hwhole, List.isEmpty_nil, if_pos rfl, hneg']
  cases hinit : n.initiator
  · refine ⟨w.modCtx i (fun c => { c with neg := some { n with final := mapsReported (s.rxPayload r f i).2, tPrev := r.tsEnd } }), _,
      by rw [State.ctx_modCtx_self w _ hi], ⟨fun _ => rfl, fun h => absurd (hinit.symm.trans h) (by decide)⟩, frame_modCtx _ _ _, ?_⟩
    dsimp only
    rw [if_neg (ne_true_of_eq_false hinit)]
    rfl
  · have hput : ((w.modCtx i (fun c => { c with neg := some (n.takeOther (mapsReported (s.rxPayload r f i).2) r.tsEnd) })).ctx i).neg =
        some (n.takeOther (mapsReported (s.rxPayload r f i).2) r.tsEnd) := by rw [State.ctx_modCtx_self w _ hi]
    obtain ⟨hframe, n', hfinal, hother⟩ := State.negFinal_other (by simpa [State.modCtx] using hi) hput
    refine ⟨_, n', hfinal, ⟨fun h => absurd (hinit.symm.trans h) (by decide), fun _ => hother⟩, (frame_modCtx _ _ _).trans hframe, ?_⟩
    dsimp only
    rw [if_pos hinit]
    rfl

theorem exec_toneMapReport_eq (r : RxIn) (s : State) :
    exec (.toneMapReport r) s = .next ((s.rxTake r 4 (fun s f => s.rxReport r f)).settle s.irqLive) := rfl

/-- A report that arrives whole carries the negotiation on. -/
theorem exec_toneMapReport_whole {s : State} {r : RxIn} {f : Fc} {i : Nat} {n : Negotiation} (h : s.Hears r f i) (hs : s.Sizes)
    (htype : f.ftype = 4) (hneg : (s.ctx i).neg = some n) (hwhole : ∀ k, k < f.nseg → (s.rxPayload r f i).2.getD k none ≠ none) :
    ∃ t n', exec (.toneMapReport r) s = .next t ∧ (t.ctx i).neg = some n' ∧ n.Reported n' (mapsReported (s.rxPayload r f i).2) ∧
      (f.ackReq = true → ∃ d, t.plc.sackDue = some d ∧ d.fsn.toNat = f.fsn ∧ d.failed = []) ∧
      (s.reach (s.hfAt r.tsEnd)).Frame t [.powerline] rxRegs := by
  obtain ⟨u, v, w, hrx⟩ := h.received hs
  have hnone : (List.range f.nseg).filter (fun k => ((s.rxPayload r f i).2.getD k none).isNone) = [] := by
    refine List.filter_eq_nil_iff.mpr (fun k hk => ?_)
    rw [Option.isNone_iff_eq_none]
    exact hwhole k (List.mem_range.mp hk)
  obtain ⟨x, n', hneg', hreported, hx, hreport⟩ := State.rxReport_whole hrx (hrx.ctx_lt h hs) hneg hnone
  rw [exec_toneMapReport_eq, hrx.take htype, hreport]
  refine ⟨_, n', rfl, ?_, hreported, ?_, ?_⟩
  · rw [State.settle_ctx]
    split <;> exact hneg'
  · intro hack
    rw [if_pos hack, (State.settle_keeps _ _).2.2.2.1]
    exact ⟨_, rfl, Nat.mod_eq_of_lt h.fsn_lt, rfl⟩
  · have hreply := State.Frame.ite (c := f.ackReq = true) (fun _ => frame_modPlc x (fun p => { p with sackDue := some (x.sackFor r f i []) }))
      (fun _ => State.Frame.refl x _ _)
    exact (((hrx.frame.seq hx).seq hreply).settle _).mono (by simp) (by simp)

/-! Time distribution (R321) -/

theorem frame_rtcPend (s : State) : s.Frame s.rtcPend [] [RTC_STAT] :=
  (frame_setFlag s RTC_STAT_COMMITPEND _).trans (frame_setFlag _ RTC_STAT_STEPPEND _)

theorem frame_stepBy (s : State) (d : Int) : s.Frame (s.stepBy d) [.clock] [RTC_STAT] := by
  unfold State.stepBy
  exact State.Frame.ite (fun _ => State.Frame.refl _ _ _)
    (fun _ => ((frame_modRtc _ _).seq (frame_rtcPend _)).mono (by simp) (by simp))

theorem frame_slewTo (s : State) (rate : Int) (dur : Nat) : s.Frame (s.slewTo rate dur) [.clock] [RTC_SLEW] :=
  ((frame_putI s RTC_SLEW_RATE rate).seq (frame_modRtc _ _)).mono (by simp) (by decide)

/-- The clock follows a time that is d off, after run such in a row that were near enough for the lock. -/
def State.discipline (s : State) (d : Int) (run : Nat) : State :=
  let u := (s.modPlc (fun p => { p with lockRun := run })).setFlag NET_STAT_TDLOCK (decide (run = 8))
  if u.get NET_TDCFG_STEPTH * 2 ^ 24 ≤ d.natAbs * 1000 then u.stepBy d else u.slewTo (slewOver d) 0

theorem State.timeFrom_cases (s : State) (r : RxIn) (f : Fc) :
    s.timeFrom r f = s ∨ ∃ x d run, s.timeFrom r f = (s.putI NET_TDOFF_TDOFF x).discipline d run := by
  unfold State.timeFrom
  split
  · exact .inl rfl
  · exact .inr ⟨_, _, _, rfl⟩

/-- From s to t the clock may have been disciplined: of the network's status only the lock may differ. -/
def State.Disciplined (s t : State) : Prop :=
  (∃ k, t.plc = { s.plc with lockRun := k }) ∧ t.get NET_STAT_MISSED = s.get NET_STAT_MISSED ∧
    t.flag NET_STAT_ASSOC = s.flag NET_STAT_ASSOC ∧ t.station = s.station

theorem State.discipline_disciplined (s : State) (d : Int) (run : Nat) : s.Disciplined (s.discipline d run) := by
  have hset : ((s.modPlc (fun p => { p with lockRun := run })).setFlag NET_STAT_TDLOCK (decide (run = 8))).Frame (s.discipline d run)
      [.clock] [RTC_STAT, RTC_SLEW] :=
    State.Frame.ite (fun _ => (frame_stepBy _ _).mono (by simp) (by simp)) (fun _ => (frame_slewTo _ _ _).mono (by simp) (by simp))
  have hput := frame_setFlag (s.modPlc (fun p => { p with lockRun := run })) NET_STAT_TDLOCK (decide (run = 8))
  refine ⟨⟨run, hset.part (p := .powerline) (by decide)⟩, ?_, ?_, ?_⟩
  · rw [hset.get _ (by decide) (by decide), State.setFlag, State.get_put_other _ _ _ _ (by decide) (by decide), State.modPlc_get]
  · rw [hset.flag _ (by decide) (by decide), State.flag_setFlag_other _ _ _ _ (by decide) (by decide), State.modPlc_flag]
  · unfold State.station
    rw [hset.flag _ (by decide) (by decide), hput.flag _ (by decide) (by decide), State.modPlc_flag]

theorem State.timeFrom_disciplined (s : State) (r : RxIn) (f : Fc) : s.Disciplined (s.timeFrom r f) := by
  obtain heq | ⟨x, d, run, heq⟩ := s.timeFrom_cases r f
  · rw [heq]
    exact ⟨⟨s.plc.lockRun, rfl⟩, rfl, rfl, rfl⟩
  · have hoff := frame_putI s NET_TDOFF_TDOFF x
    obtain ⟨⟨k, hplc⟩, hmissed, hassoc, hstation⟩ := (s.putI NET_TDOFF_TDOFF x).discipline_disciplined d run
    rw [heq]
    refine ⟨⟨k, hplc⟩, hmissed.trans (hoff.get _ (by decide) (by decide)), hassoc.trans (hoff.flag _ (by decide) (by decide)),
      hstation.trans ?_⟩
    exact hoff.flag NET_CTL_ROLE (by decide) (by decide)

theorem State.timeFrom_off {s : State} (r : RxIn) (f : Fc) (h : s.flag NET_CTL_TDEN = false) : s.timeFrom r f = s :=
  if_pos (by simp [h])

/-! Beacons (R316 to R319) -/

theorem frame_associate (s : State) : s.Frame s.associate [.powerline] [] := by
  unfold State.associate
  exact State.Frame.ite (fun _ => (frame_enqueue _ _).trans (frame_modPlc _ _)) (fun _ => State.Frame.refl _ _ _)

/-- Asking for association leaves the beacon period. -/
theorem State.associate_period (s : State) :
    s.associate.plc.bStart = s.plc.bStart ∧ s.associate.plc.bpLen = s.plc.bpLen ∧ s.associate.plc.bSeq = s.plc.bSeq := by
  unfold State.associate
  split <;> exact ⟨rfl, rfl, rfl⟩

/-- A station that is not associated and has not asked asks. -/
theorem State.associate_asks {s : State} (hstation : s.station = true) (hassoc : s.flag NET_STAT_ASSOC = false)
    (hreq : s.plc.assocReq = none) :
    s.associate.plc.assocReq = some s.plc.macSeq ∧ ∃ m ∈ s.associate.plc.queue, m.mtype = 2 ∧ m.seq = s.plc.macSeq := by
  unfold State.associate
  rw [hstation, hassoc, hreq]
  exact ⟨rfl, _, List.mem_append_right _ List.mem_cons_self, rfl, rfl⟩

/-- A beacon gives a station its period. -/
def State.Period (s : State) (start : Nat) (f : Fc) : Prop :=
  s.plc.bStart = some start ∧ s.plc.bpLen = bitsAt f.tspec 61 22 ∧ s.plc.bSeq.toNat = bitsAt f.tspec 91 8

theorem State.rxBeacon_station {s u v w : State} {r : RxIn} {f : Fc} {i : Nat} (h : s.Received r f i u v w)
    (hstation : u.station = true) :
    ∃ x, u.rxBeacon r f = (x.timeFrom r f).associate ∧ x.Period (w.hfAt r.tsFirst) f ∧ x.get NET_STAT_MISSED = 0 ∧
      x.flag NET_STAT_ASSOC = w.flag NET_STAT_ASSOC ∧ x.plc.assocReq = w.plc.assocReq ∧ x.plc.macSeq = w.plc.macSeq ∧
      w.Frame x [.powerline] [NET_STAT] := by
  unfold State.rxBeacon
  rw [if_neg (by simp [hstation]), h.sender]
  dsimp only
  rw [Option.getD_some, h.payload]
  refine ⟨_, rfl, ⟨rfl, rfl, ?_⟩, ?_, ?_, rfl, rfl, ((frame_modPlc _ _).seq (frame_put _ _ _)).mono (by simp) (by decide)⟩
  · exact Nat.mod_eq_of_lt (Nat.mod_lt _ (by decide))
  · rw [State.get_put_self _ _ _ (by decide)]; rfl
  · unfold State.flag
    rw [State.get_put_other _ _ _ _ (by decide) (by decide)]
    rfl

theorem exec_beacon_eq (r : RxIn) (s : State) :
    exec (.beacon r) s = .next ((s.rxTake r 0 (fun s f => s.rxBeacon r f)).settle s.irqLive) := rfl

/-- A beacon gives a station its period; an unassociated one asks for association. -/
theorem exec_beacon_station {s : State} {r : RxIn} {f : Fc} {i : Nat} (h : s.Hears r f i) (hs : s.Sizes) (htype : f.ftype = 0)
    (hstation : s.station = true) :
    ∃ t, exec (.beacon r) s = .next t ∧ t.Period ((s.reach (s.hfAt r.tsEnd)).hfAt r.tsFirst) f ∧ t.get NET_STAT_MISSED = 0 ∧
      (s.flag NET_STAT_ASSOC = false → s.plc.assocReq = none → t.plc.assocReq = some s.plc.macSeq ∧
        ∃ m ∈ t.plc.queue, m.mtype = 2 ∧ m.seq = s.plc.macSeq) ∧
      (s.flag NET_CTL_TDEN = false → (s.reach (s.hfAt r.tsEnd)).Frame t [.powerline] (NET_STAT :: rxRegs)) := by
  obtain ⟨u, v, w, hrx⟩ := h.received hs
  obtain ⟨u', hhead, -, hu⟩ := h.head
  obtain rfl : u' = u := (Prod.mk.inj (hhead.symm.trans hrx.head)).1
  have hustation : u'.station = true := (hu.flag NET_CTL_ROLE (by decide) (by decide)).trans hstation
  have hwassoc : w.flag NET_STAT_ASSOC = s.flag NET_STAT_ASSOC := hrx.frame.flag _ (by decide) (by decide)
  have hwstation : w.station = true := (hrx.frame.flag NET_CTL_ROLE (by decide) (by decide)).trans hstation
  have hwreq := hrx.heard.keeps PlcState.assocReq (fun _ _ _ _ _ _ => rfl)
  have hwseq := hrx.heard.keeps PlcState.macSeq (fun _ _ _ _ _ _ => rfl)
  have hwfs := hrx.frame.hfAt r.tsFirst
  obtain ⟨x, hbeacon, ⟨hstart, hlen, hseq⟩, hmissed, hassoc, hreq, hmac, hx⟩ := State.rxBeacon_station hrx hustation
  obtain ⟨⟨k, hplc⟩, hmissed', hassoc', hstation'⟩ := x.timeFrom_disciplined r f
  have hxstation : x.station = true := (hx.flag NET_CTL_ROLE (by decide) (by decide)).trans hwstation
  have hask := (frame_associate (x.timeFrom r f)).settle s.irqLive
  obtain ⟨astart, alen, aseq⟩ := (x.timeFrom r f).associate_period
  rw [exec_beacon_eq, hrx.take htype, hbeacon]
  refine ⟨_, rfl, ?_, ?_, ?_, ?_⟩
  · unfold State.Period
    rw [(State.settle_keeps _ _).2.2.2.1, astart, alen, aseq, hplc, ← hwfs]
    exact ⟨hstart, hlen, hseq⟩
  · rw [hask.get _ (by decide) (by decide), hmissed', hmissed]
  · intro hnot hnone
    have hseq' : (x.timeFrom r f).plc.macSeq = s.plc.macSeq := by rw [hplc]; exact hmac.trans hwseq
    have hreq' : (x.timeFrom r f).plc.assocReq = none := by rw [hplc]; exact (hreq.trans hwreq).trans hnone
    rw [(State.settle_keeps _ _).2.2.2.1, ← hseq']
    exact State.associate_asks (hstation'.trans hxstation) (by rw [hassoc', hassoc, hwassoc, hnot]) hreq'
  · intro hoff
    have htden : x.flag NET_CTL_TDEN = false := by
      rw [hx.flag _ (by decide) (by decide), hrx.frame.flag _ (by decide) (by decide)]; exact hoff
    rw [State.timeFrom_off r f htden] at hask ⊢
    exact ((hrx.frame.seq hx).seq hask).mono (by simp) (by decide)

end Sys2Proof.Machine
end

section
/-!
SUPPORT. A SACK and the MAC frames whose segments it names (R309, R320, R334).
-/

namespace Sys2Proof.Machine

/-! The queue of MAC frames -/

/-- Registers that the end of a MAC frame may change. -/
def sackRegs : List Nat := NET_ACKTO :: descRegs

/-- From s to t MAC frames may have ended: the queue and the directory may differ. -/
def State.QueueStep (s t : State) : Prop :=
  s.Frame t [.powerline, .host] sackRegs ∧ ∃ q d n c, t.plc = { s.plc with queue := q, dir := d, newDir := n, cache := c }

theorem State.QueueStep.refl (s : State) : s.QueueStep s :=
  ⟨State.Frame.refl _ _ _, s.plc.queue, s.plc.dir, s.plc.newDir, s.plc.cache, rfl⟩

theorem State.QueueStep.trans {s t u : State} (h : s.QueueStep t) (k : t.QueueStep u) : s.QueueStep u := by
  obtain ⟨hframe, q, d, n, c, hplc⟩ := h
  obtain ⟨kframe, q', d', n', c', kplc⟩ := k
  exact ⟨hframe.trans kframe, q', d', n', c', by rw [kplc, hplc]⟩

/-- What depends neither on the queue nor on the directory stays. -/
theorem State.QueueStep.keeps {s t : State} (h : s.QueueStep t) {α : Type} (g : PlcState → α)
    (hg : ∀ p q d n c, g { p with queue := q, dir := d, newDir := n, cache := c } = g p) : g t.plc = g s.plc := by
  obtain ⟨-, q, d, n, c, hplc⟩ := h
  rw [hplc]
  exact hg _ _ _ _ _

theorem queueStep_foldl {β : Type} (g : State → β → State) (hg : ∀ (s : State) (x : β), s.QueueStep (g s x)) :
    (l : List β) → (s : State) → s.QueueStep (l.foldl g s)
  | [], s => State.QueueStep.refl s
  | x :: l, s => (hg s x).trans (queueStep_foldl g hg l (g s x))

theorem queueStep_modFrame (s : State) (id : Nat) (f : MacTx → MacTx) : s.QueueStep (s.modFrame id f) :=
  ⟨(frame_modFrame _ _ _).mono (by simp) (by simp), _, s.plc.dir, s.plc.newDir, s.plc.cache, rfl⟩

theorem queueStep_frameEnd (s : State) (m : MacTx) (status : Nat) : s.QueueStep (s.frameEnd m status) :=
  ⟨(frame_frameEnd _ _ _).mono (by simp) (by decide), _, s.plc.dir, s.plc.newDir, s.plc.cache, State.frameEnd_plc _ _ _⟩

theorem queueStep_frameSent (s : State) (m : MacTx) : s.QueueStep (s.frameSent m) := by
  unfold State.frameSent
  split
  · exact queueStep_modFrame _ _ _
  · exact queueStep_frameEnd _ _ _

theorem State.DirStep.queueStep {s t : State} (h : s.DirStep t) : s.QueueStep t := by
  obtain ⟨hframe, d, n, c, hplc⟩ := h
  exact ⟨hframe.mono (by simp) (by simp), s.plc.queue, d, n, c, hplc⟩

theorem queueStep_frameFail (s : State) (m : MacTx) : s.QueueStep (s.frameFail m) := by
  unfold State.frameFail
  exact (dirStep_dirTouch _ _ _).queueStep.trans (queueStep_frameEnd _ _ _)

theorem queueStep_bump (s : State) : s.QueueStep (s.bump NET_ACKTO_COUNT 1) :=
  ⟨(frame_bump s NET_ACKTO_COUNT 1).mono (by simp) (by decide), s.plc.queue, s.plc.dir, s.plc.newDir, s.plc.cache, rfl⟩

theorem queueStep_segsDone (s : State) (l : List (Nat × Nat)) : s.QueueStep (s.segsDone l) :=
  (queueStep_foldl _ (fun s id => queueStep_modFrame s id _) _ _).trans (queueStep_foldl _ queueStep_frameSent _ _)

theorem queueStep_segsFailed (s : State) (l : List (Nat × Nat)) : s.QueueStep (s.segsFailed l) :=
  queueStep_foldl _ (fun s m => (queueStep_bump s).trans (queueStep_frameFail _ m)) _ _

/-! One MAC frame delivered whole -/

/-- A MAC frame without its segments in l. -/
def MacTx.delivered (m : MacTx) (l : List (Nat × Nat)) : MacTx := { m with todo := m.todo.filter (fun t => !l.contains (m.id, t.1)) }

theorem MacTx.delivered_delivered (m : MacTx) (l : List (Nat × Nat)) : (m.delivered l).delivered l = m.delivered l := by
  simp [MacTx.delivered]

/-- Segments of the only queued frame are taken from it. -/
theorem foldl_modFrame_queue (l : List (Nat × Nat)) : (ids : List Nat) → (s : State) → (m : MacTx) → s.plc.queue = [m] →
    (ids.foldl (fun s id => s.modFrame id (fun m => { m with todo := m.todo.filter (fun t => !(l.contains (id, t.1))) })) s).plc.queue =
      [if m.id ∈ ids then m.delivered l else m]
  | [], _, _, h => by simpa using h
  | id :: ids, s, m, h => by
    rw [List.foldl_cons]
    by_cases hid : m.id = id
    · subst hid
      have hstep : (s.modFrame m.id (fun x => { x with todo := x.todo.filter (fun t => !(l.contains (m.id, t.1))) })).plc.queue =
          [m.delivered l] := by simp [State.modFrame, h, MacTx.delivered]
      rw [foldl_modFrame_queue l ids _ _ hstep, MacTx.delivered_delivered]
      simp
    · have hstep : (s.modFrame id (fun x => { x with todo := x.todo.filter (fun t => !(l.contains (id, t.1))) })).plc.queue = [m] := by
        simp [State.modFrame, h, hid]
      rw [foldl_modFrame_queue l ids _ _ hstep]
      simp [hid]

/-- A frame that is alone and awaits no response is done once its last segment is delivered. -/
theorem State.segsDone_only {s : State} {m : MacTx} (hqueue : s.plc.queue = [m]) (hwait : m.waitResp = false) (hresp : m.respReq = false) :
    (s.segsDone (m.todo.map (fun x => (m.id, x.1)))).plc.queue = [] := by
  have hempty : ∀ m', m' = (if m.id ∈ ((m.todo.map (fun x => (m.id, x.1))).map (·.1)).eraseDups then
      m.delivered (m.todo.map (fun x => (m.id, x.1))) else m) → m'.todo = [] ∧ m'.id = m.id ∧ m'.waitResp = false ∧ m'.respReq = false := by
    rintro m' rfl
    split
    · refine ⟨?_, rfl, hwait, hresp⟩
      refine List.filter_eq_nil_iff.mpr (fun t ht => ?_)
      have hmem : (m.id, t.1) ∈ m.todo.map (fun x => (m.id, x.1)) := List.mem_map_of_mem ht
      simpa using hmem
    · next hnot =>
      refine ⟨List.eq_nil_iff_forall_not_mem.mpr (fun t ht => hnot ?_), rfl, hwait, hresp⟩
      simp only [List.mem_eraseDups, List.map_map, List.mem_map]
      exact ⟨t, ht, rfl⟩
  unfold State.segsDone
  dsimp only
  have hleft := foldl_modFrame_queue (m.todo.map (fun x => (m.id, x.1))) ((m.todo.map (fun x => (m.id, x.1))).map (·.1)).eraseDups s m hqueue
  generalize List.foldl _ s _ = t at hleft ⊢
  generalize (if m.id ∈ ((m.todo.map (fun x => (m.id, x.1))).map (·.1)).eraseDups then
      m.delivered (m.todo.map (fun x => (m.id, x.1))) else m) = m' at hleft hempty
  obtain ⟨htodo, hid, hwait', hresp'⟩ := hempty m' rfl
  rw [hleft]
  simp [htodo, hwait', State.frameSent, hresp', State.frameEnd_plc, hleft]

/-! A SACK (R309, R320) -/

/-- The transmission t0, ended, is answered by a SACK of neighbour i that ends at ts. -/
def TxNow.Answered (t0 : TxNow) (f : Fc) (i : Nat) (ts : BitVec 64) : Prop :=
  t0.ended = true ∧ t0.nb = some i ∧ t0.fsn.toNat = f.fsn ∧ tsKey ts ≤ tsKey t0.deadline

/-- The transmission is over, its contention window back at its least, the neighbour's waits as before any expired. -/
def State.TxOver (s : State) (i : Nat) : Prop := s.plc.tx = none ∧ s.plc.cw = 16 ∧ (s.ctx i).expired = 0

/-- A context shows what an edit makes it show, also where there is no such context. -/
theorem State.ctx_expired_cleared (s : State) (i : Nat) : ((s.modCtx i (fun c => { c with expired := 0 })).ctx i).expired = 0 := by
  by_cases hi : i < s.plc.ctxs.length
  · rw [State.ctx_modCtx_self s _ hi]
  · simp [State.ctx, State.modCtx, List.getD_eq_getElem?_getD, hi, NeighCtx.reset]

theorem State.rxSack_answers {s u v w : State} {r : RxIn} {f : Fc} {i : Nat} {t0 : TxNow} (h : s.Received r f i u v w)
    (htx : s.plc.tx = some t0) (hanswered : t0.Answered f i r.tsEnd) (htype : t0.ftype = 1) :
    ∃ x, x.TxOver i ∧ x.plc.queue = s.plc.queue ∧ w.Frame x [.powerline] [] ∧
      u.rxSack r f =
        (x.segsDone (((List.range t0.nseg).filter (fun k => !(sackFailed f (s.rxPayload r f i).2 t0.nseg).contains k)).map
          (fun k => t0.segs.getD k (0, 0)))).segsFailed
          ((sackFailed f (s.rxPayload r f i).2 t0.nseg).map (fun k => t0.segs.getD k (0, 0))) := by
  obtain ⟨hended, hnb, hfsn, hintime⟩ := hanswered
  have hwtx : w.plc.tx = some t0 := (h.heard.keeps PlcState.tx (fun _ _ _ _ _ _ => rfl)).trans htx
  have hwqueue := h.heard.keeps PlcState.queue (fun _ _ _ _ _ _ => rfl)
  unfold State.rxSack
  rw [h.sender]
  dsimp only
  rw [h.payload]
  dsimp only
  rw [hwtx]
  dsimp only
  rw [if_pos (by simp [hended, hnb, hfsn, hintime]), if_neg (by simp [htype])]
  have hcleared := (w.modPlc (fun p => { p with tx := none, cw := 16 })).ctx_expired_cleared i
  have hbegun : w.Frame ((w.modPlc (fun p => { p with tx := none, cw := 16 })).modCtx i (fun c => { c with expired := 0 })) [.powerline] [] :=
    (frame_modPlc _ _).trans (frame_modCtx _ _ _)
  have hshown : ((w.modPlc (fun p => { p with tx := none, cw := 16 })).modCtx i (fun c => { c with expired := 0 })).plc =
      { w.plc with tx := none, cw := 16, ctxs := w.plc.ctxs.modify i (fun c => { c with expired := 0 }) } := rfl
  generalize (w.modPlc (fun p => { p with tx := none, cw := 16 })).modCtx i (fun c => { c with expired := 0 }) = y at hcleared hbegun hshown ⊢
  have hmaps : y.CtxEdit (if bitAt f.tspec 0 then (y.invalidateMaps i 0 f.fsn).negStart i else y) i NeighCtx.expired :=
    .ite (fun _ => (ctxEdit_invalidateMaps _ _ _ _ (fun _ _ => rfl)).trans (ctxEdit_negStart _ _ (fun _ _ => rfl)))
      (fun _ => State.CtxEdit.refl _ _ _)
  have hedit := hmaps.trans (ctxEdit_sentSegs _ i ((List.range t0.nseg).map
    (fun k => (sackFailed f (s.rxPayload r f i).2 t0.nseg).contains k)) (fun _ _ _ _ => rfl))
  obtain ⟨hframe, -, hexpired⟩ := id hedit
  refine ⟨_, ⟨?_, ?_, hexpired.trans hcleared⟩, ?_, hbegun.trans hframe, rfl⟩
  · rw [hedit.keeps PlcState.tx (fun _ _ => rfl), hshown]
  · rw [hedit.keeps PlcState.cw (fun _ _ => rfl), hshown]
  · rw [hedit.keeps PlcState.queue (fun _ _ => rfl), hshown, hwqueue]

theorem State.ctx_of_queueStep {s t : State} (h : s.QueueStep t) (i : Nat) : t.ctx i = s.ctx i := by
  unfold State.ctx
  rw [h.keeps PlcState.ctxs (fun _ _ _ _ _ => rfl)]

/-- When no segment failed, those that were delivered are all. -/
theorem delivered_of_none_failed {α : Type} (l : List α) (d : α) :
    ((List.range l.length).filter (fun k => !([] : List Nat).contains k)).map (fun k => l.getD k d) = l := by
  have hall : (List.range l.length).filter (fun k => !([] : List Nat).contains k) = List.range l.length :=
    List.filter_eq_self.mpr (fun _ _ => by simp)
  rw [hall]
  exact List.ext_getElem (by simp) (fun k hk hk' => by simp [hk'])

theorem State.segsFailed_empty {s : State} (l : List (Nat × Nat)) (h : s.plc.queue = []) : (s.segsFailed l).plc.queue = [] := by
  unfold State.segsFailed
  simp [h]

theorem exec_sack_eq (r : RxIn) (s : State) :
    exec (.sack r) s = .next ((s.rxTake r 2 (fun s f => s.rxSack r f)).settle s.irqLive) := rfl

/-- A SACK ends its transmission; the only frame, when all its segments were sent and none failed, is done. -/
theorem exec_sack_answers {s : State} {r : RxIn} {f : Fc} {i : Nat} {t0 : TxNow} (h : s.Hears r f i) (hs : s.Sizes) (htype : f.ftype = 2)
    (htx : s.plc.tx = some t0) (hanswered : t0.Answered f i r.tsEnd) (hdata : t0.ftype = 1) :
    ∃ t, exec (.sack r) s = .next t ∧ t.TxOver i ∧
      (∀ m, s.plc.queue = [m] → m.waitResp = false → m.respReq = false → t0.segs = m.todo.map (fun x => (m.id, x.1)) →
        t0.nseg = t0.segs.length → sackFailed f (s.rxPayload r f i).2 t0.nseg = [] → t.plc.queue = []) ∧
      (s.reach (s.hfAt r.tsEnd)).Frame t [.powerline, .host] (NET_ACKTO :: rxRegs ++ descRegs) := by
  obtain ⟨u, v, w, hrx⟩ := h.received hs
  obtain ⟨x, ⟨hxtx, hxcw, hxexpired⟩, hxqueue, hx, hsack⟩ := State.rxSack_answers hrx htx hanswered hdata
  rw [exec_sack_eq, hrx.take htype, hsack]
  have hstep (ok bad : List (Nat × Nat)) : x.QueueStep ((x.segsDone ok).segsFailed bad) :=
    (queueStep_segsDone x ok).trans (queueStep_segsFailed _ bad)
  refine ⟨_, rfl, ⟨?_, ?_, ?_⟩, ?_, ((hrx.frame.seq hx).seq ((hstep _ _).1.settle _)).mono (by simp) (by decide)⟩
  · rw [(State.settle_keeps _ _).2.2.2.1, (hstep _ _).keeps PlcState.tx (fun _ _ _ _ _ => rfl), hxtx]
  · rw [(State.settle_keeps _ _).2.2.2.1, (hstep _ _).keeps PlcState.cw (fun _ _ _ _ _ => rfl), hxcw]
  · rw [State.settle_ctx, State.ctx_of_queueStep (hstep _ _), hxexpired]
  · intro m hqueue hwait hresp hsegs hnseg hnone
    rw [(State.settle_keeps _ _).2.2.2.1, hnone, hnseg, delivered_of_none_failed, hsegs]
    exact State.segsFailed_empty _ (State.segsDone_only (hxqueue.trans hqueue) hwait hresp)

end Sys2Proof.Machine
end

section
/-!
Settles O50 (R44, R291, R293, R301, R305, R308, R309, R319, R322).  A request for reception takes the converter or is counted as missed; a
transmission that is heard passes head, sender and payload, and then its type decides.
-/

namespace Sys2Proof.Machine

/-! The converter (R44, R308) -/

theorem exec_carrierDetection_eq (s : State) (energy noise : Nat) : exec (.carrierDetection energy noise) s =
    .next ((if exceedsBy energy noise (5 * s.get PLC_RXCFG_CDTH) then s.rxRequest true else s).settle s.irqLive) := rfl

theorem exec_scheduledReceive_eq (s : State) : exec .scheduledReceive s = .next ((s.rxRequest false).settle s.irqLive) := rfl

theorem exec_receptionRelease_eq (s : State) : exec .receptionRelease s = .next (s.rxRelease.settle s.irqLive) := rfl

/-- A carrier strong enough is a request for reception. -/
theorem exec_carrierDetection_strong {s : State} {energy noise : Nat} (h : exceedsBy energy noise (5 * s.get PLC_RXCFG_CDTH) = true) :
    exec (.carrierDetection energy noise) s = .next ((s.rxRequest true).settle s.irqLive) := by
  rw [exec_carrierDetection_eq, if_pos h]

/-- A weaker carrier does nothing. -/
theorem exec_carrierDetection_weak {s : State} {energy noise : Nat} (h : exceedsBy energy noise (5 * s.get PLC_RXCFG_CDTH) = false) :
    ∃ t, exec (.carrierDetection energy noise) s = .next t ∧ s.Frame t [] [] := by
  rw [exec_carrierDetection_eq, if_neg (ne_true_of_eq_false h)]
  exact ⟨_, rfl, (State.Frame.refl _ _ _).settle _⟩

/-- A request takes the converter, for a carrier shown as detected. -/
theorem State.MayReceive.taken_settled {s : State} (h : s.MayReceive) (hcal : s.fcv.cal = none) (detected : Bool) (b : Nat) :
    ((s.rxRequest detected).settle b).fcv.reception = true ∧ ((s.rxRequest detected).settle b).flag PLC_STAT_RXBUSY = true ∧
      ((s.rxRequest detected).settle b).flag PLC_STAT_CD = (detected || s.flag PLC_STAT_CD) ∧
      s.Frame ((s.rxRequest detected).settle b) [.converter] [PLC_STAT, FCV_STAT, FCV_URG, FCV_URGRES] := by
  obtain ⟨hreception, hbusy, hcd, hframe⟩ := h.taken hcal detected
  have hsettle := (State.Frame.refl (s.rxRequest detected) [] []).settle b
  exact ⟨(State.settle_reception _ _).trans hreception, (hsettle.flag _ (by decide) (by decide)).trans hbusy,
    (hsettle.flag _ (by decide) (by decide)).trans hcd, hframe.settle b⟩

/-- A request while the converter calibrates itself is counted. -/
theorem State.MayReceive.missed_settled {s : State} (h : s.MayReceive) (hcal : s.fcv.cal ≠ none) (detected : Bool) (b : Nat) :
    ((s.rxRequest detected).settle b).get PLC_RXMISS_RXMISS = min (s.get PLC_RXMISS_RXMISS + 1) (2 ^ PLC_RXMISS_RXMISS.width - 1) ∧
      s.Frame ((s.rxRequest detected).settle b) [] [PLC_STAT, PLC_RXMISS] := by
  obtain ⟨hcount, hframe⟩ := h.missed hcal detected
  have hsettle := (State.Frame.refl (s.rxRequest detected) [] []).settle b
  exact ⟨(hsettle.get _ (by decide) (by decide)).trans hcount, hframe.settle b⟩

/-- At the end of reception the converter is released. -/
theorem exec_receptionRelease_held {s : State} (h : s.fcv.reception = true) :
    ∃ t, exec .receptionRelease s = .next t ∧ t.fcv.reception = false ∧ t.flag PLC_STAT_RXBUSY = false ∧ t.flag PLC_STAT_CD = false ∧
      s.Frame t [.converter] [PLC_STAT, FCV_STAT] := by
  obtain ⟨hreception, hbusy, hcd, hframe⟩ := State.rxRelease_held h
  have hsettle := (State.Frame.refl s.rxRelease [] []).settle s.irqLive
  rw [exec_receptionRelease_eq]
  exact ⟨_, rfl, (State.settle_reception _ _).trans hreception, (hsettle.flag _ (by decide) (by decide)).trans hbusy,
    (hsettle.flag _ (by decide) (by decide)).trans hcd, hframe.settle _⟩

end Sys2Proof.Machine

open Sys2Proof.Machine in
/-- Settles O50: the converter's owner decides over a request; a transmission that is heard is accepted, and its type decides what
follows. -/
theorem reception : Obligations.Reception := by
  unfold Obligations.Reception
  refine ⟨fun s => ⟨?_, fun energy noise hweak => exec_carrierDetection_weak hweak, fun hheld => exec_receptionRelease_held hheld⟩, ?_⟩
  · intro h6 h7 hen hmask htx
    have hmay : s.MayReceive := ⟨h6, h7, hen, hmask, htx⟩
    refine ⟨fun hcal => ⟨fun energy noise hstrong => ?_, ?_⟩, fun hcal energy noise hstrong c hc => ?_⟩
    · exact ⟨_, exec_carrierDetection_strong hstrong, hmay.taken_settled hcal true _⟩
    · exact ⟨_, exec_scheduledReceive_eq s, hmay.taken_settled hcal false _⟩
    · simp only [List.mem_cons, List.not_mem_nil, or_false] at hc
      obtain rfl | rfl := hc
      · exact ⟨_, exec_scheduledReceive_eq s, hmay.missed_settled hcal false _⟩
      · exact ⟨_, exec_carrierDetection_strong hstrong, hmay.missed_settled hcal true _⟩
  · rintro s s' r f i segs h hs rfl rfl
    refine ⟨fun himp hsnr => State.rxPayload_segs_sound f i himp hsnr, ?_, ?_, ?_, ?_, ?_⟩
    · intro failed htype hmode hfailed
      exact exec_transmissionReceived_safelight h hs htype hmode hfailed
    · intro t0 htype htx hended hnb hfsn hdata hintime
      obtain ⟨t, hexec, ⟨hnone, hcw, hexpired⟩, hqueue, hframe⟩ := exec_sack_answers h hs htype htx ⟨hended, hnb, hfsn, hintime⟩ hdata
      exact ⟨t, hexec, hnone, hcw, hexpired, hqueue, hframe⟩
    · intro m htype hneg hback
      obtain ⟨t, n, hexec, hn, ⟨hinit, hheard, hsnr, ht0⟩, hframe⟩ := exec_sounding_first m h hs htype hneg hback
      exact ⟨t, n, hexec, hn, hinit, hheard, hsnr, ht0, hframe⟩
    · rintro n b htype hneg hwhole rfl
      obtain ⟨t, n', hexec, hn', ⟨hfinal, hother⟩, hsack, hframe⟩ := exec_toneMapReport_whole h hs htype hneg hwhole
      exact ⟨t, n', hexec, hn', hfinal, hother, hsack, hframe⟩
    · intro htype hstation
      obtain ⟨t, hexec, ⟨hstart, hlen, hseq⟩, hmissed, hask, hframe⟩ := exec_beacon_station h hs htype hstation
      exact ⟨t, hexec, hstart, hlen, hseq, hmissed, hask, hframe⟩

end

section
/-!
SUPPORT. Power domains switched on, the outputs a release or the safe state lets go, and the rows that share start-up's shape (R70, R82,
R423, R444).
-/

namespace Sys2Proof.Machine

/-! PWR_STAT.PDON (R70) -/

/-- A number with bit d cleared and added again is the number with bit d set. -/
theorem testBit_setBit (p d e : Nat) : (p - p / 2 ^ d % 2 * 2 ^ d + 2 ^ d).testBit e = (decide (e = d) || p.testBit e) := by
  have hsplit : p - p / 2 ^ d % 2 * 2 ^ d + 2 ^ d = 2 ^ d * (2 * (p / 2 ^ d / 2) + 1) + p % 2 ^ d := by
    have hdiv := Nat.div_add_mod p (2 ^ d)
    have hhalf := Nat.div_add_mod (p / 2 ^ d) 2
    have hle : p / 2 ^ d % 2 * 2 ^ d ≤ p := (Nat.mul_le_mul_right _ (Nat.mod_le _ _)).trans (Nat.div_mul_le_self _ _)
    zify [hle] at *
    linear_combination (-1 : Int) * hdiv - (2 : Int) ^ d * hhalf
  rw [hsplit, Nat.testBit_two_pow_mul_add _ (Nat.mod_lt _ (Nat.two_pow_pos d))]
  split
  · next hlow => simp [Nat.testBit_mod_two_pow, hlow, hlow.ne]
  · next hhigh =>
    obtain ⟨k, rfl⟩ := Nat.exists_eq_add_of_le (Nat.not_lt.mp hhigh)
    rw [Nat.add_sub_cancel_left, Nat.add_comm d k, ← Nat.testBit_div_two_pow]
    cases k with
    | zero => simp
    | succ k => simp [Nat.testBit_succ, Nat.mul_add_div]

theorem State.pdOn_iff (s : State) (d : Nat) : s.pdOn d = (d == 0 || (s.get PWR_STAT_PDON).testBit d) := by
  rw [State.pdOn, Nat.testBit_eq_decide_div_mod_eq]; rfl

/-- A domain is on when it is switched on, or was on before. -/
theorem State.pdOn_setPd (s : State) {d e : Nat} (he : e < 10) : (s.setPd d true).pdOn e = (decide (e = d) || s.pdOn e) := by
  rw [State.pdOn_iff, State.pdOn_iff, State.setPd, if_pos rfl, State.get_put_self _ PWR_STAT_PDON _ (by decide),
    Nat.testBit_mod_two_pow, testBit_setBit]
  simp only [PWR_STAT_PDON, he, decide_true, Bool.true_and]
  exact Bool.or_left_comm _ _ _

theorem frame_setPd (s : State) (d : Nat) (on : Bool) : s.Frame (s.setPd d on) [] [PWR_STAT] := frame_put _ PWR_STAT_PDON _

theorem State.Frame.pdOn {s t : State} {ps : List Part} {os : List Nat} (h : s.Frame t ps os) (ho : PWR_STAT ∉ os) (d : Nat) :
    t.pdOn d = s.pdOn d := by
  rw [State.pdOn_iff, State.pdOn_iff, h.get PWR_STAT_PDON ho (by decide)]

theorem State.get_setPd_other (s : State) (d : Nat) (on : Bool) (g : Fld) (h : g.lsb + g.width ≤ 18) :
    (s.setPd d on).get g = s.get g :=
  State.get_put_other s PWR_STAT_PDON g _ (by decide) (.inr (.inl h))

/-! Parts that one operation changes -/

theorem frame_modPwr (s : State) (f : PwrState → PwrState) : s.Frame (s.modPwr f) [.power] [] :=
  ⟨fun p hp => by cases p <;> simp [Part.Same, State.framByte] at *, fun _ _ _ => rfl, rfl⟩

theorem frame_modTzl (s : State) (f : TzlState → TzlState) : s.Frame (s.modTzl f) [.link] [] :=
  ⟨fun p hp => by cases p <;> simp [Part.Same, State.framByte] at *, fun _ _ _ => rfl, rfl⟩

theorem frame_phaseNext (s : State) (p : Phase) : s.Frame (s.phaseNext p) [.power] [] := frame_modPwr _ _

theorem State.phaseNext_cause (s : State) (p : Phase) : (s.phaseNext p).pwr.cause = s.pwr.cause := rfl

/-! Outputs let go (R423, R444) -/

/-- The pulse outputs' status registers. -/
def cfStatRegs : List Nat := (List.range 16).map (fun n => PIO_CFSTAT n)

theorem frame_mirRelease (s : State) : s.Frame s.mirRelease [.pulses] cfStatRegs := by
  have hpulses : s.Frame (State.each 16 (fun n s => s.cfRelease n) s) [.pulses] cfStatRegs :=
    frame_each _ _ _ (fun n hn u => (frame_cfRelease u n).mono (List.Subset.refl _) (by simpa [cfStatRegs] using ⟨n, hn, rfl⟩))
  exact hpulses.trans (frame_each _ _ _ (fun n hn u =>
    ((frame_tripBall u hn false).trans (frame_modTrip _ _ _)).mono (by simp) (by simp)))

/-- What the safe state shows (R423). -/
def State.safeShown (s : State) (d : Nat) : State :=
  ((s.setFlag SAF_STAT_SAFE true).put SAF_STAT_CAUSE d).put SAF_SSEXP_SSEXP 0

/-- After the safe state is shown its entry lets the outputs go, and changes SAF_STAT no more. -/
theorem State.enterSafe_of_enabled {s : State} (d : Nat) (hsafe : s.inSafe = false) (hen : s.flag SAF_CTL_EN = true) :
    (s.safeShown d).Frame (s.enterSafe d) [.safety, .pulses] cfStatRegs := by
  have henter : s.enterSafe d = (((s.safeShown d).mirRelease).event 0x0602 d .start 0 0 0).faultUpdate := by
    unfold State.enterSafe; rw [if_neg (by simp [hsafe, hen])]; rfl
  rw [henter]
  exact (((frame_mirRelease _).seq (frame_event _ _ _ _ _ _ _)).seq (frame_faultUpdate _)).mono (by simp) (by simp)

theorem State.enterSafe_of_not {s : State} (d : Nat) (h : s.inSafe = true ∨ s.flag SAF_CTL_EN = false) : s.enterSafe d = s := by
  unfold State.enterSafe; rw [if_pos (by simpa using h)]

/-- With the monitor enabled the safe state is entered, if it is not in force already. -/
theorem State.enterSafe_inSafe {s : State} (d : Nat) (hen : s.flag SAF_CTL_EN = true) : (s.enterSafe d).inSafe = true := by
  by_cases hsafe : s.inSafe = true
  · rw [State.enterSafe_of_not d (.inl hsafe)]; exact hsafe
  · rw [State.inSafe, (State.enterSafe_of_enabled d (eq_false_of_ne_true hsafe) hen).flag SAF_STAT_SAFE (by decide) (by decide),
      State.safeShown, State.flag, State.get_put_other _ _ _ _ (by decide) (by decide),
      State.get_put_other _ _ _ _ (by decide) (by decide)]
    exact State.flag_setFlag_self s SAF_STAT_SAFE true (by decide) (by decide)

/-- The safe state leaves the start-up failure as shown. -/
theorem State.enterSafe_startfail (s : State) (d : Nat) : (s.enterSafe d).flag SAF_STAT_STARTFAIL = s.flag SAF_STAT_STARTFAIL := by
  by_cases h : s.inSafe = true ∨ s.flag SAF_CTL_EN = false
  · rw [State.enterSafe_of_not d h]
  · obtain ⟨hsafe, hen⟩ := not_or.mp h
    have henter := State.enterSafe_of_enabled d (eq_false_of_ne_true hsafe) (eq_true_of_ne_false hen)
    rw [henter.flag SAF_STAT_STARTFAIL (by decide) (by decide)]
    simp only [State.safeShown, State.flag, State.setFlag]
    rw [State.get_put_other _ _ _ _ (by decide) (by decide), State.get_put_other _ _ _ _ (by decide) (by decide),
      State.get_put_other _ _ _ _ (by decide) (by decide)]

theorem frame_monUpdate (s : State) : s.Frame s.monUpdate [.safety] [SAF_STAT] :=
  ((frame_setFlag s SAF_STAT_RUN _).seq (frame_faultUpdate _)).mono (by simp) (by decide)

/-- The monitor's RUN shares no bit with the other flags. -/
theorem State.monUpdate_flag (s : State) (g : Fld) (h : SAF_STAT_RUN.lsb + SAF_STAT_RUN.width ≤ g.lsb) :
    s.monUpdate.flag g = s.flag g :=
  State.flag_setFlag_other s SAF_STAT_RUN g _ (by decide) (.inr (.inr h))

/-! The rows of start-up (R73 to R75, R82) -/

/-- A row takes effect in its phase while no power-fail sequence runs. -/
theorem State.startRow_taken {s : State} {l : List Phase} (f : State → State) (hphase : s.pwr.phase ∈ l)
    (hrunning : s.pwr.pfRunning = false) : s.startRow l f = f s := by
  unfold State.startRow; rw [if_pos (by simp [hphase, hrunning])]

theorem State.settle_pwr (s : State) (b : Nat) : (s.settle b).pwr = s.pwr := State.settle_same s b .power

theorem State.settle_phaseNext (s : State) (p : Phase) (b : Nat) : ((s.phaseNext p).settle b).pwr.phase = p := by
  rw [State.settle_pwr]; rfl

/-- A row that shows one flag of PWR_STAT and enters the next phase. -/
theorem State.row_shown (s : State) {f : Fld} (on : Bool) (p : Phase) (b : Nat) (hoff : f.off = PWR_STAT)
    (hbits : f.lsb + f.width ≤ 32) (hwidth : 0 < f.width) :
    (((s.setFlag f on).phaseNext p).settle b).pwr.phase = p ∧ (((s.setFlag f on).phaseNext p).settle b).flag f = on ∧
      s.Frame (((s.setFlag f on).phaseNext p).settle b) [.power] [PWR_STAT] := by
  have hframe := (frame_phaseNext (s.setFlag f on) p).settle b
  refine ⟨State.settle_phaseNext _ _ _, ?_, ?_⟩
  · rw [hframe.flag f (by simp) (by rw [hoff]; decide)]
    exact State.flag_setFlag_self s f on hbits hwidth
  · exact ((frame_setFlag s f on).seq hframe).mono (by simp) (by simp [hoff])

end Sys2Proof.Machine
end

section
/-!
SUPPORT. The release of a reset (R64, R82, R90), stage by stage: causes, supply, straps, clocks, domains.
-/

namespace Sys2Proof.Machine

/-- PWR_RSTCAUSE shows the causes of the reset that is released (R90). -/
def State.causeShown (s : State) : State := s.wr PWR_RSTCAUSE (s.rd PWR_RSTCAUSE ||| s.pwr.cause.zeroExtend 32)

/-- VDDIO supplies PD0 again; a power cycle whose supply fell is over (R357). -/
def State.supplyBack (s : State) : State :=
  let s := (s.modRtc (fun r => { r with onBattery := false })).chargerState
  if s.flag RTC_PWRCTL_CYC ∧ s.rtc.supplyFell then
    ((s.setFlag RTC_PWRCTL_CYC false).modRtc (fun r => { r with supplyFell := false, lowAt := none })).showPwr s.offend
  else s

/-- The straps as sampled (R64). -/
def State.strapsSampled (s : State) (mstr autostart : Bool) : State :=
  (s.setFlag GLB_STRAP_MSTR mstr).setFlag GLB_STRAP_AUTOSTART autostart

/-- No clock is proved: HFREF, the PLL and LFCLK are to be checked anew (R82). -/
def State.clocksUnproved (s : State) : State :=
  ((s.setFlag PWR_STAT_HFOK false).setFlag PWR_STAT_PLLLOCK false).setFlag PWR_STAT_LFOK false

/-- PD2 to PD5 and PD9 on (R70). -/
def State.coreOn (s : State) : State := ((((s.setPd 2 true).setPd 3 true).setPd 4 true).setPd 5 true).setPd 9 true

/-- What ends with the reset. -/
def State.resetEnded (s : State) : State := s.modPwr (fun p => { p with cause := 0, pd1Kept := false, coreLow := false })

/-- The release of a reset of the whole device, or of power-up. -/
theorem State.release_whole {s : State} (mstr autostart : Bool) (hphase : s.pwr.phase = .inReset ∨ s.pwr.phase = .backup)
    (hkept : s.pwr.pd1Kept = false) :
    s.release mstr autostart =
      ((s.causeShown.supplyBack.strapsSampled mstr autostart).resetEnded.clocksUnproved).coreUp.phaseNext .sourceSelect := by
  have hstandby : ¬ (s.pwr.phase == .standby) = true := by rcases hphase with h | h <;> rw [h] <;> decide
  have hreset : ¬ (s.pwr.phase != .inReset && s.pwr.phase != .backup) = true := by rcases hphase with h | h <;> rw [h] <;> decide
  unfold State.release
  rw [if_neg hstandby, if_neg hreset, hkept]
  rfl

/-! What each stage changes -/

theorem frame_causeShown (s : State) : s.Frame s.causeShown [] [PWR_RSTCAUSE] := frame_wr _ _ _

theorem frame_showPwr (s : State) (offend : BitVec 64) : s.Frame (s.showPwr offend) [] [RTC_RAM 16, RTC_RAM 17, RTC_RAM 18] :=
  State.Frame.ite (fun _ => ((frame_wr _ _ _).seq (frame_wr _ _ _)).seq (frame_wr _ _ _)) (fun _ => State.Frame.refl _ _ _)

theorem State.showPwr_rtc (s : State) (offend : BitVec 64) : (s.showPwr offend).rtc = s.rtc :=
  (frame_showPwr s offend).part (p := .clock) (by simp)

theorem frame_chargerState (s : State) : s.Frame s.chargerState [] [RTC_STAT] := frame_setFlag _ RTC_STAT_CHGON _

theorem frame_supplyBack (s : State) :
    s.Frame s.supplyBack [.clock] [RTC_STAT, RTC_PWRCTL, RTC_RAM 16, RTC_RAM 17, RTC_RAM 18] := by
  have hback : s.Frame (s.modRtc (fun r => { r with onBattery := false })).chargerState [.clock] [RTC_STAT] :=
    (frame_modRtc _ _).seq (frame_chargerState _)
  exact State.Frame.ite
    (fun _ => (((hback.seq (frame_setFlag _ RTC_PWRCTL_CYC _)).seq (frame_modRtc _ _)).seq (frame_showPwr _ _)).mono (by simp)
      (by simp [RTC_PWRCTL_CYC]))
    (fun _ => hback.mono (by simp) (by simp))

theorem State.supplyBack_onBattery (s : State) : s.supplyBack.rtc.onBattery = false := by
  unfold State.supplyBack
  dsimp only
  split
  · rw [State.showPwr_rtc]; rfl
  · rfl

theorem frame_strapsSampled (s : State) (mstr autostart : Bool) : s.Frame (s.strapsSampled mstr autostart) [] [GLB_STRAP] :=
  (frame_setFlag _ GLB_STRAP_MSTR _).trans (frame_setFlag _ GLB_STRAP_AUTOSTART _)

theorem State.strapsSampled_shown (s : State) (mstr autostart : Bool) :
    (s.strapsSampled mstr autostart).flag GLB_STRAP_MSTR = mstr ∧
      (s.strapsSampled mstr autostart).flag GLB_STRAP_AUTOSTART = autostart := by
  refine ⟨?_, State.flag_setFlag_self _ GLB_STRAP_AUTOSTART _ (by decide) (by decide)⟩
  rw [State.strapsSampled, State.flag_setFlag_other _ _ _ _ (by decide) (by decide)]
  exact State.flag_setFlag_self _ GLB_STRAP_MSTR _ (by decide) (by decide)

theorem frame_resetEnded (s : State) : s.Frame s.resetEnded [.power] [] := frame_modPwr _ _

theorem frame_clocksUnproved (s : State) : s.Frame s.clocksUnproved [] [PWR_STAT] :=
  ((frame_setFlag _ PWR_STAT_HFOK _).trans (frame_setFlag _ PWR_STAT_PLLLOCK _)).trans (frame_setFlag _ PWR_STAT_LFOK _)

theorem State.clocksUnproved_hfOn (s : State) : s.clocksUnproved.hfOn = false := by
  rw [State.hfOn, State.clocksUnproved, State.flag_setFlag_other _ _ _ _ (by decide) (by decide),
    State.flag_setFlag_other _ _ _ _ (by decide) (by decide)]
  exact State.flag_setFlag_self _ PWR_STAT_HFOK _ (by decide) (by decide)

theorem frame_coreOn (s : State) : s.Frame s.coreOn [] [PWR_STAT] :=
  ((((frame_setPd _ _ _).trans (frame_setPd _ _ _)).trans (frame_setPd _ _ _)).trans (frame_setPd _ _ _)).trans (frame_setPd _ _ _)

theorem State.coreOn_pdOn (s : State) : ∀ d ∈ [2, 3, 4, 5, 9], s.coreOn.pdOn d = true := by
  intro d hd
  have hlt : d < 10 := by
    have hall : ∀ d ∈ [2, 3, 4, 5, 9], d < 10 := by decide
    exact hall d hd
  simp only [State.coreOn, State.pdOn_setPd _ hlt]
  simp only [List.mem_cons, List.not_mem_nil, or_false] at hd
  rcases hd with rfl | rfl | rfl | rfl | rfl <;> simp

theorem State.coreOn_hfOn (s : State) : s.coreOn.hfOn = s.hfOn := by
  have hbits : PWR_STAT_HFOK.lsb + PWR_STAT_HFOK.width ≤ 18 := by decide
  simp only [State.hfOn, State.flag, State.coreOn, State.get_setPd_other _ _ _ _ hbits]

theorem frame_tzlModeTake (s : State) : s.Frame s.tzlModeTake [.link, .pulses] (TZL_STAT :: cfStatRegs) := by
  unfold State.tzlModeTake
  refine State.Frame.ite (fun _ => State.Frame.refl _ _ _) (fun _ => ?_)
  have hshown (t : State) : t.Frame (((((t.setFlag TZL_STAT_UPTRN false).setFlag TZL_STAT_DNTRN false).setFlag TZL_STAT_ACTIVE
      false).setFlag TZL_STAT_ISLAND false).put TZL_STAT_POS 0 |>.put TZL_STAT_NDEV 0) [] [TZL_STAT] :=
    (((((frame_setFlag _ TZL_STAT_UPTRN _).trans (frame_setFlag _ TZL_STAT_DNTRN _)).trans (frame_setFlag _ TZL_STAT_ACTIVE _)).trans
      (frame_setFlag _ TZL_STAT_ISLAND _)).trans (frame_put _ TZL_STAT_POS _)).trans (frame_put _ TZL_STAT_NDEV _)
  have hmode (f g : TzlState → TzlState) := (((frame_modTzl s f).trans (frame_modTzl _ g)).seq (hshown _))
  exact State.Frame.ite (fun _ => ((hmode _ _).seq (frame_mirRelease _)).mono (by simp) (by simp))
    (fun _ => (hmode _ _).mono (by simp) (by simp))

/-- After its domains are on, a released core shows its banks and takes up its link's mode. -/
theorem frame_coreUp_coreOn (s : State) :
    s.coreOn.Frame s.coreUp [.link, .pulses] ([PWR_BANK, TZL_CTL, TZL_STAT] ++ cfStatRegs) := by
  have hbank (n : Nat) := frame_put s.coreOn PWR_BANK_BANK33 n
  have hmode (t : State) : t.Frame (if t.flag GLB_STRAP_MSTR then t else t.put TZL_CTL_MODE 1) [] [TZL_CTL] :=
    State.Frame.ite (fun _ => State.Frame.refl _ _ _) (fun _ => frame_put _ TZL_CTL_MODE _)
  exact (((hbank _).seq (hmode _)).seq (frame_tzlModeTake _)).mono (by simp) (by simp [PWR_BANK_BANK33])

/-- Registers that the release of a reset may change. -/
def releaseRegs : List Nat :=
  [PWR_RSTCAUSE, GLB_STRAP, PWR_STAT, PWR_BANK, TZL_CTL, TZL_STAT, RTC_STAT, RTC_PWRCTL, RTC_RAM 16, RTC_RAM 17, RTC_RAM 18] ++
    cfStatRegs

/-- From the sampled straps on, the release changes power, link and pulses. -/
theorem frame_release_tail (s : State) :
    s.Frame (s.resetEnded.clocksUnproved.coreUp.phaseNext .sourceSelect) [.power, .link, .pulses]
      ([PWR_STAT, PWR_BANK, TZL_CTL, TZL_STAT] ++ cfStatRegs) :=
  (((((frame_resetEnded s).seq (frame_clocksUnproved _)).seq (frame_coreOn _)).seq (frame_coreUp_coreOn _)).seq
    (frame_phaseNext _ _)).mono (by simp) (by simp)

/-- What the release leaves: source selection begins with no cause pending, HFREF not good, and PD2 to PD5 and PD9 on. -/
theorem State.release_tail_shown (s : State) (b : Nat) :
    ((s.resetEnded.clocksUnproved.coreUp.phaseNext .sourceSelect).settle b).pwr.cause = 0 ∧
      ((s.resetEnded.clocksUnproved.coreUp.phaseNext .sourceSelect).settle b).hfOn = false ∧
      ∀ d ∈ [2, 3, 4, 5, 9], ((s.resetEnded.clocksUnproved.coreUp.phaseNext .sourceSelect).settle b).pdOn d = true := by
  have hup := frame_coreUp_coreOn s.resetEnded.clocksUnproved
  have hstart := (hup.seq (frame_phaseNext _ .sourceSelect)).settle b
  have hpwr : s.resetEnded.clocksUnproved.coreUp.pwr = s.resetEnded.pwr :=
    ((frame_clocksUnproved _).seq ((frame_coreOn _).seq hup)).part (p := .power) (by simp)
  refine ⟨?_, ?_, fun d hd => ?_⟩
  · rw [State.settle_pwr, State.phaseNext_cause, hpwr]; rfl
  · rw [State.hfOn, hstart.flag PWR_STAT_HFOK (by decide) (by decide)]
    exact (State.coreOn_hfOn _).trans (State.clocksUnproved_hfOn _)
  · rw [hstart.pdOn (by decide), State.coreOn_pdOn _ d hd]

theorem exec_resetRelease_eq (mstr autostart : Bool) (s : State) :
    exec (.resetRelease mstr autostart) s = .next ((s.release mstr autostart).settle s.irqLive) := rfl

/-- The release of a reset of the whole device. -/
theorem exec_resetRelease_whole {s : State} (mstr autostart : Bool) (hphase : s.pwr.phase = .inReset ∨ s.pwr.phase = .backup)
    (hkept : s.pwr.pd1Kept = false) :
    ∃ t, exec (.resetRelease mstr autostart) s = .next t ∧ (t.pwr.phase = .sourceSelect ∧ t.pwr.cause = 0) ∧
      t.rd PWR_RSTCAUSE = s.rd PWR_RSTCAUSE ||| s.pwr.cause.zeroExtend 32 ∧
      (t.flag GLB_STRAP_MSTR = mstr ∧ t.flag GLB_STRAP_AUTOSTART = autostart) ∧
      (t.hfOn = false ∧ ∀ d ∈ [2, 3, 4, 5, 9], t.pdOn d = true) ∧ t.rtc.onBattery = false ∧
      s.Frame t [.clock, .power, .link, .pulses] releaseRegs := by
  rw [exec_resetRelease_eq, State.release_whole mstr autostart hphase hkept]
  have hsupply := frame_supplyBack s.causeShown
  have hstraps := frame_strapsSampled s.causeShown.supplyBack mstr autostart
  have htail := (frame_release_tail (s.causeShown.supplyBack.strapsSampled mstr autostart)).settle s.irqLive
  obtain ⟨hmstr, hauto⟩ := s.causeShown.supplyBack.strapsSampled_shown mstr autostart
  obtain ⟨hcause, hhf, hon⟩ := State.release_tail_shown (s.causeShown.supplyBack.strapsSampled mstr autostart) s.irqLive
  refine ⟨_, rfl, ⟨State.settle_phaseNext _ _ _, hcause⟩, ?_, ⟨?_, ?_⟩, ⟨hhf, hon⟩, ?_, ?_⟩
  · rw [(hsupply.seq (hstraps.seq htail)).rd (off := PWR_RSTCAUSE) (by decide) (by decide), State.causeShown, State.rd_wr, if_pos rfl]
  · rw [htail.flag GLB_STRAP_MSTR (by decide) (by decide), hmstr]
  · rw [htail.flag GLB_STRAP_AUTOSTART (by decide) (by decide), hauto]
  · have hclock := (hstraps.seq htail).part (p := .clock) (by simp)
    exact (congrArg RtcState.onBattery hclock).trans (State.supplyBack_onBattery _)
  · exact ((frame_causeShown s).seq (hsupply.seq (hstraps.seq htail))).mono (by simp) (by decide)

end Sys2Proof.Machine
end

section
/-!
Settles O32 (R64, R73 to R75, R82, R90, R417, R426).  Each row of start-up, taken in its phase, shows its outcome and enters the next.
-/

namespace Sys2Proof.Machine

/-! HFREF and the PLL (R73 to R75) -/

theorem exec_hfrefSourceSelected_eq (edges : Nat) (s : State) : exec (.hfrefSourceSelected edges) s =
    .next ((s.startRow [.sourceSelect, .hfRetry] (fun s =>
      (s.setFlag PWR_STAT_HFSRC (decide (1000 ≤ edges))).phaseNext .hfWait)).settle s.irqLive) := rfl

theorem exec_hfrefGood_eq (s : State) : exec .hfrefGood s =
    .next ((s.startRow [.hfWait] (fun s => (s.setFlag PWR_STAT_HFOK true).phaseNext .pllWait)).settle s.irqLive) := rfl

theorem exec_hfrefRetry_eq (s : State) : exec .hfrefRetry s =
    .next ((s.startRow [.hfWait] (fun s => s.phaseNext .hfRetry)).settle s.irqLive) := rfl

theorem exec_pllLock_eq (s : State) : exec .pllLock s =
    .next ((s.startRow [.pllWait] (fun s => (s.setFlag PWR_STAT_PLLLOCK true).phaseNext .memInit)).settle s.irqLive) := rfl

/-! The memories (R82, R417) -/

/-- The monitor entries of the first n segments set to the sums of the memory as it stands. -/
def State.refsBuilt (s : State) (n : Nat) : State :=
  State.each n (fun i s =>
    { s with cvu := { s.cvu with refs := s.cvu.refs.set (56 + i) { value := s.segmentSum (56 + i), flips := 0 } } }) s

theorem State.refsBuilt_succ (s : State) (n : Nat) :
    s.refsBuilt (n + 1) = { s.refsBuilt n with cvu := { (s.refsBuilt n).cvu with
      refs := (s.refsBuilt n).cvu.refs.set (56 + n) { value := (s.refsBuilt n).segmentSum (56 + n), flips := 0 } } } := by
  simp [State.refsBuilt, State.each, List.range_succ]

/-- The entries built are the sums, whose memory building them leaves. -/
theorem State.refsBuilt_shown (s : State) (hs : s.Sizes) : (n : Nat) → n ≤ 8 →
    (s.refsBuilt n).regs = s.regs ∧ (s.refsBuilt n).exp = s.exp ∧ (s.refsBuilt n).cvu.refs.length = 64 ∧
      ∀ i, i < n → (s.refsBuilt n).refEntry (56 + i) = { value := s.segmentSum (56 + i), flips := 0 }
  | 0, _ => by
    obtain ⟨-, -, -, -, -, -, -, -, hrefs, -⟩ := hs
    exact ⟨rfl, rfl, hrefs, fun i hi => absurd hi (Nat.not_lt_zero i)⟩
  | n + 1, hn => by
    obtain ⟨hregs, hexp, hlen, hbuilt⟩ := s.refsBuilt_shown hs n (by omega)
    have hsum : (s.refsBuilt n).segmentSum (56 + n) = s.segmentSum (56 + n) := by unfold State.segmentSum; rw [hregs, hexp]
    rw [State.refsBuilt_succ, hsum]
    refine ⟨hregs, hexp, (List.length_set).trans hlen, fun i hi => ?_⟩
    by_cases hlast : i = n
    · subst hlast
      simp [State.refEntry, List.getD_eq_getElem?_getD, hlen, show 56 + i < 64 by omega]
    · rw [← hbuilt i (by omega)]
      simp [State.refEntry, List.getD_eq_getElem?_getD, Ne.symm hlast]

theorem State.rebuildRefs_eq (s : State) : s.rebuildRefs = s.refsBuilt 8 := rfl

theorem State.rebuildRefs_shown {s : State} (hs : s.Sizes) {i : Nat} (hi : i < 8) :
    s.rebuildRefs.refEntry (56 + i) = { value := s.segmentSum (56 + i), flips := 0 } := by
  obtain ⟨-, -, -, hbuilt⟩ := s.refsBuilt_shown hs 8 (Nat.le_refl 8)
  rw [State.rebuildRefs_eq, hbuilt i hi]

theorem frame_rebuildRefs (s : State) : s.Frame s.rebuildRefs [.checks] [] :=
  frame_each _ _ _ (fun _ _ _ =>
    ⟨fun p hp => by cases p <;> simp [Part.Same, State.framByte] at *, fun _ _ _ => rfl, rfl⟩)

theorem exec_memoryInitialised_eq (s : State) : exec .memoryInitialised s =
    .next ((s.startRow [.memInit] (fun s => s.rebuildRefs.phaseNext .diag)).settle s.irqLive) := rfl

/-- The memories are written, and every monitor entry is the sum of its segment. -/
theorem exec_memoryInitialised_taken {s : State} (hs : s.Sizes) (hphase : s.pwr.phase = .memInit) (hrunning : s.pwr.pfRunning = false) :
    ∃ t, exec .memoryInitialised s = .next t ∧ t.pwr.phase = .diag ∧
      (∀ i, i < 8 → t.refEntry (56 + i) = { value := s.segmentSum (56 + i), flips := 0 }) ∧ s.Frame t [.power, .checks] [] := by
  rw [exec_memoryInitialised_eq, State.startRow_taken _ (by simp [hphase]) hrunning]
  have hnext := (frame_phaseNext s.rebuildRefs .diag).settle s.irqLive
  refine ⟨_, rfl, State.settle_phaseNext _ _ _, fun i hi => ?_, ((frame_rebuildRefs s).seq hnext).mono (by simp) (by simp)⟩
  rw [State.refEntry, hnext.part (p := .checks) (by simp)]
  exact State.rebuildRefs_shown hs hi

/-! The start-up diagnostics (R426) -/

theorem exec_startupDiagnostics_eq (failed : Option (Nat × BitVec 64)) (s : State) : exec (.startupDiagnostics failed) s =
    .next ((s.startRow [.diag] (fun s => s.diagDone failed)).settle s.irqLive) := rfl

theorem exec_startupDiagnostics_passed {s : State} (hphase : s.pwr.phase = .diag) (hrunning : s.pwr.pfRunning = false) :
    ∃ t, exec (.startupDiagnostics none) s = .next t ∧ t.pwr.phase = .restoring ∧ s.Frame t [.power, .safety] [SAF_STAT] := by
  rw [exec_startupDiagnostics_eq, State.startRow_taken _ (by simp [hphase]) hrunning]
  have hmon := (frame_monUpdate (s.phaseNext .restoring)).settle s.irqLive
  exact ⟨_, rfl, congrArg PwrState.phase (hmon.part (p := .power) (by simp)),
    ((frame_phaseNext s .restoring).seq hmon).mono (by simp) (by simp)⟩

/-- The start-up failure as it is found, before the safe state answers it. -/
def State.startFailed (s : State) (d : Nat) (detail : BitVec 64) : State :=
  ((s.phaseNext .restoring).setFlag SAF_STAT_STARTFAIL true).event 0x0606 d .momentary detail.toNat 0 0

theorem frame_startFailed (s : State) (d : Nat) (detail : BitVec 64) : s.Frame (s.startFailed d detail) [.power] [SAF_STAT] :=
  ((frame_phaseNext s _).seq (frame_setFlag _ SAF_STAT_STARTFAIL true)).seq (frame_event _ _ _ _ _ _ _)

theorem State.startFailed_pwr (s : State) (d : Nat) (detail : BitVec 64) :
    (s.startFailed d detail).pwr = (s.phaseNext .restoring).pwr :=
  ((frame_setFlag _ SAF_STAT_STARTFAIL true).seq (frame_event _ _ _ _ _ _ _)).part (p := .power) (by simp)

theorem State.startFailed_flag (s : State) (d : Nat) (detail : BitVec 64) : (s.startFailed d detail).flag SAF_STAT_STARTFAIL = true := by
  rw [State.startFailed, State.event_flag]
  exact State.flag_setFlag_self _ SAF_STAT_STARTFAIL true (by decide) (by decide)

theorem State.diagDone_failed (s : State) (d : Nat) (detail : BitVec 64) :
    s.diagDone (some (d, detail)) = ((s.startFailed d detail).enterSafe d).monUpdate := rfl

/-- A failed diagnostic shows STARTFAIL, and with the monitor enabled the safe state is entered. -/
theorem exec_startupDiagnostics_failed {s : State} (d : Nat) (detail : BitVec 64) (hphase : s.pwr.phase = .diag)
    (hrunning : s.pwr.pfRunning = false) :
    ∃ t, exec (.startupDiagnostics (some (d, detail))) s = .next t ∧ t.pwr.phase = .restoring ∧ t.flag SAF_STAT_STARTFAIL = true ∧
      (s.flag SAF_CTL_EN = true → t.inSafe = true) ∧
      s.Frame t [.power, .safety, .pulses] ([SAF_STAT, SAF_SSEXP] ++ cfStatRegs) := by
  rw [exec_startupDiagnostics_eq, State.startRow_taken _ (by simp [hphase]) hrunning, State.diagDone_failed]
  have hsafe := frame_enterSafe (s.startFailed d detail) d
  have hmon := frame_monUpdate ((s.startFailed d detail).enterSafe d)
  have hend := (State.Frame.refl (((s.startFailed d detail).enterSafe d).monUpdate) [] []).settle s.irqLive
  refine ⟨_, rfl, ?_, ?_, fun hen => ?_, ?_⟩
  · have hpwr := (hsafe.seq (hmon.seq hend)).part (p := .power) (by simp)
    exact congrArg PwrState.phase (Eq.trans hpwr (s.startFailed_pwr d detail))
  · rw [hend.flag SAF_STAT_STARTFAIL (by simp) (by decide), State.monUpdate_flag _ _ (by decide), State.enterSafe_startfail]
    exact s.startFailed_flag d detail
  · rw [State.inSafe, hend.flag SAF_STAT_SAFE (by simp) (by decide), State.monUpdate_flag _ _ (by decide)]
    exact State.enterSafe_inSafe d (((frame_startFailed s d detail).flag SAF_CTL_EN (by decide) (by decide)).trans hen)
  · exact ((((frame_startFailed s d detail).seq hsafe).seq hmon).seq hend).mono (by simp) (by simp [cfStatRegs])

end Sys2Proof.Machine

open Sys2Proof.Machine in
/-- Settles O32: the release starts source selection, and each row in its phase hands over to the next. -/
theorem startUpRowsFollowInOrder : Obligations.StartUpRowsFollowInOrder := by
  unfold Obligations.StartUpRowsFollowInOrder
  refine ⟨fun s mstr auto hphase hkept => ?_, fun s hrunning => ⟨fun edges hphase => ?_, fun hphase => ?_, fun hphase => ?_,
    fun hphase => ?_, fun hphase hs => exec_memoryInitialised_taken hs hphase hrunning,
    fun hphase => exec_startupDiagnostics_passed hphase hrunning,
    fun d detail _ hphase => exec_startupDiagnostics_failed d detail hphase hrunning⟩⟩
  · obtain ⟨t, hexec, ⟨hselect, hcause⟩, hshown, ⟨hmstr, hauto⟩, ⟨hhf, hon⟩, hbattery, hframe⟩ :=
      exec_resetRelease_whole mstr auto hphase hkept
    exact ⟨t, hexec, hselect, hcause, hshown, hmstr, hauto, hhf, hon, hbattery, hframe⟩
  · rw [exec_hfrefSourceSelected_eq, State.startRow_taken _ (by simpa using hphase) hrunning]
    exact ⟨_, rfl, s.row_shown (f := PWR_STAT_HFSRC) _ _ _ rfl (by decide) (by decide)⟩
  · rw [exec_hfrefGood_eq, State.startRow_taken _ (by simp [hphase]) hrunning]
    exact ⟨_, rfl, s.row_shown (f := PWR_STAT_HFOK) _ _ _ rfl (by decide) (by decide)⟩
  · rw [exec_hfrefRetry_eq, State.startRow_taken _ (by simp [hphase]) hrunning]
    exact ⟨_, rfl, State.settle_phaseNext _ _ _, (frame_phaseNext s _).settle _⟩
  · rw [exec_pllLock_eq, State.startRow_taken _ (by simp [hphase]) hrunning]
    exact ⟨_, rfl, s.row_shown (f := PWR_STAT_PLLLOCK) _ _ _ rfl (by decide) (by decide)⟩

end

section
/-!
SUPPORT. What operations keep where the registers they write are not known, and the frames of scans that are given up (R363 to R379).
-/

namespace Sys2Proof.Machine

/-! Parts kept -/

/-- The named parts are the same in two states; nothing is said of registers. -/
def State.Spares (s t : State) (ps : List Part) : Prop := ∀ p ∈ ps, Part.Same s t p

theorem State.Spares.refl (s : State) (ps : List Part) : s.Spares s ps := fun p _ => Part.Same.refl s p

theorem State.Spares.trans {s t u : State} {ps : List Part} (h : s.Spares t ps) (k : t.Spares u ps) : s.Spares u ps :=
  fun p hp => (h p hp).trans (k p hp)

/-- A change spares the parts outside its frame. -/
theorem State.Frame.spares {s t : State} {qs : List Part} {os : List Nat} (h : s.Frame t qs os) {ps : List Part}
    (hapart : ∀ p ∈ ps, p ∉ qs) : s.Spares t ps := fun p hp => h.part (hapart p hp)

theorem spares_foldl {β : Type} {ps : List Part} (g : State → β → State) (hg : ∀ (s : State) (x : β), s.Spares (g s x) ps) :
    (l : List β) → (s : State) → s.Spares (l.foldl g s) ps
  | [], s => State.Spares.refl s ps
  | x :: l, s => (hg s x).trans (spares_foldl g hg l (g s x))

/-- What each step of a fold keeps, the fold keeps. -/
theorem foldl_keeps {α β : Type} (k : State → α) (g : State → β → State) (hg : ∀ s x, k (g s x) = k s) :
    (l : List β) → (s : State) → k (l.foldl g s) = k s
  | [], _ => rfl
  | x :: l, s => (foldl_keeps k g hg l (g s x)).trans (hg s x)

/-! Scans given up (R379) -/

theorem frame_setScan (s : State) (u : Nat) (x : Option Scan) : s.Frame (s.setScan u x) [.checks] [CVU_STAT u] := by
  have hscan : s.Frame { s with cvu := { s.cvu with scans := s.cvu.scans.set u x } } [.checks] [] :=
    ⟨fun p hp => by cases p <;> simp [Part.Same, State.framByte] at *, fun _ _ _ => rfl, rfl⟩
  exact (hscan.seq ((frame_setFlag _ (CVU_STAT_BUSY u) _).trans (frame_setFlag _ (CVU_STAT_RESCAN u) _))).mono (by simp)
    (by simp [CVU_STAT_BUSY])

/-- Registers of a check-value unit that giving its scan up may change. -/
def haltRegs (u : Nat) : List Nat := [CVU_POS u, CVU_RUN_LO u, CVU_RUN_HI u]

theorem frame_scanHalt (s : State) (u : Nat) : s.Frame (s.scanHalt u).1 [] (haltRegs u) := by
  unfold State.scanHalt
  split
  · next q _ =>
    dsimp only
    split
    · exact State.Frame.refl _ _ _
    · have hfed : s.Frame { s with free := s.free + 1 } [] [] :=
        ⟨fun p _ => by cases p <;> simp [Part.Same, State.framByte], fun _ _ _ => rfl, rfl⟩
      exact (hfed.seq ((frame_wr _ _ _).seq (frame_putWide _ _ _))).mono (by simp) (by simp [haltRegs])
  · exact State.Frame.refl _ _ _

theorem frame_endScan (s : State) (u status units value : Nat) :
    s.Frame (s.endScan u status units value) [.checks, .taken, .host, .writer] (CVU_STAT u :: cplRegs) := by
  unfold State.endScan
  dsimp only
  split
  · exact ((frame_setScan s u none).seq (frame_done _ _ _ _ _ _)).mono (by simp) (by simp [cplRegs])
  · exact (frame_setScan s u none).mono (by simp) (by simp)

theorem State.stopScan_eq (s : State) (u status : Nat) :
    s.stopScan u status = (s.scanHalt u).1.endScan u status (s.scanHalt u).2.1 (s.scanHalt u).2.2 := rfl

/-- Registers that stopping a unit's scan may change. -/
def stopRegs (u : Nat) : List Nat := haltRegs u ++ CVU_STAT u :: cplRegs

theorem frame_stopScan (s : State) (u status : Nat) :
    s.Frame (s.stopScan u status) [.checks, .taken, .host, .writer] (stopRegs u) :=
  (frame_scanHalt s u).seq (frame_endScan _ _ _ _ _)

/-! MAC frames that end with their ring (R401) -/

theorem frame_framesAbort (s : State) (r : Nat) : s.Frame (s.framesAbort r) [.powerline, .host] descRegs :=
  (((frame_foldl _ _ _ (fun _ _ _ => frame_frameEnd _ _ _)).seq (frame_modPlc _ _)).seq
    (frame_foldl _ _ _ (fun _ _ _ => frame_frameEnd _ _ _))).mono (by simp) (by simp)

/-! Records that are discarded (R405) -/

theorem frame_dropRecord (s : State) (r : Nat) : s.Frame (s.dropRecord r) [.host] [HIF_RDROP r] :=
  ((frame_modRing s r _).seq (frame_bump _ (HIF_RDROP_DROP r) 1)).mono (by simp) (by simp [HIF_RDROP_DROP])

theorem frame_dropMany (s : State) (r n : Nat) : s.Frame (s.dropMany r n) [.host] [HIF_RDROP r] :=
  frame_each _ _ _ (fun _ _ s => frame_dropRecord s r)

/-- Discarding records counts them alone: the queues of the host interface stay. -/
theorem State.dropMany_queues (s : State) (r n : Nat) :
    (s.dropMany r n).hif.cplQ = s.hif.cplQ ∧ (s.dropMany r n).hif.fetched = s.hif.fetched := by
  have hdrop {α : Type} (k : HifState → α) (hk : ∀ h rings, k { h with rings := rings } = k h) (s : State) :
      k (s.dropRecord r).hif = k s.hif := by
    simp only [State.dropRecord, State.bump_keeps, State.modRing]
    exact hk _ _
  exact ⟨foldl_keeps (fun s => s.hif.cplQ) _ (fun s _ => hdrop HifState.cplQ (fun _ _ => rfl) s) _ _,
    foldl_keeps (fun s => s.hif.fetched) _ (fun s _ => hdrop HifState.fetched (fun _ _ => rfl) s) _ _⟩

end Sys2Proof.Machine
end

section
/-!
SUPPORT. The loss of the PCI Express function (R381, R405), stage by stage: ring commands settled, the HIF block reset, records discarded.
-/

namespace Sys2Proof.Machine

/-- The parts that a loss of the host interface leaves. -/
def lossParts : List Part := [.power, .safety, .fram, .inputs, .windows, .pulses, .link]

/-! Ring commands (R405) -/

/-- Every command of the ring still taken is muted. -/
def State.RingMuted (s : State) : Prop := ∀ x ∈ s.taken, ∀ i, x.hdr.src = .ring i → x.muted = true

theorem mem_replace_imp {α : Type} [BEq α] {a b x : α} : {l : List α} → x ∈ l.replace a b → x = b ∨ x ∈ l
  | [], h => by simp at h
  | c :: l, h => by
    rw [List.replace_cons] at h
    split at h
    · rcases List.mem_cons.mp h with h | h
      · exact .inl h
      · exact .inr (List.mem_cons_of_mem _ h)
    · rcases List.mem_cons.mp h with h | h
      · exact .inr (h ▸ List.mem_cons_self)
      · exact (mem_replace_imp h).imp_right (List.mem_cons_of_mem _)

/-- An outcome leaves the other commands as they are, and one that comes late keeps its command, which is not muted. -/
theorem State.RingMuted.done {s : State} (h : s.RingMuted) {x : Taken} (hx : x ∈ s.taken) (status p0 p1 p2 : Nat) :
    (s.done x status p0 p1 p2).RingMuted := by
  have huntake : (s.untake x).RingMuted := fun y hy => h y (List.mem_of_mem_erase hy)
  unfold State.done
  split
  · exact huntake
  · split
    · intro y hy i hsrc
      rcases mem_replace_imp hy with rfl | hy
      · exact h x hx i hsrc
      · exact h y hy i hsrc
    · intro y hy
      rw [(State.complete_keeps _ _ _ _ _ _ _).2.1] at hy
      exact huntake y hy

theorem State.RingMuted.of_taken {s t : State} (h : s.RingMuted) (htaken : t.taken = s.taken) : t.RingMuted := by
  unfold State.RingMuted; rwa [htaken]

theorem State.RingMuted.stopScan {s : State} (h : s.RingMuted) (u status : Nat) : (s.stopScan u status).RingMuted := by
  have hhalt : (s.scanHalt u).1.RingMuted := h.of_taken ((frame_scanHalt s u).part (p := .taken) (by simp))
  have hset : ((s.scanHalt u).1.setScan u none).RingMuted :=
    hhalt.of_taken ((frame_setScan _ u none).part (p := .taken) (by simp))
  rw [State.stopScan_eq, State.endScan]
  split
  · next x hcmd =>
    have hmem : x ∈ (s.scanHalt u).1.taken := List.mem_of_find?_eq_some hcmd
    rw [← show ((s.scanHalt u).1.setScan u none).taken = _ from (frame_setScan _ u none).part (p := .taken) (by simp)] at hmem
    exact hset.done hmem _ _ _ _
  · exact hset

theorem frame_modLdg (s : State) (f : LdgState → LdgState) : s.Frame (s.modLdg f) [.ledger] [] :=
  ⟨fun p hp => by cases p <;> simp [Part.Same, State.framByte] at *, fun _ _ _ => rfl, rfl⟩

theorem frame_dropReads (s : State) (src : CmdSrc) : s.Frame (s.dropReads src) [.host] [] := frame_modHif _ _

/-- The results of a run that is given up are cleared, in registers the run names. -/
theorem spares_runDrop (s : State) (src : CmdSrc) : s.Spares (s.runDrop src) lossParts := by
  have hdue (u : State) (f : FcvState → FcvState) : u.Spares (u.modFcv f) lossParts := (frame_modFcv u f).spares (by decide)
  have hclear (g : State → Nat → State) (hg : ∀ u i, g u i = u ∨ ∃ off, g u i = u.wr off 0) (u : State) (l : List Nat) :
      u.Spares (l.foldl g u) lossParts := by
    refine spares_foldl g (fun u i => ?_) l u
    rcases hg u i with heq | ⟨off, heq⟩ <;> rw [heq]
    · exact State.Spares.refl _ _
    · exact (frame_wr u off 0).spares (by simp)
  unfold State.runDrop
  dsimp only
  split
  · next r _ =>
    split
    · refine ((hclear _ (fun u i => ?_) s _).trans ((frame_fcvDo _ _).spares (by decide))).trans (hdue _ _)
      by_cases hi : i < r.idx
      · exact .inl (if_pos hi)
      · exact .inr ⟨_, if_neg hi⟩
    · exact hdue _ _
  · exact hdue _ _

/-- Withdrawing a command ends its work in the block that it waits for. -/
theorem spares_withdraw (s : State) (x : Taken) : s.Spares (s.withdraw x) lossParts := by
  have hend (u : State) : u.Spares ((u.untake x).rtcPend) lossParts :=
    ((frame_untake u x).seq (frame_rtcPend _)).spares (by decide)
  unfold State.withdraw
  refine State.Spares.trans ?_ (hend _)
  cases x.wait
  case coefDma => exact (frame_dropReads _ _).spares (by decide)
  case corrDma => exact (frame_dropReads _ _).spares (by decide)
  case corrBoundary => exact (frame_modChan _ _ _).spares (by decide)
  case snapshot => exact (frame_modLdg _ _).spares (by decide)
  case calWindow => exact (frame_modLdg _ _).spares (by decide)
  case fcvSeq => exact spares_runDrop _ _
  case cvu => exact ((frame_setScan _ _ _).seq (frame_dropReads _ _)).spares (by decide)
  case rtcStep => exact (frame_modRtc _ _).spares (by decide)
  all_goals exact State.Spares.refl _ _

theorem spares_settleRing (s : State) : s.Spares s.settleRing lossParts := by
  have htaken (u : State) (l : List Taken) : u.Spares { u with taken := l } lossParts := by
    intro p hp
    cases p <;> simp [lossParts, Part.Same, State.framByte] at hp ⊢
  exact (spares_foldl _ (fun u x => spares_withdraw u x) _ s).trans (htaken _ _)

theorem State.settleRing_muted (s : State) : s.settleRing.RingMuted := by
  intro x hx i hsrc
  obtain ⟨y, -, rfl⟩ := List.mem_map.mp hx
  cases hy : y.hdr.src with
  | ring j => simp [hy]
  | mailbox p => simp [hy] at hsrc
  | image => simp [hy] at hsrc

/-! Reads of host memory for mailbox commands (R379, R409) -/

/-- One read that is lost ends its command, or its scan, with FAULT. -/
def State.readLost (s : State) (use : DmaUse) : State :=
  match use with
  | .coef src | .corr src =>
    match s.taken.find? (fun t => decide (t.hdr.src = src) && (match t.wait with | .coefDma .. | .corrDma _ => true | _ => false)) with
    | some t => s.done t stFault 0 0 0
    | none => s
  | .cvu src =>
    match (List.range 4).find? (fun u => match s.scan u with | some q => decide (q.src = src) | none => false) with
    | some u => s.stopScan u stFault
    | none => s

theorem State.readsLost_eq (s : State) : s.readsLost = s.hif.dmaReads.foldl (fun s r => s.readLost r.2) s := by
  unfold State.readsLost
  congr 1

/-- A lost read ends a taken command, stops a unit's scan, or finds neither. -/
theorem State.readLost_cases (s : State) (use : DmaUse) : s.readLost use = s ∨
    (∃ x ∈ s.taken, s.readLost use = s.done x stFault 0 0 0) ∨ ∃ u, s.readLost use = s.stopScan u stFault := by
  have hcommand (p : Taken → Bool) : (match s.taken.find? p with | some t => s.done t stFault 0 0 0 | none => s) = s ∨
      ∃ x ∈ s.taken, (match s.taken.find? p with | some t => s.done t stFault 0 0 0 | none => s) = s.done x stFault 0 0 0 := by
    split
    · next x hx => exact .inr ⟨x, List.mem_of_find?_eq_some hx, rfl⟩
    · exact .inl rfl
  cases use with
  | coef src => exact (hcommand _).imp_right .inl
  | corr src => exact (hcommand _).imp_right .inl
  | cvu src =>
    unfold State.readLost
    dsimp only
    split
    · next u _ => exact .inr (.inr ⟨u, rfl⟩)
    · exact .inl rfl

theorem spares_readLost (s : State) (use : DmaUse) : s.Spares (s.readLost use) lossParts := by
  rcases s.readLost_cases use with h | ⟨x, -, h⟩ | ⟨u, h⟩ <;> rw [h]
  · exact State.Spares.refl _ _
  · exact (frame_done _ _ _ _ _ _).spares (by decide)
  · exact (frame_stopScan _ _ _).spares (by decide)

theorem spares_readsLost (s : State) : s.Spares s.readsLost lossParts := by
  rw [State.readsLost_eq]
  exact spares_foldl _ (fun u (r : Nat × DmaUse) => spares_readLost u r.2) _ _

theorem State.RingMuted.readLost {s : State} (h : s.RingMuted) (use : DmaUse) : (s.readLost use).RingMuted := by
  rcases s.readLost_cases use with heq | ⟨x, hx, heq⟩ | ⟨u, heq⟩ <;> rw [heq]
  · exact h
  · exact h.done hx _ _ _ _
  · exact h.stopScan _ _

theorem State.RingMuted.readsLost {s : State} (h : s.RingMuted) : s.readsLost.RingMuted := by
  rw [State.readsLost_eq]
  generalize s.hif.dmaReads = l
  induction l generalizing s with
  | nil => exact h
  | cons r l ih => exact ih (h.readLost r.2)

/-! The stages of the loss -/

/-- What the ring took, what its reads serve and the frames of its host rings are settled. -/
def State.hifSettled (s : State) : State :=
  (((s.modHif (fun f => { f with dmaStopped := true })).framesAbort 9).framesAbort 12).settleRing.readsLost

/-- The HIF block is reset, and what waits on chip for its rings is gone; `up` when the link was up. -/
def State.hifCleared (s : State) (up : Bool) : State :=
  let held := s.ldg.ldgQ.filter (fun w => match w.src with | some (.mailbox _) => true | _ => false)
  let t := { s with regs := s.regs.filter (fun e => !hifRegister e.1), plc := { s.plc with rxQ := [] } }
  let t := t.modLdg (fun l => { l with ldgQ := held, dropped := l.dropped || l.ldgQ.any LdgWait.auto })
  t.modHif (fun f => { f with
    rings := List.replicate 16 RingAux.reset
    dmaStopped := false
    dbInFlight := false
    dbAgain := false
    fetched := []
    cplQ := []
    hb := 0
    linkLost := f.linkLost || up
    dmaReads := []
    smp := f.smp.map (fun x =>
      { fill := { used := 0, blocks := 0, expno := 0, ts := 0 }, droppedBefore := x.droppedBefore + x.fill.blocks })
    latchPcie := []
    stagePcie := [] })

/-- The records that were waiting count as dropped: ledger records, received frames, and sample blocks of rings 4 on. -/
def State.recordsLost (s : State) (ldgN rxN : Nat) (smpN : List Nat) : State :=
  (smpN.zipIdx).foldl (fun s x => s.dropMany (4 + x.2) x.1) ((s.dropMany 3 ldgN).dropMany 10 rxN)

/-- The link-down event, when the link was up. -/
def State.linkDown (s : State) (up : Bool) : State := if up then s.event 0x0B03 0 .start 0 0 0 else s

theorem State.hifLost_eq (s : State) : ∃ ldgN rxN smpN, smpN.length = 4 ∧
    s.hifLost = ((s.hifSettled.hifCleared (s.flag HIF_STAT_LINKUP)).recordsLost ldgN rxN smpN).linkDown (s.flag HIF_STAT_LINKUP) := by
  refine ⟨s.ldg.ldgQ.length - (s.hifSettled.ldg.ldgQ.filter (fun w => match w.src with | some (.mailbox _) => true | _ => false)).length,
    s.hifSettled.plc.rxQ.length, (List.range 4).map (fun i => (s.hifSettled.smpFill (4 + i)).fill.blocks), by simp, ?_⟩
  unfold State.hifLost State.linkDown State.recordsLost State.hifCleared State.hifSettled
  rfl

theorem spares_hifSettled (s : State) : s.Spares s.hifSettled lossParts := by
  have hframes : s.Spares (((s.modHif (fun f => { f with dmaStopped := true })).framesAbort 9).framesAbort 12) lossParts :=
    (((frame_modHif _ _).seq (frame_framesAbort _ 9)).seq (frame_framesAbort _ 12)).spares (by decide)
  exact (hframes.trans (spares_settleRing _)).trans (spares_readsLost _)

theorem State.hifSettled_muted (s : State) : s.hifSettled.RingMuted := (State.settleRing_muted _).readsLost

theorem spares_hifCleared (s : State) (up : Bool) : s.Spares (s.hifCleared up) lossParts := by
  intro p hp
  cases p <;> simp [lossParts, State.hifCleared, Part.Same, State.framByte] at hp ⊢

/-- Every register of the HIF block takes its reset value. -/
theorem State.hifCleared_rd (s : State) (up : Bool) {off : Nat} (h : hifRegister off = true) :
    (s.hifCleared up).rd off = regReset off := by
  have hfind : storeFind (s.regs.filter (fun e => !hifRegister e.1)) off = none := by
    rw [storeFind_filter (fun k => !hifRegister k), if_neg (by simp [h])]
  rw [State.rd_eq]
  simp [State.hifCleared, storeGet, hfind]

theorem State.hifCleared_get (s : State) (up : Bool) {f : Fld} (h : hifRegister f.off = true) :
    (s.hifCleared up).get f = fieldOf (regReset f.off) f := by rw [State.get, State.hifCleared_rd _ _ h]

theorem State.hifCleared_taken (s : State) (up : Bool) : (s.hifCleared up).taken = s.taken := rfl

/-- Registers that count discarded records. -/
def lossRegs : List Nat := (List.range 16).map (fun r => HIF_RDROP r)

theorem frame_recordsLost (s : State) (ldgN rxN : Nat) {smpN : List Nat} (h : smpN.length = 4) :
    s.Frame (s.recordsLost ldgN rxN smpN) [.host] lossRegs := by
  have hring : ∀ r < 16, [HIF_RDROP r] ⊆ lossRegs := fun r hr => by simpa [lossRegs] using ⟨r, hr, rfl⟩
  have hmany (u : State) {r : Nat} (n : Nat) (hr : r < 16) : u.Frame (u.dropMany r n) [.host] lossRegs :=
    (frame_dropMany u r n).mono (List.Subset.refl _) (hring r hr)
  refine ((hmany _ _ (by decide)).trans (hmany _ _ (by decide))).trans (frame_foldl _ _ _ (fun u x hx => hmany u x.1 ?_))
  have := (List.mem_zipIdx' hx).1
  omega

theorem State.recordsLost_queues (s : State) (ldgN rxN : Nat) (smpN : List Nat) :
    (s.recordsLost ldgN rxN smpN).hif.cplQ = s.hif.cplQ ∧ (s.recordsLost ldgN rxN smpN).hif.fetched = s.hif.fetched := by
  obtain ⟨hcplL, hfetL⟩ := s.dropMany_queues 3 ldgN
  obtain ⟨hcplR, hfetR⟩ := (s.dropMany 3 ldgN).dropMany_queues 10 rxN
  have hcpl := foldl_keeps (fun s => s.hif.cplQ) (fun s (x : Nat × Nat) => s.dropMany (4 + x.2) x.1)
    (fun s x => (s.dropMany_queues (4 + x.2) x.1).1) smpN.zipIdx ((s.dropMany 3 ldgN).dropMany 10 rxN)
  have hfet := foldl_keeps (fun s => s.hif.fetched) (fun s (x : Nat × Nat) => s.dropMany (4 + x.2) x.1)
    (fun s x => (s.dropMany_queues (4 + x.2) x.1).2) smpN.zipIdx ((s.dropMany 3 ldgN).dropMany 10 rxN)
  exact ⟨hcpl.trans (hcplR.trans hcplL), hfet.trans (hfetR.trans hfetL)⟩

theorem frame_linkDown (s : State) (up : Bool) : s.Frame (s.linkDown up) [] [] :=
  State.Frame.ite (fun _ => frame_event _ _ _ _ _ _ _) (fun _ => State.Frame.refl _ _ _)

theorem State.linkDown_hif (s : State) (up : Bool) : (s.linkDown up).hif = s.hif := by
  cases up <;> simp [State.linkDown]

/-- After the HIF block's reset the loss counts what it discards, and its queues stay empty. -/
theorem State.hifLost_after (s : State) : ∃ up, (s.hifSettled.hifCleared up).Frame s.hifLost [.host] lossRegs ∧
    s.hifLost.hif.cplQ = [] ∧ s.hifLost.hif.fetched = [] := by
  obtain ⟨ldgN, rxN, smpN, hlen, hlost⟩ := s.hifLost_eq
  obtain ⟨hcpl, hfetched⟩ := (s.hifSettled.hifCleared (s.flag HIF_STAT_LINKUP)).recordsLost_queues ldgN rxN smpN
  rw [hlost, State.linkDown_hif, hcpl, hfetched]
  exact ⟨_, (frame_recordsLost _ _ _ hlen).trans ((frame_linkDown _ _).mono (by simp) (by simp)), rfl, rfl⟩


end Sys2Proof.Machine
end

section
/-!
Settles O31 (R82, R381, R382, R405).  The link comes up from READY on, Bus Master Enable and D0 switch DMA, and a loss of the link takes
the HIF block's registers, queues and commands with it.
-/

namespace Sys2Proof.Machine

/-! The link and the bus master -/

/-- The end of a command adds to what the host interface has issued, and leaves the rest of it. -/
theorem State.settle_hif (s : State) (b : Nat) {α : Type} (k : HifState → α) (hk : ∀ h out, k { h with out := out } = k h) :
    k (s.settle b).hif = k s.hif := by
  have hsame : ({ (s.settle b).hif with out := [] } : HifState) = { s.hif with out := [] } := State.settle_same s b .host
  rw [← hk (s.settle b).hif [], hsame, hk]

theorem exec_pcieLinkUp_eq (speed width : Nat) (s : State) :
    exec (.pcieLinkUp speed width) s = .next ((s.linkUp speed width).settle s.irqLive) := rfl

/-- LINKUP, SPEED and WIDTH of a link that has trained. -/
def State.linkShown (s : State) (speed width : Nat) : State :=
  ((s.setFlag HIF_STAT_LINKUP true).put HIF_STAT_SPEED speed).put HIF_STAT_WIDTH width

/-- The end of the link-down event, when the link was lost (R412). -/
def State.linkBack (s : State) : State :=
  if s.hif.linkLost then (s.modHif (fun f => { f with linkLost := false })).event 0x0B03 0 .stop 0 0 0 else s

theorem State.linkUp_trained {s : State} {speed width : Nat} (hon : s.pdOn 9 = true) (hready : s.ready = true)
    (hdown : s.flag HIF_STAT_LINKUP = false) (hspeed : speed = 1 ∨ speed = 2) (hwidth : width = 1 ∨ width = 2) :
    s.linkUp speed width = (s.linkShown speed width).linkBack := by
  have hs : (speed == 1 || speed == 2) = true := by simpa using hspeed
  have hw : (width == 1 || width == 2) = true := by simpa using hwidth
  unfold State.linkUp
  rw [hon, hready, hdown, hs, hw]
  rfl

theorem frame_linkShown (s : State) (speed width : Nat) : s.Frame (s.linkShown speed width) [] [HIF_STAT] :=
  ((frame_setFlag _ HIF_STAT_LINKUP _).trans (frame_put _ HIF_STAT_SPEED _)).trans (frame_put _ HIF_STAT_WIDTH _)

theorem frame_linkBack (s : State) : s.Frame s.linkBack [.host] [] :=
  State.Frame.ite (fun _ => (frame_modHif _ _).seq (frame_event _ _ _ _ _ _ _)) (fun _ => State.Frame.refl _ _ _)

theorem State.linkShown_fields (s : State) {speed width : Nat} (hspeed : speed = 1 ∨ speed = 2) (hwidth : width = 1 ∨ width = 2) :
    (s.linkShown speed width).flag HIF_STAT_LINKUP = true ∧ (s.linkShown speed width).get HIF_STAT_SPEED = speed ∧
      (s.linkShown speed width).get HIF_STAT_WIDTH = width := by
  refine ⟨?_, ?_, ?_⟩
  · rw [State.flag, State.linkShown, State.get_put_other _ _ _ _ (by decide) (by decide),
      State.get_put_other _ _ _ _ (by decide) (by decide)]
    exact State.flag_setFlag_self s HIF_STAT_LINKUP true (by decide) (by decide)
  · rw [State.linkShown, State.get_put_other _ _ _ _ (by decide) (by decide), State.get_put_self _ HIF_STAT_SPEED _ (by decide)]
    rcases hspeed with rfl | rfl <;> rfl
  · rw [State.linkShown, State.get_put_self _ HIF_STAT_WIDTH _ (by decide)]
    rcases hwidth with rfl | rfl <;> rfl

theorem exec_pcieLinkUp_trained {s : State} {speed width : Nat} (hon : s.pdOn 9 = true) (hready : s.ready = true)
    (hdown : s.flag HIF_STAT_LINKUP = false) (hspeed : speed = 1 ∨ speed = 2) (hwidth : width = 1 ∨ width = 2) :
    ∃ t, exec (.pcieLinkUp speed width) s = .next t ∧ t.flag HIF_STAT_LINKUP = true ∧ t.get HIF_STAT_SPEED = speed ∧
      t.get HIF_STAT_WIDTH = width ∧ s.Frame t [.host] [HIF_STAT] := by
  rw [exec_pcieLinkUp_eq, State.linkUp_trained hon hready hdown hspeed hwidth]
  have hback := (frame_linkBack (s.linkShown speed width)).settle s.irqLive
  obtain ⟨hup, hsp, hwd⟩ := s.linkShown_fields hspeed hwidth
  exact ⟨_, rfl, (hback.flag HIF_STAT_LINKUP (by simp) (by decide)).trans hup, (hback.get HIF_STAT_SPEED (by simp) (by decide)).trans hsp,
    (hback.get HIF_STAT_WIDTH (by simp) (by decide)).trans hwd, (frame_linkShown s speed width).seq hback⟩

theorem exec_pcieLinkUp_early {s : State} (speed width : Nat) (hready : s.ready = false) :
    ∃ t, exec (.pcieLinkUp speed width) s = .next t ∧ s.Frame t [] [] := by
  have hnone : s.linkUp speed width = s := by unfold State.linkUp; rw [if_pos (by simp [hready])]
  rw [exec_pcieLinkUp_eq, hnone]
  exact ⟨_, rfl, (State.Frame.refl s [] []).settle _⟩

/-- The power state and Bus Master Enable of the function (R381). -/
def State.busMaster (s : State) (d3 bme : Bool) : State := (s.put HIF_STAT_DSTATE (if d3 then 3 else 0)).setFlag HIF_STAT_BME bme

theorem frame_busMaster (s : State) (d3 bme : Bool) : s.Frame (s.busMaster d3 bme) [] [HIF_STAT] :=
  (frame_put _ HIF_STAT_DSTATE _).trans (frame_setFlag _ HIF_STAT_BME _)

theorem State.busMaster_fields (s : State) (d3 bme : Bool) : (s.busMaster d3 bme).flag HIF_STAT_BME = bme ∧
    (s.busMaster d3 bme).get HIF_STAT_DSTATE = if d3 = true then 3 else 0 := by
  refine ⟨State.flag_setFlag_self _ HIF_STAT_BME bme (by decide) (by decide), ?_⟩
  rw [State.busMaster, State.setFlag, State.get_put_other _ _ _ _ (by decide) (by decide),
    State.get_put_self _ HIF_STAT_DSTATE _ (by decide)]
  cases d3 <;> rfl

theorem exec_busMasterEnable_eq {s : State} (hon : s.pdOn 9 = true) (hup : s.flag HIF_STAT_LINKUP = true) :
    exec .busMasterEnable s = .next ((s.busMaster false true).settle s.irqLive) :=
  congrArg (fun u => Host.Outcome.next (State.settle u s.irqLive)) (if_pos ⟨hon, hup⟩)

theorem exec_busMasterEnable_up {s : State} (hon : s.pdOn 9 = true) (hup : s.flag HIF_STAT_LINKUP = true) :
    ∃ t, exec .busMasterEnable s = .next t ∧ t.flag HIF_STAT_BME = true ∧ t.get HIF_STAT_DSTATE = 0 ∧ s.Frame t [] [HIF_STAT] := by
  rw [exec_busMasterEnable_eq hon hup]
  have hhif : endReg HIF_STAT = false := by decide
  obtain ⟨hbme, hstate⟩ := s.busMaster_fields false true
  exact ⟨_, rfl, (State.settle_flag hhif _ _ HIF_STAT_BME rfl).trans hbme, (State.settle_get hhif _ _ HIF_STAT_DSTATE rfl).trans hstate,
    (frame_busMaster s false true).settle _⟩

/-- DMA stops until the next doorbell read (R381). -/
def State.dmaEnded (s : State) : State := s.modHif (fun f => { f with dmaStopped := true })

theorem exec_busMasterDisable_eq {s : State} {d3 bme : Bool} (hon : s.pdOn 9 = true) (hup : s.flag HIF_STAT_LINKUP = true)
    (hend : d3 = true ∨ bme = false) :
    exec (.busMasterDisable d3 bme) s = .next ((s.busMaster d3 bme).dmaEnded.settle s.irqLive) := by
  have hstop : d3 = true ∨ ¬ bme = true := by simpa using hend
  refine congrArg (fun u => Host.Outcome.next (State.settle u s.irqLive)) ((if_pos ⟨hon, hup⟩).trans (if_pos hstop))

theorem exec_busMasterDisable_up {s : State} {d3 bme : Bool} (hon : s.pdOn 9 = true) (hup : s.flag HIF_STAT_LINKUP = true)
    (hend : d3 = true ∨ bme = false) :
    ∃ t, exec (.busMasterDisable d3 bme) s = .next t ∧ t.dmaOn = false ∧ t.flag HIF_STAT_BME = bme ∧
      t.get HIF_STAT_DSTATE = (if d3 = true then 3 else 0) ∧ s.Frame t [.host] [HIF_STAT] := by
  rw [exec_busMasterDisable_eq hon hup hend]
  have hstop := (frame_modHif (s.busMaster d3 bme) (fun f => { f with dmaStopped := true })).settle s.irqLive
  obtain ⟨hbme, hstate⟩ := s.busMaster_fields d3 bme
  refine ⟨_, rfl, ?_, (hstop.flag HIF_STAT_BME (by simp) (by decide)).trans hbme,
    (hstop.get HIF_STAT_DSTATE (by simp) (by decide)).trans hstate, ((frame_busMaster s d3 bme).seq hstop).mono (by simp) (by simp)⟩
  rw [State.dmaOn, State.settle_hif _ _ HifState.dmaStopped (fun _ _ => rfl)]
  simp [State.dmaEnded]

/-! The loss of the function -/

theorem exec_pePerstN_eq {s : State} (cause : LinkLoss) (hon : s.pdOn 9 = true) :
    exec (.pePerstN cause) s = .next (s.hifLost.settle s.irqLive) :=
  congrArg (fun u => Host.Outcome.next (State.settle u s.irqLive)) (if_pos hon)

theorem State.dmaOn_of_linkDown {s : State} (h : s.flag HIF_STAT_LINKUP = false) : s.dmaOn = false := by simp [State.dmaOn, h]

/-- The link shows down and every ring stopped after a reset of the HIF block. -/
theorem hifReset_fields : hifRegister HIF_STAT_LINKUP.off = true ∧ fieldOf (regReset HIF_STAT_LINKUP.off) HIF_STAT_LINKUP = 0 ∧
    (∀ r < 16, hifRegister (HIF_RSTAT_RUN r).off = true ∧ endReg (HIF_RSTAT_RUN r).off = false ∧ (HIF_RSTAT_RUN r).off ∉ lossRegs ∧
      fieldOf (regReset (HIF_RSTAT_RUN r).off) (HIF_RSTAT_RUN r) = 0) := by decide +kernel

theorem exec_pePerstN_lost {s : State} (cause : LinkLoss) (hon : s.pdOn 9 = true) :
    ∃ t, exec (.pePerstN cause) s = .next t ∧ t.flag HIF_STAT_LINKUP = false ∧ t.dmaOn = false ∧
      t.hif.cplQ = [] ∧ t.hif.fetched = [] ∧ (∀ r, r < 16 → t.ringRun r = false) ∧ t.RingMuted ∧ s.Spares t lossParts := by
  obtain ⟨up, hframe, hcpl, hfetched⟩ := s.hifLost_after
  obtain ⟨hhif, hdown, hrings⟩ := hifReset_fields
  have hend := hframe.settle s.irqLive
  have hlink : (s.hifLost.settle s.irqLive).flag HIF_STAT_LINKUP = false := by
    rw [hend.flag HIF_STAT_LINKUP (by decide) (by decide), State.flag, State.hifCleared_get _ _ hhif, hdown]
    rfl
  rw [exec_pePerstN_eq cause hon]
  refine ⟨_, rfl, hlink, State.dmaOn_of_linkDown hlink, ?_, ?_, fun r hr => ?_, ?_, ?_⟩
  · rw [State.settle_hif _ _ HifState.cplQ (fun _ _ => rfl), hcpl]
  · rw [State.settle_hif _ _ HifState.fetched (fun _ _ => rfl), hfetched]
  · obtain ⟨hreg, hkept, hapart, hrun⟩ := hrings r hr
    rw [State.ringRun, hend.flag _ hapart hkept, State.flag, State.hifCleared_get _ _ hreg, hrun]
    rfl
  · exact (s.hifSettled_muted.of_taken (State.hifCleared_taken _ up)).of_taken (hend.part (p := .taken) (by simp))
  · exact ((spares_hifSettled s).trans (spares_hifCleared _ up)).trans (hend.spares (by decide))

end Sys2Proof.Machine

open Sys2Proof.Machine in
/-- Settles O31: the link, the bus master, and the loss of the function. -/
theorem pcieFunctionStates : Obligations.PcieFunctionStates := by
  unfold Obligations.PcieFunctionStates
  refine fun s hon => ⟨fun speed width hready hdown hspeed hwidth => exec_pcieLinkUp_trained hon hready hdown hspeed hwidth,
    fun speed width hready => exec_pcieLinkUp_early speed width hready, fun hup => exec_busMasterEnable_up hon hup,
    fun d3 bme hup hend => exec_busMasterDisable_up hon hup hend, fun cause => exec_pePerstN_lost cause hon⟩

end

section
/-!
Settles O36 (R71, R77).  A monitor's crossing is followed by PWR_MON and its response, its return by the power state alone; an overvoltage
strikes through the safety monitor; the LFCLK check shows its outcome.
-/

namespace Sys2Proof.Machine

/-! Bits of the monitors (R71) -/

theorem bitAt_or_bit {n : Nat} (x : BitVec n) {i : Nat} (hi : i < n) : bitAt (x ||| BitVec.ofNat n (2 ^ i)).toNat i = true := by
  rw [bitAt_eq_testBit, BitVec.toNat_or, Nat.testBit_or, BitVec.toNat_ofNat, Nat.testBit_mod_two_pow, Nat.testBit_two_pow_self]
  simp [hi]

theorem bitAt_andNot_bit {n : Nat} (x : BitVec n) (i : Nat) : bitAt (x &&& ~~~BitVec.ofNat n (2 ^ i)).toNat i = false := by
  rw [bitAt_eq_testBit, BitVec.testBit_toNat, BitVec.getLsbD_and, BitVec.getLsbD_not, BitVec.getLsbD_ofNat, Nat.testBit_two_pow_self]
  simp

/-- The monitors of VDDC, VDDA, VDDIO and VLD; a bank has one of its own. -/
def SupplyMonitor : Monitor → Prop
  | .bank _ _ => False
  | _ => True

theorem monBit_lt {m : Monitor} (h : SupplyMonitor m) : monBit m < 9 := by
  cases m
  case bank => exact h.elim
  all_goals decide

/-- A monitor's state follows its filtered crossing. -/
def State.monSet (s : State) (m : Monitor) (beyond : Bool) : State :=
  s.modPwr (fun p => { p with monNow := if beyond then p.monNow ||| BitVec.ofNat 9 (2 ^ monBit m)
    else p.monNow &&& ~~~BitVec.ofNat 9 (2 ^ monBit m) })

/-- A crossing is kept in PWR_MON, and it and the return are events. -/
def State.monNoted (s : State) (m : Monitor) (beyond : Bool) : State :=
  (if beyond then s.wr PWR_MON (s.rd PWR_MON ||| BitVec.ofNat 32 (2 ^ monBit m)) else s).event 0x0501 (monBit m)
    (if beyond then .start else .stop) 0 0 0

/-- What a supply monitor's crossing or return calls for. -/
def State.monAnswer (s : State) (m : Monitor) (beyond : Bool) : State :=
  match m with
  | .pfVddio => if beyond ∧ s.flag PWR_CTL_INTMON then s.pfStart else s
  | .pfVddc | .pfVdda => if beyond then s.pfStart else s
  | .ovVddc | .ovVdda | .ovVddio => if beyond then s.ovStrike (monBit m) else s
  | .vldUv | .vldOv => s.ldrvUpdate
  | .bank _ _ => s

theorem State.monitorCross_supply {s : State} {m : Monitor} {beyond : Bool} (hm : SupplyMonitor m)
    (hnow : bitAt s.pwr.monNow.toNat (monBit m) ≠ beyond) :
    s.monitorCross m beyond =
      if s.pd1On then ((s.monSet m beyond).monNoted m beyond).monAnswer m beyond else s.monSet m beyond := by
  have hon : (s.monSet m beyond).pd1On = s.pd1On := rfl
  have hcross : s.monitorCross m beyond = if !(s.monSet m beyond).pd1On then s.monSet m beyond
      else ((s.monSet m beyond).monNoted m beyond).monAnswer m beyond := by
    cases m
    case bank => exact hm.elim
    all_goals exact if_neg hnow
  rw [hcross, hon]
  cases s.pd1On <;> rfl

theorem State.monSet_now (s : State) {m : Monitor} (hm : SupplyMonitor m) (beyond : Bool) :
    bitAt (s.monSet m beyond).pwr.monNow.toNat (monBit m) = beyond := by
  cases beyond
  · exact bitAt_andNot_bit _ _
  · exact bitAt_or_bit _ (monBit_lt hm)

theorem frame_monSet (s : State) (m : Monitor) (beyond : Bool) : s.Frame (s.monSet m beyond) [.power] [] := frame_modPwr _ _

theorem frame_monNoted (s : State) (m : Monitor) (beyond : Bool) : s.Frame (s.monNoted m beyond) [] [PWR_MON] :=
  (State.Frame.ite (fun _ => frame_wr _ _ _) (fun _ => State.Frame.refl _ _ _)).seq (frame_event _ _ _ _ _ _ _)

/-- A return leaves PWR_MON. -/
theorem frame_monNoted_return (s : State) (m : Monitor) : s.Frame (s.monNoted m false) [] [] := frame_event _ _ _ _ _ _ _

theorem State.monNoted_shown (s : State) {m : Monitor} (hm : SupplyMonitor m) :
    bitAt ((s.monNoted m true).rd PWR_MON).toNat (monBit m) = true := by
  rw [State.monNoted, State.event_rd, if_pos rfl, State.rd_wr, if_pos rfl]
  exact bitAt_or_bit _ ((monBit_lt hm).trans (by decide))

/-! Overvoltage (R71) -/

theorem frame_ovStrike (s : State) (i : Nat) : s.Frame (s.ovStrike i) [.pulses, .safety, .taken, .host, .writer, .power] strikeRegs :=
  ((frame_modPwr _ _).seq (frame_strike _ (d := dSupply) (by decide) i)).mono (by simp) (by simp)

theorem State.ovStrike_monNow (s : State) (i : Nat) : (s.ovStrike i).pwr.monNow = s.pwr.monNow := by
  have hstrike (u : State) : (u.strike dSupply i).pwr = u.pwr :=
    (frame_strike u (d := dSupply) (by decide) i).part (p := .power) (by simp)
  rw [State.ovStrike, hstrike]
  rfl

/-- A monitor that switches no domain: its answer leaves PWR_MON and the monitors' state. -/
theorem State.monAnswer_mild {s : State} {m : Monitor} (hm : m ∈ [Monitor.pfVddio, .ovVddc, .ovVdda, .ovVddio])
    (hint : s.flag PWR_CTL_INTMON = false) :
    (s.monAnswer m true).rd PWR_MON = s.rd PWR_MON ∧ (s.monAnswer m true).pwr.monNow = s.pwr.monNow := by
  have hstrike (i : Nat) : (s.ovStrike i).rd PWR_MON = s.rd PWR_MON ∧ (s.ovStrike i).pwr.monNow = s.pwr.monNow :=
    ⟨(frame_ovStrike s i).rd (by decide) (by decide), s.ovStrike_monNow i⟩
  simp only [List.mem_cons, List.not_mem_nil, or_false] at hm
  rcases hm with rfl | rfl | rfl | rfl
  · simp [State.monAnswer, hint]
  · exact hstrike _
  · exact hstrike _
  · exact hstrike _

theorem supplyMonitor_of_mem {m : Monitor} (hm : m ∈ [Monitor.pfVddio, .pfVddc, .pfVdda, .ovVddc, .ovVdda, .ovVddio]) :
    SupplyMonitor m := by
  cases m
  case bank => simp at hm
  all_goals trivial

theorem exec_supplyMonitorCrossing_eq (m : Monitor) (beyond : Bool) (s : State) :
    exec (.supplyMonitorCrossing m beyond) s = .next ((s.monitorCross m beyond).settle s.irqLive) := rfl

theorem exec_supplyMonitorCrossing_beyond {s : State} {m : Monitor} (hm : m ∈ [Monitor.pfVddio, .ovVddc, .ovVdda, .ovVddio])
    (hon : s.pd1On = true) (hint : s.flag PWR_CTL_INTMON = false) (hnow : bitAt s.pwr.monNow.toNat (monBit m) = false) :
    ∃ t, exec (.supplyMonitorCrossing m true) s = .next t ∧ bitAt (t.rd PWR_MON).toNat (monBit m) = true ∧
      bitAt t.pwr.monNow.toNat (monBit m) = true := by
  have hsupply : SupplyMonitor m := supplyMonitor_of_mem (by
    simp only [List.mem_cons, List.not_mem_nil, or_false] at hm ⊢; tauto)
  rw [exec_supplyMonitorCrossing_eq, State.monitorCross_supply hsupply (by simp [hnow]), if_pos hon]
  have hnoted := frame_monNoted (s.monSet m true) m true
  have hint' : ((s.monSet m true).monNoted m true).flag PWR_CTL_INTMON = false :=
    (((frame_monSet s m true).seq hnoted).flag PWR_CTL_INTMON (by decide) (by decide)).trans hint
  obtain ⟨hmon, hkept⟩ := State.monAnswer_mild hm hint'
  refine ⟨_, rfl, ?_, ?_⟩
  · rw [State.settle_rd (by decide), hmon]
    exact State.monNoted_shown _ hsupply
  · rw [State.settle_pwr, hkept, show ((s.monSet m true).monNoted m true).pwr = (s.monSet m true).pwr from
      hnoted.part (p := .power) (by simp)]
    exact s.monSet_now hsupply true

theorem exec_supplyMonitorCrossing_return {s : State} {m : Monitor}
    (hm : m ∈ [Monitor.pfVddio, .pfVddc, .pfVdda, .ovVddc, .ovVdda, .ovVddio]) (hnow : bitAt s.pwr.monNow.toNat (monBit m) = true) :
    ∃ t, exec (.supplyMonitorCrossing m false) s = .next t ∧ bitAt t.pwr.monNow.toNat (monBit m) = false ∧ s.Frame t [.power] [] := by
  have hsupply := supplyMonitor_of_mem hm
  have hanswer (u : State) : u.monAnswer m false = u := by
    simp only [List.mem_cons, List.not_mem_nil, or_false] at hm
    rcases hm with rfl | rfl | rfl | rfl | rfl | rfl <;> simp [State.monAnswer]
  have hset := frame_monSet s m false
  have hnoted := frame_monNoted_return (s.monSet m false) m
  have hcross : ∃ u, s.monitorCross m false = u ∧ u.pwr = (s.monSet m false).pwr ∧ s.Frame u [.power] [] := by
    rw [State.monitorCross_supply hsupply (by simp [hnow])]
    split
    · rw [hanswer]
      exact ⟨_, rfl, hnoted.part (p := .power) (by simp), hset.seq hnoted⟩
    · exact ⟨_, rfl, rfl, hset⟩
  obtain ⟨u, hu, hpwr, hframe⟩ := hcross
  rw [exec_supplyMonitorCrossing_eq, hu]
  refine ⟨_, rfl, ?_, hframe.settle _⟩
  rw [State.settle_pwr, hpwr]
  exact s.monSet_now hsupply false

/-- Registers that one strike of the supply diagnostic may change. -/
def ovRegs : List Nat :=
  [SAF_STRK 7, SAF_LASTING, SAF_STAT, SAF_REINIT, SAF_SSEXP] ++ (List.range 16).map (fun n => PIO_CFSTAT n) ++ cplRegs

theorem frame_ovStrike_counted (s : State) (i : Nat) (hon : s.pdOn 5 = true) :
    s.Frame (s.ovStrike i) [.power, .safety, .pulses, .taken, .host, .writer] ovRegs := by
  have hset := frame_modPwr s (fun p => { p with ovAt := p.ovAt.set (i - 4) s.exp.now })
  obtain ⟨u, hu, -, heq⟩ := State.strike_cases (s.modPwr (fun p => { p with ovAt := p.ovAt.set (i - 4) s.exp.now })) dSupply i
    ((hset.pdOn (by simp) 5).trans hon)
  have hcounted := (hset.seq hu).mono (ps' := [.power, .safety, .pulses, .taken, .host, .writer]) (offs' := ovRegs) (by simp) (by decide)
  unfold State.ovStrike
  rcases heq with heq | heq <;> rw [heq]
  · exact hcounted
  · exact hcounted.trans ((frame_makeLasting u dSupply).mono (by simp) (by decide))

theorem State.ovStrike_count (s : State) (i : Nat) (hon : s.pdOn 5 = true) :
    (s.ovStrike i).get (SAF_STRK_STRK 7) = min (s.get (SAF_STRK_STRK 7) + 1) (2 ^ (SAF_STRK_STRK 7).width - 1) :=
  State.strike_count (d := 7) _ (by decide) i hon

theorem exec_overvoltageRepeat_eq {m : Monitor} (hm : m ∈ [Monitor.ovVddc, .ovVdda, .ovVddio]) {s : State}
    (hnow : bitAt s.pwr.monNow.toNat (monBit m) = true) : exec (.overvoltageRepeat m) s =
      .next (((s.reach (s.pwr.ovAt.getD (monBit m - 4) 0 + msCycles 1)).ovStrike (monBit m)).settle s.irqLive) := by
  simp only [List.mem_cons, List.not_mem_nil, or_false] at hm
  rcases hm with rfl | rfl | rfl <;> exact congrArg (fun u => Host.Outcome.next (State.settle u s.irqLive)) (if_pos hnow)

theorem exec_overvoltageRepeat_struck {m : Monitor} (hm : m ∈ [Monitor.ovVddc, .ovVdda, .ovVddio]) {s : State}
    (hnow : bitAt s.pwr.monNow.toNat (monBit m) = true) (hon : s.pdOn 5 = true) :
    ∃ t, exec (.overvoltageRepeat m) s = .next t ∧
      t.get (SAF_STRK_STRK 7) = min (s.get (SAF_STRK_STRK 7) + 1) (2 ^ (SAF_STRK_STRK 7).width - 1) ∧
      (s.reach (s.pwr.ovAt.getD (monBit m - 4) 0 + msCycles 1)).Frame t [.power, .safety, .pulses, .taken, .host, .writer] ovRegs := by
  rw [exec_overvoltageRepeat_eq hm hnow]
  have hget : s.get (SAF_STRK_STRK 7) = (s.reach (s.pwr.ovAt.getD (monBit m - 4) 0 + msCycles 1)).get (SAF_STRK_STRK 7) := rfl
  rw [hget]
  generalize hs' : s.reach (s.pwr.ovAt.getD (monBit m - 4) 0 + msCycles 1) = s'
  have hon' : s'.pdOn 5 = true := hs' ▸ hon
  refine ⟨_, rfl, ?_, (frame_ovStrike_counted s' (monBit m) hon').settle _⟩
  rw [State.settle_get (off := SAF_STRK 7) (by decide) _ _ (SAF_STRK_STRK 7) rfl]
  exact s'.ovStrike_count _ hon'

/-! LFCLK (R77) -/

/-- The outcome of the LFCLK check. -/
def State.lfShown (s : State) (ok : Bool) : State :=
  if !ok && (s.devState == stRun || s.devState == stMeter) then (s.setFlag PWR_STAT_LFOK ok).setFlag PWR_STAT_LFSUB true
  else s.setFlag PWR_STAT_LFOK ok

theorem exec_lfclkCheck_eq {s : State} (ok : Bool) (hhf : s.flag PWR_STAT_HFOK = true) :
    exec (.lfclkCheck ok) s = .next ((s.lfShown ok).settle s.irqLive) := by
  have hstate : (s.setFlag PWR_STAT_LFOK ok).devState = s.devState :=
    State.get_put_other _ PWR_STAT_LFOK PWR_STAT_STATE _ (by decide) (by decide)
  have hexec : exec (.lfclkCheck ok) s = .next (State.settle (if !s.flag PWR_STAT_HFOK then s else
      if !ok && ((s.setFlag PWR_STAT_LFOK ok).devState == stRun || (s.setFlag PWR_STAT_LFOK ok).devState == stMeter) then
        (s.setFlag PWR_STAT_LFOK ok).setFlag PWR_STAT_LFSUB true else s.setFlag PWR_STAT_LFOK ok) s.irqLive) := rfl
  rw [hexec, hstate, if_neg (by simp [hhf])]
  rfl

theorem State.lfShown_lfok (s : State) (ok : Bool) : (s.lfShown ok).flag PWR_STAT_LFOK = ok := by
  have hok := State.flag_setFlag_self s PWR_STAT_LFOK ok (by decide) (by decide)
  unfold State.lfShown
  split
  · rwa [State.flag_setFlag_other _ _ _ _ (by decide) (by decide)]
  · exact hok

theorem State.lfShown_lfsub {s : State} (h : s.devState = stRun ∨ s.devState = stMeter) :
    (s.lfShown false).flag PWR_STAT_LFSUB = true := by
  rw [State.lfShown, if_pos (by simpa using h)]
  exact State.flag_setFlag_self _ PWR_STAT_LFSUB true (by decide) (by decide)

theorem frame_lfShown (s : State) (ok : Bool) : s.Frame (s.lfShown ok) [] [PWR_STAT] :=
  State.Frame.ite (fun _ => (frame_setFlag _ PWR_STAT_LFOK _).trans (frame_setFlag _ PWR_STAT_LFSUB _))
    (fun _ => frame_setFlag _ PWR_STAT_LFOK _)

end Sys2Proof.Machine

open Sys2Proof.Machine in
/-- Settles O36: crossings are kept and followed, overvoltages strike, and the LFCLK check is shown. -/
theorem monitorsAndClockChecks : Obligations.MonitorsAndClockChecks := by
  unfold Obligations.MonitorsAndClockChecks
  refine fun s => ⟨fun m hm hon hint hnow => exec_supplyMonitorCrossing_beyond hm hon hint hnow,
    fun m hm hnow => exec_supplyMonitorCrossing_return hm hnow, fun m s' hm hnow hon hs' => ?_, fun ok hhf => ?_⟩
  · subst hs'
    exact exec_overvoltageRepeat_struck hm hnow hon
  · rw [exec_lfclkCheck_eq ok hhf]
    have hframe := (State.Frame.refl (s.lfShown ok) [] []).settle s.irqLive
    refine ⟨_, rfl, ?_, fun hok hstate => ?_, (frame_lfShown s ok).settle _⟩
    · rw [hframe.flag PWR_STAT_LFOK (by simp) (by decide), s.lfShown_lfok ok]
    · subst hok
      rw [hframe.flag PWR_STAT_LFSUB (by simp) (by decide), State.lfShown_lfsub hstate]

end

section
/-!
SUPPORT. PWR_STAT as the changes of device state write it: domains switched off, STATE, and the registers of a domain that is reset (R13,
R69, R85, R86).
-/

namespace Sys2Proof.Machine

/-! PDON (R69) -/

/-- A number with bit d cleared. -/
theorem testBit_clearBit (p d e : Nat) : (p - p / 2 ^ d % 2 * 2 ^ d).testBit e = (decide (e ≠ d) && p.testBit e) := by
  have hbit : p.testBit d = decide (p / 2 ^ d % 2 = 1) := Nat.testBit_eq_decide_div_mod_eq
  rcases Nat.mod_two_eq_zero_or_one (p / 2 ^ d) with hclear | hset
  · rw [hclear, Nat.zero_mul, Nat.sub_zero]
    by_cases he : e = d
    · subst he; simp [hbit, hclear]
    · simp [he]
  · rw [hset, Nat.one_mul]
    have hle : 2 ^ d ≤ p := Nat.ge_two_pow_of_testBit (hbit.trans (by simp [hset]))
    obtain ⟨q, rfl⟩ := Nat.exists_eq_add_of_le' hle
    rw [Nat.add_div_right _ (Nat.two_pow_pos d)] at hset
    have hq : q / 2 ^ d % 2 = 0 := by omega
    have hrest := testBit_setBit q d e
    rw [hq, Nat.zero_mul, Nat.sub_zero] at hrest
    rw [Nat.add_sub_cancel, hrest]
    by_cases he : e = d
    · subst he; simp [Nat.testBit_eq_decide_div_mod_eq, hq]
    · simp [he]

/-- A domain that is switched is as it was switched, and the others stay. -/
theorem State.pdOn_setPd_any (s : State) (d : Nat) (on : Bool) {e : Nat} (h0 : 0 < e) (he : e < 10) :
    (s.setPd d on).pdOn e = if e = d then on else s.pdOn e := by
  cases on with
  | true => rw [State.pdOn_setPd s he]; by_cases h : e = d <;> simp [h]
  | false =>
    rw [State.pdOn_iff, State.pdOn_iff, State.setPd, if_neg (by simp), State.get_put_self _ PWR_STAT_PDON _ (by decide),
      Nat.testBit_mod_two_pow, testBit_clearBit]
    have hne : (e == 0) = false := beq_false_of_ne h0.ne'
    by_cases h : e = d
    · subst h; simp [hne]
    · simp [PWR_STAT_PDON, he, hne, h]

/-- The fields of PWR_STAT below PDON leave the domains. -/
theorem State.pdOn_put (s : State) (f : Fld) (x d : Nat) (h : f.lsb + f.width ≤ 18) : (s.put f x).pdOn d = s.pdOn d := by
  rw [State.pdOn, State.get_put_other s f PWR_STAT_PDON x (h.trans (by decide)) (.inr (.inr h))]; rfl

theorem State.pdOn_setFlag (s : State) (f : Fld) (b : Bool) (d : Nat) (h : f.lsb + f.width ≤ 18) : (s.setFlag f b).pdOn d = s.pdOn d :=
  s.pdOn_put f b.toNat d h

/-! STATE (R85) -/

theorem State.devState_put (s : State) {n : Nat} (h : n < 8) : (s.put PWR_STAT_STATE n).devState = n := by
  rw [State.devState, State.get_put_self _ PWR_STAT_STATE _ (by decide)]
  exact Nat.mod_eq_of_lt h

theorem State.Frame.devState {s t : State} {ps : List Part} {os : List Nat} (h : s.Frame t ps os) (ho : PWR_STAT ∉ os) :
    t.devState = s.devState := h.get PWR_STAT_STATE ho (by decide)

theorem frame_setState (s : State) (st : Nat) : s.Frame (s.setState st) [] [PWR_STAT] :=
  State.Frame.ite (fun _ => (frame_put _ PWR_STAT_STATE _).trans (frame_setFlag _ PWR_STAT_LFSUB _)) (fun _ => frame_put _ PWR_STAT_STATE _)

theorem State.setState_shown (s : State) {st : Nat} (h : st < 8) :
    (s.setState st).devState = st ∧ ∀ d, (s.setState st).pdOn d = s.pdOn d := by
  have hstate := s.devState_put h
  have hon (d : Nat) := s.pdOn_put PWR_STAT_STATE st d (by decide)
  unfold State.setState
  dsimp only
  split
  · refine ⟨?_, fun d => (State.pdOn_setFlag _ PWR_STAT_LFSUB _ d (by decide)).trans (hon d)⟩
    exact (State.get_put_other _ PWR_STAT_LFSUB PWR_STAT_STATE _ (by decide) (by decide)).trans hstate
  · exact ⟨hstate, hon⟩

/-! A domain's registers (R13) -/

/-- A register whose domain is not reset reads as before. -/
theorem State.resetRegs_rd (s : State) (p : Nat → Bool) {off : Nat} (h : p (regDomain off) = false) :
    (s.resetRegs p).rd off = s.rd off := by
  rw [State.rd_eq, State.rd_eq, State.resetRegs]
  unfold storeGet
  rw [storeFind_filter (fun k => !p (regDomain k)), if_pos (by simp [h])]

theorem spares_resetRegs (s : State) (p : Nat → Bool) (ps : List Part) : s.Spares (s.resetRegs p) ps := fun q _ => by
  cases q <;> simp [Part.Same, State.framByte]

/-! Domains of the registers that stay (R69) -/

theorem regDomain_pwr : regDomain PWR_STAT = 1 ∧ regDomain PWR_MON = 1 := by decide +kernel

theorem regDomain_bookkeeping : ∀ i < 4, regDomain (RTC_RAM i) = 0 := by decide +kernel

end Sys2Proof.Machine
end

section
/-!
SUPPORT. PD6 to PD8 switched off and on (R69, R86): the converter's and the powerline's work stops, their registers are reset, PDON
follows.
-/

namespace Sys2Proof.Machine

/-! Work that stops (R86, R279) -/

/-- Registers that the end of every command may change need not be named. -/
theorem State.Frame.dropEnd {s t : State} {ps : List Part} {os os' : List Nat} (h : s.Frame t ps os)
    (hend : ∀ o ∈ os, o ∈ os' ∨ endReg o = true) : s.Frame t ps os' := by
  obtain ⟨hparts, hregs, hpending⟩ := h
  refine ⟨hparts, fun k hk he => hregs k (fun hmem => ?_) he, hpending⟩
  rcases hend k hmem with hin | hin
  · exact hk hin
  · rw [he] at hin; cases hin

theorem frame_sheetDrop (s : State) : s.Frame s.sheetDrop [.converter] [FCV_CSCTL] := by
  have hmissed : s.Frame (if s.fcv.cs = .held then
      ((s.bump FCV_CSMISS_CSMISS 1).event 0x0703 0 .momentary (match s.fcv.trig with | some t => t.seq.toNat | none => 0) 0 0).modFcv
        (fun f => { f with discarded := true }) else s) [.converter] [FCV_CSMISS] :=
    State.Frame.ite (fun _ => ((frame_bump _ FCV_CSMISS_CSMISS _).seq (frame_event _ _ _ _ _ _ _)).seq (frame_modFcv _ _))
      (fun _ => State.Frame.refl _ _ _)
  have hoff (u : State) (f : FcvState → FcvState) :
      u.Frame ((u.setFlag FCV_CSCTL_ARM false).fcvDo f) [.converter] [FCV_CSCTL, FCV_STAT] :=
    (frame_setFlag u FCV_CSCTL_ARM false).seq (frame_fcvDo _ f)
  have hdrop : s.Frame s.sheetDrop [.converter] [FCV_CSMISS, FCV_CSCTL, FCV_STAT] :=
    State.Frame.ite (fun _ => hmissed.mono (by simp) (by simp)) (fun _ => (hmissed.seq (hoff _ _)).mono (by simp) (by simp))
  exact hdrop.dropEnd (by decide)

theorem frame_fcvStop (s : State) :
    s.Frame s.fcvStop [.converter, .taken, .host, .writer] ([FCV_CSCTL, FCV_URGRES, FCV_URG] ++ cplRegs) :=
  ((((frame_sheetDrop s).seq (frame_doneAll _ _ _ _)).seq (frame_urgentLost _)).seq (frame_modFcv _ _)).mono (by simp)
    (by decide)

theorem frame_lineCut (s : State) : s.Frame s.lineCut [.powerline] [] := by
  unfold State.lineCut
  split
  · exact State.Frame.ite (fun _ => State.Frame.refl _ _ _) (fun _ => frame_modPlc _ _)
  · exact State.Frame.refl _ _ _

theorem frame_rehashAbort (s : State) (cause : Nat) : s.Frame (s.rehashAbort cause) [.powerline] [NET_STAT, NET_DIRCTL] :=
  State.Frame.ite (fun _ => State.Frame.refl _ _ _)
    (fun _ => (((frame_setFlag _ NET_STAT_REHASH _).seq (frame_setFlag _ NET_DIRCTL_REHASH _)).seq ((frame_modPlc _ _).seq
      (frame_event _ _ _ _ _ _ _))).mono (by simp) (by decide))

theorem frame_rxRelease (s : State) : s.Frame s.rxRelease [.converter] [PLC_STAT] := by
  have hend : s.Frame s.rxRelease [.converter] [FCV_STAT, PLC_STAT] :=
    State.Frame.ite
      (fun _ => (((frame_fcvDo s _).seq (frame_setFlag _ PLC_STAT_RXBUSY _)).seq (frame_setFlag _ PLC_STAT_CD _)).mono (by simp) (by decide))
      (fun _ => (frame_setFlag _ PLC_STAT_CD _).mono (by simp) (by decide))
  exact hend.dropEnd (by decide)

/-- The converter's work stops while PD6 is on. -/
def State.fcvEnded (s : State) : State := if s.pdOn 6 then s.fcvStop else s

/-- The registers that stopping the powerline may change. -/
def plcEndRegs : List Nat := [NET_STAT, NET_DIRCTL, PLC_STAT, HIF_RDROP 10] ++ descRegs

/-- After the converter's work the powerline's stops. -/
theorem frame_plcEnded (s : State) : s.fcvEnded.Frame s.stopFcvPlc [.converter, .host, .powerline] plcEndRegs := by
  have hplc (u : State) : u.Frame (((((u.lineCut).framesAbort 9).framesAbort 12).rehashAbort 1).rxRelease) [.converter, .host, .powerline]
      plcEndRegs :=
    (((((frame_lineCut u).seq (frame_framesAbort _ _)).seq (frame_framesAbort _ _)).seq (frame_rehashAbort _ _)).seq
      (frame_rxRelease _)).mono (by decide) (by decide)
  have hvld (u : State) : u.Frame (if u.plc.refusedVld then u.event 0x0807 0 .stop 0 0 0 else u) [.converter, .host, .powerline]
      plcEndRegs :=
    State.Frame.ite (fun _ => (frame_event _ _ _ _ _ _ _).mono (by simp) (by simp)) (fun _ => State.Frame.refl _ _ _)
  have hrx (u : State) (n : Nat) (f : PlcState → PlcState) : u.Frame ((u.dropMany 10 n).modPlc f) [.converter, .host, .powerline]
      plcEndRegs :=
    ((frame_dropMany u 10 n).seq (frame_modPlc _ f)).mono (by decide) (by decide)
  exact State.Frame.ite (fun _ => State.Frame.refl _ _ _) (fun _ => ((hplc _).trans (hvld _)).trans (hrx _ _ _))

/-- The parts that stopping the converter and the powerline may change. -/
def stopParts : List Part := [.converter, .taken, .host, .writer, .powerline]

/-- The registers that stopping the converter and the powerline may change. -/
def fcvPlcRegs : List Nat := [FCV_CSCTL, FCV_URGRES, FCV_URG] ++ plcEndRegs ++ cplRegs

theorem frame_stopFcvPlc (s : State) : s.Frame s.stopFcvPlc stopParts fcvPlcRegs := by
  have hfcv : s.Frame s.fcvEnded stopParts fcvPlcRegs :=
    State.Frame.ite (fun _ => (frame_fcvStop s).mono (by decide) (by decide)) (fun _ => State.Frame.refl _ _ _)
  exact hfcv.trans ((frame_plcEnded s).mono (by decide) (by decide))

/-! PD6 to PD8 off -/

/-- What PD6 to PD8 being off leaves: every part that they do not work for, PWR_MON, and PWR_STAT below PDON. -/
structure State.FcvPlcOff (s t : State) : Prop where
  spares : s.Spares t [.exposure, .ledger, .clock, .safety, .fram, .inputs, .windows, .pulses, .link, .power, .checks]
  mon : t.rd PWR_MON = s.rd PWR_MON
  stat : ∀ f : Fld, f.off = PWR_STAT → f.lsb + f.width ≤ 18 → t.get f = s.get f
  off : ∀ d ∈ [6, 7, 8], t.pdOn d = false

theorem State.offFcvPlc_off (s : State) : s.FcvPlcOff s.offFcvPlc := by
  obtain ⟨hstat, hmon⟩ := regDomain_pwr
  have hstop := frame_stopFcvPlc s
  have hreset : s.stopFcvPlc.Spares _ _ :=
    spares_resetRegs s.stopFcvPlc (fun d => decide (6 ≤ d) && decide (d ≤ 8))
      [.exposure, .ledger, .clock, .safety, .fram, .inputs, .windows, .pulses, .link, .power, .checks]
  have hpd (u : State) : u.Frame (((u.setPd 6 false).setPd 7 false).setPd 8 false) [] [PWR_STAT] :=
    ((frame_setPd u _ _).trans (frame_setPd _ _ _)).trans (frame_setPd _ _ _)
  refine ⟨((hstop.spares (by decide)).trans hreset).trans ((hpd _).spares (by decide)), ?_, fun f hoff hlow => ?_, fun d hd => ?_⟩
  · rw [State.offFcvPlc, (hpd _).rd (by decide) (by decide), State.resetRegs_rd _ _ (by rw [hmon]; rfl),
      hstop.rd (by decide) (by decide)]
  · simp only [State.offFcvPlc, State.get_setPd_other _ _ _ _ hlow]
    rw [State.get, hoff, State.resetRegs_rd _ _ (by rw [hstat]; rfl), hstop.rd (by decide) (by decide), State.get, hoff]
  · have hrange : ∀ d ∈ [6, 7, 8], 0 < d ∧ d < 10 := by decide
    obtain ⟨hpos, hlt⟩ := hrange d hd
    simp only [State.offFcvPlc, State.pdOn_setPd_any _ _ _ hpos hlt]
    simp only [List.mem_cons, List.not_mem_nil, or_false] at hd
    rcases hd with rfl | rfl | rfl <;> simp

/-! PD6 to PD8 on -/

/-- Transmissions refused while VLD is out of range, with an event at each change (R313). -/
def State.vldFollowed (s : State) : State :=
  if s.vldIn then
    if s.plc.refusedVld then (s.modPlc (fun p => { p with refusedVld := false })).event 0x0807 0 .stop 0 0 0 else s
  else if s.plc.refusedVld then s
  else (s.modPlc (fun p => { p with refusedVld := true })).event 0x0807 0 .start 0 0 0

theorem frame_vldFollowed (s : State) : s.Frame s.vldFollowed [.powerline] [] := by
  have hevent (f : PlcState → PlcState) (e : EvEdge) : s.Frame ((s.modPlc f).event 0x0807 0 e 0 0 0) [.powerline] [] :=
    (frame_modPlc s f).seq (frame_event _ _ _ _ _ _ _)
  exact State.Frame.ite (fun _ => State.Frame.ite (fun _ => hevent _ _) (fun _ => State.Frame.refl _ _ _))
    (fun _ => State.Frame.ite (fun _ => State.Frame.refl _ _ _) (fun _ => hevent _ _))

/-- PD8 as it follows PD7 and the monitor of VLD. -/
def State.ldrvSet (s : State) : State :=
  (if s.pdOn 7 && s.vldIn then s else s.lineCut).setPd 8 (s.pdOn 7 && s.vldIn)

theorem frame_ldrvUpdate (s : State) : s.ldrvSet.Frame s.ldrvUpdate [.powerline] [PLC_STAT] := by
  have hshown (u : State) (b : Bool) : u.Frame ((u.setFlag PLC_STAT_VLDOK b).vldFollowed) [.powerline] [PLC_STAT] :=
    (frame_setFlag u PLC_STAT_VLDOK b).seq (frame_vldFollowed _)
  exact State.Frame.ite (fun _ => State.Frame.refl _ _ _) (fun _ => hshown _ _)

theorem frame_ldrvSet (s : State) : s.Frame s.ldrvSet [.powerline] [PWR_STAT] := by
  have hcut : s.Frame (if s.pdOn 7 && s.vldIn then s else s.lineCut) [.powerline] [] :=
    State.Frame.ite (fun _ => State.Frame.refl _ _ _) (fun _ => frame_lineCut s)
  exact hcut.seq (frame_setPd _ _ _)

theorem State.ldrvSet_pdOn (s : State) {d : Nat} (h0 : 0 < d) (hd : d < 10) :
    s.ldrvSet.pdOn d = if d = 8 then s.pdOn 7 && s.vldIn else s.pdOn d := by
  rw [State.ldrvSet, State.pdOn_setPd_any _ _ _ h0 hd]
  congr 1
  split
  · rfl
  · exact (frame_lineCut s).pdOn (by simp) d

/-- What switching PD6 to PD8 on leaves; PD8 follows VLD. -/
theorem State.onFcvPlc_on (s : State) : s.Frame s.onFcvPlc [.powerline] [PWR_STAT, PLC_STAT] ∧
    s.onFcvPlc.pdOn 6 = true ∧ s.onFcvPlc.pdOn 7 = true ∧ s.onFcvPlc.pdOn 8 = s.vldIn := by
  have hon := (frame_setPd s 6 true).trans (frame_setPd _ 7 true)
  have hset := frame_ldrvSet ((s.setPd 6 true).setPd 7 true)
  have hrest : ((s.setPd 6 true).setPd 7 true).ldrvSet.Frame s.onFcvPlc [.powerline] [PLC_STAT] :=
    ((frame_ldrvUpdate _).seq (frame_setFlag _ PLC_STAT_MASKERR _)).mono (by simp) (by decide)
  have hvld : ((s.setPd 6 true).setPd 7 true).vldIn = s.vldIn := by
    rw [State.vldIn, show ((s.setPd 6 true).setPd 7 true).pwr = s.pwr from hon.part (p := .power) (by simp)]; rfl
  have hpd {d : Nat} (h0 : 0 < d) (hd : d < 10) : s.onFcvPlc.pdOn d =
      if d = 8 then s.vldIn else if d = 7 then true else if d = 6 then true else s.pdOn d := by
    rw [show s.onFcvPlc.pdOn d = _ from hrest.pdOn (by decide) d, State.ldrvSet_pdOn _ h0 hd, hvld,
      State.pdOn_setPd_any _ _ _ (by decide) (by decide)]
    simp only [State.pdOn_setPd_any _ _ _ h0 hd]
    rfl
  exact ⟨((hon.seq hset).seq hrest).mono (by simp) (by decide), hpd (by decide) (by decide), hpd (by decide) (by decide),
    hpd (by decide) (by decide)⟩

end Sys2Proof.Machine
end

section
/-!
SUPPORT. The loss of PD2 to PD9 (R13, R70, R78, R86): what lies in PD0, in PD1 and in the FRAM stays.
-/

namespace Sys2Proof.Machine

/-- The registers of PD2 to PD9 and of the capture latch reset, and PD0 and PD1 alone on. -/
def State.domainsOff (s : State) : State :=
  ((((s.resetRegs (fun d => decide (2 ≤ d))).put PWR_STAT_PDON 3).putWide [RTC_CAPSEC_LO, RTC_CAPSEC_HI] 0).put RTC_CAPFRAC_CAP 0).setFlag
    RTC_STAT_CAPVALID false

/-- What PD2 to PD9 hold beside registers, emptied; the FRAM, and what has left the device, stay. -/
def State.coreEmptied (s : State) (hif : HifState) : State :=
  { s with
    taken := []
    exp := { ExpState.reset with now := s.exp.now, edgeAt := s.exp.edgeAt, lfAt := s.exp.lfAt }
    ldg := LdgState.reset
    evt := EvtState.reset
    pio := PioState.reset
    fcv := FcvState.reset
    cvu := CvuState.reset
    plc := { PlcState.reset with out := s.lineCut.plc.out }
    prf := { PrfState.reset with fram := s.prf.fram, sealN := s.prf.sealN }
    hif := hif
    saf := { SafState.reset with wdtEvent := s.saf.wdtEvent }
    tzl := { TzlState.reset with out := s.tzl.out } }

/-- What the loss of the core ends in PD0: a capture and a step asked for, and a PWR_CYCLE in progress. -/
def State.clockEnded (s : State) (step cycle : Bool) : State :=
  let t := (s.modRtc (fun r => { r with capture := false, step := if step then none else r.step })).rtcPend
  if cycle then (t.setFlag RTC_PWRCTL_CYC false).showPwr 0 else t

theorem State.coreReset_eq (s : State) : ∃ hif step cycle, s.coreReset = (s.domainsOff.coreEmptied hif).clockEnded step cycle := by
  refine ⟨{ HifState.reset with
      out := s.hif.out, latchHspi := s.hif.latchHspi, stageHspi := s.hif.stageHspi, hspiOut := s.hif.hspiOut, pcieRead := s.hif.pcieRead },
    s.taken.any (fun t => t.wait == Wait.rtcStep), s.taken.any (fun t => match t.wait with | .pwrCycle _ => true | _ => false), ?_⟩
  unfold State.coreReset State.clockEnded State.coreEmptied State.domainsOff
  rfl

theorem State.coreEmptied_regs (s : State) (hif : HifState) : (s.coreEmptied hif).regs = s.regs := rfl

theorem State.coreEmptied_taken (s : State) (hif : HifState) : (s.coreEmptied hif).taken = [] := rfl

theorem spares_coreEmptied (s : State) (hif : HifState) : s.Spares (s.coreEmptied hif) [.power, .fram] := by
  intro p hp
  cases p <;> simp [State.coreEmptied, Part.Same, State.framByte] at hp ⊢

theorem frame_clockEnded (s : State) (step cycle : Bool) :
    s.Frame (s.clockEnded step cycle) [.clock] [RTC_STAT, RTC_PWRCTL, RTC_RAM 16, RTC_RAM 17, RTC_RAM 18] := by
  have hpend (f : RtcState → RtcState) := (frame_modRtc s f).seq (frame_rtcPend _)
  exact State.Frame.ite
    (fun _ => (((hpend _).seq (frame_setFlag _ RTC_PWRCTL_CYC _)).seq (frame_showPwr _ _)).mono (by simp) (by decide))
    (fun _ => (hpend _).mono (by simp) (by decide))

/-- Registers that the loss of the core changes in PD0 and PD1. -/
def coreRegs : List Nat :=
  [PWR_STAT, RTC_CAPSEC_LO, RTC_CAPSEC_HI, RTC_CAPFRAC, RTC_STAT, RTC_PWRCTL, RTC_RAM 16, RTC_RAM 17, RTC_RAM 18]

/-- The registers after the domains' own are reset. -/
theorem frame_domainsOff (s : State) : (s.resetRegs (fun d => decide (2 ≤ d))).Frame s.domainsOff [] coreRegs :=
  ((((frame_put _ PWR_STAT_PDON _).seq (frame_putWide _ _ _)).seq (frame_put _ RTC_CAPFRAC_CAP _)).seq
    (frame_setFlag _ RTC_STAT_CAPVALID _)).mono (by simp) (by decide)

/-- Where PDON alone is written, the other fields of PWR_STAT stay. -/
theorem State.domainsOff_put (s : State) : ((s.resetRegs (fun d => decide (2 ≤ d))).put PWR_STAT_PDON 3).Frame s.domainsOff []
    [RTC_CAPSEC_LO, RTC_CAPSEC_HI, RTC_CAPFRAC, RTC_STAT] :=
  (((frame_putWide _ _ _).seq (frame_put _ RTC_CAPFRAC_CAP _)).seq (frame_setFlag _ RTC_STAT_CAPVALID _)).mono (by simp) (by decide)

/-- What a loss of PD2 to PD9 leaves. -/
structure State.CoreLost (s t : State) : Prop where
  pwr : t.pwr = s.pwr
  taken : t.taken = []
  fram : ∀ a, t.framByte a = s.framByte a
  rd : ∀ off, regDomain off < 2 → off ∉ coreRegs → endReg off = false → t.rd off = s.rd off
  stat : ∀ f : Fld, f.off = PWR_STAT → f.lsb + f.width ≤ 18 → t.get f = s.get f
  off : ∀ d, 2 ≤ d → d ≤ 9 → t.pdOn d = false

theorem State.coreReset_lost (s : State) : s.CoreLost s.coreReset := by
  obtain ⟨hif, step, cycle, heq⟩ := s.coreReset_eq
  have hclock := frame_clockEnded (s.domainsOff.coreEmptied hif) step cycle
  have hregs {off : Nat} (h : regDomain off < 2) : (s.resetRegs (fun d => decide (2 ≤ d))).rd off = s.rd off :=
    State.resetRegs_rd s _ (decide_eq_false (by omega))
  have hemptied (k : Nat) : (s.domainsOff.coreEmptied hif).rd k = s.domainsOff.rd k :=
    State.rd_of_regs (State.coreEmptied_regs _ hif) k
  have hstat (k : Fld) (hk : k.off = PWR_STAT) :
      s.coreReset.get k = ((s.resetRegs (fun d => decide (2 ≤ d))).put PWR_STAT_PDON 3).get k := by
    rw [heq, hclock.get k (by rw [hk]; decide) (by rw [hk]; decide), State.get, hemptied,
      (State.domainsOff_put s).rd (by rw [hk]; decide) (by rw [hk]; decide), State.get]
  rw [heq] at hstat ⊢
  have hkept : s.Spares ((s.domainsOff.coreEmptied hif).clockEnded step cycle) [.power, .fram] :=
    ((spares_resetRegs s _ _).trans ((frame_domainsOff s).spares (by decide))).trans
      ((spares_coreEmptied _ hif).trans (hclock.spares (by decide)))
  refine ⟨hkept .power (by simp), Eq.trans (hclock.part (p := .taken) (by simp)) (State.coreEmptied_taken _ hif), hkept .fram (by simp),
    fun off hdomain hapart hend => ?_, fun f hoff hlow => ?_, fun d hlow hhigh => ?_⟩
  · have hsub : [RTC_STAT, RTC_PWRCTL, RTC_RAM 16, RTC_RAM 17, RTC_RAM 18] ⊆ coreRegs := by decide
    rw [hclock.rd (fun h => hapart (hsub h)) hend, hemptied, (frame_domainsOff s).rd hapart hend, hregs hdomain]
  · rw [hstat f hoff, State.get_put_other _ _ _ _ (by decide) (.inr (.inl hlow)), State.get, hoff, hregs (by rw [regDomain_pwr.1]; decide),
      State.get, hoff]
  · have hthree : ∀ d, 2 ≤ d → d ≤ 9 → (3 % 2 ^ 10 / 2 ^ d % 2 == 1) = false := by
      intro d h2 h9
      interval_cases d <;> rfl
    have hd0 : (d == 0) = false := beq_false_of_ne (by omega)
    rw [State.pdOn, hstat PWR_STAT_PDON rfl, State.get_put_self _ _ _ (by decide), hd0, Bool.false_or]
    exact hthree d hlow hhigh

end Sys2Proof.Machine
end

section
/-!
SUPPORT. Changes of device state (R86): what a TARGET that names another state begins.
-/

namespace Sys2Proof.Machine

/-! A TARGET that begins a change (R86) -/

/-- PWR_CTL as written. -/
def State.ctlWritten (s : State) (w : WriteBy) (v : BitVec 32) : State := s.storeWrite w PWR_CTL v

theorem frame_ctlWritten (s : State) (w : WriteBy) (v : BitVec 32) : s.Frame (s.ctlWritten w v) [] [PWR_CTL] :=
  frame_storeWrite_plain s w PWR_CTL v (by decide)

theorem State.ctlWritten_writable (s : State) (w : WriteBy) (v : BitVec 32) :
    (s.ctlWritten w v).writable w PWR_CTL = s.writable w PWR_CTL := by
  have hctl := frame_ctlWritten s w v
  rw [State.writable, State.writable, hctl.pdOn (by decide), hctl.flag PWR_STAT_ASBUSY (by decide) (by decide), State.pd1On, State.pd1On,
    show (s.ctlWritten w v).pwr = s.pwr from hctl.part (p := .power) (by simp)]

/-- A TARGET written in RUN or METER is taken up. -/
theorem State.wrPwrCtl_target {s : State} {w : WriteBy} {v : BitVec 32} (hw : s.writable w PWR_CTL = true)
    (hstate : s.devState = stRun ∨ s.devState = stMeter) (hv : v.toNat % 4 ≠ 3) :
    s.wrPwrCtl w v = (s.ctlWritten w v).takeTarget (v.toNat % 4) := by
  have hdev := (frame_ctlWritten s w v).devState (by decide)
  have hwritable := s.ctlWritten_writable w v
  have hstandby : (s.ctlWritten w v).devState ≠ stStandby := by rw [hdev]; rcases hstate with h | h <;> rw [h] <;> decide
  have htrans : (s.ctlWritten w v).devState ≠ stTrans := by rw [hdev]; rcases hstate with h | h <;> rw [h] <;> decide
  exact (if_neg (by rw [← State.ctlWritten, hwritable]; simp [hw, hv])).trans ((if_neg hstandby).trans (if_neg htrans))

/-- The change that a TARGET begins in a state. -/
def targetChange (state target : Nat) (c : Change) : Prop :=
  (state = stRun ∧ target = 1 ∧ c = .toMeter) ∨ (state = stMeter ∧ target = 0 ∧ c = .toRun) ∨
    ((state = stRun ∨ state = stMeter) ∧ target = 2 ∧ c = .toStandby)

theorem State.takeTarget_changes {s : State} {n : Nat} {c : Change} (hpf : s.flag PWR_STAT_PFAIL = false)
    (h : targetChange s.devState n c) : s.takeTarget n = s.changeTo c := by
  unfold State.takeTarget
  rw [if_neg (by simp [hpf])]
  rcases h with ⟨hst, hn, rfl⟩ | ⟨hst, hn, rfl⟩ | ⟨hst | hst, hn, rfl⟩ <;> simp [hst, hn, stRun, stMeter]

/-- The change as it begins: TRANS, with the change noted. -/
def State.changeBegun (s : State) (c : Change) : State :=
  (s.put PWR_STAT_STATE stTrans).modPwr (fun p => { p with change := c, stopRan := s.exp.running })

theorem frame_changeBegun (s : State) (c : Change) : s.Frame (s.changeBegun c) [.power] [PWR_STAT] :=
  (frame_put s PWR_STAT_STATE stTrans).seq (frame_modPwr _ _)

theorem State.changeBegun_shown (s : State) (c : Change) : (s.changeBegun c).devState = stTrans ∧ (s.changeBegun c).pwr.change = c :=
  ⟨(((frame_modPwr _ _).devState (by simp)).trans (s.devState_put (n := stTrans) (by decide)) :), rfl⟩

/-- What a change stops at once. -/
def State.changeStops (s : State) (c : Change) : State :=
  if c = .toMeter then s.stopFcvPlc else if c = .toStandby ∧ s.pdOn 6 then s.sheetDrop else s

/-- The parts and registers of what a change stops at once. -/
def changeStopParts : Change → List Part
  | .toMeter => stopParts
  | .toStandby => [.converter]
  | _ => []

def changeStopRegs : Change → List Nat
  | .toMeter => fcvPlcRegs
  | .toStandby => [FCV_CSCTL]
  | _ => []

theorem frame_changeStops (s : State) (c : Change) : s.Frame (s.changeStops c) (changeStopParts c) (changeStopRegs c) := by
  cases c
  case toMeter => exact frame_stopFcvPlc s
  case toStandby =>
    have hstandby : s.changeStops .toStandby = if s.pdOn 6 then s.sheetDrop else s := by simp [State.changeStops]
    rw [hstandby]
    exact State.Frame.ite (fun _ => frame_sheetDrop s) (fun _ => State.Frame.refl _ _ _)
  all_goals exact State.Frame.refl _ _ _

theorem exec_target_eq (p : Port) (v : BitVec 32) (s : State) :
    exec (.targetMeter p v) s = .next ((s.wrPwrCtl (.port p) v).settle s.irqLive) ∧
      exec (.targetRun p v) s = .next ((s.wrPwrCtl (.port p) v).settle s.irqLive) ∧
      exec (.targetStandby p v) s = .next ((s.wrPwrCtl (.port p) v).settle s.irqLive) := ⟨rfl, rfl, rfl⟩

/-- A TARGET that names another state: TRANS, and what the change stops. -/
theorem State.wrPwrCtl_changes {s : State} {w : WriteBy} {v : BitVec 32} {c : Change} (hw : s.writable w PWR_CTL = true)
    (hpf : s.flag PWR_STAT_PFAIL = false) (hc : targetChange s.devState (v.toNat % 4) c) (b : Nat) :
    ((s.wrPwrCtl w v).settle b).devState = stTrans ∧ ((s.wrPwrCtl w v).settle b).pwr.change = c ∧
      s.Frame ((s.wrPwrCtl w v).settle b) (.power :: changeStopParts c) (PWR_CTL :: PWR_STAT :: changeStopRegs c) := by
  have hctl := frame_ctlWritten s w v
  have hdev := hctl.devState (by decide)
  have hstate : s.devState = stRun ∨ s.devState = stMeter := by
    rcases hc with ⟨h, -⟩ | ⟨h, -⟩ | ⟨h, -⟩
    · exact .inl h
    · exact .inr h
    · exact h
  have hv : v.toNat % 4 ≠ 3 := by rcases hc with ⟨-, h, -⟩ | ⟨-, h, -⟩ | ⟨-, h, -⟩ <;> omega
  have heq : s.wrPwrCtl w v = ((s.ctlWritten w v).changeBegun c).changeStops c := by
    rw [State.wrPwrCtl_target hw hstate hv, State.takeTarget_changes (c := c)]
    · rfl
    · rw [hctl.flag PWR_STAT_PFAIL (by decide) (by decide), hpf]
    · rwa [hdev]
  have hstops := (frame_changeStops ((s.ctlWritten w v).changeBegun c) c).settle b
  obtain ⟨htrans, hchange⟩ := (s.ctlWritten w v).changeBegun_shown c
  have hapart : PWR_STAT ∉ changeStopRegs c ∧ Part.power ∉ changeStopParts c := by cases c <;> decide
  rw [heq]
  refine ⟨(hstops.devState hapart.1).trans htrans, ?_, (((hctl.seq (frame_changeBegun _ c)).seq hstops).mono ?_ ?_)⟩
  · exact (congrArg PwrState.change (hstops.part (p := .power) hapart.2)).trans hchange
  · simp
  · simp

end Sys2Proof.Machine
end

section
/-!
SUPPORT. The end of the switching that a change of device state waits for, and the wake from STANDBY (R70, R86).
-/

namespace Sys2Proof.Machine

theorem exec_domainSwitchComplete_eq (s : State) : exec .domainSwitchComplete s = .next (s.switchDone.settle s.irqLive) := rfl

/-- No TARGET was written during TRANS. -/
theorem State.transEnd_none {s : State} (h : s.pwr.want = none) : s.transEnd = s := by unfold State.transEnd; rw [h]

/-! METER and RUN (R86) -/

/-- STATE as a change ends. -/
def State.switched (s : State) (st : Nat) : State := (s.setState st).modPwr (fun p => { p with change := .none })

theorem frame_switched (s : State) (st : Nat) : s.Frame (s.switched st) [.power] [PWR_STAT] :=
  (frame_setState s st).seq (frame_modPwr _ _)

/-- What a switched state shows at the end of its command. -/
theorem State.switched_shown (s : State) {st : Nat} (h : st < 8) (b : Nat) : ((s.switched st).settle b).devState = st ∧
    ((s.switched st).settle b).pwr.change = .none ∧ ∀ d, ((s.switched st).settle b).pdOn d = s.pdOn d := by
  have hpwr := (frame_modPwr (s.setState st) (fun p => { p with change := .none })).settle b
  obtain ⟨hstate, hon⟩ := s.setState_shown h
  exact ⟨(hpwr.devState (by simp)).trans hstate, by rw [State.settle_pwr]; rfl, fun d => (hpwr.pdOn (by simp) d).trans (hon d)⟩

theorem State.switched_want (s : State) (st : Nat) : (s.switched st).pwr.want = s.pwr.want := by
  have hpwr : (s.setState st).pwr = s.pwr := (frame_setState s st).part (p := .power) (by simp)
  rw [← hpwr]
  rfl

theorem State.switchDone_toMeter {s : State} (hchange : s.pwr.change = .toMeter) (hwant : s.pwr.want = none) :
    s.switchDone = s.offFcvPlc.switched stMeter := by
  have hpwr : s.offFcvPlc.pwr = s.pwr := s.offFcvPlc_off.spares .power (by simp)
  have hdone : s.switchDone = (s.offFcvPlc.switched stMeter).transEnd := by unfold State.switchDone; rw [hchange]; rfl
  rw [hdone, State.transEnd_none]
  rw [State.switched_want, hpwr, hwant]

theorem State.switchDone_toRun {s : State} (hchange : s.pwr.change = .toRun) (hwant : s.pwr.want = none) :
    s.switchDone = s.onFcvPlc.switched stRun := by
  have hpwr : s.onFcvPlc.pwr = s.pwr := s.onFcvPlc_on.1.part (p := .power) (by simp)
  have hdone : s.switchDone = (s.onFcvPlc.switched stRun).transEnd := by unfold State.switchDone; rw [hchange]; rfl
  rw [hdone, State.transEnd_none]
  rw [State.switched_want, hpwr, hwant]

theorem exec_domainSwitchComplete_meter {s : State} (hchange : s.pwr.change = .toMeter) (hwant : s.pwr.want = none) :
    ∃ t, exec .domainSwitchComplete s = .next t ∧ t.devState = stMeter ∧ t.pwr.change = .none ∧
      (∀ d ∈ [6, 7, 8], t.pdOn d = false) ∧ t.exp = s.exp ∧ t.ldg = s.ldg := by
  rw [exec_domainSwitchComplete_eq, State.switchDone_toMeter hchange hwant]
  have hoff := s.offFcvPlc_off
  have hend := (frame_switched s.offFcvPlc stMeter).settle s.irqLive
  obtain ⟨hstate, hnone, hon⟩ := s.offFcvPlc.switched_shown (st := stMeter) (by decide) s.irqLive
  exact ⟨_, rfl, hstate, hnone, fun d hd => (hon d).trans (hoff.off d hd),
    Eq.trans (hend.part (p := .exposure) (by simp)) (hoff.spares .exposure (by simp)),
    Eq.trans (hend.part (p := .ledger) (by simp)) (hoff.spares .ledger (by simp))⟩

theorem exec_domainSwitchComplete_run {s : State} (hchange : s.pwr.change = .toRun) (hwant : s.pwr.want = none) :
    ∃ t, exec .domainSwitchComplete s = .next t ∧ t.devState = stRun ∧ t.pwr.change = .none ∧ t.pdOn 6 = true ∧ t.pdOn 7 = true ∧
      t.pdOn 8 = s.vldIn ∧ t.exp = s.exp ∧ t.ldg = s.ldg := by
  rw [exec_domainSwitchComplete_eq, State.switchDone_toRun hchange hwant]
  obtain ⟨hframe, h6, h7, h8⟩ := s.onFcvPlc_on
  have hend := hframe.seq ((frame_switched s.onFcvPlc stRun).settle s.irqLive)
  obtain ⟨hstate, hnone, hon⟩ := s.onFcvPlc.switched_shown (st := stRun) (by decide) s.irqLive
  exact ⟨_, rfl, hstate, hnone, (hon 6).trans h6, (hon 7).trans h7, (hon 8).trans h8, hend.part (p := .exposure) (by simp),
    hend.part (p := .ledger) (by simp)⟩

/-! STANDBY (R86) -/

/-- What ends before STANDBY: the work of PD6 to PD8, and the commands of the mailbox (log 33). -/
def State.standbyEnded (s : State) : State :=
  s.stopFcvPlc.doneAll (fun t => match t.hdr.src with | .mailbox _ => true | _ => false) stAborted (fun _ => (0, 0, 0))

theorem frame_standbyEnded (s : State) : s.Frame s.standbyEnded stopParts fcvPlcRegs :=
  (frame_stopFcvPlc s).trans ((frame_doneAll _ _ _ _).mono (by decide) (by decide))

/-- STANDBY in PWR_STAT: no clock is good, and nothing is busy. -/
def State.standbyShown (s : State) : State :=
  (((((s.setFlag PWR_STAT_HFOK false).setFlag PWR_STAT_PLLLOCK false).setFlag PWR_STAT_LFOK false).setFlag PWR_STAT_LFSUB false).setFlag
    PWR_STAT_ASBUSY false).put PWR_STAT_STATE stStandby

/-- The power state of STANDBY. -/
def State.standbyTaken (s : State) : State :=
  (s.modPwr (fun p => { p with change := .none, phase := .standby, wake := false, stopRan := false })).modPwr
    (fun p => { p with want := none })

theorem frame_standbyShown (s : State) : s.Frame s.standbyShown [] [PWR_STAT] :=
  (((((frame_setFlag _ PWR_STAT_HFOK _).trans (frame_setFlag _ PWR_STAT_PLLLOCK _)).trans (frame_setFlag _ PWR_STAT_LFOK _)).trans
    (frame_setFlag _ PWR_STAT_LFSUB _)).trans (frame_setFlag _ PWR_STAT_ASBUSY _)).trans (frame_put _ PWR_STAT_STATE _)

theorem State.standbyShown_state (s : State) : s.standbyShown.devState = stStandby ∧ ∀ d, s.standbyShown.pdOn d = s.pdOn d := by
  refine ⟨State.devState_put _ (n := stStandby) (by decide), fun d => ?_⟩
  rw [State.standbyShown, State.pdOn_put _ _ _ _ (by decide), State.pdOn_setFlag _ _ _ _ (by decide),
    State.pdOn_setFlag _ _ _ _ (by decide), State.pdOn_setFlag _ _ _ _ (by decide), State.pdOn_setFlag _ _ _ _ (by decide),
    State.pdOn_setFlag _ _ _ _ (by decide)]

theorem frame_standbyTaken (s : State) : s.Frame s.standbyTaken [.power] [] := (frame_modPwr _ _).trans (frame_modPwr _ _)

theorem State.switchDone_toStandby {s : State} (hchange : s.pwr.change = .toStandby) (hwant : s.pwr.want = none)
    (hrun : s.exp.running = false) (hproof : s.proofOpen 3 = false) (hphase : s.prf.phase = .idle) :
    s.switchDone = s.standbyEnded.coreReset.standbyShown.standbyTaken := by
  have hfree : ¬ (s.exp.running || s.proofOpen 3 || s.prf.phase != .idle) = true := by rw [hrun, hproof, hphase]; decide
  unfold State.switchDone
  rw [hchange]
  dsimp only
  rw [if_neg hfree, hwant]
  rfl

theorem exec_domainSwitchComplete_standby {s : State} (hchange : s.pwr.change = .toStandby) (hwant : s.pwr.want = none)
    (hrun : s.exp.running = false) (hproof : s.proofOpen 3 = false) (hphase : s.prf.phase = .idle) :
    ∃ t, exec .domainSwitchComplete s = .next t ∧ t.devState = stStandby ∧ t.pwr.phase = .standby ∧
      (∀ d, 2 ≤ d → d ≤ 9 → t.pdOn d = false) ∧ t.taken = [] ∧ (∀ a, t.framByte a = s.framByte a) := by
  rw [exec_domainSwitchComplete_eq, State.switchDone_toStandby hchange hwant hrun hproof hphase]
  have hlost := s.standbyEnded.coreReset_lost
  have htaken := (frame_standbyTaken s.standbyEnded.coreReset.standbyShown).settle s.irqLive
  have hend := (frame_standbyShown s.standbyEnded.coreReset).seq htaken
  obtain ⟨hstate, hon⟩ := s.standbyEnded.coreReset.standbyShown_state
  have hfram : ∀ a, s.standbyEnded.framByte a = s.framByte a := (frame_standbyEnded s).part (p := .fram) (by decide)
  have hkept : ∀ a, _ = s.standbyEnded.coreReset.framByte a := hend.part (p := .fram) (by simp)
  refine ⟨_, rfl, (htaken.devState (by simp)).trans hstate, by rw [State.settle_pwr]; rfl, fun d h2 h9 => ?_,
    Eq.trans (hend.part (p := .taken) (by simp)) hlost.taken, fun a => ((hkept a).trans (hlost.fram a)).trans (hfram a)⟩
  rw [htaken.pdOn (by simp), hon, hlost.off d h2 h9]

/-! The wake (R70, R86) -/

/-- TRANS at the wake. -/
def State.waking (s : State) : State :=
  (s.put PWR_STAT_STATE stTrans).modPwr (fun p => { p with wake := true, change := .none, want := none })

theorem State.wakeUp_eq {s : State} (hstate : s.devState = stStandby) (hpf : s.flag PWR_STAT_PFAIL = false) :
    s.wakeUp = if s.pwr.coreLow then s.waking.modPwr (fun p => { p with phase := .inReset, pd1Kept := true })
      else s.waking.coreUp.phaseNext .sourceSelect := by
  unfold State.wakeUp
  rw [if_neg (by simp [hstate, hpf])]
  rfl

theorem State.waking_shown (s : State) : s.waking.devState = stTrans ∧ s.waking.pwr.wake = true ∧
    ∀ d, s.waking.pdOn d = s.pdOn d := by
  have hpwr := frame_modPwr (s.put PWR_STAT_STATE stTrans) (fun p => { p with wake := true, change := .none, want := none })
  exact ⟨(hpwr.devState (by simp)).trans (s.devState_put (n := stTrans) (by decide)), rfl,
    fun d => (hpwr.pdOn (by simp) d).trans (s.pdOn_put _ _ d (by decide))⟩

theorem State.phaseNext_wake (s : State) (p : Phase) : (s.phaseNext p).pwr.wake = s.pwr.wake := rfl

/-- What a wake leaves at the end of its command, while VDDC and VDDA are there and while one is absent. -/
def State.Woken (s t : State) : Prop :=
  t.devState = stTrans ∧ t.pwr.wake = true ∧
    (s.pwr.coreLow = false → t.pwr.phase = .sourceSelect ∧ ∀ d ∈ [2, 3, 4, 5, 9], t.pdOn d = true) ∧
    (s.pwr.coreLow = true → t.pwr.phase = .inReset ∧ ∀ d, t.pdOn d = s.pdOn d)

theorem State.wakeUp_woken {s : State} (hstate : s.devState = stStandby) (hpf : s.flag PWR_STAT_PFAIL = false) (b : Nat) :
    s.Woken (s.wakeUp.settle b) := by
  obtain ⟨htrans, hwake, hon⟩ := s.waking_shown
  rw [State.wakeUp_eq hstate hpf]
  cases hlow : s.pwr.coreLow with
  | true =>
    rw [if_pos rfl]
    have hpwr := (frame_modPwr s.waking (fun p => { p with phase := .inReset, pd1Kept := true })).settle b
    refine ⟨(hpwr.devState (by simp)).trans htrans, ?_, fun h => ?_, fun _ => ⟨?_, fun d => (hpwr.pdOn (by simp) d).trans (hon d)⟩⟩
    · rw [State.settle_pwr]; exact hwake
    · rw [hlow] at h; cases h
    · rw [State.settle_pwr]; rfl
  | false =>
    rw [if_neg (by simp)]
    have hup := (frame_coreUp_coreOn s.waking).seq ((frame_phaseNext s.waking.coreUp .sourceSelect).settle b)
    have hpwr : s.waking.coreUp.pwr = s.waking.pwr :=
      ((frame_coreOn s.waking).seq (frame_coreUp_coreOn s.waking)).part (p := .power) (by simp)
    have hcore : s.waking.coreOn.devState = stTrans := by
      simp only [State.devState, State.coreOn]
      rw [State.get_setPd_other _ _ _ _ (by decide), State.get_setPd_other _ _ _ _ (by decide),
        State.get_setPd_other _ _ _ _ (by decide), State.get_setPd_other _ _ _ _ (by decide),
        State.get_setPd_other _ _ _ _ (by decide)]
      exact htrans
    refine ⟨(hup.devState (by decide)).trans hcore, ?_, fun _ => ⟨State.settle_phaseNext _ _ _, fun d hd => ?_⟩, fun h => ?_⟩
    · rw [State.settle_pwr, State.phaseNext_wake, hpwr, hwake]
    · rw [hup.pdOn (by decide), State.coreOn_pdOn _ d hd]
    · rw [hlow] at h; cases h

/-- A TARGET written through HSPI that names RUN or METER ends STANDBY. -/
theorem State.wrPwrCtl_wakes {s : State} {w : WriteBy} {v : BitVec 32} (hstate : s.devState = stStandby)
    (hw : s.writable w PWR_CTL = true) (hv : v.toNat % 4 ≤ 1) : s.wrPwrCtl w v = (s.ctlWritten w v).wakeUp := by
  have hdev : (s.ctlWritten w v).devState = stStandby := ((frame_ctlWritten s w v).devState (by decide)).trans hstate
  have hwritable := s.ctlWritten_writable w v
  have h3 : v.toNat % 4 ≠ 3 := by omega
  have h2 : v.toNat % 4 ≠ 2 := by omega
  exact (if_neg (by rw [← State.ctlWritten, hwritable]; simp [hw, h3])).trans ((if_pos hdev).trans (if_neg h2))

theorem exec_standbyWake_eq (s : State) :
    (s.flag PWR_WAKE_ALARM = true ∧ s.flag RTC_ALMCTL_FIRED = true → exec (.standbyWake .alarm) s = .next (s.wakeUp.settle s.irqLive)) ∧
      (s.flag PWR_WAKE_PERIODIC = true ∧ s.flag RTC_PERSTAT_WAKE = true →
        exec (.standbyWake .periodic) s = .next (s.wakeUp.settle s.irqLive)) ∧
      ∀ v, s.devState = stStandby → exec (.standbyWake (.target v)) s = .next ((s.wrPwrCtl (.port .hspi) v).settle s.irqLive) :=
  ⟨fun h => congrArg (fun u => Host.Outcome.next (State.settle u s.irqLive)) (if_pos h),
    fun h => congrArg (fun u => Host.Outcome.next (State.settle u s.irqLive)) (if_pos h),
    fun _ h => congrArg (fun u => Host.Outcome.next (State.settle u s.irqLive)) (if_pos h)⟩

theorem exec_standbyWake_woken {s : State} {cause : WakeCause} {v : BitVec 32} (hstate : s.devState = stStandby)
    (hpf : s.flag PWR_STAT_PFAIL = false)
    (hcause : (cause = .alarm ∧ s.flag PWR_WAKE_ALARM = true ∧ s.flag RTC_ALMCTL_FIRED = true) ∨
      (cause = .periodic ∧ s.flag PWR_WAKE_PERIODIC = true ∧ s.flag RTC_PERSTAT_WAKE = true) ∨
      (cause = .target v ∧ s.writable (.port .hspi) PWR_CTL = true ∧ v.toNat % 4 ≤ 1)) :
    ∃ t, exec (.standbyWake cause) s = .next t ∧ s.Woken t := by
  obtain ⟨halarm, hperiodic, htarget⟩ := exec_standbyWake_eq s
  rcases hcause with ⟨rfl, hen⟩ | ⟨rfl, hen⟩ | ⟨rfl, hw, hv⟩
  · exact ⟨_, halarm hen, State.wakeUp_woken hstate hpf _⟩
  · exact ⟨_, hperiodic hen, State.wakeUp_woken hstate hpf _⟩
  · have hctl := frame_ctlWritten s (.port .hspi) v
    obtain ⟨htrans, hwake, hhigh, hlow⟩ := State.wakeUp_woken (s := s.ctlWritten (.port .hspi) v)
      ((hctl.devState (by decide)).trans hstate) ((hctl.flag PWR_STAT_PFAIL (by decide) (by decide)).trans hpf) s.irqLive
    have hpwr : (s.ctlWritten (.port .hspi) v).pwr = s.pwr := hctl.part (p := .power) (by simp)
    rw [hpwr] at hhigh hlow
    rw [htarget v hstate, State.wrPwrCtl_wakes hstate hw hv]
    exact ⟨_, rfl, htrans, hwake, hhigh, fun h => ⟨(hlow h).1, fun d => ((hlow h).2 d).trans (hctl.pdOn (by decide) d)⟩⟩

end Sys2Proof.Machine
end

section
/-!
SUPPORT. The ledger writer at a power fail (R87, R199, R250 to R254, R260, R263): what a power fail ends, the emergency proof as it
begins, and a proof as it is completed.
-/

namespace Sys2Proof.Machine

theorem frame_modPrf (s : State) (f : PrfState → PrfState) (hf : ∀ p, (f p).fram = p.fram) : s.Frame (s.modPrf f) [.writer] [] := by
  refine ⟨fun p hp => ?_, fun _ _ _ => rfl, rfl⟩
  cases p <;> simp [Part.Same, State.framByte, hf] at *

theorem frame_framWrite (s : State) (a : Nat) (l : List (BitVec 8)) : s.Frame (s.framWrite a l) [.fram] [] :=
  ⟨fun p hp => by cases p <;> simp [Part.Same, State.framWrite] at *, fun _ _ _ => rfl, rfl⟩

/-- What a change outside the ledger writer keeps of it. -/
theorem State.Frame.prf {s t : State} {ps : List Part} {os : List Nat} (h : s.Frame t ps os) (hp : Part.writer ∉ ps) {α : Type}
    (k : PrfState → α) (hk : ∀ p l, k { p with fram := l } = k p) : k t.prf = k s.prf := by
  have hsame : ({ t.prf with fram := [] } : PrfState) = { s.prf with fram := [] } := h.part hp
  rw [← hk t.prf [], hsame, hk]

/-! The next sequence number (R250) -/

theorem State.Frame.nextSeq {s t : State} {ps : List Part} {os : List Nat} (h : s.Frame t ps os) (hp : Part.writer ∉ ps) :
    t.prf.nextSeq = s.prf.nextSeq := h.prf hp PrfState.nextSeq (fun _ _ => rfl)

theorem State.complete_nextSeq (s : State) (op : BitVec 8) (h : CmdHdr) (status p0 p1 p2 : Nat) :
    (s.complete op h status p0 p1 p2).prf.nextSeq = s.prf.nextSeq := by
  unfold State.complete
  dsimp only
  split
  · rfl
  · simp
  · rfl

theorem State.done_nextSeq (s : State) (t : Taken) (status p0 p1 p2 : Nat) :
    (s.done t status p0 p1 p2).prf.nextSeq = s.prf.nextSeq := by
  unfold State.done
  split
  · rfl
  · split
    · rfl
    · rw [State.complete_nextSeq]; rfl

theorem State.doneAll_nextSeq (s : State) (p : Taken → Bool) (status : Nat) (pay : Taken → Nat × Nat × Nat) :
    (s.doneAll p status pay).prf.nextSeq = s.prf.nextSeq :=
  foldl_keeps (fun s => s.prf.nextSeq) _ (fun u t => State.done_nextSeq u t _ _ _ _) _ s

theorem State.stopScan_nextSeq (s : State) (u status : Nat) : (s.stopScan u status).prf.nextSeq = s.prf.nextSeq := by
  have hhalt := (frame_scanHalt s u).nextSeq (by simp)
  have hset := (frame_setScan (s.scanHalt u).1 u none).nextSeq (by simp)
  rw [State.stopScan_eq, State.endScan]
  split
  · rw [State.done_nextSeq, hset, hhalt]
  · rw [hset, hhalt]

theorem State.stopFcvPlc_nextSeq (s : State) : s.stopFcvPlc.prf.nextSeq = s.prf.nextSeq := by
  have hstop : s.fcvStop.prf.nextSeq = s.prf.nextSeq := by
    rw [State.fcvStop, ((frame_urgentLost _).seq (frame_modFcv _ _)).nextSeq (by simp), State.doneAll_nextSeq,
      (frame_sheetDrop s).nextSeq (by simp)]
  have hended : s.fcvEnded.prf.nextSeq = s.prf.nextSeq := by unfold State.fcvEnded; split <;> simp [hstop]
  rw [(frame_plcEnded s).nextSeq (by simp), hended]

/-! What a power fail ends (R87, R199, R251, R260, R263, R357, R379) -/

/-- Registers that the end of every scan may change. -/
def scanRegs : List Nat := (List.range 4).flatMap stopRegs

theorem frame_scansAbort (s : State) : s.Frame s.scansAbort [.checks, .taken, .host, .writer] scanRegs := by
  have hunit : ∀ u < 4, stopRegs u ⊆ scanRegs := by decide
  exact frame_each _ _ _ (fun u hu t => State.Frame.ite
    (fun _ => (frame_stopScan t u _).mono (List.Subset.refl _) (hunit u hu)) (fun _ => State.Frame.refl _ _ _))

theorem State.scansAbort_nextSeq (s : State) : s.scansAbort.prf.nextSeq = s.prf.nextSeq := by
  refine foldl_keeps (fun s => s.prf.nextSeq) _ (fun t u => ?_) _ s
  dsimp only
  split
  · exact State.stopScan_nextSeq _ _ _
  · rfl

/-- A PWR_CYCLE in progress is given up (R357). -/
def State.cycleEnded (s : State) (cycle : Bool) : State := if cycle then (s.setFlag RTC_PWRCTL_CYC false).showPwr 0 else s

/-- AUDIT takes the value of the identity last written (R263). -/
def State.auditShown (s : State) (n : Nat) : State := s.putWide [LDG_AUDIT_LO, LDG_AUDIT_HI] ((s.sealAudit + 2 ^ 36 - n) % 2 ^ 36)

/-- The openings not yet written among the identity jobs. -/
def openingJob (j : IdentityJob) : Bool := match j with | .unseal _ => true | _ => false

/-- What the writer had still to do is given up. -/
def State.jobsDropped (s : State) : State := s.modPrf (fun p => { p with
  due := [], nowReq := [], cycleReq := none, journal := [], idJobs := p.idJobs.filter (fun j => !openingJob j) })

/-- The ledger's queues and its identity jobs given up; AUDIT stays that of the identity last written (R263). -/
def State.queuesEnded (s : State) : State :=
  ((s.auditShown (s.prf.idJobs.filter openingJob).length).jobsDropped.modLdg
    (fun l => { l with snaps := [], ldgQ := [], autoSnap := none })).busyFlag

/-- The waiting commands that a power fail aborts (R199, R251, R357). -/
def abortedAtPf (t : Taken) : Bool := match t.wait with | .proofNow | .snapshot | .unseal | .pwrCycle _ => true | _ => false

/-- A PWR_CYCLE waits for its proof. -/
def State.cycleWaits (s : State) : Bool := s.taken.any (fun t => match t.wait with | .pwrCycle _ => true | _ => false)

theorem State.ledgerAbort_eq (s : State) : s.ledgerAbort =
    ((s.doneAll abortedAtPf stAborted (fun _ => (0, 0, 0))).cycleEnded s.cycleWaits).queuesEnded := by
  unfold State.ledgerAbort State.cycleEnded State.queuesEnded State.jobsDropped State.auditShown
  rfl

theorem frame_cycleEnded (s : State) (cycle : Bool) : s.Frame (s.cycleEnded cycle) [] [RTC_PWRCTL, RTC_RAM 16, RTC_RAM 17, RTC_RAM 18] :=
  State.Frame.ite (fun _ => (frame_setFlag _ RTC_PWRCTL_CYC _).seq (frame_showPwr _ _)) (fun _ => State.Frame.refl _ _ _)

theorem frame_busyFlag (s : State) : s.Frame s.busyFlag [] [LDG_STAT] := frame_setFlag _ LDG_STAT_BUSY _

theorem frame_auditShown (s : State) (n : Nat) : s.Frame (s.auditShown n) [] [LDG_AUDIT_LO, LDG_AUDIT_HI] := frame_putWide _ s _

theorem frame_jobsDropped (s : State) : s.Frame s.jobsDropped [.writer] [] := frame_modPrf s _ (fun _ => rfl)

theorem frame_queuesEnded (s : State) : s.Frame s.queuesEnded [.writer, .ledger] [LDG_AUDIT_LO, LDG_AUDIT_HI, LDG_STAT] :=
  ((((frame_auditShown s _).seq (frame_jobsDropped _)).seq (frame_modLdg _ _)).seq (frame_busyFlag _)).mono (by simp) (by simp)

theorem State.jobsDropped_nextSeq (s : State) : s.jobsDropped.prf.nextSeq = s.prf.nextSeq := rfl

theorem State.queuesEnded_nextSeq (s : State) : s.queuesEnded.prf.nextSeq = s.prf.nextSeq := by
  unfold State.queuesEnded
  rw [(frame_busyFlag _).nextSeq (by simp), (frame_modLdg _ _).nextSeq (by simp), State.jobsDropped_nextSeq,
    (frame_auditShown s _).nextSeq (by simp)]

/-- Registers that the ledger's end may change. -/
def abortRegs : List Nat := [LDG_AUDIT_LO, LDG_AUDIT_HI, LDG_STAT, RTC_PWRCTL, RTC_RAM 16, RTC_RAM 17, RTC_RAM 18] ++ cplRegs

theorem frame_ledgerAbort (s : State) : s.Frame s.ledgerAbort [.taken, .host, .writer, .ledger] abortRegs := by
  rw [State.ledgerAbort_eq]
  exact (((frame_doneAll s abortedAtPf _ _).seq (frame_cycleEnded _ _)).seq (frame_queuesEnded _)).mono (by simp) (by decide)

theorem State.ledgerAbort_nextSeq (s : State) : s.ledgerAbort.prf.nextSeq = s.prf.nextSeq := by
  rw [State.ledgerAbort_eq, State.queuesEnded_nextSeq, (frame_cycleEnded _ _).nextSeq (by simp), State.doneAll_nextSeq]

/-- Registers of the pulse inputs that the end of their counting may change. -/
def pinRegs : List Nat := (List.range 16).flatMap (fun j => [PIO_PINCNT j, PIO_PINSTAT j])

theorem frame_pinsEnd (s : State) : s.Frame s.pinsEnd [.inputs] pinRegs := by
  have hinput : ∀ j < 16, [PIO_PINCNT j, PIO_PINSTAT j] ⊆ pinRegs := by decide
  have hquantity (t : State) (j c : Nat) : t.Frame (t.pinQuantity j c) [.inputs] [] :=
    ⟨fun p hp => by cases p <;> simp [Part.Same, State.pinQuantity, State.framByte] at *, fun _ _ _ => rfl, rfl⟩
  have hadd (t : State) (j c : Nat) : t.Frame (t.pinAdd j c) [.inputs] [PIO_PINCNT j] := by
    have hcounted : t.Frame (if t.mirInput j then t else t.pinQuantity j c) [.inputs] [] :=
      State.Frame.ite (fun _ => State.Frame.refl _ _ _) (fun _ => hquantity t j c)
    exact hcounted.seq (frame_wr _ _ _)
  have hmod (t : State) (j : Nat) (f : PinState → PinState) : t.Frame (t.modPin j f) [.inputs] [] :=
    ⟨fun p hp => by cases p <;> simp [Part.Same, State.modPin, State.framByte] at *, fun _ _ _ => rfl, rfl⟩
  exact frame_each _ _ _ (fun j hj t => State.Frame.ite
    (fun _ => (((hadd t j _).seq (hmod _ j _)).seq (frame_setFlag _ (PIO_PINSTAT_RUN j) _)).mono (by simp)
      (by simpa [PIO_PINSTAT_RUN] using hinput j hj))
    (fun _ => State.Frame.refl _ _ _))

/-! The emergency proof (R252) -/

theorem frame_bkStop (s : State) (cause : Nat) : s.Frame (s.bkStop cause) [.clock] [RTC_RAM 3, RTC_RAM 4, RTC_RAM 5] := by
  have hstate (v : Nat) : s.Frame (s.setBkState v) [.clock] [RTC_RAM 3] := (frame_wr _ _ _).seq (frame_modRtc _ _)
  exact State.Frame.ite (fun _ => (hstate _).mono (by simp) (by simp))
    (fun _ => (((hstate _).seq (frame_putWide _ _ _)).seq (frame_modRtc _ _)).mono (by simp) (by simp))

theorem frame_holdCvu (s : State) (u : Nat) (on : Bool) : s.Frame (s.holdCvu u on) [.checks] [CVU_STAT u] := by
  have hheld := frame_setFlag s (CVU_STAT_HELD u) on
  unfold State.holdCvu
  dsimp only
  split
  · exact State.Frame.ite (fun _ => hheld.mono (by simp) (by simp [CVU_STAT_HELD]))
      (fun _ => (hheld.seq (frame_setScan _ u _)).mono (by simp) (by simp [CVU_STAT_HELD]))
  · exact hheld.mono (by simp) (by simp [CVU_STAT_HELD])

/-- Registers that an idle writer's release may change. -/
def idleRegs : List Nat := [CVU_STAT 0, CVU_STAT 1, CVU_STAT 2, LDG_STAT]

/-- The units that the writer holds are let go (R372). -/
theorem frame_unitsFreed (s : State) :
    s.Frame (State.each 3 (fun u s => if s.flag (CVU_STAT_HELD u) then s.holdCvu u false else s) s) [.checks] idleRegs := by
  have hunit : ∀ u < 3, [CVU_STAT u] ⊆ idleRegs := by decide
  exact frame_each _ _ _ (fun u hu t => State.Frame.ite
    (fun _ => (frame_holdCvu t u false).mono (List.Subset.refl _) (hunit u hu)) (fun _ => State.Frame.refl _ _ _))

/-- The writer has no proof. -/
def State.proofDropped (s : State) : State := s.modPrf (fun p => { p with phase := .idle, job := none, record := none, attempt := 0 })

theorem frame_proofDropped (s : State) : s.Frame s.proofDropped [.writer] [] :=
  frame_modPrf s (fun p => { p with phase := .idle, job := none, record := none, attempt := 0 }) (fun _ => rfl)

theorem State.proofDropped_nextSeq (s : State) : s.proofDropped.prf.nextSeq = s.prf.nextSeq := rfl

theorem frame_writerIdle_dropped (s : State) : s.proofDropped.Frame s.writerIdle [.checks] idleRegs :=
  (((frame_unitsFreed s.proofDropped).seq (frame_setFlag _ LDG_STAT_EPRUN _)).seq (frame_busyFlag _)).mono (by simp) (by decide)

theorem frame_writerIdle (s : State) : s.Frame s.writerIdle [.writer, .checks] idleRegs :=
  ((frame_proofDropped s).seq (frame_writerIdle_dropped s)).mono (by simp) (by simp)

theorem State.writerIdle_nextSeq (s : State) : s.writerIdle.prf.nextSeq = s.prf.nextSeq :=
  ((frame_writerIdle_dropped s).nextSeq (by simp)).trans s.proofDropped_nextSeq

/-- The record of a proof's job. -/
def State.proofRecord (s : State) (j : ProofJob) (flags : Nat) : LedgerRecord :=
  { kind := j.kind, expno := j.expno, ts := j.ts, flags := s.recordFlags 0xFFFFFFFF 0 ||| BitVec.ofNat 64 flags, mpmask := 0xFFFFFFFF,
    seq := s.prf.nextSeq, audit := s.ldg.audit, regs := s.recordRegs 0xFFFFFFFF j.frozen j.kept (fun _ => []), pinq := j.pinq }

/-- The writer with its record. -/
def State.proofTaken (s : State) (j : ProofJob) (r : LedgerRecord) : State :=
  s.modPrf (fun p => { p with phase := .writing, job := some j, record := some r, attempt := 1, lqDriven := true })

theorem frame_proofTaken (s : State) (j : ProofJob) (r : LedgerRecord) : s.Frame (s.proofTaken j r) [.writer] [] :=
  frame_modPrf s (fun p => { p with phase := .writing, job := some j, record := some r, attempt := 1, lqDriven := true }) (fun _ => rfl)

theorem State.proofTaken_phase (s : State) (j : ProofJob) (r : LedgerRecord) : (s.proofTaken j r).prf.phase = .writing := rfl

theorem State.proofTaken_record (s : State) (j : ProofJob) (r : LedgerRecord) : (s.proofTaken j r).prf.record = some r := rfl

/-- The body in its slot, and the unit held. -/
def State.proofHeld (s : State) (r : LedgerRecord) : State :=
  let t := s.framWrite (proofSlot r.seq) ((s.proofBytes r).take 0x6540)
  t.holdCvu (t.get LDG_CTL_CVU) true

theorem State.proofBegin_eq (s : State) (j : ProofJob) (flags : Nat) : s.proofBegin j flags =
    (((s.proofTaken j (s.proofRecord j flags)).proofHeld (s.proofRecord j flags)).setFlag LDG_STAT_EPRUN (j.kind == 2)).busyFlag := rfl

theorem frame_proofHeld (s : State) (r : LedgerRecord) : ∃ c, s.Frame (s.proofHeld r) [.fram, .checks] [CVU_STAT c] :=
  ⟨(s.framWrite (proofSlot r.seq) ((s.proofBytes r).take 0x6540)).get LDG_CTL_CVU,
    ((frame_framWrite s _ _).seq (frame_holdCvu _ _ true)).mono (by simp) (by simp)⟩

/-- A proof that begins is written for its job, under the next sequence number. -/
theorem State.proofBegin_begun (s : State) (j : ProofJob) (flags : Nat) : ∃ c,
    s.Frame (s.proofBegin j flags) [.writer, .fram, .checks] [CVU_STAT c, LDG_STAT] ∧ (s.proofBegin j flags).prf.phase = .writing ∧
      (∃ r, (s.proofBegin j flags).prf.record = some r ∧ r.kind = j.kind ∧ r.seq = s.prf.nextSeq) ∧
      (s.proofBegin j flags).flag LDG_STAT_EPRUN = (j.kind == 2) := by
  rw [State.proofBegin_eq]
  generalize hr : s.proofRecord j flags = r
  obtain ⟨c, hheld⟩ := frame_proofHeld (s.proofTaken j r) r
  have hshown := hheld.seq ((frame_setFlag _ LDG_STAT_EPRUN (j.kind == 2)).seq (frame_busyFlag _))
  refine ⟨c, ((frame_proofTaken s j r).seq hshown).mono (by simp) (by simp [LDG_STAT_EPRUN]), ?_, ⟨r, ?_, ?_, ?_⟩, ?_⟩
  · exact (hshown.prf (by simp) PrfState.phase (fun _ _ => rfl)).trans (s.proofTaken_phase j r)
  · exact (hshown.prf (by simp) PrfState.record (fun _ _ => rfl)).trans (s.proofTaken_record j r)
  · rw [← hr]; rfl
  · rw [← hr]; rfl
  · rw [State.busyFlag, State.flag_setFlag_other _ _ _ _ (by decide) (by decide)]
    exact State.flag_setFlag_self _ LDG_STAT_EPRUN _ (by decide) (by decide)

/-- Metering stops with what is not resolved excluded (R87). -/
def State.meteringStopped (s : State) : State := s.modExp (fun x => { x with running := false, pipe := [], syncAt := none })

theorem State.emergencyStart_eq (s : State) : ∃ j flags, j.kind = 2 ∧
    s.emergencyStart = (((s.bkStop 0).writerIdle).proofBegin j flags).meteringStopped := by
  refine ⟨_, _, ?_, rfl⟩
  rfl

end Sys2Proof.Machine
end

section
/-!
SUPPORT. The start of a power fail (R87, R89, R250, R252).
-/

namespace Sys2Proof.Machine

/-! The stages of the start -/

/-- PFAIL set. -/
def State.pfNoted (s : State) : State := s.setFlag PWR_STAT_PFAIL true

/-- The scans, the ledger's queues and the pulse inputs' counting end where PD5 is on. -/
def State.pfWorkEnded (s : State) : State := if s.pdOn 5 then s.scansAbort.ledgerAbort.pinsEnd else s

/-- Metering runs, or a standby proof is due, so an emergency proof is written. -/
def State.pfProof (s : State) : Bool :=
  s.pdOn 5 && !s.flag PWR_STAT_ASBUSY && (s.exp.running || (s.pwr.change == .toStandby && s.pwr.stopRan))

/-- The sequence as it runs. -/
def State.pfShown (s : State) : State := (s.setFlag PWR_STAT_ASBUSY false).modPwr
  (fun p => { p with pfRunning := true, change := .none, wake := false, want := none })

theorem State.pfStart_eq {s : State} (hpf : s.flag PWR_STAT_PFAIL = false) (hon : s.pd1On = true) :
    s.pfStart = (if s.pfProof then s.pfNoted.pfWorkEnded.offFcvPlc.emergencyStart
      else s.pfNoted.pfWorkEnded.offFcvPlc.meteringStopped).pfShown := by
  unfold State.pfStart
  rw [if_neg (by simp [hpf, hon])]
  rfl

/-! What the stages leave -/

theorem frame_pfNoted (s : State) : s.Frame s.pfNoted [] [PWR_STAT] := frame_setFlag s PWR_STAT_PFAIL true

/-- Registers that the end of the work in PD5 may change. -/
def workRegs : List Nat := scanRegs ++ abortRegs ++ pinRegs

theorem workRegs_apart : PWR_STAT ∉ workRegs ∧ PWR_MON ∉ workRegs := by decide

theorem frame_pfWorkEnded (s : State) :
    s.Frame s.pfWorkEnded [.checks, .taken, .host, .writer, .ledger, .inputs] workRegs :=
  State.Frame.ite
    (fun _ => (((frame_scansAbort s).seq (frame_ledgerAbort _)).seq (frame_pinsEnd _)).mono (by simp) (List.Subset.refl _))
    (fun _ => State.Frame.refl _ _ _)

theorem State.pfWorkEnded_nextSeq (s : State) : s.pfWorkEnded.prf.nextSeq = s.prf.nextSeq := by
  unfold State.pfWorkEnded
  split
  · rw [(frame_pinsEnd _).nextSeq (by simp), State.ledgerAbort_nextSeq, State.scansAbort_nextSeq]
  · rfl

theorem State.offFcvPlc_nextSeq (s : State) : s.offFcvPlc.prf.nextSeq = s.prf.nextSeq := by
  rw [State.offFcvPlc, (frame_setPd _ _ _).nextSeq (by simp), (frame_setPd _ _ _).nextSeq (by simp),
    (frame_setPd _ _ _).nextSeq (by simp)]
  exact s.stopFcvPlc_nextSeq

/-- What the device shows before the emergency proof: PFAIL with PD6 to PD8 off. -/
theorem State.pfStopped_shown (s : State) : s.pfNoted.pfWorkEnded.offFcvPlc.flag PWR_STAT_PFAIL = true ∧
    s.pfNoted.pfWorkEnded.offFcvPlc.rd PWR_MON = s.rd PWR_MON ∧ (∀ d ∈ [6, 7, 8], s.pfNoted.pfWorkEnded.offFcvPlc.pdOn d = false) ∧
    s.pfNoted.pfWorkEnded.offFcvPlc.prf.nextSeq = s.prf.nextSeq := by
  have hwork := frame_pfWorkEnded s.pfNoted
  have hoff := s.pfNoted.pfWorkEnded.offFcvPlc_off
  refine ⟨?_, ?_, hoff.off, ?_⟩
  · rw [State.flag, hoff.stat PWR_STAT_PFAIL rfl (by decide)]
    exact (hwork.flag PWR_STAT_PFAIL workRegs_apart.1 (by decide)).trans
      (State.flag_setFlag_self s PWR_STAT_PFAIL true (by decide) (by decide))
  · rw [hoff.mon, hwork.rd workRegs_apart.2 (by decide), (frame_pfNoted s).rd (by decide) (by decide)]
  · rw [State.offFcvPlc_nextSeq, State.pfWorkEnded_nextSeq, (frame_pfNoted s).nextSeq (by simp)]

/-- What stopping metering leaves. -/
theorem frame_meteringStopped (s : State) : s.Frame s.meteringStopped [.exposure] [] := frame_modExp s _

theorem State.meteringStopped_exp (s : State) : s.meteringStopped.exp.running = false ∧ s.meteringStopped.exp.pipe = [] := ⟨rfl, rfl⟩

/-- Registers that the start of the emergency proof may change. -/
def emergencyRegs (c : Nat) : List Nat := [RTC_RAM 3, RTC_RAM 4, RTC_RAM 5] ++ idleRegs ++ [CVU_STAT c, LDG_STAT]

theorem emergencyRegs_apart (c : Nat) : PWR_STAT ∉ emergencyRegs c ∧ PWR_MON ∉ emergencyRegs c := by
  have hcvu : PWR_STAT ≠ CVU_STAT c ∧ PWR_MON ≠ CVU_STAT c := by simp only [PWR_STAT, PWR_MON, CVU_STAT]; omega
  have hrest : PWR_STAT ∉ [RTC_RAM 3, RTC_RAM 4, RTC_RAM 5] ++ idleRegs ++ [LDG_STAT] ∧
      PWR_MON ∉ [RTC_RAM 3, RTC_RAM 4, RTC_RAM 5] ++ idleRegs ++ [LDG_STAT] := by decide
  simp only [emergencyRegs, List.mem_append, List.mem_cons, List.not_mem_nil, or_false, not_or] at hrest ⊢
  tauto

/-- What the writer holds with an emergency proof begun. -/
def State.EmergencyBegun (s : State) (seq : BitVec 32) : Prop :=
  s.prf.phase = .writing ∧ (∃ r, s.prf.record = some r ∧ r.kind = 2 ∧ r.seq = seq) ∧ s.flag LDG_STAT_EPRUN = true

/-- What does not touch the writer keeps the emergency proof. -/
theorem State.EmergencyBegun.frame {s t : State} {ps : List Part} {os : List Nat} {seq : BitVec 32} (h : s.EmergencyBegun seq)
    (hf : s.Frame t ps os) (hp : Part.writer ∉ ps) (ho : LDG_STAT ∉ os) : t.EmergencyBegun seq := by
  obtain ⟨hphase, ⟨r, hr, hkind⟩, hflag⟩ := h
  exact ⟨(hf.prf hp PrfState.phase (fun _ _ => rfl)).trans hphase, ⟨r, (hf.prf hp PrfState.record (fun _ _ => rfl)).trans hr, hkind⟩,
    (hf.flag LDG_STAT_EPRUN ho (by decide)).trans hflag⟩

theorem State.emergencyStart_begun (s : State) : ∃ c,
    s.Frame s.emergencyStart [.clock, .writer, .checks, .fram, .exposure] (emergencyRegs c) ∧ s.emergencyStart.exp.running = false ∧
      s.emergencyStart.exp.pipe = [] ∧ s.emergencyStart.EmergencyBegun s.prf.nextSeq := by
  obtain ⟨j, flags, hkind, heq⟩ := s.emergencyStart_eq
  obtain ⟨c, hframe, hphase, ⟨r, hr, hrkind, hseq⟩, hshown⟩ := ((s.bkStop 0).writerIdle).proofBegin_begun j flags
  have hstopped := frame_meteringStopped (((s.bkStop 0).writerIdle).proofBegin j flags)
  have hbegun : (((s.bkStop 0).writerIdle).proofBegin j flags).EmergencyBegun s.prf.nextSeq := by
    refine ⟨hphase, ⟨r, hr, hrkind.trans hkind, ?_⟩, by rw [hshown, hkind]; rfl⟩
    rw [hseq, State.writerIdle_nextSeq, (frame_bkStop s 0).nextSeq (by simp)]
  rw [heq]
  exact ⟨c, ((((frame_bkStop s 0).seq (frame_writerIdle _)).seq hframe).seq hstopped).mono (by simp) (by simp [emergencyRegs]),
    (State.meteringStopped_exp _).1, (State.meteringStopped_exp _).2, hbegun.frame hstopped (by simp) (by simp)⟩

/-! The sequence as it runs -/

theorem frame_pfShown (s : State) : s.Frame s.pfShown [.power] [PWR_STAT] := (frame_setFlag s PWR_STAT_ASBUSY false).seq (frame_modPwr _ _)

theorem State.pfShown_shown (s : State) : s.pfShown.pwr.pfRunning = true ∧ s.pfShown.flag PWR_STAT_PFAIL = s.flag PWR_STAT_PFAIL ∧
    ∀ d, s.pfShown.pdOn d = s.pdOn d := by
  have hpwr := frame_modPwr (s.setFlag PWR_STAT_ASBUSY false)
    (fun p => { p with pfRunning := true, change := .none, wake := false, want := none })
  exact ⟨rfl, (hpwr.flag PWR_STAT_PFAIL (by simp) (by decide)).trans
      (State.flag_setFlag_other s PWR_STAT_ASBUSY PWR_STAT_PFAIL false (by decide) (by decide)),
    fun d => (hpwr.pdOn (by simp) d).trans (s.pdOn_setFlag PWR_STAT_ASBUSY false d (by decide))⟩

/-- What a power fail leaves as its sequence begins. -/
structure State.PfStarted (s t : State) : Prop where
  pfail : t.flag PWR_STAT_PFAIL = true
  mon : t.rd PWR_MON = s.rd PWR_MON
  sequence : t.pwr.pfRunning = true
  running : t.exp.running = false
  pipe : t.exp.pipe = []
  off : ∀ d ∈ [6, 7, 8], t.pdOn d = false
  proof : s.pfProof = true → t.EmergencyBegun s.prf.nextSeq

theorem State.pfStart_started {s : State} (hpf : s.flag PWR_STAT_PFAIL = false) (hon : s.pd1On = true) (b : Nat) :
    s.PfStarted (s.pfStart.settle b) := by
  obtain ⟨hpfail, hmon, hoff, hseq⟩ := s.pfStopped_shown
  rw [State.pfStart_eq hpf hon]
  generalize s.pfNoted.pfWorkEnded.offFcvPlc = u at *
  have hmetering : ∃ c, u.Frame (if s.pfProof then u.emergencyStart else u.meteringStopped) [.clock, .writer, .checks, .fram, .exposure]
      (emergencyRegs c) ∧ (if s.pfProof then u.emergencyStart else u.meteringStopped).exp.running = false ∧
      (if s.pfProof then u.emergencyStart else u.meteringStopped).exp.pipe = [] ∧
      (s.pfProof = true → (if s.pfProof then u.emergencyStart else u.meteringStopped).EmergencyBegun s.prf.nextSeq) := by
    by_cases hproof : s.pfProof = true
    · obtain ⟨c, hframe, hrun, hpipe, hbegun⟩ := u.emergencyStart_begun
      rw [if_pos hproof]
      exact ⟨c, hframe, hrun, hpipe, fun _ => hseq ▸ hbegun⟩
    · obtain ⟨hrun, hpipe⟩ := u.meteringStopped_exp
      rw [if_neg hproof]
      exact ⟨0, (frame_meteringStopped u).mono (by simp) (by simp), hrun, hpipe, fun h => absurd h hproof⟩
  generalize (if s.pfProof then u.emergencyStart else u.meteringStopped) = v at *
  obtain ⟨c, hframe, hrun, hpipe, hbegun⟩ := hmetering
  obtain ⟨hstat, hmonReg⟩ := emergencyRegs_apart c
  obtain ⟨hsequence, hshown, hpd⟩ := v.pfShown_shown
  have hend := State.Frame.settle (State.Frame.refl v.pfShown [] []) b
  have hall := (frame_pfShown v).seq hend
  have hexp : (v.pfShown.settle b).exp = v.exp := hall.part (p := .exposure) (by simp)
  exact {
    pfail := by rw [hend.flag _ (by simp) (by decide), hshown, hframe.flag _ hstat (by decide), hpfail]
    mon := by rw [hall.rd (by decide) (by decide), hframe.rd hmonReg (by decide), hmon]
    sequence := by rw [State.settle_pwr]; exact hsequence
    running := by rw [hexp, hrun]
    pipe := by rw [hexp, hpipe]
    off := fun d hd => by rw [hend.pdOn (by simp), hpd, hframe.pdOn hstat, hoff d hd]
    proof := fun h => (hbegun h).frame hall (by simp) (by decide) }

/-! The ball (R87) -/

/-- The ball's event and its flag of PWR_MON. -/
def State.pfPinned (s : State) : State := (s.event 0x0501 0 .start 0 0 0).setFlag PWR_MON_PF_PIN true

theorem frame_pfPinned (s : State) : s.Frame s.pfPinned [] [PWR_MON] :=
  (frame_event _ _ _ _ _ _ _).seq (frame_setFlag _ PWR_MON_PF_PIN true)

theorem exec_powerFail_pin {s : State} (hon : s.pd1On = true) (hpf : s.flag PWR_STAT_PFAIL = false) :
    exec (.powerFail .pin) s = .next (s.pfPinned.pfStart.settle s.irqLive) := by
  have hpin : s.powerFail .pin = s.pfPinned.pfStart := by
    unfold State.powerFail
    rw [if_neg (by simp [hon])]
    dsimp only
    rw [if_neg (by simp [hpf])]
    rfl
  rw [← hpin]
  rfl

/-- The ball leaves what decides the sequence. -/
theorem State.pfPinned_kept (s : State) : s.pfPinned.pd1On = s.pd1On ∧ s.pfPinned.flag PWR_STAT_PFAIL = s.flag PWR_STAT_PFAIL ∧
    s.pfPinned.pfProof = s.pfProof ∧ s.pfPinned.prf.nextSeq = s.prf.nextSeq ∧ s.pfPinned.flag PWR_MON_PF_PIN = true := by
  have hpin := frame_pfPinned s
  have hpwr : s.pfPinned.pwr = s.pwr := hpin.part (p := .power) (by simp)
  have hexp : s.pfPinned.exp = s.exp := hpin.part (p := .exposure) (by simp)
  refine ⟨by rw [State.pd1On, State.pd1On, hpwr], hpin.flag PWR_STAT_PFAIL (by decide) (by decide), ?_, hpin.nextSeq (by simp),
    State.flag_setFlag_self _ PWR_MON_PF_PIN true (by decide) (by decide)⟩
  rw [State.pfProof, State.pfProof, hpin.pdOn (by decide), hpin.flag PWR_STAT_ASBUSY (by decide) (by decide), hexp, hpwr]

theorem exec_powerFail_started {s : State} (hon : s.pd1On = true) (hpf : s.flag PWR_STAT_PFAIL = false) :
    ∃ t, exec (.powerFail .pin) s = .next t ∧ s.pfPinned.PfStarted t ∧ t.flag PWR_MON_PF_PIN = true ∧
      (s.exp.running = true → s.pdOn 5 = true → s.flag PWR_STAT_ASBUSY = false → t.EmergencyBegun s.prf.nextSeq) := by
  obtain ⟨hpd1, hfail, hproof, hseq, hpin⟩ := s.pfPinned_kept
  have hstarted := State.pfStart_started (hfail.trans hpf) (hpd1.trans hon) s.irqLive
  refine ⟨_, exec_powerFail_pin hon hpf, hstarted, ?_, fun hrun h5 hbusy => hseq ▸ hstarted.proof ?_⟩
  · rw [← hpin, State.flag, State.flag, State.get, State.get, show PWR_MON_PF_PIN.off = PWR_MON from rfl, hstarted.mon]
  · rw [hproof, State.pfProof, hrun, h5, hbusy]; rfl

end Sys2Proof.Machine
end

section
/-!
SUPPORT. The end of a power fail (R87, R89, R250): the emergency proof completed, the bookkeeping that names it, and PFHOLD.
-/

namespace Sys2Proof.Machine

/-! A proof's bytes (R195, R246) -/

theorem bytesLE_length : (n x : Nat) → (bytesLE n x).length = n
  | 0, _ => rfl
  | n + 1, x => by rw [bytesLE, List.length_cons, bytesLE_length n]

theorem slotBytes_length (l : List (BitVec 64)) : (slotBytes l).length = 8 * l.length := by
  simp only [slotBytes, List.length_flatMap, bytesLE_length, List.map_const', List.sum_replicate, smul_eq_mul, Nat.mul_comm]

theorem slot128_length (n : Nat) : (slot128 n).length = 2 := rfl

theorem flatMap_slot128_length {α : Type} (l : List α) (f : α → Nat) : (l.flatMap (fun a => slot128 (f a))).length = 2 * l.length := by
  simp only [List.length_flatMap, slot128_length, List.map_const', List.sum_replicate, smul_eq_mul, Nat.mul_comm]

/-- A record has 3,241 slots (R195). -/
theorem State.recordSlots_length (s : State) (r : LedgerRecord) : (s.recordSlots r).length = 3241 := by
  simp only [State.recordSlots, List.length_append, flatMap_slot128_length, List.length_range, slot128_length, List.length_cons,
    List.length_nil]

theorem State.proofBytes_length (s : State) (r : LedgerRecord) : (s.proofBytes r).length = 0x6548 := by
  rw [State.proofBytes, slotBytes_length, State.recordSlots_length]

/-- A proof that is written stands in its slot. -/
theorem State.proofWritten_byte (s : State) (r : LedgerRecord) {i : Nat} (h : i < 0x6548) :
    (s.framWrite (proofSlot r.seq) (s.proofBytes r)).framByte (proofSlot r.seq + i) = (s.proofBytes r).getD i 0 := by
  rw [State.framByte_write, State.proofBytes_length, if_pos ⟨Nat.le_add_right _ _, Nat.add_lt_add_left h _⟩, Nat.add_sub_cancel_left]

/-! The bookkeeping (R250) -/

/-- The bookkeeping's last sequence and exposure are those of four registers. -/
theorem State.bk_of_rd {s t : State} (h : ∀ i < 4, t.rd (RTC_RAM i) = s.rd (RTC_RAM i)) :
    t.bkLastseq = s.bkLastseq ∧ t.bkLastexp = s.bkLastexp := by
  simp only [State.bkLastseq, State.bkLastexp, State.wide, h 0 (by decide), h 1 (by decide), h 2 (by decide), h 3 (by decide), and_self]

theorem State.Frame.bk {s t : State} {ps : List Part} {os : List Nat} (h : s.Frame t ps os) (ho : ∀ i < 4, RTC_RAM i ∉ os) :
    t.bkLastseq = s.bkLastseq ∧ t.bkLastexp = s.bkLastexp := by
  have hend : ∀ i < 4, endReg (RTC_RAM i) = false := by decide
  exact State.bk_of_rd (fun i hi => h.rd (ho i hi) (hend i hi))

theorem frame_bkProof (s : State) (seq : BitVec 32) (e : BitVec 72) (emergency : Bool) :
    s.Frame (s.bkProof seq e emergency) [.clock] [RTC_RAM 0, RTC_RAM 1, RTC_RAM 2, RTC_RAM 3, RTC_RAM 6] :=
  (((((frame_wr s _ _).seq (frame_putWide _ _ _)).seq (frame_wr _ _ _)).seq (frame_wr _ _ _)).seq (frame_modRtc _ _)).mono (by simp)
    (by simp)

/-- A quantity of 72 bits in three registers, of which the third holds it in its low byte. -/
theorem wide72 {e hi : Nat} (h : e < 2 ^ 72) :
    (e % 2 ^ 64 % 2 ^ 32 + 2 ^ 32 * (e % 2 ^ 64 / 2 ^ 32 % 2 ^ 32 + 2 ^ 32 * ((e / 2 ^ 64 + hi * 2 ^ 8) % 2 ^ 32 + 2 ^ 32 * 0))) %
      2 ^ 72 = e := by
  omega

theorem State.bkProof_shown (s : State) (seq : BitVec 32) (e : BitVec 72) (emergency : Bool) :
    (s.bkProof seq e emergency).bkLastseq = seq ∧ (s.bkProof seq e emergency).bkLastexp = e.toNat := by
  have hmod (u : State) (f : RtcState → RtcState) (k : Nat) : (u.modRtc f).rd k = u.rd k := rfl
  refine ⟨?_, ?_⟩
  · simp only [State.bkLastseq, State.bkProof, hmod, State.putWide, State.rd_wr]
    simp [RTC_RAM]
  · have hregs : (s.bkProof seq e emergency).bkLastexp = (e.toNat % 2 ^ 64 % 2 ^ 32 + 2 ^ 32 * (e.toNat % 2 ^ 64 / 2 ^ 32 % 2 ^ 32 +
        2 ^ 32 * ((e.toNat / 2 ^ 64 + (s.bkState - s.bkState % 4 + (if emergency then 2 else 0)) * 2 ^ 8) % 2 ^ 32 + 2 ^ 32 * 0))) %
          2 ^ 72 := by
      simp only [State.bkLastexp, State.wide, State.bkProof, hmod, State.putWide, State.rd_wr]
      simp [RTC_RAM]
    rw [hregs, wide72 e.isLt]

/-! A proof that is completed (R250) -/

/-- LDG_SEQ and LDG_LASTEXP as a completed proof leaves them. -/
def State.seqShown (s : State) (r : LedgerRecord) : State :=
  ((s.wr LDG_SEQ r.seq).putWide [LDG_LASTEXP_LO, LDG_LASTEXP_MID, LDG_LASTEXP_HI] r.expno.toNat).modPrf
    (fun p => { p with nextSeq := r.seq + 1 })

theorem frame_seqShown (s : State) (r : LedgerRecord) :
    s.Frame (s.seqShown r) [.writer] [LDG_SEQ, LDG_LASTEXP_LO, LDG_LASTEXP_MID, LDG_LASTEXP_HI] :=
  ((frame_wr s _ _).seq (frame_putWide _ _ _)).seq (frame_modPrf _ (fun p => { p with nextSeq := r.seq + 1 }) (fun _ => rfl))

theorem State.proofComplete_eq (s : State) (j : ProofJob) (r : LedgerRecord) : s.proofComplete j r =
    ((((s.seqShown r).bkProof r.seq r.expno (j.kind == 2)).writerIdle).proofCommands j stDone r.seq.toNat) := rfl

/-- Registers that the completion of a proof's commands may change. -/
def commandRegs : List Nat := cplRegs ++ [RTC_PWRCTL, RTC_RAM 16, RTC_RAM 17, RTC_RAM 18]

/-- The PWR_CYCLE that a proof serves, completed. -/
theorem frame_cycleServed (s : State) (status : Nat) (off : BitVec 24) :
    s.Frame (if status = stDone then s.cycleDone off else (s.setFlag RTC_PWRCTL_CYC false).showPwr 0) [.clock] commandRegs :=
  State.Frame.ite (fun _ => (frame_modRtc s _).mono (by simp) (by simp))
    (fun _ => ((frame_setFlag s RTC_PWRCTL_CYC false).seq (frame_showPwr _ _)).mono (by simp) (by decide))

theorem frame_proofCommands (s : State) (j : ProofJob) (status seq : Nat) :
    s.Frame (s.proofCommands j status seq) [.taken, .host, .writer, .clock] commandRegs := by
  have hdone (u : State) (t : Taken) : u.Frame (u.done t status seq 0 0) [.taken, .host, .writer, .clock] commandRegs :=
    (frame_done u t _ _ _ _).mono (by simp) (by decide)
  have hserved : s.Frame _ [.taken, .host, .writer, .clock] commandRegs :=
    frame_foldl (fun (u : State) c => match u.waiting c .proofNow with | some t => u.done t status seq 0 0 | none => u) j.cmds s
      (fun c _ u => by
        split
        · exact hdone _ _
        · exact State.Frame.refl _ _ _)
  unfold State.proofCommands
  dsimp only
  split
  · exact hserved
  · split
    · exact hserved.trans ((hdone _ _).trans ((frame_cycleServed _ status _).mono (by simp) (List.Subset.refl _)))
    · exact hserved

/-- Registers that a completed proof changes after the bookkeeping. -/
theorem commandRegs_apart : ∀ i < 4, RTC_RAM i ∉ idleRegs ++ commandRegs := by decide

/-- A completed proof leaves the FRAM, and the bookkeeping names it. -/
theorem State.proofComplete_books (s : State) (j : ProofJob) (r : LedgerRecord) :
    (∀ a, (s.proofComplete j r).framByte a = s.framByte a) ∧ (s.proofComplete j r).bkLastseq = r.seq ∧
      (s.proofComplete j r).bkLastexp = r.expno.toNat := by
  have hentered := (frame_seqShown s r).seq (frame_bkProof (s.seqShown r) r.seq r.expno (j.kind == 2))
  obtain ⟨hseq, hexp⟩ := (s.seqShown r).bkProof_shown r.seq r.expno (j.kind == 2)
  have hrest := (frame_writerIdle ((s.seqShown r).bkProof r.seq r.expno (j.kind == 2))).seq (frame_proofCommands _ j stDone r.seq.toNat)
  obtain ⟨hlastseq, hlastexp⟩ := hrest.bk commandRegs_apart
  rw [State.proofComplete_eq]
  exact ⟨(hentered.seq hrest).part (p := .fram) (by simp), hlastseq.trans hseq, hlastexp.trans hexp⟩

/-- The emergency proof's trailer completes it: R249's readback is left out. -/
theorem State.proofTrailer_emergency {s : State} {j : ProofJob} {r : LedgerRecord} (hphase : s.prf.phase = .writing)
    (hjob : s.prf.job = some j) (hkind : j.kind = 2) (hrecord : s.prf.record = some r) :
    s.proofTrailer = (s.framWrite (proofSlot r.seq) (s.proofBytes r)).proofComplete j r := by
  unfold State.proofTrailer
  rw [hphase, hjob, hrecord]
  exact if_neg (fun h => h.1 hkind)

/-! PFHOLD (R87) -/

/-- PD2 to PD5 and PD9 are off and the device holds. -/
def State.pfHeld (s : State) : State := ((s.coreReset.setFlag PWR_STAT_LFSUB false).put PWR_STAT_STATE stPfhold).phaseNext .done

theorem State.pfEnd_eq {s : State} (hpf : s.pwr.pfRunning = true) (hstate : s.devState ≠ stPfhold) :
    s.pfEnd = (match s.prf.job with | some j => if j.kind = 2 then s.proofTrailer else s | none => s).pfHeld := by
  unfold State.pfEnd
  rw [if_neg (by simp [hpf, hstate])]
  rfl

theorem exec_emergencyProofComplete_eq (s : State) : exec .emergencyProofComplete s = .next (s.pfEnd.settle s.irqLive) := rfl

/-- What the device shows in PFHOLD: PD0 and PD1 alone on, with the FRAM and the bookkeeping as they were. -/
theorem State.pfHeld_shown (s : State) (b : Nat) : (s.pfHeld.settle b).devState = stPfhold ∧
    (s.pfHeld.settle b).bkLastseq = s.bkLastseq ∧ (s.pfHeld.settle b).bkLastexp = s.bkLastexp ∧
    (∀ d, 2 ≤ d → d ≤ 9 → (s.pfHeld.settle b).pdOn d = false) ∧ ∀ a, (s.pfHeld.settle b).framByte a = s.framByte a := by
  have hlost := s.coreReset_lost
  have hstate := frame_put (s.coreReset.setFlag PWR_STAT_LFSUB false) PWR_STAT_STATE stPfhold
  have hphase := (frame_phaseNext ((s.coreReset.setFlag PWR_STAT_LFSUB false).put PWR_STAT_STATE stPfhold) .done).settle b
  have hend := ((frame_setFlag s.coreReset PWR_STAT_LFSUB false).seq hstate).seq hphase
  have hapart : ∀ i < 4, RTC_RAM i ∉ coreRegs ∧ endReg (RTC_RAM i) = false := by decide
  obtain ⟨hseq, hexp⟩ := hend.bk (by decide)
  obtain ⟨hlostseq, hlostexp⟩ := State.bk_of_rd (s := s) (t := s.coreReset)
    (fun i hi => hlost.rd _ (by rw [regDomain_bookkeeping i hi]; decide) (hapart i hi).1 (hapart i hi).2)
  have hfram : ∀ a, _ = s.coreReset.framByte a := hend.part (p := .fram) (by simp)
  refine ⟨(hphase.devState (by simp)).trans (State.devState_put _ (n := stPfhold) (by decide)), hseq.trans hlostseq, hexp.trans hlostexp,
    fun d h2 h9 => ?_, fun a => (hfram a).trans (hlost.fram a)⟩
  refine (hphase.pdOn (by simp) d).trans ?_
  rw [State.pdOn_put _ _ _ _ (by decide), State.pdOn_setFlag _ _ _ _ (by decide), hlost.off d h2 h9]

theorem exec_emergencyProofComplete_proof {s : State} {j : ProofJob} {r : LedgerRecord} (hpf : s.pwr.pfRunning = true)
    (hstate : s.devState ≠ stPfhold) (hphase : s.prf.phase = .writing) (hjob : s.prf.job = some j) (hkind : j.kind = 2)
    (hrecord : s.prf.record = some r) : ∃ t, exec .emergencyProofComplete s = .next t ∧ t.devState = stPfhold ∧ t.bkLastseq = r.seq ∧
      t.bkLastexp = r.expno.toNat ∧ (∀ d, 2 ≤ d → d ≤ 9 → t.pdOn d = false) ∧
      ∀ i, i < 0x6548 → t.framByte (proofSlot r.seq + i) = (s.proofBytes r).getD i 0 := by
  have heq : s.pfEnd = ((s.framWrite (proofSlot r.seq) (s.proofBytes r)).proofComplete j r).pfHeld := by
    rw [State.pfEnd_eq hpf hstate, hjob]
    dsimp only
    rw [if_pos hkind, State.proofTrailer_emergency hphase hjob hkind hrecord]
  obtain ⟨hfram, hseq, hexp⟩ := (s.framWrite (proofSlot r.seq) (s.proofBytes r)).proofComplete_books j r
  obtain ⟨hheld, hlastseq, hlastexp, hoff, hkept⟩ :=
    ((s.framWrite (proofSlot r.seq) (s.proofBytes r)).proofComplete j r).pfHeld_shown s.irqLive
  rw [exec_emergencyProofComplete_eq, heq]
  refine ⟨_, rfl, hheld, hlastseq.trans hseq, hlastexp.trans hexp, hoff, fun i hi => ?_⟩
  rw [hkept, hfram, s.proofWritten_byte r hi]

theorem exec_emergencyProofComplete_none {s : State} (hpf : s.pwr.pfRunning = true) (hstate : s.devState ≠ stPfhold)
    (hjob : s.prf.job = none) : ∃ t, exec .emergencyProofComplete s = .next t ∧ t.devState = stPfhold ∧
      ∀ a, t.framByte a = s.framByte a := by
  have heq : s.pfEnd = s.pfHeld := by rw [State.pfEnd_eq hpf hstate, hjob]
  obtain ⟨hheld, -, -, -, hkept⟩ := s.pfHeld_shown s.irqLive
  rw [exec_emergencyProofComplete_eq, heq]
  exact ⟨_, rfl, hheld, hkept⟩

end Sys2Proof.Machine
end

section
/-! Settles O35 (DeviceStatesAndPowerFail). -/

namespace Sys2Proof.Machine

/-- A TARGET write that names another state (R86). -/
theorem exec_target_changes {s : State} {p : Port} {v : BitVec 32} (hw : s.writable (.port p) PWR_CTL = true)
    (hpf : s.flag PWR_STAT_PFAIL = false) :
    (s.devState = stRun → v.toNat % 4 = 1 → ∃ t, exec (.targetMeter p v) s = .next t ∧ t.devState = stTrans ∧
      t.pwr.change = .toMeter ∧
      (∀ q ∈ [Part.exposure, .ledger, .clock, .safety, .fram, .inputs, .windows, .pulses, .link], Part.Same s t q)) ∧
    (s.devState = stMeter → v.toNat % 4 = 0 → ∃ t, exec (.targetRun p v) s = .next t ∧ t.devState = stTrans ∧
      t.pwr.change = .toRun ∧ s.Frame t [.power] [PWR_CTL, PWR_STAT]) ∧
    (s.devState = stRun ∨ s.devState = stMeter → v.toNat % 4 = 2 → ∃ t, exec (.targetStandby p v) s = .next t ∧
      t.devState = stTrans ∧ t.pwr.change = .toStandby ∧ s.Frame t [.power, .converter] [PWR_CTL, PWR_STAT, FCV_CSCTL]) := by
  obtain ⟨hmeter, hrun, hstandby⟩ := exec_target_eq p v s
  refine ⟨fun hstate hv => ?_, fun hstate hv => ?_, fun hstate hv => ?_⟩
  · obtain ⟨htrans, hchange, hframe⟩ := State.wrPwrCtl_changes hw hpf (c := .toMeter) (.inl ⟨hstate, hv, rfl⟩) s.irqLive
    have hapart : ∀ q ∈ [Part.exposure, .ledger, .clock, .safety, .fram, .inputs, .windows, .pulses, .link],
        q ∉ Part.power :: changeStopParts .toMeter := by decide
    exact ⟨_, hmeter, htrans, hchange, fun q hq => hframe.part (hapart q hq)⟩
  · obtain ⟨htrans, hchange, hframe⟩ := State.wrPwrCtl_changes hw hpf (c := .toRun) (.inr (.inl ⟨hstate, hv, rfl⟩)) s.irqLive
    exact ⟨_, hrun, htrans, hchange, hframe⟩
  · obtain ⟨htrans, hchange, hframe⟩ := State.wrPwrCtl_changes hw hpf (c := .toStandby) (.inr (.inr ⟨hstate, hv, rfl⟩)) s.irqLive
    exact ⟨_, hstandby, htrans, hchange, hframe⟩

end Sys2Proof.Machine

open Sys2Proof.Machine in
/-- Settles O35: a TARGET write is TRANS with the work of the parts it stops ended; a completed switching leaves the domains as switched;
a power fail is its stages in order, of which each is framed away from PFAIL, PWR_MON and what the emergency proof needs. -/
theorem deviceStatesAndPowerFail : Obligations.DeviceStatesAndPowerFail := by
  unfold Obligations.DeviceStatesAndPowerFail
  refine ⟨fun s p v => ⟨fun hw hpf => exec_target_changes hw hpf, exec_domainSwitchComplete_meter, exec_domainSwitchComplete_run,
    exec_domainSwitchComplete_standby, fun cause hstate hpf hcause => exec_standbyWake_woken hstate hpf hcause⟩,
    fun s => ⟨fun hon hpf => ?_, fun j r => exec_emergencyProofComplete_proof, exec_emergencyProofComplete_none⟩⟩
  obtain ⟨t, heq, hstarted, hpin, hproof⟩ := exec_powerFail_started hon hpf
  exact ⟨t, heq, hstarted.pfail, hpin, hstarted.sequence, hstarted.running, hstarted.pipe, hstarted.off, hproof⟩

end

section
/-!
SUPPORT. What a port's write stores of a register whose RW fields take every value (R9), and the bits of a field of one bit.
-/

namespace Sys2Proof.Machine

theorem State.rd_wrSetting_self (s : State) (off : Nat) (v : BitVec 32) : (s.wrSetting off v).rd off = v := by
  unfold State.wrSetting
  split <;> rw [State.rd_wr, if_pos rfl]

theorem State.stored_of_row {s : State} {off : Nat} {r : RegRow} (h : regRow off = some r) (v : BitVec 32) :
    s.stored off v = BitVec.ofNat 32 (r.fields.foldl (writeField false s.sealed (s.lockMask off) v) (s.rd off).toNat) := by
  rw [State.stored, h]

theorem State.stored_of_none {s : State} {off : Nat} (h : regRow off = none) (v : BitVec 32) : s.stored off v = s.rd off := by
  rw [State.stored, h]

/-- A port's write of a register it reaches leaves there what R9 stores. -/
theorem State.rd_storeWrite_port {s : State} {p : Port} {off : Nat} (v : BitVec 32) (hw : s.writable (.port p) off = true) :
    (s.storeWrite (.port p) off v).rd off = s.stored off v := by
  unfold State.storeWrite
  split
  · next hrow => rw [State.stored_of_none hrow]
  · next hrow =>
    rw [if_pos hw, State.rd_wrSetting_self, State.stored_of_row hrow]
    simp

/-- An RW field that is neither sealed nor locked and takes every value is replaced by what is written to it. -/
theorem writeField_rw (off : Nat) {lsb width : Nat} (old v : BitVec 32) (sealedNow locked : Bool)
    (hopen : (locked && sealedNow) = false) (hf : lsb + width ≤ 32) :
    writeField false sealedNow 0 v old.toNat ⟨lsb, width, .rw, .any, locked⟩ =
      (withField old ⟨off, lsb, width⟩ (fieldOf v ⟨off, lsb, width⟩)).toNat := by
  rw [withField_toNat hf]
  simp [writeField, checkField, hopen, fieldOf]

/-- A read-only field keeps what is stored. -/
theorem writeField_ro (lsb width old lock : Nat) (v : BitVec 32) (image sealedNow locked : Bool) (c : FieldCheck) :
    writeField image sealedNow lock v old ⟨lsb, width, .ro, c, locked⟩ = old := by
  simp [writeField]

theorem fieldOf_withField_fieldOf (old v : BitVec 32) {f : Fld} (hf : f.lsb + f.width ≤ 32) :
    fieldOf (withField old f (fieldOf v f)) f = fieldOf v f :=
  (fieldOf_withField hf).trans (Nat.mod_mod _ _)

theorem fieldOf_bit (v : BitVec 32) (off i : Nat) : (fieldOf v ⟨off, i, 1⟩ != 0) = bitAt v.toNat i := by
  unfold fieldOf bitAt
  rcases Nat.mod_two_eq_zero_or_one (v.toNat / 2 ^ i) with h | h <;> simp [h]

end Sys2Proof.Machine
end

section
/-!
SUPPORT. MFE_BANKk as a port writes it, and CALSELk as it follows while pairing does not run (R123).
-/

namespace Sys2Proof.Machine

/-- The row of the twelve MFE_BANK registers. -/
def bankRow : RegRow :=
  ⟨0x1040, 0x4, 12, 0, 1, 2, 0x8,
    [⟨10, 1, .ro, .any, false⟩, ⟨9, 1, .ro, .any, false⟩, ⟨8, 1, .ro, .any, false⟩, ⟨5, 1, .rw, .any, true⟩,
      ⟨4, 1, .rw, .any, true⟩, ⟨0, 4, .rw, .any, true⟩]⟩

theorem regRow_bank : ∀ k < 12, regRow (MFE_BANK k) = some bankRow := by decide

theorem State.lockMask_bank (s : State) {k : Nat} (hk : k < 12) : s.lockMask (MFE_BANK k) = 0 := by
  interval_cases k <;> rfl

/-- A write of MFE_BANKk on a device that is not sealed stores CALLVL, CALFRC and PHASE. -/
theorem State.stored_bank {s : State} {k : Nat} (hk : k < 12) (hsealed : s.sealed = false) (v : BitVec 32) :
    s.stored (MFE_BANK k) v = withField (withField (withField (s.rd (MFE_BANK k)) (MFE_BANK_CALLVL k) (fieldOf v (MFE_BANK_CALLVL k)))
      (MFE_BANK_CALFRC k) (fieldOf v (MFE_BANK_CALFRC k))) (MFE_BANK_PHASE k) (fieldOf v (MFE_BANK_PHASE k)) := by
  have hrow : s.stored (MFE_BANK k) v =
      BitVec.ofNat 32 (bankRow.fields.foldl (writeField false false 0 v) (s.rd (MFE_BANK k)).toNat) := by
    rw [State.stored_of_row (regRow_bank k hk), hsealed, s.lockMask_bank hk]
  rw [hrow]
  simp only [bankRow, List.foldl_cons, List.foldl_nil, writeField_ro]
  rw [writeField_rw (MFE_BANK k) _ _ _ _ rfl (by decide), writeField_rw (MFE_BANK k) _ _ _ _ rfl (by decide),
    writeField_rw (MFE_BANK k) _ _ _ _ rfl (by decide), BitVec.ofNat_toNat, BitVec.setWidth_eq]
  rfl

/-- CALFRC and CALLVL are what a port's write of MFE_BANKk gives them. -/
theorem State.bank_written {s : State} {p : Port} {k : Nat} (hk : k < 12) (hw : s.writable (.port p) (MFE_BANK k) = true)
    (hsealed : s.sealed = false) (v : BitVec 32) :
    (s.storeWrite (.port p) (MFE_BANK k) v).flag (MFE_BANK_CALFRC k) = bitAt v.toNat 4 ∧
      (s.storeWrite (.port p) (MFE_BANK k) v).flag (MFE_BANK_CALLVL k) = bitAt v.toNat 5 := by
  have hrd := (State.rd_storeWrite_port v hw).trans (State.stored_bank hk hsealed v)
  constructor
  · change (fieldOf ((s.storeWrite (.port p) (MFE_BANK k) v).rd (MFE_BANK k)) (MFE_BANK_CALFRC k) != 0) = _
    rw [hrd, fieldOf_withField_ne (by simp [MFE_BANK_PHASE]) (by simp [MFE_BANK_PHASE, MFE_BANK_CALFRC]),
      fieldOf_withField_fieldOf _ _ (by simp [MFE_BANK_CALFRC])]
    exact fieldOf_bit v (MFE_BANK k) 4
  · change (fieldOf ((s.storeWrite (.port p) (MFE_BANK k) v).rd (MFE_BANK k)) (MFE_BANK_CALLVL k) != 0) = _
    rw [hrd, fieldOf_withField_ne (by simp [MFE_BANK_PHASE]) (by simp [MFE_BANK_PHASE, MFE_BANK_CALLVL]),
      fieldOf_withField_ne (by simp [MFE_BANK_CALFRC]) (by simp [MFE_BANK_CALFRC, MFE_BANK_CALLVL]),
      fieldOf_withField_fieldOf _ _ (by simp [MFE_BANK_CALLVL])]
    exact fieldOf_bit v (MFE_BANK k) 5

theorem frame_calselForce (s : State) (k : Nat) : s.Frame (s.calselForce k) [.exposure] [MFE_BANK k] :=
  State.Frame.ite (fun _ => State.Frame.refl _ _ _) (fun _ => (frame_modExp _ _).seq (frame_setFlag _ (MFE_BANK_CALST k) _))

/-- While pairing does not run, CALFRC drives CALSELk at the level of CALLVL, and CALST shows it. -/
theorem State.calselForce_shown {s : State} {k : Nat} (hbank : s.bankOk k = true) (hon : s.pdOn 2 = true)
    (hpair : s.flag PAIR_STAT_RUN = false) :
    (s.calselForce k).exp.calsel =
        s.exp.calsel.set k (if s.flag (MFE_BANK_CALFRC k) = true then some (s.flag (MFE_BANK_CALLVL k)) else none) ∧
      (s.calselForce k).flag (MFE_BANK_CALST k) = (s.flag (MFE_BANK_CALFRC k) && s.flag (MFE_BANK_CALLVL k)) := by
  unfold State.calselForce
  rw [if_neg (by simp [hpair])]
  simp only [hbank, hon, Bool.and_true]
  exact ⟨rfl, State.flag_setFlag_self _ (MFE_BANK_CALST k) _ (by simp [MFE_BANK_CALST]) (by simp [MFE_BANK_CALST])⟩

theorem exec_calfrcWrite_eq (p : Port) {k : Nat} (hk : k < 12) (v : BitVec 32) (s : State) :
    exec (.calfrcWrite p k v) s = .next (((s.storeWrite (.port p) (MFE_BANK k) v).calselForce k).settle s.irqLive) := by
  change finish (fun s => if k < 12 then State.wrBank (.port p) k v s else s) s = _
  simp only [hk, if_true, finish, State.wrBank]

/-- CALFRC and CALLVL act at once, while pairing does not run and the bank's supply is in range (R123). -/
theorem exec_calfrcWrite_drives {s : State} {p : Port} {k : Nat} (hk : k < 12) (hw : s.writable (.port p) (MFE_BANK k) = true)
    (hsealed : s.sealed = false) (hbank : s.bankOk k = true) (hon : s.pdOn 2 = true) (hpair : s.flag PAIR_STAT_RUN = false)
    (v : BitVec 32) : ∃ t, exec (.calfrcWrite p k v) s = .next t ∧
      t.exp.calsel = s.exp.calsel.set k (if bitAt v.toNat 4 = true then some (bitAt v.toNat 5) else none) ∧
      t.flag (MFE_BANK_CALST k) = (bitAt v.toNat 4 && bitAt v.toNat 5) ∧ s.Frame t [.exposure, .checks] [MFE_BANK k] := by
  have hwritten := frame_storeWrite s (.port p) (MFE_BANK k) v
  have hlow : endReg (MFE_BANK k) = false := endReg_low (by unfold MFE_BANK; omega)
  have hstat : ∀ k < 12, PWR_STAT ∉ [MFE_BANK k] ∧ PAIR_STAT_RUN.off ∉ [MFE_BANK k] := by decide
  obtain ⟨hpwr, hrun⟩ := hstat k hk
  obtain ⟨hfrc, hlvl⟩ := State.bank_written hk hw hsealed v
  obtain ⟨hsel, hst⟩ := State.calselForce_shown (s := s.storeWrite (.port p) (MFE_BANK k) v) (k := k)
    (by rw [State.bankOk, (hwritten.part (p := .power) (by simp) :)]; exact hbank)
    (by rw [hwritten.pdOn hpwr, hon]) (by rw [hwritten.flag _ hrun (by decide), hpair])
  rw [hfrc, hlvl] at hsel hst
  refine ⟨_, exec_calfrcWrite_eq p hk v s, ?_, ?_, ?_⟩
  · rw [(State.settle_same _ _ .exposure :), hsel, (hwritten.part (p := .exposure) (by simp) :)]
  · rw [State.settle_flag hlow _ _ _ rfl, hst]
  · exact ((hwritten.seq (frame_calselForce _ k)).settle _).mono (by simp) (by simp)

end Sys2Proof.Machine
end

section
/-!
SUPPORT. GLB_IRQSUM under writes of registers outside it, and the rise that the end of a command signals (R390, R454).
-/

namespace Sys2Proof.Machine

/-! A fold over a store that does not look at a key -/

section
variable {α β : Type} {g : β → Nat × α → β} {k : Nat}

theorem foldl_storeErase (hg : ∀ b x, g b (k, x) = b) (m : List (Nat × α)) (b : β) :
    (storeErase m k).foldl g b = m.foldl g b := by
  induction m generalizing b with
  | nil => rfl
  | cons e m ih =>
    obtain ⟨a, x⟩ := e
    unfold storeErase
    split
    · next h => rw [ih, List.foldl_cons, h, hg]
    · rw [List.foldl_cons, ih, List.foldl_cons]

theorem foldl_storeInsert (hg : ∀ b x, g b (k, x) = b) (v : α) (m : List (Nat × α)) (b : β) :
    (storeInsert m k v).foldl g b = m.foldl g b := by
  induction m generalizing b with
  | nil => exact hg b v
  | cons e m ih =>
    obtain ⟨a, x⟩ := e
    unfold storeInsert
    split
    · next h => rw [List.foldl_cons, List.foldl_cons, h, hg, hg]
    · split
      · rw [List.foldl_cons, hg]
      · rw [List.foldl_cons, ih, List.foldl_cons]

theorem foldl_storePut [DecidableEq α] (hg : ∀ b x, g b (k, x) = b) (d v : α) (m : List (Nat × α)) (b : β) :
    (storePut d m k v).foldl g b = m.foldl g b := by
  unfold storePut
  split
  · exact foldl_storeErase hg m b
  · exact foldl_storeInsert hg v m b

end

/-! The interrupt summary -/

/-- A register that takes no part in GLB_IRQSUM, neither with a flag nor as the state of PD9. -/
abbrev Unsummed (off : Nat) : Prop := irqFlags off = none ∧ off ≠ PWR_STAT ∧ off ≠ HIF_STAT

theorem State.irqSum_of_regs {s t : State} (h : t.regs = s.regs) : t.irqSum = s.irqSum := by
  unfold State.irqSum State.pdOn
  rw [h, State.get_of_regs h, State.get_of_regs h]

theorem State.irqSum_wr (s : State) {off : Nat} (v : BitVec 32) (h : Unsummed off) : (s.wr off v).irqSum = s.irqSum := by
  obtain ⟨hflags, hpwr, hhif⟩ := h
  have hframe := frame_wr s off v
  unfold State.irqSum
  rw [hframe.pdOn (by simpa using hpwr.symm), hframe.get HIF_STAT_CPLLOST (by simpa [HIF_STAT_CPLLOST] using hhif.symm) (by decide)]
  exact foldl_storePut (fun b x => by simp only [hflags]) _ _ _ _

theorem State.irqSum_put (s : State) (f : Fld) (x : Nat) (h : Unsummed f.off) : (s.put f x).irqSum = s.irqSum := s.irqSum_wr _ h

theorem State.irqSum_setFlag (s : State) (f : Fld) (b : Bool) (h : Unsummed f.off) : (s.setFlag f b).irqSum = s.irqSum :=
  s.irqSum_wr _ h

theorem State.irqSum_bump (s : State) (f : Fld) (n : Nat) (h : Unsummed f.off) : (s.bump f n).irqSum = s.irqSum := s.irqSum_wr _ h

/-- The counts and the status that decided events change are no flags of the summary. -/
theorem State.irqSum_queueEvents (s : State) : s.queueEvents.irqSum = s.irqSum := by
  obtain h | ⟨n, h⟩ := s.queueEvents_regs
  · exact State.irqSum_of_regs h
  · exact (State.irqSum_of_regs h).trans (s.irqSum_bump EVT_DROPCNT_DROPCNT n (by decide))

theorem State.irqSum_fcvShow (s : State) : s.fcvShow.irqSum = s.irqSum := by
  have hstat : Unsummed FCV_STAT := by decide
  unfold State.fcvShow
  dsimp only
  rw [State.irqSum_setFlag _ FCV_STAT_HELD _ hstat, State.irqSum_setFlag _ FCV_STAT_CAPT _ hstat,
    State.irqSum_setFlag _ FCV_STAT_ARMED _ hstat, State.irqSum_setFlag _ FCV_STAT_CALRUN _ hstat,
    State.irqSum_put _ FCV_STAT_OWNER _ hstat]

theorem State.irqSum_sheetTrigger (s : State) (k x : Nat) (c : BitVec 16) (i : BitVec 8) (q : BitVec 64) (a : Nat) :
    (s.sheetTrigger k x c i q a).irqSum = s.irqSum := by
  unfold State.sheetTrigger
  split
  · rfl
  · exact State.irqSum_fcvShow _
  · exact (State.irqSum_of_regs (State.event_regs ..)).trans
      (s.irqSum_bump FCV_CSMISS_CSMISS 1 (by decide))

theorem State.irqSum_sheetNow (s : State) : s.sheetNow.irqSum = s.irqSum :=
  foldl_keeps State.irqSum _ (fun _ _ => State.irqSum_sheetTrigger ..) _ _

/-! The rise -/

theorem State.signal_pending (s : State) {v : Nat} (hv : v < 32) : bitAt ((s.signal v).rd MBX_IRQPEND).toNat v = true := by
  have hpend : (s.signal v).rd MBX_IRQPEND = s.rd MBX_IRQPEND ||| BitVec.ofNat 32 (2 ^ v) := by
    have hpba : MSIX_PBA ≠ MBX_IRQPEND := by decide
    unfold State.signal
    dsimp only
    repeat' split
    all_goals simp [hpba]
  rw [hpend]
  exact bitAt_or_bit _ hv

/-- A bit of the enabled summary that was 0 makes the vector GVEC pending. -/
theorem State.signalRise_pending {s : State} {before k : Nat} (hlive : bitAt s.irqLive k = true) (hbefore : bitAt before k = false)
    (hgven : s.flag HIF_CTL_GVEN = true) : bitAt ((s.signalRise before).rd MBX_IRQPEND).toNat (s.get HIF_CTL_GVEC) = true := by
  have hrose : s.irqLive - (s.irqLive &&& before) ≠ 0 := by
    intro h
    have heq : s.irqLive &&& before = s.irqLive := Nat.le_antisymm Nat.and_le_left (Nat.sub_eq_zero_iff_le.mp h)
    rw [← heq, bitAt_eq_testBit, Nat.testBit_and, ← bitAt_eq_testBit before, hbefore, Bool.and_false] at hlive
    cases hlive
  have hvec : s.get HIF_CTL_GVEC < 32 := Nat.mod_lt _ (by decide)
  unfold State.signalRise
  rw [if_neg hrose, if_pos hgven]
  exact s.signal_pending hvec

/-- The decided events in the queue, with the contact sheets they trigger: what the end of a command finds before it signals. -/
def State.eventsEnded (s : State) : State := s.queueEvents.sheetNow.queueEvents

theorem State.eventsEnded_rd (s : State) {off : Nat} (h : endReg off = false) : s.eventsEnded.rd off = s.rd off := by
  rw [State.eventsEnded, State.queueEvents_rd h, State.sheetNow_rd h, State.queueEvents_rd h]

theorem State.eventsEnded_get (s : State) (f : Fld) (h : endReg f.off = false) : s.eventsEnded.get f = s.get f := by
  rw [State.get, s.eventsEnded_rd h, State.get]

theorem State.eventsEnded_irqLive (s : State) : s.eventsEnded.irqLive = s.irqLive := by
  rw [State.irqLive, s.eventsEnded_get _ (by decide), State.eventsEnded, State.irqSum_queueEvents, State.irqSum_sheetNow,
    State.irqSum_queueEvents, State.irqLive]

/-- A command that decided no event ends with the signal of the rise. -/
theorem State.rd_settle_quiet {s : State} (hquiet : s.evt.now = []) (before off : Nat) :
    (s.settle before).rd off = (s.eventsEnded.signalRise before).rd off := by
  rw [State.rd_eq, State.rd_eq, State.settle, State.tripNow_quiet hquiet]
  exact storeGet_canon regReset _ _

/-- A bit of the enabled summary that a command without events raises over `before` makes the vector GVEC pending. -/
theorem State.settle_pending {s : State} {before k : Nat} (hquiet : s.evt.now = []) (hlive : bitAt s.irqLive k = true)
    (hbefore : bitAt before k = false) (hgven : s.flag HIF_CTL_GVEN = true) :
    bitAt ((s.settle before).rd MBX_IRQPEND).toNat (s.get HIF_CTL_GVEC) = true := by
  rw [State.rd_settle_quiet hquiet, ← s.eventsEnded_get HIF_CTL_GVEC (by decide)]
  refine State.signalRise_pending ?_ hbefore ?_
  · rw [State.eventsEnded_irqLive, hlive]
  · rw [State.flag, s.eventsEnded_get _ (by decide)]; exact hgven

end Sys2Proof.Machine
end

section
/-!
SUPPORT. A write of GLB_IRQEN, which counts as a rise of every summary bit at 1 that it enables (R454).
-/

namespace Sys2Proof.Machine

/-- The row of GLB_IRQEN. -/
def irqenRow : RegRow := ⟨0x0020, 0x4, 1, 0, 1, 1, 0x0, [⟨0, 13, .rw, .any, false⟩]⟩

theorem regRow_irqen : regRow GLB_IRQEN = some irqenRow := by decide

theorem State.lockMask_irqen (s : State) : s.lockMask GLB_IRQEN = 0 := rfl

/-- A port's write of GLB_IRQEN does no more than store its field. -/
theorem State.writeReg_irqen {s : State} {p : Port} (v : BitVec 32) (hw : s.writable (.port p) GLB_IRQEN = true) :
    s.writeReg (.port p) GLB_IRQEN v = s.storeWrite (.port p) GLB_IRQEN v := by
  obtain ⟨⟨hpd1, -⟩, -⟩ : (s.pd1On = true ∧ s.pdOn (regDomain GLB_IRQEN) = true) ∧ _ := by
    simpa only [State.writable, Bool.and_eq_true] using hw
  obtain ⟨halign, hrow, hmsix⟩ : GLB_IRQEN % 4 = 0 ∧ (regRow GLB_IRQEN).isNone = false ∧ msixOff GLB_IRQEN = false := by decide
  obtain ⟨hlowest, hupper⟩ : (lowestOf GLB_IRQEN).isSome = false ∧ (upperWords GLB_IRQEN).isEmpty = true := by decide
  have hlow : s.writeReg (.port p) GLB_IRQEN v = s.plainWrite (.port p) GLB_IRQEN v := by
    unfold State.writeReg
    rw [if_neg (by simp [halign, hrow, hmsix, hpd1]), if_neg (by decide), if_neg (by simp [hw])]
    rfl
  rw [hlow, State.plainWrite, hlowest, hupper]
  rfl

theorem State.get_irqen_written {s : State} {p : Port} (v : BitVec 32) (hw : s.writable (.port p) GLB_IRQEN = true) :
    (s.storeWrite (.port p) GLB_IRQEN v).get GLB_IRQEN_EN = v.toNat % 2 ^ 13 := by
  have hstored : s.stored GLB_IRQEN v = withField (s.rd GLB_IRQEN) GLB_IRQEN_EN (fieldOf v GLB_IRQEN_EN) := by
    rw [State.stored_of_row regRow_irqen, s.lockMask_irqen, irqenRow, List.foldl_cons, List.foldl_nil,
      writeField_rw GLB_IRQEN _ _ _ _ rfl (by decide), BitVec.ofNat_toNat, BitVec.setWidth_eq]
    rfl
  change fieldOf ((s.storeWrite (.port p) GLB_IRQEN v).rd GLB_IRQEN) GLB_IRQEN_EN = _
  rw [State.rd_storeWrite_port v hw, hstored, fieldOf_withField_fieldOf _ _ (by decide)]
  simp [fieldOf, GLB_IRQEN_EN]

theorem State.irqSum_irqen_written (s : State) (p : Port) (v : BitVec 32) :
    (s.storeWrite (.port p) GLB_IRQEN v).irqSum = s.irqSum := by
  unfold State.storeWrite State.wrSetting
  split
  · rfl
  · split
    · exact State.irqSum_wr s _ (by decide)
    · rfl

theorem bitAt_mod_two_pow (n : Nat) {m k : Nat} (hk : k < m) : bitAt (n % 2 ^ m) k = bitAt n k := by
  simp [bitAt_eq_testBit, Nat.testBit_mod_two_pow, hk]

theorem State.bitAt_irqLive (s : State) (k : Nat) : bitAt s.irqLive k = (bitAt s.irqSum k && bitAt (s.get GLB_IRQEN_EN) k) := by
  simp [bitAt_eq_testBit, State.irqLive]

/-- A write of GLB_IRQEN stores the enables, and a summary bit at 1 that it enables makes the vector GVEC pending (R454). -/
theorem exec_irqenWrite_enables {s : State} {p : Port} (hinv : s.Inv) (hw : s.writable (.port p) GLB_IRQEN = true) (v : BitVec 32) :
    ∃ t, exec (.irqenWrite p v) s = .next t ∧ t.get GLB_IRQEN_EN = v.toNat % 2 ^ 13 ∧
      (∀ k, k < 13 → bitAt v.toNat k = true → bitAt s.irqSum k = true → bitAt (s.get GLB_IRQEN_EN) k = false →
        s.flag HIF_CTL_GVEN = true → bitAt (t.rd MBX_IRQPEND).toNat (s.get HIF_CTL_GVEC) = true) ∧ s.Frame t [] [GLB_IRQEN] := by
  obtain ⟨-, -, -, hquiet⟩ := hinv
  have hexec : exec (.irqenWrite p v) s = .next ((s.storeWrite (.port p) GLB_IRQEN v).settle s.irqLive) := by
    rw [← State.writeReg_irqen v hw]; rfl
  have hwritten := frame_storeWrite_plain s (.port p) GLB_IRQEN v (by decide)
  have hget := State.get_irqen_written v hw
  refine ⟨_, hexec, ?_, fun k hk hv hsum hen hgven => ?_, hwritten.settle _⟩
  · rw [State.settle_get (by decide) _ _ GLB_IRQEN_EN rfl, hget]
  · rw [← hwritten.get HIF_CTL_GVEC (by decide) (by decide)]
    refine State.settle_pending (k := k) ?_ ?_ ?_ ?_
    · simpa using hquiet
    · rw [State.bitAt_irqLive, State.irqSum_irqen_written, hget, bitAt_mod_two_pow _ hk, hsum, hv]; rfl
    · rw [State.bitAt_irqLive, hen, Bool.and_false]
    · rw [hwritten.flag HIF_CTL_GVEN (by decide) (by decide), hgven]

end Sys2Proof.Machine

open Sys2Proof.Machine in
/-- Settles O26: MFE_BANKk's write is followed by CALSELk in the same command, and the end of GLB_IRQEN's write finds the bits it enables
risen over those enabled before it. -/
theorem registerWritesThatActAtOnce : Obligations.RegisterWritesThatActAtOnce := by
  unfold Obligations.RegisterWritesThatActAtOnce
  exact ⟨fun _ _ _ v hk hw hsealed hbank hon hpair => exec_calfrcWrite_drives hk hw hsealed hbank hon hpair v,
    fun _ _ v hinv hw => exec_irqenWrite_enables hinv hw v⟩

end

section
/-!
SUPPORT. Taking a command that waits: what taking leaves as it was, and when the command is then found waiting (R38, R392, R395, R408).
-/

namespace Sys2Proof.Machine

/-- Taking a command takes no time. -/
theorem State.accept_passed (s : State) (h : CmdHdr) (d : BitVec 64) : (s.accept h).passed d = s.passed d := by
  have hframe := frame_accept s h
  have hts : (s.accept h).ts = s.ts := State.ts_of_same (by simp) (hframe.flag RTC_STAT_OSF (by decide) (by decide))
    (hframe.flag PWR_STAT_HFOK (by decide) (by decide)) (by simp) (by simp) (by simp)
  rw [State.passed, hts, State.passed]

theorem State.accept_serving (s : State) (h : CmdHdr) : (s.accept h).serving = s.serving := by
  have hpwr : (s.accept h).pwr = s.pwr := by simp
  rw [State.serving, (frame_accept s h).pdOn (by decide), hpwr, State.serving]

/-- A command that is accepted comes to its body. -/
theorem State.take_accepted {s : State} {h : CmdHdr} (hacc : s.Accepts h) (op : BitVec 8) (body : State → State) :
    s.take op h body = body (s.accept h) := by
  obtain ⟨htake, hdeadline, hserving⟩ := hacc
  have hpassed : ¬ (h.dlv && (s.accept h).passed h.deadline) = true := by
    rw [State.accept_passed, Bool.and_eq_true]
    exact fun hlate => Bool.false_ne_true ((hdeadline hlate.1).symm.trans hlate.2)
  unfold State.take
  rw [if_pos htake]
  dsimp only
  rw [if_neg hpassed, if_neg (by simp [State.accept_serving, hserving])]

/-- The queue of completions is part of the host interface. -/
theorem State.Frame.cplQ {s t : State} {ps : List Part} {os : List Nat} (h : s.Frame t ps os) (hhost : Part.host ∉ ps) :
    t.hif.cplQ = s.hif.cplQ :=
  (congrArg HifState.cplQ (h.part hhost) :)

theorem State.moderate_cplQ (s : State) (r n : Nat) : (s.moderate r n).hif.cplQ = s.hif.cplQ := by
  unfold State.moderate
  split
  · dsimp only
    split
    · exact (frame_signal _ _).cplQ (by decide)
    · rfl
  · rfl

/-- Returning descriptors completes nothing else. -/
theorem State.returnDescs_cplQ (s : State) (r n : Nat) : (s.returnDescs r n).hif.cplQ = s.hif.cplQ := by
  have hstatus (t : State) : (t.statusRing r).hif.cplQ = t.hif.cplQ :=
    ((frame_hostWrite _ _).trans (frame_hostWrite _ _)).cplQ (by decide)
  rw [State.returnDescs, State.moderate_cplQ, hstatus, State.wr_hif]

/-- C of the CMD ring after a command is taken from it. -/
theorem State.accept_ring {s : State} {h : CmdHdr} {idx : BitVec 32} (hsrc : h.src = .ring idx) :
    (s.accept h).hif.cplQ = s.hif.cplQ ∧ (s.accept h).rd (HIF_RCIDX 0) = s.rd (HIF_RCIDX 0) + 1 := by
  unfold State.accept
  rw [hsrc]
  exact ⟨State.returnDescs_cplQ _ 0 1, State.ringC_returnDescs _ 1 (by decide)⟩

/-- The mailbox after a command is taken from it. -/
theorem State.accept_mailbox {s : State} {h : CmdHdr} {o : Port} (hsrc : h.src = .mailbox o) :
    (s.accept h).flag MBX_STAT_BUSY = true ∧ (s.accept h).flag MBX_STAT_DONE = false := by
  unfold State.accept
  rw [hsrc]
  dsimp only
  have howner (t : State) (x : Nat) (g : Fld) (hg : g.lsb + g.width ≤ 2) : (t.put MBX_STAT_OWNER x).flag g = t.flag g := by
    unfold State.flag
    rw [State.get_put_other t MBX_STAT_OWNER g x (by decide) (.inr (.inl hg))]
  rw [howner _ _ _ (by decide), howner _ _ _ (by decide)]
  exact ⟨by rw [State.flag_setFlag_other _ _ _ _ (by decide) (by decide), State.flag_setFlag_self _ _ _ (by decide) (by decide)],
    State.flag_setFlag_self _ _ _ (by decide) (by decide)⟩

/-- A command taken and kept is found waiting after any change that leaves the open commands and the host interface. -/
theorem State.Frame.waits {s t : State} {op : BitVec 8} {h : CmdHdr} {w : Wait} {ps : List Part} {os : List Nat}
    (hframe : ((s.accept h).keep op h w).Frame t ps os) (htaken : Part.taken ∉ ps) (hhost : Part.host ∉ ps)
    (hring : HIF_RCIDX 0 ∉ os) (hmbx : MBX_STAT ∉ os) : s.Waits t op h w := by
  have hopen : (s.accept h).taken = s.taken := by simp
  refine ⟨?_, ?_⟩
  · rw [(hframe.part htaken :), State.keep_taken, hopen]
  · cases hsrc : h.src with
    | ring idx =>
      obtain ⟨hcpl, hc⟩ := State.accept_ring (s := s) hsrc
      exact ⟨(hframe.cplQ hhost).trans hcpl, (hframe.rd hring (by decide)).trans hc⟩
    | mailbox o =>
      obtain ⟨hbusy, hdone⟩ := State.accept_mailbox (s := s) hsrc
      exact ⟨(hframe.flag MBX_STAT_BUSY hmbx (by decide)).trans hbusy, (hframe.flag MBX_STAT_DONE hmbx (by decide)).trans hdone⟩
    | image => trivial

end Sys2Proof.Machine
end

section
/-!
Settles O11 (R137, R138).  A command and the ball come to the same recognition of a request, which sets the sync edge and SYNCPEND; the
command is taken and kept beside it.
-/

namespace Sys2Proof.Machine

/-! Recognition of a request -/

/-- The exposure state once a SYNC from a source is recognised: its edge is 128 MCLK periods away. -/
def State.syncWaiting (s : State) (src : BitVec 3) : ExpState :=
  { s.exp with syncAt := some (s.exp.now + (if s.effGet PWR_CTL_MCLKLP = 1 then 256 else 128)), syncSrc := src }

theorem State.syncRequest_recognised {s : State} (src : BitVec 3) (hnone : s.exp.syncAt = none) :
    s.syncRequest src = (s.modExp (fun _ => s.syncWaiting src)).setFlag FLT_STAT_SYNCPEND true := by
  unfold State.syncRequest
  rw [hnone]
  rfl

theorem frame_syncRequest (s : State) (src : BitVec 3) : s.Frame (s.syncRequest src) [.exposure] [FLT_STAT] :=
  State.Frame.ite (fun _ => State.Frame.refl _ _ _) (fun _ => (frame_modExp _ _).seq (frame_setFlag _ FLT_STAT_SYNCPEND _))

/-- What a recognised request sets, at the end of the command that brought it. -/
theorem State.syncRequest_shown {s : State} (src : BitVec 3) (hnone : s.exp.syncAt = none) (b : Nat) :
    ((s.syncRequest src).settle b).exp = s.syncWaiting src ∧ ((s.syncRequest src).settle b).flag FLT_STAT_SYNCPEND = true := by
  rw [(State.settle_same _ _ .exposure :), State.settle_flag (by decide) _ _ _ rfl, State.syncRequest_recognised src hnone]
  exact ⟨rfl, State.flag_setFlag_self _ _ _ (by decide) (by decide)⟩

theorem State.syncWaiting_of_exp {s t : State} (hexp : t.exp = s.exp) (src : BitVec 3) : t.syncWaiting src = s.syncWaiting src := by
  unfold State.syncWaiting State.effGet
  rw [hexp]

/-! The device's own boundaries -/

theorem State.accept_follows (s : State) (h : CmdHdr) :
    (s.accept h).tzSlave = s.tzSlave ∧ (s.accept h).follows = s.follows := by
  have hframe := frame_accept s h
  have htzl : (s.accept h).tzl = s.tzl := by simp
  have hslave : (s.accept h).tzSlave = s.tzSlave := by
    rw [State.tzSlave, htzl, hframe.flag GLB_STRAP_MSTR (by decide) (by decide), State.tzSlave]
  refine ⟨hslave, ?_⟩
  unfold State.follows State.mirStandby State.mirLinked
  rw [hslave, htzl, hframe.flag TZL_STAT_ISLAND (by decide) (by decide), hframe.flag TZL_STAT_ACTIVE (by decide) (by decide),
    hframe.flag TZL_STAT_UPTRN (by decide) (by decide), hframe.flag TZL_STAT_DNTRN (by decide) (by decide)]

/-! The command and the ball -/

section
variable {s : State} (hfree : s.flag PWR_STAT_ASBUSY = false) (hslave : s.tzSlave = false) (hfollows : s.follows = false)
  (hon : s.pdOn 3 = true)
include hfree hslave hfollows hon

theorem State.cmdSync_kept (h : CmdHdr) : s.cmdSync h = (s.keep 0x20 h .sync).syncRequest 2 := by
  unfold State.cmdSync
  rw [if_neg (by simp [hfree, hslave, hfollows, hon])]

theorem State.syncBall_recognised (hready : s.ready = true) (hpin : s.flag FLT_CTL_SYNCPIN = true) : s.syncBall = s.syncRequest 1 := by
  unfold State.syncBall
  rw [if_neg (by simp [hfree, hslave, hfollows, hon, hready, hpin])]

variable (hnone : s.exp.syncAt = none)
include hnone

/-- A SYNC command waits for the sync edge that it requests. -/
theorem exec_sync_waits {h : CmdHdr} (hacc : s.Accepts h) :
    ∃ t, exec (.sync h) s = .next t ∧ s.Waits t 0x20 h .sync ∧ t.exp = s.syncWaiting 2 ∧ t.flag FLT_STAT_SYNCPEND = true ∧
      s.Frame t [.exposure, .taken, .host] (FLT_STAT :: hostRegs) := by
  have haccept := frame_accept s h
  obtain ⟨hslave', hfollows'⟩ := s.accept_follows h
  have hexp : ((s.accept h).keep 0x20 h .sync).exp = s.exp := by simp
  have heffect : s.take 0x20 h (fun s => s.cmdSync h) = ((s.accept h).keep 0x20 h .sync).syncRequest 2 := by
    rw [State.take_accepted hacc]
    exact State.cmdSync_kept ((haccept.flag PWR_STAT_ASBUSY (by decide) (by decide)).trans hfree) (hslave'.trans hslave)
      (hfollows'.trans hfollows) ((haccept.pdOn (by decide) 3).trans hon) h
  have hexec : exec (.sync h) s = .next ((((s.accept h).keep 0x20 h .sync).syncRequest 2).settle s.irqLive) := by
    rw [← heffect]; rfl
  have hrequest := (frame_syncRequest ((s.accept h).keep 0x20 h .sync) 2).settle s.irqLive
  obtain ⟨hedge, hpend⟩ := State.syncRequest_shown 2 (by rw [hexp, hnone]) s.irqLive
  exact ⟨_, hexec, hrequest.waits (by decide) (by decide) (by decide) (by decide), hedge.trans (State.syncWaiting_of_exp hexp 2), hpend,
    ((haccept.seq (frame_keep _ _ _ _)).seq hrequest).mono (by decide) (by decide)⟩

/-- An enabled SYNC ball requests a sync edge. -/
theorem exec_syncPin_requests (hready : s.ready = true) (hpin : s.flag FLT_CTL_SYNCPIN = true) :
    ∃ t, exec .syncPin s = .next t ∧ t.exp = s.syncWaiting 1 ∧ t.flag FLT_STAT_SYNCPEND = true ∧ s.Frame t [.exposure] [FLT_STAT] := by
  have hexec : exec .syncPin s = .next ((s.syncRequest 1).settle s.irqLive) := by
    rw [← State.syncBall_recognised hfree hslave hfollows hon hready hpin]; rfl
  obtain ⟨hedge, hpend⟩ := State.syncRequest_shown 1 hnone s.irqLive
  exact ⟨_, hexec, hedge, hpend, (frame_syncRequest s 1).settle _⟩

end

end Sys2Proof.Machine

open Sys2Proof.Machine in
/-- Settles O11: the command and the ball request the same edge. -/
theorem syncRequestsWaitForEdge : Obligations.SyncRequestsWaitForEdge := by
  unfold Obligations.SyncRequestsWaitForEdge
  exact fun s h hfree hslave hfollows hon hnone => ⟨fun hacc => exec_sync_waits hfree hslave hfollows hon hnone hacc,
    fun hready hpin => exec_syncPin_requests hfree hslave hfollows hon hnone hready hpin⟩

end

section
/-!
SUPPORT. Answering a command: the completion that its source then shows, for a command answered as it is taken and for one that was
waiting (R38, R392 to R394, R408).
-/

namespace Sys2Proof.Machine

/-! The instant of a completion -/

/-- The parts of the state that a completion takes its timestamp and exposure number from. -/
def timeParts : List Part := [.exposure, .clock, .link, .windows]

/-- The registers that a completion takes its timestamp from. -/
def timeRegs : List Nat := [RTC_STAT, PWR_STAT]

/-- The parts of the state that a completion is made of or joins. -/
def cplParts : List Part := .taken :: .host :: timeParts

section
variable {s t : State} {ps : List Part} {os : List Nat} (h : s.Frame t ps os) (hparts : ∀ p ∈ timeParts, p ∉ ps)
  (hregs : ∀ off ∈ timeRegs, off ∉ os)
include h hparts hregs

/-- What leaves the time bases takes no time. -/
theorem State.Frame.ts : t.ts = s.ts := by
  have hlink : ({ t.tzl with fwd := [] } : TzlState) = { s.tzl with fwd := [] } := h.part (p := .link) (hparts _ (by decide))
  have hexp : t.exp = s.exp := h.part (p := .exposure) (hparts _ (by decide))
  exact State.ts_of_same (congrArg TzlState.masterTs hlink :) (h.flag RTC_STAT_OSF (hregs _ (by decide)) (by decide))
    (h.flag PWR_STAT_HFOK (hregs _ (by decide)) (by decide)) (h.part (p := .clock) (hparts _ (by decide))) (by rw [hexp]) (by rw [hexp])

theorem State.Frame.lateFor (d : BitVec 64) : t.lateFor d = s.lateFor d := by
  rw [State.lateFor, h.ts hparts hregs, State.lateFor]

theorem State.Frame.completion (idx : BitVec 32) (op : BitVec 8) (c : CmdHdr) (status p0 p1 p2 : Nat) :
    t.completion idx op c status p0 p1 p2 = s.completion idx op c status p0 p1 p2 := by
  obtain ⟨-, -, -, -, -, -, -, -, hnewest⟩ := h.part (p := .windows) (hparts _ (by decide))
  unfold State.completion
  rw [h.ts hparts hregs, hnewest]

end

/-! The completion in its place -/

/-- A 64-bit slot stands in two registers, and the slots behind it leave them. -/
theorem State.putSlots_head (s : State) {off : Nat} (x : BitVec 64) (l : List (BitVec 64)) (hlow : endReg off = false)
    (hhigh : endReg (off + 4) = false) : (s.putSlots off (x :: l)).rd off = x.truncate 32 ∧
      (s.putSlots off (x :: l)).rd (off + 4) = (x >>> 32).truncate 32 := by
  have hbehind (k : Nat) (hk : k < off + 8) :
      k ∉ (List.range l.length).flatMap (fun i => [off + 8 + 8 * i, off + 8 + 8 * i + 4]) := by
    simp only [List.mem_flatMap, List.mem_cons, List.not_mem_nil, or_false, not_exists, not_and]
    omega
  have hrest := frame_putSlots l ((s.wr off (x.truncate 32)).wr (off + 4) ((x >>> 32).truncate 32)) (off + 8)
  unfold State.putSlots
  exact ⟨by rw [hrest.rd (hbehind _ (by omega)) hlow]; simp, by rw [hrest.rd (hbehind _ (by omega)) hhigh]; simp⟩

theorem State.complete_ring {h : CmdHdr} {idx : BitVec 32} (hsrc : h.src = .ring idx) (s : State) (op : BitVec 8)
    (status p0 p1 p2 b : Nat) :
    ((s.complete op h status p0 p1 p2).settle b).hif.cplQ = s.hif.cplQ ++ [s.completion idx op h status p0 p1 p2] := by
  rw [State.settle_hif _ b HifState.cplQ (fun _ _ => rfl), State.complete, hsrc]
  rfl

theorem State.complete_image {h : CmdHdr} (hsrc : h.src = .image) (s : State) (op : BitVec 8) (status p0 p1 p2 b : Nat) :
    ((s.complete op h status p0 p1 p2).settle b).prf.imageStatus = status := by
  rw [((State.Frame.refl _ [] []).settle b).prf (by decide) PrfState.imageStatus (fun _ _ => rfl), State.complete, hsrc]

/-- The first slot of a completion in the mailbox: its low word names the command and its outcome, its high word is TAG. -/
theorem Completion.slots_head {c : Completion} {status : Nat} (hmailbox : c.mailbox = true) (hcode : c.status.toNat = status) :
    ∃ x l, c.slots = x :: l ∧ x.truncate 32 = BitVec.ofNat 32 (c.op.toNat + status * 2 ^ 8 + 2 ^ 16) ∧
      (x >>> 32).truncate 32 = c.tag := by
  refine ⟨_, _, rfl, ?_, ?_⟩ <;> rw [hmailbox, hcode, Bool.toNat_true]
  · apply BitVec.eq_of_toNat_eq
    simp only [BitVec.truncate_eq_setWidth, BitVec.toNat_setWidth, BitVec.toNat_ofNat]
    omega
  · have hop := c.op.isLt
    have hstatus := hcode ▸ c.status.isLt
    have htag := c.tag.isLt
    apply BitVec.eq_of_toNat_eq
    simp only [BitVec.truncate_eq_setWidth, BitVec.toNat_setWidth, BitVec.toNat_ushiftRight, BitVec.toNat_ofNat, Nat.shiftRight_eq_div_pow]
    omega

theorem State.complete_mailbox {h : CmdHdr} {o : Port} {status : Nat} (hsrc : h.src = .mailbox o) (hstatus : status < 2 ^ 8) (s : State)
    (op : BitVec 8) (p0 p1 p2 b : Nat) :
    ((s.complete op h status p0 p1 p2).settle b).flag MBX_STAT_BUSY = false ∧
      ((s.complete op h status p0 p1 p2).settle b).flag MBX_STAT_DONE = true ∧
      ((s.complete op h status p0 p1 p2).settle b).rd (MBX_CPL 0) = BitVec.ofNat 32 (op.toNat + status * 2 ^ 8 + 2 ^ 16) ∧
      ((s.complete op h status p0 p1 p2).settle b).rd (MBX_CPL 1) = h.tag := by
  rw [State.settle_flag (by decide) _ b MBX_STAT_BUSY rfl, State.settle_flag (by decide) _ b MBX_STAT_DONE rfl,
    State.settle_rd (by decide), State.settle_rd (by decide), State.complete, hsrc]
  dsimp only
  obtain ⟨x, l, hslots, hlow, hhigh⟩ := Completion.slots_head (status := status)
    (c := { op := op, status := BitVec.ofNat 8 status, mailbox := true, tag := h.tag, cmdIdx := 0, ts := s.ts,
            p0 := BitVec.ofNat 64 p0, p1 := BitVec.ofNat 64 p1, p2 := BitVec.ofNat 64 p2, expno := s.evt.newest })
    rfl (by rw [BitVec.toNat_ofNat, Nat.mod_eq_of_lt hstatus])
  obtain ⟨hfirst, hsecond⟩ := s.putSlots_head (off := MBX_CPL 0) x l (by decide) (by decide)
  rw [hslots]
  refine ⟨?_, State.flag_setFlag_self _ _ _ (by decide) (by decide), ?_, ?_⟩
  · rw [State.flag_setFlag_other _ _ _ _ (by decide) (by decide), State.flag_setFlag_self _ _ _ (by decide) (by decide)]
  · rw [State.rd_setFlag_ne _ _ _ (by decide), State.rd_setFlag_ne _ _ _ (by decide), hfirst, hlow]
  · rw [State.rd_setFlag_ne _ _ _ (by decide), State.rd_setFlag_ne _ _ _ (by decide), show MBX_CPL 1 = MBX_CPL 0 + 4 from rfl, hsecond, hhigh]

/-! Answers -/

theorem State.done_inTime {s : State} {x : Taken} (hintime : s.InTime x) (status p0 p1 p2 : Nat) :
    s.done x status p0 p1 p2 = (s.untake x).complete x.op x.hdr status p0 p1 p2 := by
  obtain ⟨hmuted, hdeadline⟩ := hintime
  unfold State.done
  rw [if_neg (by simp [hmuted]), if_neg]
  simp only [Bool.and_eq_true, not_and, Bool.not_eq_true]
  exact fun hlate => hdeadline hlate.1

/-- A command answered as it is taken, after any change that leaves what its completion shows. -/
theorem State.Frame.answered {s t : State} {h : CmdHdr} {ps : List Part} {os : List Nat} (hframe : (s.accept h).Frame t ps os)
    (hparts : ∀ p ∈ cplParts, p ∉ ps) (hregs : ∀ off ∈ HIF_RCIDX 0 :: timeRegs, off ∉ os) {status : Nat} (hstatus : status < 2 ^ 8)
    (op : BitVec 8) (p0 p1 p2 b : Nat) : s.Answered ((t.complete op h status p0 p1 p2).settle b) op h status p0 p1 p2 := by
  have hsame := hframe.completion (fun p hp => hparts p (List.mem_cons_of_mem _ (List.mem_cons_of_mem _ hp)))
    (fun off hoff => hregs off (List.mem_cons_of_mem _ hoff))
  have hanswer := (frame_complete t op h status p0 p1 p2).settle b
  refine ⟨?_, ?_⟩
  · calc _ = t.taken := hanswer.part (p := .taken) (by decide)
      _ = (s.accept h).taken := hframe.part (p := .taken) (hparts _ (by decide))
      _ = s.taken := by simp
  · cases hsrc : h.src with
    | ring idx =>
      have haccept := frame_accept s h
      obtain ⟨hcpl, hc⟩ := State.accept_ring (s := s) hsrc
      refine ⟨?_, ?_⟩
      · rw [State.complete_ring hsrc, hframe.cplQ (hparts _ (by decide)), hcpl, hsame,
          haccept.completion (by decide) (by decide)]
      · calc _ = t.rd (HIF_RCIDX 0) := hanswer.rd (by decide) (by decide)
          _ = (s.accept h).rd (HIF_RCIDX 0) := hframe.rd (hregs _ (by decide)) (by decide)
          _ = s.rd (HIF_RCIDX 0) + 1 := hc
    | mailbox o => exact t.complete_mailbox hsrc hstatus op p0 p1 p2 b
    | image => exact t.complete_image hsrc op status p0 p1 p2 b

/-- A taken command answered in time, after any change that leaves what its completion shows. -/
theorem State.Frame.returns {s t : State} {x : Taken} {ps : List Part} {os : List Nat} (hframe : s.Frame t ps os)
    (hparts : ∀ p ∈ cplParts, p ∉ ps) (hregs : ∀ off ∈ timeRegs, off ∉ os) (hintime : s.InTime x) {status : Nat}
    (hstatus : status < 2 ^ 8) (p0 p1 p2 b : Nat) : s.Returns ((t.done x status p0 p1 p2).settle b) x status p0 p1 p2 := by
  have htime : ∀ p ∈ timeParts, p ∉ ps := fun p hp => hparts p (List.mem_cons_of_mem _ (List.mem_cons_of_mem _ hp))
  obtain ⟨hmuted, hdeadline⟩ := hintime
  rw [← hframe.lateFor htime hregs] at hdeadline
  rw [State.done_inTime ⟨hmuted, hdeadline⟩]
  refine ⟨?_, ?_⟩
  · calc _ = (t.untake x).taken := ((frame_complete _ _ _ _ _ _ _).settle b).part (p := .taken) (by decide)
      _ = s.taken.erase x := congrArg (List.erase · x) (hframe.part (p := .taken) (hparts _ (by decide)) :)
  · cases hsrc : x.hdr.src with
    | ring idx =>
      show _ = _
      rw [State.complete_ring hsrc, (frame_untake t x).cplQ (by decide), hframe.cplQ (hparts _ (by decide)),
        (frame_untake t x).completion (by decide) (by decide), hframe.completion htime hregs]
    | mailbox o => exact (t.untake x).complete_mailbox hsrc hstatus x.op p0 p1 p2 b
    | image => exact (t.untake x).complete_image hsrc x.op status p0 p1 p2 b

end Sys2Proof.Machine
end

section
/-!
Settles O15 (R163, R164, R409).  The record of an ended window goes to host memory or to the data window of the mailbox, and the window's
command returns its completion.
-/

namespace Sys2Proof.Machine

/-! What the host interface has issued -/

theorem State.queueEvents_hif (s : State) : s.queueEvents.hif = s.hif := by
  unfold State.queueEvents
  dsimp only
  split <;> split <;> simp

theorem State.signalRise_issues (s : State) (b : Nat) : s.hif.out <+: (s.signalRise b).hif.out := by
  unfold State.signalRise State.signal
  dsimp only
  repeat' split
  all_goals simp

/-- The end of a command withdraws nothing that the host interface has issued. -/
theorem State.settle_issues (s : State) (b : Nat) : s.hif.out <+: (s.settle b).hif.out := by
  have hevents : s.tripNow.queueEvents.sheetNow.queueEvents.hif = s.hif := by simp [State.queueEvents_hif]
  exact hevents ▸ State.signalRise_issues _ b

theorem State.done_out (s : State) (x : Taken) (status p0 p1 p2 : Nat) : (s.done x status p0 p1 p2).hif.out = s.hif.out := by
  have hcomplete (u : State) (op : BitVec 8) (h : CmdHdr) : (u.complete op h status p0 p1 p2).hif.out = u.hif.out := by
    unfold State.complete
    cases h.src <;> simp
  unfold State.done
  split
  · rfl
  · split
    · rfl
    · exact hcomplete _ _ _

/-! A record at its result address (R409) -/

theorem frame_windowWrite (s : State) {o : Nat} {l : List (BitVec 8)} (hroom : o + l.length ≤ 2048) :
    s.Frame (s.windowWrite o l) [] mbxDataRegs := by
  refine frame_foldl _ _ _ (fun u e he => (frame_wr u _ _).mono (List.Subset.refl _) ?_)
  have hin := List.snd_lt_of_mem_zipIdx he
  have hword : (o + e.2) / 4 < 512 := by omega
  exact List.cons_subset.mpr ⟨List.mem_map_of_mem (List.mem_range.mpr hword), List.nil_subset _⟩

/-- A completion takes nothing from the data window. -/
theorem mbxDataRegs_apart : ∀ off ∈ timeRegs, off ∉ mbxDataRegs := by
  have htime : ∀ off ∈ timeRegs, off < MBX_DATA 0 := by decide
  intro off hoff hdata
  obtain ⟨i, -, rfl⟩ := List.mem_map.mp hdata
  exact absurd (htime _ hoff) (by simp [MBX_DATA])

/-- A record of a command is written: to the data window, or to host memory while DMA is on. -/
theorem State.cmdWrite_written {s : State} {h : CmdHdr} {addr : Nat} {data : List (BitVec 64)}
    (hroom : windowBad h addr (8 * data.length) = false) (hdma : windowOffset h addr = none → s.dmaOn = true) :
    (s.cmdWrite h addr data).2 = true ∧ s.Frame (s.cmdWrite h addr data).1 [] mbxDataRegs ∧
      (windowOffset h addr = none → HostWrite.mem (BitVec.ofNat 64 addr) data ∈ (s.cmdWrite h addr data).1.hif.out) := by
  unfold State.cmdWrite
  unfold windowBad at hroom
  cases hoffset : windowOffset h addr with
  | some o =>
    rw [hoffset] at hroom
    have hfits : o + (slotBytes data).length ≤ 2048 := by
      rw [slotBytes_length]
      simpa using hroom
    exact ⟨rfl, frame_windowWrite s hfits, fun hnone => nomatch hnone⟩
  | none =>
    dsimp only
    rw [if_pos (hdma hoffset)]
    exact ⟨rfl, (frame_emit s _).mono (List.Subset.refl _) (List.nil_subset _), fun _ => by simp⟩

/-! The end of a window (R163) -/

/-- The length of a calibration record (R164). -/
theorem CalWin.slots_length (w : CalWin) : w.slots.length = 72 := rfl

/-- The state in which the record of a window stands at its place and the window is over. -/
def State.calWritten (s : State) (w : CalWin) (x : Taken) : State := (s.cmdWrite x.hdr w.addr.toNat w.slots).1.calDrop w

theorem frame_calDrop (s : State) (w : CalWin) : s.Frame (s.calDrop w) [.ledger] [] := frame_modLdg _ _

section
variable {s : State} {w : CalWin} {x : Taken} (htaken : s.calTaken w = some x) (hintime : s.InTime x)
  (hroom : windowBad x.hdr w.addr.toNat 576 = false) (hdma : windowOffset x.hdr w.addr.toNat = none → s.dmaOn = true)
include hroom hdma

theorem State.calWritten_written : s.Frame (s.calWritten w x) [.ledger] mbxDataRegs ∧ (s.calWritten w x).ldg.cals = s.ldg.cals.erase w ∧
    (windowOffset x.hdr w.addr.toNat = none → HostWrite.mem w.addr w.slots ∈ (s.calWritten w x).hif.out) := by
  obtain ⟨-, hframe, hout⟩ := State.cmdWrite_written (data := w.slots) (by rwa [w.slots_length]) hdma
  have hldg : (s.cmdWrite x.hdr w.addr.toNat w.slots).1.ldg = s.ldg := hframe.part (p := .ledger) (by decide)
  rw [BitVec.ofNat_toNat, BitVec.setWidth_eq] at hout
  exact ⟨(hframe.seq (frame_calDrop _ w)).mono (by simp) (by simp), by rw [← hldg]; rfl, hout⟩

include htaken hintime

/-- The status is that of a window that ended by itself, or early. -/
theorem State.calEnd_eq : s.calEnd w =
    (s.calWritten w x).done x (if bitAt w.flags.toNat 2 then stAborted else stDone) w.nexp w.ndisc w.flags.toNat := by
  obtain ⟨hok, -, -⟩ := State.cmdWrite_written (data := w.slots) (by rwa [w.slots_length]) hdma
  have hwaits : x.wait = .calWindow w.point := by
    have hfound := List.find?_some htaken
    simp only [Bool.and_eq_true, beq_iff_eq] at hfound
    exact hfound.2
  obtain ⟨-, hdeadline⟩ := hintime
  unfold State.calEnd
  rw [htaken]
  dsimp only
  rw [if_neg, hok]
  · rfl
  · rw [hwaits]
    rintro (hlate | ⟨hdlv, hlate⟩)
    · exact nomatch hlate
    · exact Bool.false_ne_true ((hdeadline hdlv).symm.trans hlate)

theorem exec_calWindowEnd_written {rest : List CalWin} (hcals : s.ldg.cals = w :: rest) (hended : w.ended = true) :
    ∃ t, exec (.calWindowEnd w.point) s = .next t ∧ t.ldg.cals = rest ∧
      s.Returns t x (if bitAt w.flags.toNat 2 then stAborted else stDone) w.nexp w.ndisc w.flags.toNat ∧
      (windowOffset x.hdr w.addr.toNat = none → HostWrite.mem w.addr w.slots ∈ t.hif.out) ∧
      s.Frame t [.ledger, .taken, .host, .writer] (mbxDataRegs ++ cplRegs) := by
  obtain ⟨hframe, hleft, hout⟩ := State.calWritten_written hroom hdma
  have hfind : s.ldg.cals.find? (fun y => y.point == w.point && y.ended) = some w := by
    rw [hcals, List.find?_cons_of_pos (by simp [hended])]
  have heffect : exec (.calWindowEnd w.point) s = .next ((s.calEnd w).settle s.irqLive) := by
    show execCalWindowEnd w.point s = _
    unfold execCalWindowEnd finish
    dsimp only
    rw [hfind]
  rw [heffect, State.calEnd_eq htaken hintime hroom hdma]
  refine ⟨_, rfl, ?_, ?_, ?_, ?_⟩
  · simp [hleft, hcals]
  · exact hframe.returns (by decide) mbxDataRegs_apart hintime (by split <;> decide) _ _ _ _
  · exact fun hnone => (State.settle_issues _ _).subset (by rw [State.done_out]; exact hout hnone)
  · exact (((hframe.seq (frame_done _ _ _ _ _ _)).mono (by simp) (by simp [cplRegs])).settle _)

end

end Sys2Proof.Machine

open Sys2Proof.Machine in
/-- Settles O15: an ended window is written by its taken command's answer, whatever its place. -/
theorem calWindowEndWritesItsRecord : Obligations.CalWindowEndWritesItsRecord := by
  unfold Obligations.CalWindowEndWritesItsRecord
  exact fun _ _ _ _ hcals hended htaken hintime hroom hdma => exec_calWindowEnd_written htaken hintime hroom hdma hcals hended

end

section
/-!
SUPPORT. A metering point's definition (R175, R176) is judged by the settings of the front end, of the voltage groups and of the point
alone.
-/

namespace Sys2Proof.Machine

/-- Settings of the front end, of the voltage groups and of the metering points read the same in two states. -/
def State.SameMetering (s t : State) : Prop := ∀ off, 0x1000 ≤ off → off < 0x2800 → t.rd off = s.rd off

theorem effOf_regs (s : State) (f : Fld) : effOf s.regs f = s.get f := by
  rw [State.get, State.rd_eq]
  rfl

theorem effOf_lt (eff : List (Nat × BitVec 32)) (f : Fld) : effOf eff f < 2 ^ f.width := Nat.mod_lt _ (Nat.two_pow_pos _)

section
variable {s t : State} (h : s.SameMetering t)
include h

theorem State.SameMetering.setting {f : Fld} (hlow : 0x1000 ≤ f.off) (hhigh : f.off < 0x2800) : effOf t.regs f = effOf s.regs f := by
  rw [effOf_regs, effOf_regs, State.get, State.get, h _ hlow hhigh]

/-- A field of a voltage group. -/
theorem State.SameMetering.group {g : Nat} (hg : g < 8) {f : Fld} (hf : f.off = VGDEF g) : effOf t.regs f = effOf s.regs f := by
  have hbound : 0x1000 ≤ f.off ∧ f.off < 0x2800 := by rw [hf, VGDEF]; omega
  exact h.setting hbound.1 hbound.2

/-- A field of a point. -/
theorem State.SameMetering.point {p : Nat} (hp : p < 32) {f : Fld} (hf : f.off = MET_CFG p ∨ f.off = MET_CUR p) :
    effOf t.regs f = effOf s.regs f := by
  have hbound : 0x1000 ≤ f.off ∧ f.off < 0x2800 := by rcases hf with hf | hf <;> rw [hf] <;> simp only [MET_CFG, MET_CUR] <;> omega
  exact h.setting hbound.1 hbound.2

/-- A voltage channel of a group. -/
theorem State.SameMetering.voltage {g : Nat} (hg : g < 8) (i : Nat) :
    effOf t.regs (if i = 0 then VGDEF_VCH0 g else if i = 1 then VGDEF_VCH1 g else VGDEF_VCH2 g) =
      effOf s.regs (if i = 0 then VGDEF_VCH0 g else if i = 1 then VGDEF_VCH1 g else VGDEF_VCH2 g) :=
  h.group hg (by split_ifs <;> rfl)

theorem State.SameMetering.roleNow (hexp : t.exp = s.exp) (n : Nat) : t.roleNow n = s.roleNow n := by
  unfold State.roleNow State.effGet
  rw [hexp]
  split
  · rfl
  · have hrole : t.get (MFE_CH_ROLE n) = s.get (MFE_CH_ROLE n) := by
      rw [← effOf_regs, ← effOf_regs]
      exact h.setting (by simp only [MFE_CH_ROLE, MFE_CH]; omega) (by simp only [MFE_CH_ROLE, MFE_CH]; omega)
    rw [hrole]

variable {p : Nat} (hp : p < 32)
include hp

/-- A current channel of a point. -/
theorem State.SameMetering.current (i : Nat) :
    effOf t.regs (if i = 0 then MET_CUR_ICH0 p else if i = 1 then MET_CUR_ICH1 p else MET_CUR_ICH2 p) =
      effOf s.regs (if i = 0 then MET_CUR_ICH0 p else if i = 1 then MET_CUR_ICH1 p else MET_CUR_ICH2 p) :=
  h.point hp (.inr (by split_ifs <;> rfl))

theorem State.SameMetering.elems : pointElems t.regs p = pointElems s.regs p := by
  have hg : effOf s.regs (MET_CFG_VG p) < 8 := effOf_lt _ _
  unfold pointElems
  dsimp only
  rw [h.point hp (f := MET_CFG_VG p) (.inl rfl), h.point hp (f := MET_CFG_WIRING p) (.inl rfl),
    h.point hp (f := MET_CFG_VSEL p) (.inl rfl), h.voltage hg, h.voltage hg 0, h.voltage hg 1, h.voltage hg 2, h.current hp 0,
    h.current hp 1, h.current hp 2]

theorem State.SameMetering.currents : pointCurrents t.regs p = pointCurrents s.regs p := by
  rw [pointCurrents, h.elems hp, h.point hp (f := MET_CFG_WIRING p) (.inl rfl),
    h.point hp (f := MET_CUR_ICHN p) (.inr rfl), pointCurrents]

theorem State.SameMetering.pointOk (hexp : t.exp = s.exp) : t.pointOk p = s.pointOk p := by
  have hg : effOf s.regs (MET_CFG_VG p) < 8 := effOf_lt _ _
  have hchans : pointChans t.regs p = pointChans s.regs p := by
    rw [pointChans, h.elems hp, h.currents hp, pointChans]
  unfold State.pointOk
  dsimp only
  rw [hchans, h.currents hp, h.point hp (f := MET_CFG_VG p) (.inl rfl), h.point hp (f := MET_CFG_WIRING p) (.inl rfl),
    h.point hp (f := MET_CFG_VSEL p) (.inl rfl), h.group hg (f := VGDEF_NV _) rfl]
  simp only [h.voltage hg, h.roleNow hexp]

end

/-- Taking a command leaves the settings of metering. -/
theorem sameMetering_accept (s : State) (h : CmdHdr) : s.SameMetering (s.accept h) := by
  have hapart : ∀ off ∈ hostRegs, off < 0x1000 ∨ 0x2800 ≤ off := by decide
  intro off hlow hhigh
  exact (frame_accept s h).rd (fun hmem => by have := hapart off hmem; omega) (endReg_low (by omega))

end Sys2Proof.Machine
end

section
/-!
Settles O12 (R162, R193, R196, R198).  Each command is judged as it is taken, and its request joins the list in which it waits; automatic
snapshots are a setting, and the command that sets it is answered at once.
-/

namespace Sys2Proof.Machine

/-! What taking a command leaves -/

theorem State.accept_asBusyFor (s : State) (h : CmdHdr) : (s.accept h).asBusyFor h = s.asBusyFor h := by
  rw [State.asBusyFor, (frame_accept s h).flag PWR_STAT_ASBUSY (by decide) (by decide), State.asBusyFor]

theorem State.accept_lastCovered (s : State) (h : CmdHdr) : (s.accept h).lastCovered = s.lastCovered := by
  simp [State.lastCovered]

/-! SNAPSHOT (R196, R197) -/

/-- The request of a SNAPSHOT: while exposures run it waits for its boundary, else it covers the exposure that ended last. -/
def State.snapAsked (s : State) (h : CmdHdr) (mask : BitVec 32) (latent : Bool) : SnapReq :=
  if s.exp.running then
    { src := some h.src, up := false, mask := mask, latent := latent, auto := false, expno := none, ts := 0, pinq := [], frozen := 0,
      kept := [] }
  else
    { src := some h.src, up := false, mask := mask, latent := false, auto := false, expno := some s.lastCovered.1,
      ts := s.lastCovered.2, pinq := s.pio.pinq, frozen := 0, kept := [] }

theorem State.accept_snapAsked (s : State) (h : CmdHdr) (mask : BitVec 32) (latent : Bool) :
    (s.accept h).snapAsked h mask latent = s.snapAsked h mask latent := by
  unfold State.snapAsked
  rw [State.accept_lastCovered]
  simp

theorem State.snapAsked_shown (s : State) (h : CmdHdr) (mask : BitVec 32) (latent : Bool) :
    (s.snapAsked h mask latent).src = some h.src ∧ (s.snapAsked h mask latent).mask = mask ∧
      (s.snapAsked h mask latent).auto = false ∧
      (s.exp.running = true → (s.snapAsked h mask latent).latent = latent ∧ (s.snapAsked h mask latent).expno = none) ∧
      (s.exp.running = false → (s.snapAsked h mask latent).expno = some s.lastCovered.1 ∧
        (s.snapAsked h mask latent).ts = s.lastCovered.2 ∧ (s.snapAsked h mask latent).pinq = s.pio.pinq) := by
  cases hrun : s.exp.running <;> simp [State.snapAsked, hrun]

theorem State.cmdSnapshot_kept {s : State} {h : CmdHdr} {a0 a1 : BitVec 64} (a2 : BitVec 64) (hauto : bitAt a1.toNat 1 = false)
    (hmask : (a0.truncate 32 : BitVec 32) ≠ 0) (hfree : s.asBusyFor h = false) :
    s.cmdSnapshot h a0 a1 a2 = (s.keep 0x21 h .snapshot).modLdg
      (fun l => { l with snaps := l.snaps ++ [s.snapAsked h (a0.truncate 32) (bitAt a1.toNat 0)] }) := by
  unfold State.cmdSnapshot
  rw [hauto, hfree]
  dsimp only
  rw [if_neg (by simpa using hmask), if_neg (by simp), if_neg (by simp)]
  rfl

theorem exec_snapshot_waits {s : State} {h : CmdHdr} {a0 a1 : BitVec 64} (a2 : BitVec 64) (hacc : s.Accepts h)
    (hauto : bitAt a1.toNat 1 = false) (hmask : (a0.truncate 32 : BitVec 32) ≠ 0) (hfree : s.asBusyFor h = false) :
    ∃ t, exec (.snapshot h a0 a1 a2) s = .next t ∧ s.Waits t 0x21 h .snapshot ∧
      t.ldg.snaps = s.ldg.snaps ++ [s.snapAsked h (a0.truncate 32) (bitAt a1.toNat 0)] ∧
      s.Frame t [.ledger, .taken, .host] hostRegs := by
  have htake := (State.take_accepted hacc 0x21 (fun s => s.cmdSnapshot h a0 a1 a2)).trans
    (State.cmdSnapshot_kept a2 hauto hmask ((s.accept_asBusyFor h).trans hfree))
  have hexec : exec (.snapshot h a0 a1 a2) s = .next ((s.take 0x21 h (fun s => s.cmdSnapshot h a0 a1 a2)).settle s.irqLive) :=
    congrArg (fun u => Host.Outcome.next (State.settle u s.irqLive)) (if_neg (by simp [hauto]))
  have hkept := (frame_modLdg ((s.accept h).keep 0x21 h .snapshot) (fun l => { l with
    snaps := l.snaps ++ [(s.accept h).snapAsked h (a0.truncate 32) (bitAt a1.toNat 0)] })).settle s.irqLive
  rw [hexec, htake]
  exact ⟨_, rfl, hkept.waits (by decide) (by decide) (by decide) (by decide), by simp [State.accept_snapAsked],
    (((frame_accept s h).seq (frame_keep _ _ _ _)).seq hkept).mono (by decide) (by decide)⟩

/-! Automatic snapshots (R198) -/

/-- The setting of a SNAPSHOT with AUTO 1: its period is 0 to stop, or at most 500,000 exposures of some points. -/
theorem State.cmdSnapshot_auto {s : State} {h : CmdHdr} {a0 a1 a2 : BitVec 64} (hauto : bitAt a1.toNat 1 = true)
    (hlatent : bitAt a1.toNat 0 = false) (hfree : s.asBusyFor h = false)
    (hperiod : a2.toNat % 2 ^ 19 = 0 ∨ (a2.toNat % 2 ^ 19 ≤ 500000 ∧ (a0.truncate 32 : BitVec 32) ≠ 0)) :
    s.cmdSnapshot h a0 a1 a2 = (s.modLdg (fun l => { l with
      autoSnap := if a2.toNat % 2 ^ 19 = 0 then none else some (a2.toNat % 2 ^ 19, a0.truncate 32) })).complete 0x21 h stDone 0 0 0 := by
  have hargs : ((a0.truncate 32 : BitVec 32) = 0 → a2.toNat % 2 ^ 19 = 0) ∧ a2.toNat % 2 ^ 19 ≤ 500000 := by
    rcases hperiod with hstop | ⟨hmax, hmask⟩
    · exact ⟨fun _ => hstop, by omega⟩
    · exact ⟨fun hnone => absurd hnone hmask, hmax⟩
  unfold State.cmdSnapshot
  rw [hauto, hlatent, hfree]
  dsimp only
  rw [if_neg (by simpa using hargs), if_neg (by simp), if_pos rfl]

theorem exec_snapshotAuto_set {s : State} {h : CmdHdr} {a0 a1 a2 : BitVec 64} (hacc : s.Accepts h) (hauto : bitAt a1.toNat 1 = true)
    (hlatent : bitAt a1.toNat 0 = false) (hfree : s.asBusyFor h = false)
    (hperiod : a2.toNat % 2 ^ 19 = 0 ∨ (a2.toNat % 2 ^ 19 ≤ 500000 ∧ (a0.truncate 32 : BitVec 32) ≠ 0)) :
    ∃ t, exec (.snapshotAuto h a0 a1 a2) s = .next t ∧ s.Answered t 0x21 h stDone 0 0 0 ∧
      t.ldg = { s.ldg with
        autoSnap := if a2.toNat % 2 ^ 19 = 0 then none else some (a2.toNat % 2 ^ 19, a0.truncate 32) } ∧
      s.Frame t [.ledger, .host, .writer] hostRegs := by
  have htake := (State.take_accepted hacc 0x21 (fun s => s.cmdSnapshot h a0 a1 a2)).trans
    (State.cmdSnapshot_auto hauto hlatent ((s.accept_asBusyFor h).trans hfree) hperiod)
  have hexec : exec (.snapshotAuto h a0 a1 a2) s = .next ((s.take 0x21 h (fun s => s.cmdSnapshot h a0 a1 a2)).settle s.irqLive) :=
    congrArg (fun u => Host.Outcome.next (State.settle u s.irqLive)) (if_pos hauto)
  have hset := frame_modLdg (s.accept h) (fun l => { l with
    autoSnap := if a2.toNat % 2 ^ 19 = 0 then none else some (a2.toNat % 2 ^ 19, a0.truncate 32) })
  rw [hexec, htake]
  exact ⟨_, rfl, hset.answered (by decide) (by decide) (by decide) _ _ _ _ _, by simp,
    ((((frame_accept s h).seq hset).seq (frame_complete _ _ _ _ _ _ _)).mono (by decide) (by decide)).settle _⟩

/-! CAL_WINDOW (R162) -/

/-- The exposure that starts next. -/
def State.upcoming (s : State) : Nat := if s.exp.running then s.exp.cur.toNat + 1 else s.exp.next.toNat

/-- The window that a CAL_WINDOW in order opens. -/
def State.calAsked (s : State) (h : CmdHdr) (a0 a1 a2 a3 : BitVec 64) : CalWin :=
  { src := h.src, point := a0.toNat % 32,
    first := BitVec.ofNat 72 (if bitAt a0.toNat 8 then s.upcoming else (a1.toNat + 2 ^ 64 * a2.toNat) % 2 ^ 72),
    count := a0.toNat / 2 ^ 16 % 2 ^ 16, addr := a3, last := 0, tsFirst := 0, tsLast := 0, nexp := 0, ndisc := 0, naway := 0, ncreep := 0,
    flags := 0, svv := [], sii := [], svi := [], svq := [], nsamp := [], muMin := [], muMax := [], tot := [], ended := false }

/-- A CAL_WINDOW in order (R162): its point is defined, it takes exposures still to come, its record has a place, and a window for its
point is free. -/
structure State.CalInOrder (s : State) (h : CmdHdr) (a0 a1 a2 a3 : BitVec 64) : Prop where
  point : s.pointOk (a0.toNat % 32) = true
  count : a0.toNat / 2 ^ 16 % 2 ^ 16 ≠ 0
  first : bitAt a0.toNat 8 = true ∨ s.upcoming ≤ (a1.toNat + 2 ^ 64 * a2.toNat) % 2 ^ 72
  aligned : a3.toNat % 64 = 0
  room : windowBad h a3.toNat 576 = false
  fresh : ∀ w ∈ s.ldg.cals, w.point ≠ a0.toNat % 32
  free : s.ldg.cals.length < 4

section
variable {s : State} {h : CmdHdr} {a0 a1 a2 a3 : BitVec 64}

theorem State.CalInOrder.accept (hok : s.CalInOrder h a0 a1 a2 a3) : (s.accept h).CalInOrder h a0 a1 a2 a3 where
  point := ((sameMetering_accept s h).pointOk (Nat.mod_lt _ (by decide)) (by simp)).trans hok.point
  count := hok.count
  first := by simpa [State.upcoming] using hok.first
  aligned := hok.aligned
  room := hok.room
  fresh := by simpa using hok.fresh
  free := by simpa using hok.free

theorem State.cmdCalWindow_kept (hok : s.CalInOrder h a0 a1 a2 a3) : s.cmdCalWindow h a0 a1 a2 a3 =
    (s.keep 0x22 h (.calWindow (a0.toNat % 32))).modLdg (fun l => { l with cals := l.cals ++ [s.calAsked h a0 a1 a2 a3] }) := by
  obtain ⟨hpoint, hcount, hfirst, haligned, hroom, hfresh, hfree⟩ := hok
  have hcoming : (!bitAt a0.toNat 8 && decide ((a1.toNat + 2 ^ 64 * a2.toNat) % 2 ^ 72 < s.upcoming)) = false := by
    rcases hfirst with hnext | hlater
    · simp [hnext]
    · rw [decide_eq_false (Nat.not_lt.mpr hlater), Bool.and_false]
  have hopen : s.ldg.cals.any (fun w => w.point == a0.toNat % 32) = false := by simpa using hfresh
  unfold State.cmdCalWindow
  dsimp only
  rw [← State.upcoming, hpoint, hcoming, hroom, hopen, if_neg (by simpa [haligned] using hcount), if_neg (by simp [hfree])]
  rfl

theorem exec_calWindow_waits (hacc : s.Accepts h) (hok : s.CalInOrder h a0 a1 a2 a3) :
    ∃ t, exec (.calWindow h a0 a1 a2 a3) s = .next t ∧ s.Waits t 0x22 h (.calWindow (a0.toNat % 32)) ∧
      t.ldg.cals = s.ldg.cals ++ [s.calAsked h a0 a1 a2 a3] ∧ s.Frame t [.ledger, .taken, .host] hostRegs := by
  have htake := (State.take_accepted hacc 0x22 (fun s => s.cmdCalWindow h a0 a1 a2 a3)).trans (State.cmdCalWindow_kept hok.accept)
  have hexec : exec (.calWindow h a0 a1 a2 a3) s = .next ((s.take 0x22 h (fun s => s.cmdCalWindow h a0 a1 a2 a3)).settle s.irqLive) :=
    rfl
  have hkept := (frame_modLdg ((s.accept h).keep 0x22 h (.calWindow (a0.toNat % 32))) (fun l => { l with
    cals := l.cals ++ [(s.accept h).calAsked h a0 a1 a2 a3] })).settle s.irqLive
  rw [hexec, htake]
  exact ⟨_, rfl, hkept.waits (by decide) (by decide) (by decide) (by decide), by simp [State.calAsked, State.upcoming],
    (((frame_accept s h).seq (frame_keep _ _ _ _)).seq hkept).mono (by decide) (by decide)⟩

end

/-! WITHHELD_RELEASE (R193) -/

theorem State.cmdRelease_kept {s : State} {a0 a1 a2 : BitVec 64} {qs : BitVec 10} {amount : BitVec 108} (h : CmdHdr)
    (hrun : s.exp.running = true) (hqs : qs = BitVec.ofNat 10 (a0.toNat / 2 ^ 16))
    (hamount : amount = BitVec.ofNat 108 (a1.toNat + 2 ^ 64 * a2.toNat)) (hsome : qs ≠ 0)
    (hone : amount = 0 ∨ (bitsOf 10 qs.toNat).length = 1) :
    s.cmdRelease h a0 a1 a2 = s.keep 0x23 h (.release (a0.toNat % 32) qs amount none) := by
  unfold State.cmdRelease
  rw [← hqs, ← hamount]
  dsimp only
  rw [if_neg, if_pos hrun]
  · rfl
  · rintro (hnone | ⟨hpart, hmany⟩)
    · exact hsome hnone
    · exact hone.elim hpart hmany

theorem exec_withheldRelease_waits {s : State} {h : CmdHdr} {a0 a1 a2 : BitVec 64} {qs : BitVec 10} {amount : BitVec 108}
    (hacc : s.Accepts h) (hrun : s.exp.running = true) (hqs : qs = BitVec.ofNat 10 (a0.toNat / 2 ^ 16))
    (hamount : amount = BitVec.ofNat 108 (a1.toNat + 2 ^ 64 * a2.toNat)) (hsome : qs ≠ 0)
    (hone : amount = 0 ∨ (bitsOf 10 qs.toNat).length = 1) :
    ∃ t, exec (.withheldRelease h a0 a1 a2) s = .next t ∧ s.Waits t 0x23 h (.release (a0.toNat % 32) qs amount none) ∧
      s.Frame t [.taken, .host] hostRegs := by
  have htake := (State.take_accepted hacc 0x23 (fun s => s.cmdRelease h a0 a1 a2)).trans
    (State.cmdRelease_kept h (by simpa using hrun) hqs hamount hsome hone)
  have hexec : exec (.withheldRelease h a0 a1 a2) s = .next ((s.take 0x23 h (fun s => s.cmdRelease h a0 a1 a2)).settle s.irqLive) := rfl
  have hkept := (State.Frame.refl ((s.accept h).keep 0x23 h (.release (a0.toNat % 32) qs amount none)) [] []).settle s.irqLive
  rw [hexec, htake]
  exact ⟨_, rfl, hkept.waits (by decide) (by decide) (by decide) (by decide),
    (((frame_accept s h).seq (frame_keep _ _ _ _)).seq hkept).mono (by decide) (by decide)⟩

/-! SNAPSHOT_COPY (R196) -/

/-- A snapshot of this device is copied to a record of its own, which waits to be written. -/
theorem State.snapCopy_own {s : State} {r : SnapReq} (hown : r.up = false) (e : BitVec 72) :
    ∃ w : LdgWait, s.snapCopy r e = (s.modLdg (fun l => { l with snaps := l.snaps.erase r })).modLdg
        (fun l => { l with ldgQ := l.ldgQ ++ [w] }) ∧
      w.src = r.src ∧ w.auto = r.auto ∧ w.record.expno = e ∧ w.record.ts = r.ts ∧ w.record.mpmask = r.mask ∧ w.record.pinq = r.pinq ∧
      w.record.audit = s.ldg.audit := by
  unfold State.snapCopy
  dsimp only
  rw [if_neg (by simp [hown])]
  exact ⟨_, rfl, rfl, rfl, rfl, rfl, rfl, rfl, rfl⟩

theorem State.snapNext_first {s : State} {r : SnapReq} {rest : List SnapReq} {e : BitVec 72} (hsnaps : s.ldg.snaps = r :: rest)
    (hexpno : r.expno = some e) (hready : s.snapReady r e = true) : s.snapNext = s.snapCopy r e := by
  unfold State.snapNext
  rw [hsnaps, List.find?_cons_of_pos (by simp [hexpno, hready])]
  dsimp only
  rw [hexpno]

theorem exec_snapshotCopy_recorded {s : State} {r : SnapReq} {rest : List SnapReq} {e : BitVec 72} (hsnaps : s.ldg.snaps = r :: rest)
    (hexpno : r.expno = some e) (hown : r.up = false) (hready : s.snapReady r e = true) :
    ∃ t, exec .snapshotCopy s = .next t ∧ t.ldg.snaps = rest ∧
      (∃ w, t.ldg.ldgQ = s.ldg.ldgQ ++ [w] ∧ w.src = r.src ∧ w.auto = r.auto ∧ w.record.expno = e ∧ w.record.ts = r.ts ∧
        w.record.mpmask = r.mask ∧ w.record.pinq = r.pinq ∧ w.record.audit = s.ldg.audit) ∧ s.Frame t [.ledger] [] := by
  obtain ⟨w, hcopy, hrecord⟩ := State.snapCopy_own (s := s) hown e
  have hexec : exec .snapshotCopy s = .next (s.snapNext.settle s.irqLive) := rfl
  rw [hexec, State.snapNext_first hsnaps hexpno hready, hcopy]
  exact ⟨_, rfl, by simp [hsnaps], ⟨w, by simp, hrecord⟩, ((frame_modLdg _ _).trans (frame_modLdg _ _)).settle _⟩

end Sys2Proof.Machine

open Sys2Proof.Machine in
/-- Settles O12: what a command asks for is the entry that joins its list, and automatic snapshots with period 0 are none. -/
theorem ledgerCommandsWait : Obligations.LedgerCommandsWait := by
  unfold Obligations.LedgerCommandsWait
  intro s h a0 a1 a2 a3
  refine ⟨fun hacc hauto hmask hfree => ?_, fun hacc hauto hlatent hfree => ⟨fun hstop => ?_, fun hpos hmax hmask => ?_⟩,
    fun p hp hacc hpoint hcount hfirst haligned hroom hfresh hspace => ?_,
    fun qs amount hacc hrun hqs hamount hsome hone => exec_withheldRelease_waits hacc hrun hqs hamount hsome hone,
    fun r rest e hsnaps hexpno hown hready => exec_snapshotCopy_recorded hsnaps hexpno hown hready⟩
  · obtain ⟨t, hexec, hwaits, hsnaps, hframe⟩ := exec_snapshot_waits a2 hacc hauto hmask hfree
    exact ⟨t, hexec, hwaits, ⟨_, hsnaps, s.snapAsked_shown h _ _⟩, hframe⟩
  · simpa only [hstop, if_true] using exec_snapshotAuto_set (a0 := a0) hacc hauto hlatent hfree (.inl hstop)
  · have hgo : a2.toNat % 2 ^ 19 ≠ 0 := by omega
    simpa only [hgo, if_false] using exec_snapshotAuto_set hacc hauto hlatent hfree (.inr ⟨hmax, hmask⟩)
  · subst hp
    obtain ⟨t, hexec, hwaits, hcals, hframe⟩ :=
      exec_calWindow_waits hacc ⟨hpoint, hcount, hfirst, haligned, hroom, hfresh, hspace⟩
    refine ⟨t, hexec, hwaits, ⟨_, hcals, rfl, rfl, rfl, rfl, ?_⟩, hframe⟩
    unfold State.calAsked State.upcoming
    split
    · rfl
    · exact BitVec.eq_of_toNat_eq (by simp)

end

section
/-!
SUPPORT. The rules of the ledger registers (R189, R191): a register read after an amount is added to the same and to another one, and
the frames of what a release does beside them (R193, R196, R223, R260).
-/

namespace Sys2Proof.Machine

/-! Ledger registers -/

theorem State.ledgerReg_of_ldg {s t : State} (h : t.ldg.regs = s.ldg.regs) (p i : Nat) : t.ledgerReg p i = s.ledgerReg p i := by
  unfold State.ledgerReg
  rw [h]

theorem State.ledgerReg_ledgerAdd_self (s : State) (p i : Nat) (d : Int) :
    (s.ledgerAdd p i d).ledgerReg p i = s.ledgerReg p i + BitVec.ofInt 108 d := storeGet_put _ _ _ _

theorem State.ledgerReg_ledgerAdd_other (s : State) {p i p' i' : Nat} (d : Int) (h : 50 * p + i ≠ 50 * p' + i') :
    (s.ledgerAdd p i d).ledgerReg p' i' = s.ledgerReg p' i' := storeGet_put_ne _ _ _ _ h

theorem frame_ledgerAdd (s : State) (p i : Nat) (d : Int) : s.Frame (s.ledgerAdd p i d) [.ledger] [] := frame_modLdg _ _

/-! Frames of a release's other effects -/

theorem frame_eventX (s : State) (e : BitVec 72) (ts : BitVec 64) (c i : Nat) (g : EvEdge) (p0 p1 p2 : Nat) :
    s.Frame (s.eventX e ts c i g p0 p1 p2) [] [] := by
  refine ⟨fun p _ => ?_, fun _ _ _ => State.rd_of_regs (State.eventX_regs ..) _, by simp⟩
  cases p
  case windows => exact State.eventX_windows _ _ _ _ _ _ _ _ _
  all_goals simp [Part.Same, State.framByte]

/-- The ledger writer's state changed beside the FRAM. -/
theorem frame_writer (s : State) {w : PrfState} (h : w.fram = s.prf.fram) : s.Frame { s with prf := w } [.writer] [] := by
  refine ⟨fun p hp => ?_, fun _ _ _ => rfl, rfl⟩
  cases p <;> simp [Part.Same, State.framByte, h] at *

theorem frame_journalAdd (s : State) (k : Nat) (e : BitVec 72) (p0 p1 p2 : Nat) :
    s.Frame (s.journalAdd k e p0 p1 p2) [.writer] [] := frame_writer s rfl

theorem frame_freezePoint (s : State) (p e : Nat) : s.Frame (s.freezePoint p e) [.ledger, .writer] [] :=
  (frame_modLdg s _).seq (frame_writer _ rfl)

/-- Registers of the pulse outputs that an amount entering their accumulators changes. -/
def cfRegs : List Nat := (List.range 16).map (fun n => PIO_CFSTAT n)

theorem frame_cfRelAmount (s : State) (p slot amount : Nat) : s.Frame (s.cfRelAmount p slot amount) [.pulses] cfRegs := by
  refine frame_foldl _ _ _ (fun s n hn => (frame_cfAdd s n amount).mono (List.Subset.refl _) ?_)
  have hlt : n < 16 := List.mem_range.mp (List.mem_filter.mp hn).1
  simpa [cfRegs] using ⟨n, hlt, rfl⟩

/-- An amount that enters the outputs leaves the ledger. -/
theorem State.cfRelAmount_ldg (s : State) (p slot amount : Nat) : (s.cfRelAmount p slot amount).ldg = s.ldg :=
  (frame_cfRelAmount s p slot amount).part (p := .ledger) (by decide)

theorem State.freezePoint_regs (s : State) (p e : Nat) : (s.freezePoint p e).ldg.regs = s.ldg.regs := rfl

theorem State.freezePoint_audit (s : State) (p e : Nat) : (s.freezePoint p e).ldg.audit = s.ldg.audit := rfl

theorem State.freezePoint_lastCovered (s : State) (p e : Nat) : (s.freezePoint p e).lastCovered = s.lastCovered := rfl

/-! One release of one quantity (R193) -/

/-- The ledger after a release: the two registers moved, and AUDIT counted. -/
theorem State.releaseOne_ldg (s : State) (p q amount : Nat) (e : BitVec 72) : (s.releaseOne p q amount e).ldg =
    { ((s.ledgerAdd p (40 + q) (-(amount : Int))).ledgerAdd p (30 + q) amount).ldg with audit := s.ldg.audit + 1 } := by
  unfold State.releaseOne
  dsimp only
  split <;> simp [State.journalAdd, State.cfRelAmount_ldg, State.ledgerAdd]

theorem State.releaseOne_ledgerReg (s : State) (p q amount : Nat) (e : BitVec 72) (p' i : Nat) :
    (s.releaseOne p q amount e).ledgerReg p' i =
      ((s.ledgerAdd p (40 + q) (-(amount : Int))).ledgerAdd p (30 + q) amount).ledgerReg p' i :=
  State.ledgerReg_of_ldg (by rw [State.releaseOne_ldg]) p' i

theorem State.releaseOne_masterTs (s : State) (p q amount : Nat) (e : BitVec 72) :
    (s.releaseOne p q amount e).tzl.masterTs = s.tzl.masterTs := by
  have hcf (t : State) (slot : Nat) : (t.cfRelAmount p slot amount).tzl.masterTs = t.tzl.masterTs :=
    (congrArg TzlState.masterTs ((frame_cfRelAmount t p slot amount).part (p := .link) (by decide) :) :)
  unfold State.releaseOne
  dsimp only
  split <;> simp [State.journalAdd, hcf, State.ledgerAdd]

/-- A change that a condition adds to another. -/
theorem State.Frame.iteAfter {s t u : State} {ps : List Part} {os : List Nat} {c : Prop} [Decidable c] (h : s.Frame t ps os)
    (k : t.Frame u ps os) : s.Frame (if c then u else t) ps os :=
  State.Frame.ite (fun _ => h.trans k) (fun _ => h)

theorem frame_releaseOne (s : State) (p q amount : Nat) (e : BitVec 72) :
    s.Frame (s.releaseOne p q amount e) [.ledger, .pulses, .writer, .link] cfRegs := by
  have hlink (t : State) (w : TzlState) : t.Frame { t with tzl := w } [.ledger, .pulses, .writer, .link] cfRegs :=
    (frame_modTzl t (fun _ => w)).mono (by decide) (by simp)
  exact State.Frame.iteAfter
    (((((((frame_ledgerAdd _ _ _ _).seq (frame_ledgerAdd _ _ _ _)).seq (frame_cfRelAmount _ _ _ _)).seq (frame_modLdg _ _)).seq
      (frame_eventX _ _ _ _ _ _ _ _ _)).seq (frame_journalAdd _ _ _ _ _ _)).mono (by decide) (by simp))
    (hlink _ _)

theorem frame_wheld (s : State) (p : Nat) : s.Frame (s.wheld p) [] [MET_STAT p] := frame_setFlag _ (MET_STAT_WHELD p) _

end Sys2Proof.Machine
end

section
/-!
Settles O13 (R193).  Without exposures the command is answered as it is taken: it is due at once, its one quantity's withheld total moves
as a whole, and the completion shows the count of releases and the exposure covered last.
-/

namespace Sys2Proof.Machine

/-! A completion in its place, whatever the command changed -/

/-- A command answered as it is taken, when the completion is what it would have been before its effect. -/
theorem State.answered_of_shown {s t : State} {h : CmdHdr} {op : BitVec 8} {status p0 p1 p2 : Nat} (hstatus : status < 2 ^ 8)
    (htaken : t.taken = s.taken) (hcpl : t.hif.cplQ = (s.accept h).hif.cplQ)
    (hring : t.rd (HIF_RCIDX 0) = (s.accept h).rd (HIF_RCIDX 0)) (hts : t.ts = s.ts) (hnewest : t.evt.newest = s.evt.newest) (b : Nat) :
    s.Answered ((t.complete op h status p0 p1 p2).settle b) op h status p0 p1 p2 := by
  have hanswer := (frame_complete t op h status p0 p1 p2).settle b
  refine ⟨Eq.trans (hanswer.part (p := .taken) (by decide)) htaken, ?_⟩
  cases hsrc : h.src with
  | ring idx =>
    obtain ⟨hqueue, hindex⟩ := State.accept_ring (s := s) hsrc
    refine ⟨?_, (hanswer.rd (by decide) (by decide)).trans (hring.trans hindex)⟩
    rw [State.complete_ring hsrc, hcpl, hqueue, State.completion, hts, hnewest, State.completion]
  | mailbox o => exact t.complete_mailbox hsrc hstatus op p0 p1 p2 b
  | image => exact t.complete_image hsrc op status p0 p1 p2 b

/-! The release of all of one quantity -/

theorem bitsOf_pow : ∀ q < 10, bitsOf 10 (2 ^ q) = [q] := by decide

/-- A release in time of all of one quantity is that release and its answer. -/
theorem State.applyRelease_all {s : State} {x : Taken} {p q : Nat} {e : BitVec 72} (hq : q < 10)
    (htime : ¬ (x.hdr.dlv && s.lateFor x.hdr.deadline) = true) :
    s.applyRelease x p (2 ^ q) 0 e = ((s.releaseOne p q (s.ledgerReg p (40 + q)).toNat e).wheld p).done x stDone
      (s.releaseOne p q (s.ledgerReg p (40 + q)).toNat e).ldg.audit.toNat (e.toNat % 2 ^ 64) (e.toNat / 2 ^ 64) := by
  unfold State.applyRelease
  rw [if_neg htime, bitsOf_pow q hq]
  simp

/-- A withheld total that is released as a whole reads 0 and its amount joins the total released, other registers stay. -/
theorem State.releaseOne_all (s : State) (p q : Nat) (e : BitVec 72) :
    (s.releaseOne p q (s.ledgerReg p (40 + q)).toNat e).ledgerReg p (40 + q) = 0 ∧
      (s.releaseOne p q (s.ledgerReg p (40 + q)).toNat e).ledgerReg p (30 + q) = s.ledgerReg p (30 + q) + s.ledgerReg p (40 + q) ∧
      ∀ p' i, 50 * p' + i ≠ 50 * p + (30 + q) → 50 * p' + i ≠ 50 * p + (40 + q) →
        (s.releaseOne p q (s.ledgerReg p (40 + q)).toNat e).ledgerReg p' i = s.ledgerReg p' i := by
  simp only [State.releaseOne_ledgerReg]
  refine ⟨?_, ?_, fun p' i htotal hheld => ?_⟩
  · exact (State.ledgerReg_ledgerAdd_other _ _ (by omega)).trans ((s.ledgerReg_ledgerAdd_self _ _ _).trans (by simp [BitVec.ofInt_neg]))
  · exact (State.ledgerReg_ledgerAdd_self _ _ _ _).trans (by rw [State.ledgerReg_ledgerAdd_other _ _ (by omega)]; simp)
  · exact (State.ledgerReg_ledgerAdd_other _ _ htotal.symm).trans (State.ledgerReg_ledgerAdd_other _ _ hheld.symm)

/-! WITHHELD_RELEASE without exposures -/

/-- The command as it is taken. -/
def releaseTaken (h : CmdHdr) (p q : Nat) : Taken :=
  { op := 0x23, hdr := h, wait := .release p (BitVec.ofNat 10 (2 ^ q)) 0 none, muted := false }

/-- The state in which a release without exposures takes effect: the command is taken, and what covers earlier exposures keeps the
point's registers. -/
def State.releaseDue (s : State) (h : CmdHdr) (p q : Nat) : State :=
  ((s.accept h).keep 0x23 h (.release p (BitVec.ofNat 10 (2 ^ q)) 0 none)).freezePoint p (2 ^ 72)

/-- The state once the release has taken effect. -/
def State.released (s : State) (h : CmdHdr) (p q : Nat) : State :=
  (((s.releaseDue h p q).releaseOne p q (s.ledgerReg p (40 + q)).toNat s.lastCovered.1).wheld p).untake (releaseTaken h p q)

theorem State.releaseDue_ledger (s : State) (h : CmdHdr) (p q : Nat) :
    (∀ p' i, (s.releaseDue h p q).ledgerReg p' i = s.ledgerReg p' i) ∧ (s.releaseDue h p q).ldg.audit = s.ldg.audit := by
  have hldg : ((s.accept h).keep 0x23 h (.release p (BitVec.ofNat 10 (2 ^ q)) 0 none)).ldg = s.ldg := by simp
  exact ⟨State.ledgerReg_of_ldg ((State.freezePoint_regs _ _ _).trans (by rw [hldg])),
    (State.freezePoint_audit _ _ _).trans (by rw [hldg])⟩

theorem State.released_ledger (s : State) (h : CmdHdr) (p q : Nat) :
    (s.released h p q).ledgerReg p (40 + q) = 0 ∧
      (s.released h p q).ledgerReg p (30 + q) = s.ledgerReg p (30 + q) + s.ledgerReg p (40 + q) ∧
      (∀ p' i, 50 * p' + i ≠ 50 * p + (30 + q) → 50 * p' + i ≠ 50 * p + (40 + q) →
        (s.released h p q).ledgerReg p' i = s.ledgerReg p' i) ∧
      (s.released h p q).ldg.audit = s.ldg.audit + 1 := by
  obtain ⟨hregs, haudit⟩ := s.releaseDue_ledger h p q
  obtain ⟨hheld, htotal, hother⟩ := (s.releaseDue h p q).releaseOne_all p q s.lastCovered.1
  have hldg : (s.released h p q).ldg =
      ((s.releaseDue h p q).releaseOne p q (s.ledgerReg p (40 + q)).toNat s.lastCovered.1).ldg := by
    simp [State.released, State.wheld]
  have hreg := State.ledgerReg_of_ldg (congrArg LdgState.regs hldg)
  simp only [hregs] at hheld htotal hother
  refine ⟨(hreg _ _).trans hheld, (hreg _ _).trans htotal, fun p' i h1 h2 => (hreg _ _).trans (hother p' i h1 h2), ?_⟩
  rw [hldg, State.releaseOne_ldg, haudit]

theorem frame_released (s : State) (h : CmdHdr) (p q : Nat) :
    (s.accept h).Frame (s.released h p q) [.taken, .ledger, .writer, .pulses, .link] (MET_STAT p :: cfRegs) := by
  have hdue : (s.accept h).Frame (s.releaseDue h p q) [.taken, .ledger, .writer] [] :=
    ((frame_keep _ _ _ _).seq (frame_freezePoint _ _ _)).mono (by decide) (by simp)
  exact (((hdue.seq (frame_releaseOne _ _ _ _ _)).seq (frame_wheld _ p)).seq (frame_untake _ _)).mono (by decide) (by simp)

/-- A release is answered with the time and the exposures of the state before it. -/
theorem State.released_shown (s : State) (h : CmdHdr) {p : Nat} (hp : p < 32) (q : Nat) :
    (s.released h p q).hif.cplQ = (s.accept h).hif.cplQ ∧
      (s.released h p q).rd (HIF_RCIDX 0) = (s.accept h).rd (HIF_RCIDX 0) ∧ (s.released h p q).ts = s.ts ∧
      (s.released h p q).evt.newest = s.evt.newest := by
  have hframe := frame_released s h p q
  have hapart : ∀ p < 32, ∀ off ∈ HIF_RCIDX 0 :: timeRegs, off ∉ MET_STAT p :: cfRegs := by decide
  have hreg := hapart p hp
  have hmaster : (s.released h p q).tzl.masterTs = (s.accept h).tzl.masterTs := by
    have hend (t : State) : ((t.wheld p).untake (releaseTaken h p q)).tzl = t.tzl := by simp [State.wheld]
    rw [State.released, hend, State.releaseOne_masterTs]
    rfl
  have hexp : (s.released h p q).exp = (s.accept h).exp := hframe.part (p := .exposure) (by decide)
  obtain ⟨-, -, -, -, -, -, -, -, hnewest⟩ := hframe.part (p := .windows) (by decide)
  refine ⟨hframe.cplQ (by decide), hframe.rd (hreg _ (by decide)) (by decide), ?_, by simpa using hnewest⟩
  have haccept : (s.accept h).ts = s.ts := (frame_accept s h).ts (by decide) (by decide)
  rw [← haccept]
  exact State.ts_of_same hmaster (hframe.flag RTC_STAT_OSF (hreg _ (by decide)) (by decide))
    (hframe.flag PWR_STAT_HFOK (hreg _ (by decide)) (by decide)) (hframe.part (p := .clock) (by decide)) (by rw [hexp]) (by rw [hexp])

theorem State.untake_lateFor (s : State) (x : Taken) (d : BitVec 64) : (s.untake x).lateFor d = s.lateFor d := rfl

theorem State.released_taken {s : State} {h : CmdHdr} (hfresh : ∀ x ∈ s.taken, x.hdr ≠ h) (p q : Nat) :
    (s.released h p q).taken = s.taken := by
  have hnone : releaseTaken h p q ∉ s.taken := fun hmem => hfresh _ hmem rfl
  have hjoined : (((s.releaseDue h p q).releaseOne p q (s.ledgerReg p (40 + q)).toNat s.lastCovered.1).wheld p).taken =
      s.taken ++ [releaseTaken h p q] := by
    have hkept := (frame_releaseOne (s.releaseDue h p q) p q (s.ledgerReg p (40 + q)).toNat s.lastCovered.1).seq
      (frame_wheld _ p)
    refine Eq.trans (hkept.part (p := .taken) (by decide)) ?_
    simp [State.releaseDue, State.freezePoint, releaseTaken]
  have herase : (s.released h p q).taken = (s.taken ++ [releaseTaken h p q]).erase (releaseTaken h p q) := by
    rw [← hjoined]; rfl
  rw [herase, List.erase_append_right _ hnone]
  simp

/-- Without exposures a release of all of one quantity is due as it is taken. -/
theorem State.cmdRelease_due {s : State} {a0 : BitVec 64} {q : Nat} (h : CmdHdr) (hrun : s.exp.running = false) (hpipe : s.exp.pipe = [])
    (hq : q < 10) (hqs : a0.toNat / 2 ^ 16 % 2 ^ 10 = 2 ^ q) :
    s.cmdRelease h a0 0 0 = ((s.keep 0x23 h (releaseTaken h (a0.toNat % 32) q).wait).freezePoint (a0.toNat % 32) (2 ^ 72)).applyRelease
      (releaseTaken h (a0.toNat % 32) q) (a0.toNat % 32) (2 ^ q) 0 s.lastCovered.1 := by
  have hpow : (BitVec.ofNat 10 (2 ^ q)).toNat = 2 ^ q := Nat.mod_eq_of_lt (Nat.pow_lt_pow_right (by decide) hq)
  have hmask : BitVec.ofNat 10 (a0.toNat / 2 ^ 16) = BitVec.ofNat 10 (2 ^ q) :=
    BitVec.eq_of_toNat_eq (by rw [BitVec.toNat_ofNat, hqs, hpow])
  have hsome : BitVec.ofNat 10 (2 ^ q) ≠ 0 := fun hnone =>
    (Nat.two_pow_pos q).ne' (hpow.symm.trans (congrArg BitVec.toNat hnone))
  unfold State.cmdRelease
  dsimp only
  rw [hmask, if_neg (by simpa using hsome), if_neg (by simp [hrun]), if_pos (by simp [hpipe]), hpow]
  rfl

/-- Such a command in time has its effect at once and is answered. -/
theorem State.cmdRelease_answered {s : State} {h : CmdHdr} {a0 : BitVec 64} {q : Nat} (hrun : s.exp.running = false)
    (hpipe : s.exp.pipe = []) (htime : h.dlv = true → s.lateFor h.deadline = false) (hq : q < 10)
    (hqs : a0.toNat / 2 ^ 16 % 2 ^ 10 = 2 ^ q) :
    (s.accept h).cmdRelease h a0 0 0 = (s.released h (a0.toNat % 32) q).complete 0x23 h stDone (s.ldg.audit + 1).toNat
      (s.lastCovered.1.toNat % 2 ^ 64) (s.lastCovered.1.toNat / 2 ^ 64) := by
  have hp : a0.toNat % 32 < 32 := Nat.mod_lt _ (by decide)
  obtain ⟨hregs, haudit⟩ := s.releaseDue_ledger h (a0.toNat % 32) q
  have hbegin : (s.accept h).cmdRelease h a0 0 0 = (s.releaseDue h (a0.toNat % 32) q).applyRelease
      (releaseTaken h (a0.toNat % 32) q) (a0.toNat % 32) (2 ^ q) 0 s.lastCovered.1 := by
    rw [State.cmdRelease_due h (by simpa using hrun) (by simpa using hpipe) hq hqs, State.accept_lastCovered]
    rfl
  have hlate (d : BitVec 64) : (s.releaseDue h (a0.toNat % 32) q).lateFor d = s.lateFor d := by
    have hdue : s.Frame (s.releaseDue h (a0.toNat % 32) q) [.taken, .ledger, .writer, .host] hostRegs :=
      (((frame_accept _ _).seq (frame_keep _ _ _ _)).seq (frame_freezePoint _ _ _)).mono (by decide) (by decide)
    exact hdue.lateFor (by decide) (by decide) d
  have hend : (((s.releaseDue h (a0.toNat % 32) q).releaseOne (a0.toNat % 32) q (s.ledgerReg (a0.toNat % 32) (40 + q)).toNat
      s.lastCovered.1).wheld (a0.toNat % 32)).InTime (releaseTaken h (a0.toNat % 32) q) := by
    obtain ⟨-, -, hts, -⟩ := s.released_shown h hp q
    refine ⟨rfl, fun hdlv => ?_⟩
    rw [← State.untake_lateFor _ (releaseTaken h (a0.toNat % 32) q), ← State.released, State.lateFor, hts]
    exact htime hdlv
  rw [hbegin, State.applyRelease_all hq (by simpa [releaseTaken, hlate] using htime), hregs, State.done_inTime hend,
    State.releaseOne_ldg, haudit]
  rfl

/-- Without exposures WITHHELD_RELEASE of all of one quantity moves it and is answered in the same step. -/
theorem exec_withheldRelease_released {s : State} {h : CmdHdr} {a0 : BitVec 64} {q : Nat} (hacc : s.Accepts h)
    (hrun : s.exp.running = false) (hpipe : s.exp.pipe = []) (htime : h.dlv = true → s.lateFor h.deadline = false)
    (hfresh : ∀ x ∈ s.taken, x.hdr ≠ h) (hq : q < 10) (hqs : a0.toNat / 2 ^ 16 % 2 ^ 10 = 2 ^ q) :
    ∃ t, exec (.withheldRelease h a0 0 0) s = .next t ∧ t.ldg = (s.released h (a0.toNat % 32) q).ldg ∧
      s.Answered t 0x23 h stDone (s.ldg.audit + 1).toNat (s.lastCovered.1.toNat % 2 ^ 64) (s.lastCovered.1.toNat / 2 ^ 64) := by
  have hexec : exec (.withheldRelease h a0 0 0) s =
      .next ((s.take 0x23 h (fun s => s.cmdRelease h a0 0 0)).settle s.irqLive) := rfl
  obtain ⟨hcpl, hring, hts, hnewest⟩ := s.released_shown h (Nat.mod_lt a0.toNat (by decide)) q
  rw [hexec, State.take_accepted hacc, State.cmdRelease_answered hrun hpipe htime hq hqs]
  exact ⟨_, rfl, by simp, State.answered_of_shown (by decide) (State.released_taken hfresh _ _) hcpl hring hts hnewest _⟩

end Sys2Proof.Machine

open Sys2Proof.Machine in
/-- Settles O13: the command is accepted, due at once and in time, and its answer leaves the ledger as the release made it. -/
theorem releaseMovesWithheldEnergy : Obligations.ReleaseMovesWithheldEnergy := by
  unfold Obligations.ReleaseMovesWithheldEnergy
  intro s h a0 p q hacc hrun hpipe htime hfresh hp hq hqs
  subst hp
  obtain ⟨t, hexec, hldg, hanswered⟩ := exec_withheldRelease_released hacc hrun hpipe htime hfresh hq hqs
  obtain ⟨hheld, htotal, hother, haudit⟩ := s.released_ledger h (a0.toNat % 32) q
  have hreg := State.ledgerReg_of_ldg (congrArg LdgState.regs hldg)
  refine ⟨t, hexec, (hreg _ _).trans hheld, (hreg _ _).trans htotal, fun p' i hapart hslot => (hreg p' i).trans ?_, ?_, hanswered⟩
  · exact hother p' i (by omega) (by omega)
  · rw [hldg, haudit]

end


section
/-!
SUPPORT. The ledger and withheld registers (R189) under changes in sequence, under a choice and under repetition, and under the taking
and the end of a command.
-/

namespace Sys2Proof.Machine

/-- The ledger and withheld registers are the same in two states. -/
def State.SameLedger (s t : State) : Prop := t.ldg.regs = s.ldg.regs

theorem State.SameLedger.refl (s : State) : s.SameLedger s := rfl

theorem State.SameLedger.trans {s t u : State} (h : s.SameLedger t) (k : t.SameLedger u) : s.SameLedger u := Eq.trans k h

theorem State.SameLedger.ite {s t u : State} {c : Prop} [Decidable c] (h : s.SameLedger t) (k : s.SameLedger u) :
    s.SameLedger (if c then t else u) := by
  split
  · exact h
  · exact k

theorem State.ledgerRegs_ite {s t u : State} {c : Prop} [Decidable c] (h : t.ldg.regs = s.ldg.regs) (k : u.ldg.regs = s.ldg.regs) :
    (if c then t else u).ldg.regs = s.ldg.regs := State.SameLedger.ite h k

@[simp] theorem LdgState.regs_ite (c : Prop) [Decidable c] (a b : LdgState) :
    (if c then a else b).regs = if c then a.regs else b.regs := by
  split <;> rfl

/-- What leaves the ledger as a part leaves its registers. -/
theorem State.Frame.ledgerRegs {s t : State} {ps : List Part} {os : List Nat} (h : s.Frame t ps os) (hp : Part.ledger ∉ ps) :
    t.ldg.regs = s.ldg.regs := congrArg LdgState.regs (h.part hp :)

/-- The state of an operation that answers something beside it. -/
theorem fst_ledgerRegs {α : Type} {r : State × α} {t : State} {a : α} (h : r = (t, a)) : t.ldg.regs = r.1.ldg.regs := by rw [h]

/-! Repetition -/

@[simp] theorem foldl_ledgerRegs {β : Type} (g : State → β → State) (l : List β) (s : State)
    (h : ∀ s x, (g s x).ldg.regs = s.ldg.regs) : (l.foldl g s).ldg.regs = s.ldg.regs := by
  induction l generalizing s with
  | nil => rfl
  | cons x l ih => rw [List.foldl_cons, ih, h]

@[simp] theorem each_ledgerRegs (n : Nat) (f : Nat → State → State) (s : State) (h : ∀ i s, (f i s).ldg.regs = s.ldg.regs) :
    (State.each n f s).ldg.regs = s.ldg.regs := foldl_ledgerRegs _ _ _ (fun s x => h x s)

theorem foldl_fst_ledgerRegs {α β : Type} (g : State × α → β → State × α) (l : List β) (a : State × α)
    (h : ∀ a x, (g a x).1.ldg.regs = a.1.ldg.regs) : (l.foldl g a).1.ldg.regs = a.1.ldg.regs := by
  induction l generalizing a with
  | nil => rfl
  | cons x l ih => rw [List.foldl_cons, ih, h]

theorem mapState_ledgerRegs {α β : Type} (f : State → α → State × β) (s : State) (l : List α)
    (h : ∀ s x, (f s x).1.ldg.regs = s.ldg.regs) : (mapState f s l).1.ldg.regs = s.ldg.regs := by
  induction l generalizing s with
  | nil => rfl
  | cons x l ih => exact (ih _).trans (h s x)

/-! Commands -/

@[simp] theorem State.take_ledgerRegs (s : State) (op : BitVec 8) (h : CmdHdr) (body : State → State)
    (hbody : ∀ s, (body s).ldg.regs = s.ldg.regs) : (s.take op h body).ldg.regs = s.ldg.regs := by
  simp [State.take, hbody]

/-- The end of a command leaves the ledger registers as its operation does. -/
theorem State.SameLedger.settle {s t : State} (h : s.SameLedger t) (before : Nat) : s.SameLedger (t.settle before) :=
  h.trans (congrArg LdgState.regs (State.settle_keeps t before).2.2.1)

end Sys2Proof.Machine
end

section
/-!
SUPPORT. The operations of metering, of pulses and of the check-value units that leave the ledger and withheld registers.
-/

namespace Sys2Proof.Machine

/-! Time of the converter -/

@[simp] theorem State.reach_ledgerRegs (s : State) (t : Nat) : (s.reach t).ldg.regs = s.ldg.regs := by simp [State.reach]

/-! The FRAM (R243) -/

@[simp] theorem State.framWrite_ledgerRegs (s : State) (a : Nat) (l : List (BitVec 8)) :
    (s.framWrite a l).ldg.regs = s.ldg.regs := (frame_framWrite ..).ledgerRegs (by simp)

/-! Pulse outputs, trip outputs and pulse inputs (R222 to R240) -/

@[simp] theorem State.cfSlotAt_ledgerRegs (s : State) (n t : Nat) : (s.cfSlotAt n t).ldg.regs = s.ldg.regs := by simp [State.cfSlotAt]

@[simp] theorem State.cfEdge_ledgerRegs (s : State) (n : Nat) : (s.cfEdge n).ldg.regs = s.ldg.regs := by
  unfold State.cfEdge
  dsimp only
  repeat' split
  all_goals simp

@[simp] theorem State.wrTrhost_ledgerRegs (w : WriteBy) (v : BitVec 32) (s : State) :
    (s.wrTrhost w v).ldg.regs = s.ldg.regs := by simp [State.wrTrhost]

@[simp] theorem State.wrTrcfg_ledgerRegs (w : WriteBy) (n : Nat) (v : BitVec 32) (s : State) :
    (s.wrTrcfg w n v).ldg.regs = s.ldg.regs := by simp [State.wrTrcfg]

@[simp] theorem State.wrTrack_ledgerRegs (v : BitVec 32) (s : State) : (s.wrTrack v).ldg.regs = s.ldg.regs := by simp [State.wrTrack]

@[simp] theorem State.tripRead_ledgerRegs (s : State) (n : Nat) (level : Bool) :
    (s.tripRead n level).ldg.regs = s.ldg.regs := by simp [State.tripRead]

@[simp] theorem State.pinEdge_ledgerRegs (s : State) (j at_ : Nat) : (s.pinEdge j at_).ldg.regs = s.ldg.regs := by
  unfold State.pinEdge
  dsimp only
  repeat' split
  all_goals simp

@[simp] theorem State.pinLevel_ledgerRegs (s : State) (j : Nat) (level : Bool) (at_ : Nat) :
    (s.pinLevel j level at_).ldg.regs = s.ldg.regs := by simp [State.pinLevel]

@[simp] theorem State.pinQuantity_ledgerRegs (s : State) (j c : Nat) :
    (s.pinQuantity j c).ldg.regs = s.ldg.regs := by simp [State.pinQuantity]

@[simp] theorem State.pinAdd_ledgerRegs (s : State) (j c : Nat) : (s.pinAdd j c).ldg.regs = s.ldg.regs := by simp [State.pinAdd]

@[simp] theorem State.pinCount_ledgerRegs (s : State) (j at_ : Nat) :
    (s.pinCount j at_).ldg.regs = s.ldg.regs := by simp [State.pinCount]

@[simp] theorem State.pinChange_ledgerRegs (s : State) (j : Nat) (level : Bool) (at_ : Nat) (both : Bool) :
    (s.pinChange j level at_ both).ldg.regs = s.ldg.regs := by simp [State.pinChange]

@[simp] theorem State.pinsEnd_ledgerRegs (s : State) : s.pinsEnd.ldg.regs = s.ldg.regs := (frame_pinsEnd ..).ledgerRegs (by simp)

/-! Corrections during pairing (R166 to R172) -/

@[simp] theorem State.corChg_ledgerRegs (s : State) (n : Nat) : (s.corChg n).ldg.regs = s.ldg.regs := by simp [State.corChg]

/-! Check-value units (R363 to R379) -/

@[simp] theorem State.setRef_ledgerRegs (s : State) (i : Nat) (v : BitVec 36) :
    (s.setRef i v).ldg.regs = s.ldg.regs := by simp [State.setRef]

@[simp] theorem State.setScan_ledgerRegs (s : State) (u : Nat) (x : Option Scan) :
    (s.setScan u x).ldg.regs = s.ldg.regs := (frame_setScan ..).ledgerRegs (by simp)

@[simp] theorem State.windowWrite_ledgerRegs (s : State) (o : Nat) (l : List (BitVec 8)) :
    (s.windowWrite o l).ldg.regs = s.ldg.regs := foldl_ledgerRegs _ _ _ (fun _ _ => by simp)

@[simp] theorem State.startRead_ledgerRegs (s : State) (u : DmaUse) :
    (s.startRead u).ldg.regs = s.ldg.regs := by simp [State.startRead]

@[simp] theorem State.cmdWrite_ledgerRegs (s : State) (h : CmdHdr) (addr : Nat) (data : List (BitVec 64)) :
    (s.cmdWrite h addr data).1.ldg.regs = s.ldg.regs := by
  unfold State.cmdWrite
  split
  · simp
  · split <;> simp

@[simp] theorem State.scanData_ledgerRegs (s : State) (h : CmdHdr) (u : Nat) (q : Scan) :
    (s.scanData h u q).ldg.regs = s.ldg.regs := by
  unfold State.scanData
  dsimp only
  repeat' split
  all_goals simp

@[simp] theorem State.cmdCvuScan_ledgerRegs (s : State) (h : CmdHdr) (a0 a1 a2 : BitVec 64) :
    (s.cmdCvuScan h a0 a1 a2).ldg.regs = s.ldg.regs := by simp [State.cmdCvuScan]

@[simp] theorem State.endScan_ledgerRegs (s : State) (u status units value : Nat) :
    (s.endScan u status units value).ldg.regs = s.ldg.regs := (frame_endScan ..).ledgerRegs (by simp)

@[simp] theorem State.verdict_ledgerRegs (s : State) (u verdict : Nat) (refCor : Bool) (units : Nat) (p1 p2 : BitVec 36) :
    (s.verdict u verdict refCor units p1 p2).ldg.regs = s.ldg.regs := by
  unfold State.verdict
  dsimp only
  repeat' split
  all_goals simp

@[simp] theorem State.firstPass_ledgerRegs (s : State) (u : Nat) : (s.firstPass u).ldg.regs = s.ldg.regs := by
  unfold State.firstPass
  dsimp only
  repeat' split
  all_goals simp

@[simp] theorem State.rescan_ledgerRegs (s : State) (u : Nat) : (s.rescan u).ldg.regs = s.ldg.regs := by
  unfold State.rescan
  dsimp only
  repeat' split
  all_goals simp

@[simp] theorem State.scanHalt_ledgerRegs (s : State) (u : Nat) :
    (s.scanHalt u).1.ldg.regs = s.ldg.regs := (frame_scanHalt ..).ledgerRegs (by simp)

@[simp] theorem State.stopScan_ledgerRegs (s : State) (u status : Nat) :
    (s.stopScan u status).ldg.regs = s.ldg.regs := (frame_stopScan ..).ledgerRegs (by simp)

@[simp] theorem State.holdCvu_ledgerRegs (s : State) (u : Nat) (on : Bool) :
    (s.holdCvu u on).ldg.regs = s.ldg.regs := (frame_holdCvu ..).ledgerRegs (by simp)

@[simp] theorem State.wrCvuCtl_ledgerRegs (u : Nat) (v : BitVec 32) (s : State) :
    (s.wrCvuCtl u v).ldg.regs = s.ldg.regs := by simp [State.wrCvuCtl]

@[simp] theorem State.wrRefdata_ledgerRegs (w : WriteBy) (v : BitVec 32) (s : State) :
    (s.wrRefdata w v).ldg.regs = s.ldg.regs := by simp [State.wrRefdata]

@[simp] theorem State.rdRefdata_ledgerRegs (s : State) : s.rdRefdata.1.ldg.regs = s.ldg.regs := by simp [State.rdRefdata]

@[simp] theorem State.wrRefflip_ledgerRegs (w : WriteBy) (v : BitVec 32) (s : State) :
    (s.wrRefflip w v).ldg.regs = s.ldg.regs := by simp [State.wrRefflip]

/-! Picked-up states and sample blocks (R216, R399) -/

@[simp] theorem State.setBit_ledgerRegs (s : State) (off i : Nat) (on : Bool) :
    (s.setBit off i on).ldg.regs = s.ldg.regs := (frame_setBit ..).ledgerRegs (by simp)

@[simp] theorem State.setSmp_ledgerRegs (s : State) (r : Nat) (x : SmpState) :
    (s.setSmp r x).ldg.regs = s.ldg.regs := by simp [State.setSmp]

@[simp] theorem State.smpReturn_ledgerRegs (s : State) (r : Nat) : (s.smpReturn r).ldg.regs = s.ldg.regs := by simp [State.smpReturn]

/-! Stream loss and bracket selection (R107 to R123) -/

@[simp] theorem State.brkLow_ledgerRegs (s : State) (m k : Nat) :
    (s.brkLow m k).ldg.regs = s.ldg.regs := (frame_brkLow ..).ledgerRegs (by simp)

@[simp] theorem State.brkHigh_ledgerRegs (s : State) (m k : Nat) :
    (s.brkHigh m k).ldg.regs = s.ldg.regs := (frame_brkHigh ..).ledgerRegs (by simp)

@[simp] theorem State.declareLoss_ledgerRegs (s : State) (n cause : Nat) :
    (s.declareLoss n cause).ldg.regs = s.ldg.regs := by simp [State.declareLoss]

@[simp] theorem State.clearHist_ledgerRegs (s : State) (n : Nat) : (s.clearHist n).ldg.regs = s.ldg.regs := by simp [State.clearHist]

@[simp] theorem State.calselForce_ledgerRegs (s : State) (k : Nat) :
    (s.calselForce k).ldg.regs = s.ldg.regs := (frame_calselForce ..).ledgerRegs (by simp)

@[simp] theorem State.wrBank_ledgerRegs (w : WriteBy) (k : Nat) (v : BitVec 32) (s : State) :
    (s.wrBank w k v).ldg.regs = s.ldg.regs := by simp [State.wrBank]

/-! Filter, correction-table and metering-point commands (R145 to R150, R159, R176) -/

@[simp] theorem State.loadBank_ledgerRegs (s : State) (n bank : Nat) (l : List Int) :
    (s.loadBank n bank l).ldg.regs = s.ldg.regs := by simp [State.loadBank]

@[simp] theorem State.corrEffect_ledgerRegs (s : State) (n : Nat) (l : List Int) (last : Option Nat) :
    (s.corrEffect n l last).ldg.regs = s.ldg.regs := by simp [State.corrEffect]

@[simp] theorem State.coefArrived_ledgerRegs (s : State) (t : Taken) (data : List (BitVec 64)) :
    (s.coefArrived t data).ldg.regs = s.ldg.regs := by
  unfold State.coefArrived
  dsimp only
  repeat' split
  all_goals simp

@[simp] theorem State.coefFetch_ledgerRegs (s : State) (op : BitVec 8) (h : CmdHdr) (w : Wait) (u : DmaUse) (addr slots : Nat) :
    (s.coefFetch op h w u addr slots).ldg.regs = s.ldg.regs := by
  unfold State.coefFetch
  split <;> simp

@[simp] theorem State.cmdCoefLoad_ledgerRegs (s : State) (h : CmdHdr) (a0 a1 : BitVec 64) :
    (s.cmdCoefLoad h a0 a1).ldg.regs = s.ldg.regs := by
  unfold State.cmdCoefLoad
  dsimp only
  repeat' split
  all_goals simp

@[simp] theorem State.cmdCorrLoad_ledgerRegs (s : State) (h : CmdHdr) (a0 a1 : BitVec 64) :
    (s.cmdCorrLoad h a0 a1).ldg.regs = s.ldg.regs := by simp [State.cmdCorrLoad]

@[simp] theorem State.swapBanks_ledgerRegs (s : State) (n : Nat) : (s.swapBanks n).ldg.regs = s.ldg.regs := by simp [State.swapBanks]

@[simp] theorem State.cmdCoefSwap_ledgerRegs (s : State) (h : CmdHdr) (a0 : BitVec 64) :
    (s.cmdCoefSwap h a0).ldg.regs = s.ldg.regs := by simp [State.cmdCoefSwap]

@[simp] theorem State.filtOn_ledgerRegs (s : State) (n : Nat) : (s.filtOn n).ldg.regs = s.ldg.regs := by simp [State.filtOn]

@[simp] theorem State.filtOff_ledgerRegs (s : State) (n : Nat) : (s.filtOff n).ldg.regs = s.ldg.regs := by simp [State.filtOff]

@[simp] theorem State.cmdFilt_ledgerRegs (s : State) (op : BitVec 8) (h : CmdHdr) (a0 : BitVec 64) (start : Bool) :
    (s.cmdFilt op h a0 start).ldg.regs = s.ldg.regs := by simp [State.cmdFilt]

@[simp] theorem State.cmdMp_ledgerRegs (s : State) (h : CmdHdr) (a0 : BitVec 64) (start : Bool) :
    (s.cmdMp h a0 start).ldg.regs = s.ldg.regs := by simp [State.cmdMp]

/-! Crossings, windows and half-cycle values (R203 to R215) -/

@[simp] theorem State.modGrp_ledgerRegs (s : State) (g : Nat) (f : GroupState → GroupState) :
    (s.modGrp g f).ldg.regs = s.ldg.regs := by simp [State.modGrp]

@[simp] theorem State.abandonWindow_ledgerRegs (s : State) (g : Nat) :
    (s.abandonWindow g).ldg.regs = s.ldg.regs := by simp [State.abandonWindow]

@[simp] theorem State.startWindow_ledgerRegs (s : State) (g t : Nat) :
    (s.startWindow g t).ldg.regs = s.ldg.regs := by simp [State.startWindow]

@[simp] theorem State.windowCross_ledgerRegs (s : State) (g t f : Nat) : (s.windowCross g t f).ldg.regs = s.ldg.regs := by
  unfold State.windowCross
  dsimp only
  repeat' split
  all_goals simp

@[simp] theorem State.rangeStart_ledgerRegs (s : State) (g : Nat) :
    (s.rangeStart g).ldg.regs = s.ldg.regs := by simp [State.rangeStart]

@[simp] theorem State.macResync_ledgerRegs (s : State) : s.macResync.ldg.regs = s.ldg.regs := by simp [State.macResync]

@[simp] theorem State.acceptRise_ledgerRegs (s : State) (g t : Nat) : (s.acceptRise g t).ldg.regs = s.ldg.regs := by
  unfold State.acceptRise
  dsimp only
  repeat' split
  all_goals simp

@[simp] theorem State.pqStep_ledgerRegs (s : State) (g : Nat) (ts : BitVec 64) (vals : List (Nat × Nat)) (a : Option PqActive)
    (q : PqTest) :
    (s.pqStep g ts vals a q).1.ldg.regs = s.ldg.regs := by
  unfold State.pqStep
  dsimp only
  repeat' split
  all_goals simp

@[simp] theorem State.uhalfDecide_ledgerRegs (s : State) (g : Nat) (u : UHalf) :
    (s.uhalfDecide g u).ldg.regs = s.ldg.regs := by simp [State.uhalfDecide]

@[simp] theorem State.uhalfNext_ledgerRegs (s : State) (g : Nat) : (s.uhalfNext g).ldg.regs = s.ldg.regs := by
  unfold State.uhalfNext
  split <;> simp

@[simp] theorem State.hrmChan_ledgerRegs (s : State) (w : Window) (n : Nat) :
    (s.hrmChan w n).1.ldg.regs = s.ldg.regs := by simp [State.hrmChan]

@[simp] theorem State.hrmPut_ledgerRegs (s : State) (kind : Nat) (first : BitVec 72) (ts : BitVec 64)
    (rec : Bool → List (BitVec 64)) :
    (s.hrmPut kind first ts rec).ldg.regs = s.ldg.regs := by
  unfold State.hrmPut
  dsimp only
  repeat' split
  all_goals simp

@[simp] theorem State.writeWindow_ledgerRegs (s : State) (g : Nat) (w : Window) : (s.writeWindow g w).ldg.regs = s.ldg.regs := by
  unfold State.writeWindow
  extract_lets chs volt blank v0 fwin
  split
  next t cs heq =>
  extract_lets of_ ref firsts first old bad code u v x
  have ht : t.ldg.regs = s.ldg.regs := by
    rw [fst_ledgerRegs heq, mapState_ledgerRegs _ _ _ (fun _ _ => State.hrmChan_ledgerRegs ..)]
  have hu : u.ldg.regs = s.ldg.regs := State.ledgerRegs_ite (by simp [ht]) (by simp [ht])
  have hv : v.ldg.regs = s.ldg.regs := State.ledgerRegs_ite hu (by simp [hu])
  rw [foldl_ledgerRegs _ _ _ (fun _ _ => State.hrmPut_ledgerRegs ..)]
  simp [x, hv]

/-! Snapshots, ledger records and calibration windows (R162 to R165, R195 to R199): the writer reads the ledger -/

@[simp] theorem State.snapCopy_ledgerRegs (s : State) (r : SnapReq) (e : BitVec 72) :
    (s.snapCopy r e).ldg.regs = s.ldg.regs := by simp [State.snapCopy]

@[simp] theorem State.snapNext_ledgerRegs (s : State) : s.snapNext.ldg.regs = s.ldg.regs := by
  unfold State.snapNext
  repeat' split
  all_goals simp

@[simp] theorem State.cmdSnapshot_ledgerRegs (s : State) (h : CmdHdr) (a0 a1 a2 : BitVec 64) :
    (s.cmdSnapshot h a0 a1 a2).ldg.regs = s.ldg.regs := by simp [State.cmdSnapshot]

@[simp] theorem State.snapDrop_ledgerRegs (s : State) (src : CmdSrc) :
    (s.snapDrop src).ldg.regs = s.ldg.regs := by simp [State.snapDrop]

@[simp] theorem State.snapDone_ledgerRegs (s : State) (c : CasWait) : (s.snapDone c).ldg.regs = s.ldg.regs := by
  unfold State.snapDone
  split <;> simp

@[simp] theorem State.recordWritten_ledgerRegs (s : State) (c : CasWait) :
    (s.recordWritten c).ldg.regs = s.ldg.regs := by simp [State.recordWritten]

@[simp] theorem State.cascadeFlush_ledgerRegs (fuel : Nat) (s : State) : (s.cascadeFlush fuel).ldg.regs = s.ldg.regs := by
  induction fuel generalizing s with
  | zero => rfl
  | succ n ih =>
    unfold State.cascadeFlush
    split
    · rfl
    · split
      · exact (ih _).trans (State.snapDone_ledgerRegs _ _)
      · split
        · rfl
        · dsimp only
          split
          · rw [ih]; simp
          · simp

@[simp] theorem State.cascadeSend_ledgerRegs (s : State) : s.cascadeSend.ldg.regs = s.ldg.regs := by simp [State.cascadeSend]

@[simp] theorem State.ledgerWrite_ledgerRegs (s : State) : s.ledgerWrite.ldg.regs = s.ldg.regs := by
  unfold State.ledgerWrite
  dsimp only
  repeat' split
  all_goals simp

@[simp] theorem State.cmdCalWindow_ledgerRegs (s : State) (h : CmdHdr) (a0 a1 a2 a3 : BitVec 64) :
    (s.cmdCalWindow h a0 a1 a2 a3).ldg.regs = s.ldg.regs := by simp [State.cmdCalWindow]

@[simp] theorem State.calDrop_ledgerRegs (s : State) (w : CalWin) : (s.calDrop w).ldg.regs = s.ldg.regs := by
  rw [State.calDrop, State.modLdg_ldg]

@[simp] theorem State.calEnd_ledgerRegs (s : State) (w : CalWin) : (s.calEnd w).ldg.regs = s.ldg.regs := by
  unfold State.calEnd
  split <;> simp

@[simp] theorem State.calExpire_ledgerRegs (s : State) (t : Taken) (p : Nat) : (s.calExpire t p).ldg.regs = s.ldg.regs := by
  unfold State.calExpire
  split <;> simp

end Sys2Proof.Machine
end

section
/-!
SUPPORT. The operations of the clock, the ledger writer and the fast converter that leave the ledger and withheld registers.
-/

namespace Sys2Proof.Machine

/-! The real-time clock and backup domain (R336 to R362) -/

@[simp] theorem State.rtcPend_ledgerRegs (s : State) : s.rtcPend.ldg.regs = s.ldg.regs := (frame_rtcPend ..).ledgerRegs (by simp)

@[simp] theorem State.werr_ledgerRegs (s : State) : s.werr.ldg.regs = s.ldg.regs := by simp [State.werr]

@[simp] theorem State.calovf_ledgerRegs (s : State) : s.calovf.ldg.regs = s.ldg.regs := by simp [State.calovf]

@[simp] theorem State.advance_ledgerRegs (s : State) (n : Nat) : (s.advance n).ldg.regs = s.ldg.regs := by simp [State.advance]

@[simp] theorem State.shiftDeadlines_ledgerRegs (s : State) (d : Int) :
    (s.shiftDeadlines d).ldg.regs = s.ldg.regs := by simp [State.shiftDeadlines]

@[simp] theorem State.setOsf_ledgerRegs (s : State) (cause : Nat) : (s.setOsf cause).ldg.regs = s.ldg.regs := by simp [State.setOsf]

@[simp] theorem State.setTime_ledgerRegs (s : State) (ticks kind : Nat) :
    (s.setTime ticks kind).ldg.regs = s.ldg.regs := by simp [State.setTime]

@[simp] theorem State.dropStep_ledgerRegs (s : State) : s.dropStep.ldg.regs = s.ldg.regs := by simp [State.dropStep]

@[simp] theorem State.commitEdge_ledgerRegs (s : State) : s.commitEdge.ldg.regs = s.ldg.regs := by
  unfold State.commitEdge
  dsimp only
  repeat' split
  all_goals simp

@[simp] theorem State.stepEdge_ledgerRegs (s : State) : s.stepEdge.ldg.regs = s.ldg.regs := by
  unfold State.stepEdge
  split <;> simp

@[simp] theorem State.lfEdge_ledgerRegs (s : State) : s.lfEdge.ldg.regs = s.ldg.regs := by
  have hflag (t : State) (f : Fld) (b : Bool) : t.SameLedger (t.setFlag f b) := by simp [State.SameLedger]
  have hput (t : State) (f : Fld) (x : Int) : t.SameLedger (t.putI f x) := by simp [State.SameLedger]
  have hadvance (t : State) (n : Nat) : t.SameLedger (t.advance n).calovf := by simp [State.SameLedger]
  have hrtc (t : State) (f : RtcState → RtcState) : t.SameLedger (t.modRtc f) := rfl
  change s.SameLedger _
  unfold State.lfEdge
  extract_lets n acc now u e v per before w e' x y count due z
  have hw : s.SameLedger w := State.SameLedger.trans (t := v) rfl (hadvance v n)
  have hx : s.SameLedger x := hw
  have hy : s.SameLedger y := .ite (hx.trans (hflag ..)) hx
  have hz : s.SameLedger z := .ite (hy.trans (hput ..)) hy
  exact .ite (.refl s) (hz.trans (hrtc ..))

@[simp] theorem State.slewTo_ledgerRegs (s : State) (rate : Int) (dur : Nat) :
    (s.slewTo rate dur).ldg.regs = s.ldg.regs := (frame_slewTo ..).ledgerRegs (by simp)

@[simp] theorem State.stepBy_ledgerRegs (s : State) (d : Int) :
    (s.stepBy d).ldg.regs = s.ldg.regs := (frame_stepBy ..).ledgerRegs (by simp)

@[simp] theorem State.wrRtcCtl_ledgerRegs (v : BitVec 32) (s : State) :
    (s.wrRtcCtl v).ldg.regs = s.ldg.regs := by simp [State.wrRtcCtl]

@[simp] theorem State.wrRtcSlew_ledgerRegs (v : BitVec 32) (s : State) :
    (s.wrRtcSlew v).ldg.regs = s.ldg.regs := by simp [State.wrRtcSlew]

@[simp] theorem State.wrAlmctl_ledgerRegs (w : WriteBy) (v : BitVec 32) (s : State) :
    (s.wrAlmctl w v).ldg.regs = s.ldg.regs := by simp [State.wrAlmctl]

@[simp] theorem State.wrTccfg_ledgerRegs (w : WriteBy) (v : BitVec 32) (s : State) :
    (s.wrTccfg w v).ldg.regs = s.ldg.regs := by simp [State.wrTccfg]

@[simp] theorem State.chargerState_ledgerRegs (s : State) :
    s.chargerState.ldg.regs = s.ldg.regs := (frame_chargerState ..).ledgerRegs (by simp)

@[simp] theorem State.wrTchg_ledgerRegs (w : WriteBy) (v : BitVec 32) (s : State) :
    (s.wrTchg w v).ldg.regs = s.ldg.regs := by simp [State.wrTchg]

@[simp] theorem State.showPwr_ledgerRegs (s : State) (offend : BitVec 64) :
    (s.showPwr offend).ldg.regs = s.ldg.regs := (frame_showPwr ..).ledgerRegs (by simp)

@[simp] theorem State.releasePwron_ledgerRegs (s : State) : s.releasePwron.ldg.regs = s.ldg.regs := by simp [State.releasePwron]

@[simp] theorem State.wrBkcfg_ledgerRegs (w : WriteBy) (v : BitVec 32) (s : State) : (s.wrBkcfg w v).ldg.regs = s.ldg.regs := by
  unfold State.wrBkcfg
  dsimp only
  split
  · simp
  · have hzero := each_ledgerRegs 8 (fun i t => t.wr (RTC_RAM (16 + i)) 0) (s.storeWrite w RTC_BKCFG v) (fun _ _ => rfl)
    simpa using hzero

@[simp] theorem State.readRam_ledgerRegs (s : State) (w : Nat) (flips : BitVec 36) : (s.readRam w flips).1.ldg.regs = s.ldg.regs := by
  unfold State.readRam
  dsimp only
  repeat' split
  all_goals simp

@[simp] theorem State.cmdRtcCapture_ledgerRegs (s : State) (h : CmdHdr) :
    (s.cmdRtcCapture h).ldg.regs = s.ldg.regs := by simp [State.cmdRtcCapture]

@[simp] theorem State.loadStaging_ledgerRegs (s : State) (a0 a1 a2 : BitVec 64) :
    (s.loadStaging a0 a1 a2).ldg.regs = s.ldg.regs := by simp [State.loadStaging]

@[simp] theorem State.cmdRtcSet_ledgerRegs (s : State) (h : CmdHdr) (a0 a1 a2 : BitVec 64) :
    (s.cmdRtcSet h a0 a1 a2).ldg.regs = s.ldg.regs := by simp [State.cmdRtcSet]

@[simp] theorem State.cmdRtcAdjust_ledgerRegs (s : State) (h : CmdHdr) (a0 a1 a2 : BitVec 64) :
    (s.cmdRtcAdjust h a0 a1 a2).ldg.regs = s.ldg.regs := by simp [State.cmdRtcAdjust]

@[simp] theorem State.cycleDone_ledgerRegs (s : State) (off : BitVec 24) :
    (s.cycleDone off).ldg.regs = s.ldg.regs := by simp [State.cycleDone]

@[simp] theorem State.voidCycle_ledgerRegs (s : State) : s.voidCycle.ldg.regs = s.ldg.regs := by simp [State.voidCycle]

/-! The ledger writer: proofs, journal, identity, ports (R242 to R263) -/

@[simp] theorem State.bkStop_ledgerRegs (s : State) (cause : Nat) :
    (s.bkStop cause).ldg.regs = s.ldg.regs := (frame_bkStop ..).ledgerRegs (by simp)

@[simp] theorem State.bkProof_ledgerRegs (s : State) (seq : BitVec 32) (e : BitVec 72) (emergency : Bool) :
    (s.bkProof seq e emergency).ldg.regs = s.ldg.regs := (frame_bkProof ..).ledgerRegs (by simp)

@[simp] theorem State.journalPut_ledgerRegs (s : State) (e : JournalEntry) :
    (s.journalPut e).ldg.regs = s.ldg.regs := by simp [State.journalPut]

@[simp] theorem State.journalNow_ledgerRegs (s : State) (kind p0 p1 p2 : Nat) :
    (s.journalNow kind p0 p1 p2).ldg.regs = s.ldg.regs := by simp [State.journalNow]

@[simp] theorem State.busyFlag_ledgerRegs (s : State) : s.busyFlag.ldg.regs = s.ldg.regs := (frame_busyFlag ..).ledgerRegs (by simp)

@[simp] theorem State.writerIdle_ledgerRegs (s : State) :
    s.writerIdle.ldg.regs = s.ldg.regs := (frame_writerIdle ..).ledgerRegs (by simp)

@[simp] theorem State.proofBegin_ledgerRegs (s : State) (j : ProofJob) (flags : Nat) :
    (s.proofBegin j flags).ldg.regs = s.ldg.regs := by simp [State.proofBegin]

@[simp] theorem State.proofStart_ledgerRegs (s : State) : s.proofStart.ldg.regs = s.ldg.regs := by
  unfold State.proofStart
  split <;> simp

@[simp] theorem State.proofCommands_ledgerRegs (s : State) (j : ProofJob) (status seq : Nat) :
    (s.proofCommands j status seq).ldg.regs = s.ldg.regs := (frame_proofCommands ..).ledgerRegs (by simp)

@[simp] theorem State.proofComplete_ledgerRegs (s : State) (j : ProofJob) (r : LedgerRecord) :
    (s.proofComplete j r).ldg.regs = s.ldg.regs := by simp [State.proofComplete]

@[simp] theorem State.proofTrailer_ledgerRegs (s : State) : s.proofTrailer.ldg.regs = s.ldg.regs := by
  unfold State.proofTrailer
  split <;> simp

@[simp] theorem State.proofReadback_ledgerRegs (s : State) (ok : Bool) : (s.proofReadback ok).ldg.regs = s.ldg.regs := by
  unfold State.proofReadback
  split <;> simp

@[simp] theorem State.identityPut_ledgerRegs (s : State) (gen : BitVec 64) (unsealed : Bool) :
    (s.identityPut gen unsealed).ldg.regs = s.ldg.regs := by simp [State.identityPut]

@[simp] theorem State.sealNow_ledgerRegs (s : State) (cause : Nat) (src : Option CmdSrc) :
    (s.sealNow cause src).ldg.regs = s.ldg.regs := by simp [State.sealNow]

@[simp] theorem State.cmdSeal_ledgerRegs (s : State) (h : CmdHdr) : (s.cmdSeal h).ldg.regs = s.ldg.regs := by simp [State.cmdSeal]

@[simp] theorem State.cmdUnseal_ledgerRegs (s : State) (h : CmdHdr) :
    (s.cmdUnseal h).ldg.regs = s.ldg.regs := by simp [State.cmdUnseal]

@[simp] theorem State.identityDone_ledgerRegs (s : State) : s.identityDone.ldg.regs = s.ldg.regs := by
  unfold State.identityDone
  dsimp only
  repeat' split
  all_goals simp

@[simp] theorem State.cmdProofNow_ledgerRegs (s : State) (h : CmdHdr) :
    (s.cmdProofNow h).ldg.regs = s.ldg.regs := by simp [State.cmdProofNow]

@[simp] theorem State.cmdPwrCycle_ledgerRegs (s : State) (h : CmdHdr) (a0 : BitVec 64) :
    (s.cmdPwrCycle h a0).ldg.regs = s.ldg.regs := by simp [State.cmdPwrCycle]

@[simp] theorem State.portRead_ledgerRegs (s : State) (a : Nat) : (s.portRead a).ldg.regs = s.ldg.regs := by simp [State.portRead]

@[simp] theorem State.portNext_ledgerRegs (s : State) : s.portNext.ldg.regs = s.ldg.regs := by simp [State.portNext]

@[simp] theorem State.wrFaddr_ledgerRegs (w : WriteBy) (v : BitVec 32) (s : State) :
    (s.wrFaddr w v).ldg.regs = s.ldg.regs := by simp [State.wrFaddr]

@[simp] theorem State.rdFdata_ledgerRegs (s : State) : s.rdFdata.1.ldg.regs = s.ldg.regs := by
  unfold State.rdFdata
  repeat' split
  all_goals simp

@[simp] theorem State.wrFdata_ledgerRegs (w : WriteBy) (v : BitVec 32) (s : State) :
    (s.wrFdata w v).ldg.regs = s.ldg.regs := by simp [State.wrFdata]

@[simp] theorem State.portDone_ledgerRegs (s : State) : s.portDone.ldg.regs = s.ldg.regs := by
  unfold State.portDone
  dsimp only
  repeat' split
  all_goals simp

/-! The fast converter (R269 to R282) -/

@[simp] theorem State.fcvDo_ledgerRegs (s : State) (f : FcvState → FcvState) :
    (s.fcvDo f).ldg.regs = s.ldg.regs := (frame_fcvDo ..).ledgerRegs (by simp)

@[simp] theorem State.urgentLost_ledgerRegs (s : State) :
    s.urgentLost.ldg.regs = s.ldg.regs := (frame_urgentLost ..).ledgerRegs (by simp)

@[simp] theorem State.convert_ledgerRegs (s : State) (input sub pga : Nat) (v : Int) :
    (s.convert input sub pga v).1.ldg.regs = s.ldg.regs := by simp [State.convert]

@[simp] theorem State.slotConv_ledgerRegs (s : State) (v : Int) : (s.slotConv v).1.ldg.regs = s.ldg.regs := by
  unfold State.slotConv
  dsimp only
  repeat' split
  all_goals simp

@[simp] theorem State.cmdFcvSeq_ledgerRegs (s : State) (h : CmdHdr) (a0 a1 : BitVec 64) :
    (s.cmdFcvSeq h a0 a1).ldg.regs = s.ldg.regs := by simp [State.cmdFcvSeq]

@[simp] theorem State.runStart_ledgerRegs (s : State) (q : Nat) : (s.runStart q).ldg.regs = s.ldg.regs := by
  unfold State.runStart
  split <;> simp

@[simp] theorem State.runDrop_ledgerRegs (s : State) (src : CmdSrc) : (s.runDrop src).ldg.regs = s.ldg.regs := by
  unfold State.runDrop
  split <;> simp

@[simp] theorem State.runFinish_ledgerRegs (s : State) (r : SeqRun) : (s.runFinish r).ldg.regs = s.ldg.regs := by
  unfold State.runFinish
  dsimp only
  repeat' split
  all_goals simp

@[simp] theorem State.runConv_ledgerRegs (s : State) (v : Int) : (s.runConv v).ldg.regs = s.ldg.regs := by
  unfold State.runConv
  split
  · next heq => simp [fst_ledgerRegs heq]
  · next heq =>
    have hconv := fst_ledgerRegs heq
    repeat' split
    all_goals simp [hconv]

@[simp] theorem State.urgentConv_ledgerRegs (s : State) (v : Int) : (s.urgentConv v).ldg.regs = s.ldg.regs := by
  unfold State.urgentConv
  split <;> next heq => simp [fst_ledgerRegs heq]

@[simp] theorem State.cmdFcvCal_ledgerRegs (s : State) (h : CmdHdr) :
    (s.cmdFcvCal h).ldg.regs = s.ldg.regs := by simp [State.cmdFcvCal]

@[simp] theorem State.fcvCalEnd_ledgerRegs (s : State) (temp : BitVec 16) (factors : List (BitVec 24)) (bad : Option Nat) :
    (s.fcvCalEnd temp factors bad).ldg.regs = s.ldg.regs := by
  unfold State.fcvCalEnd
  dsimp only
  repeat' split
  all_goals simp

@[simp] theorem State.wrCalctl_ledgerRegs (w : WriteBy) (v : BitVec 32) (s : State) :
    (s.wrCalctl w v).ldg.regs = s.ldg.regs := by simp [State.wrCalctl]

@[simp] theorem State.loadApply_ledgerRegs (s : State) : s.loadApply.ldg.regs = s.ldg.regs := by simp [State.loadApply]

@[simp] theorem State.wrUrg_ledgerRegs (w : WriteBy) (v : BitVec 32) (s : State) :
    (s.wrUrg w v).ldg.regs = s.ldg.regs := by simp [State.wrUrg]

@[simp] theorem State.sheetSample_ledgerRegs (s : State) (x : CsSample) : (s.sheetSample x).ldg.regs = s.ldg.regs := by
  have htrigger (t : State) : t.SameLedger (t.sheetTrigger 4 1 0 0 0 x.at_) := by simp [State.SameLedger]
  have hmod (t : State) (f : FcvState → FcvState) : t.SameLedger (t.modFcv f) := rfl
  have hshow (t : State) : t.SameLedger t.fcvShow := by simp [State.SameLedger]
  have hdo (t : State) (f : FcvState → FcvState) : t.SameLedger (t.fcvDo f) := State.fcvDo_ledgerRegs _ _
  change s.SameLedger _
  unfold State.sheetSample
  extract_lets hit before u
  have hu : s.SameLedger u := .ite (htrigger s) (.refl s)
  split
  · exact .ite (hu.trans (hmod ..)) (.ite ((hu.trans (hmod ..)).trans (hshow _)) ((hu.trans (hmod ..)).trans (hdo ..)))
  · exact hu.trans (hmod ..)
  · exact hu

@[simp] theorem State.sheetConv_ledgerRegs (s : State) (v : Int) : (s.sheetConv v).ldg.regs = s.ldg.regs := by simp [State.sheetConv]

@[simp] theorem State.fcvFeed_ledgerRegs (owners : List Nat) (convs : List Conv) (s : State) :
    (s.fcvFeed owners convs).ldg.regs = s.ldg.regs := by simp [State.fcvFeed]

@[simp] theorem State.wrCsctl_ledgerRegs (w : WriteBy) (v : BitVec 32) (s : State) :
    (s.wrCsctl w v).ldg.regs = s.ldg.regs := by simp [State.wrCsctl]

@[simp] theorem State.sheetWrite_ledgerRegs (s : State) : s.sheetWrite.ldg.regs = s.ldg.regs := by
  unfold State.sheetWrite
  dsimp only
  repeat' split
  all_goals simp

@[simp] theorem State.sheetDrop_ledgerRegs (s : State) :
    s.sheetDrop.ldg.regs = s.ldg.regs := (frame_sheetDrop ..).ledgerRegs (by simp)

@[simp] theorem State.fcvStop_ledgerRegs (s : State) : s.fcvStop.ldg.regs = s.ldg.regs := (frame_fcvStop ..).ledgerRegs (by simp)

@[simp] theorem State.receive_ledgerRegs (s : State) : s.receive.1.ldg.regs = s.ldg.regs := by
  unfold State.receive
  split <;> simp

end Sys2Proof.Machine
end

section
/-!
SUPPORT. The operations of the powerline and the host interface that leave the ledger and withheld registers.
-/

namespace Sys2Proof.Machine

/-! The node directory (R324 to R329) -/

@[simp] theorem State.takeDesc_ledgerRegs (s : State) (r : Nat) (i : BitVec 32) :
    (s.takeDesc r i).ldg.regs = s.ldg.regs := (frame_takeDesc ..).ledgerRegs (by simp)

@[simp] theorem State.descDone_ledgerRegs (s : State) (r : Nat) (i : BitVec 32) (wb : Nat) :
    (s.descDone r i wb).ldg.regs = s.ldg.regs := (frame_descDone ..).ledgerRegs (by simp)

@[simp] theorem State.dirEmit_ledgerRegs (s : State) (t : DirTable) (p : DirPlace) :
    (s.dirEmit t p).ldg.regs = s.ldg.regs := by simp [State.dirEmit]

@[simp] theorem State.dirEmitNext_ledgerRegs (s : State) (t : DirTable) (p : DirPlace) :
    (s.dirEmitNext t p).ldg.regs = s.ldg.regs := by simp [State.dirEmitNext]

@[simp] theorem State.dirShow_ledgerRegs (s : State) : s.dirShow.ldg.regs = s.ldg.regs := by
  unfold State.dirShow
  split <;> simp

@[simp] theorem State.rehashAbort_ledgerRegs (s : State) (cause : Nat) :
    (s.rehashAbort cause).ldg.regs = s.ldg.regs := (frame_rehashAbort ..).ledgerRegs (by simp)

@[simp] theorem State.dirMod_ledgerRegs (s : State) (node : BitVec 64) (now : Bool) (f : DirEntry → DirEntry) :
    (s.dirMod node now f).ldg.regs = s.ldg.regs := by
  unfold State.dirMod
  dsimp only
  repeat' split
  all_goals simp

@[simp] theorem State.writeBack_ledgerRegs (s : State) (node : BitVec 64) : (s.writeBack node).ldg.regs = s.ldg.regs := by
  unfold State.writeBack
  dsimp only
  repeat' split
  all_goals simp

@[simp] theorem State.cacheUse_ledgerRegs (s : State) (node : BitVec 64) (dirty : Bool) :
    (s.cacheUse node dirty).ldg.regs = s.ldg.regs := by
  unfold State.cacheUse
  dsimp only
  repeat' split
  all_goals simp

@[simp] theorem State.dirTouch_ledgerRegs (s : State) (node : BitVec 64) (f : DirEntry → DirEntry) :
    (s.dirTouch node f).ldg.regs = s.ldg.regs := by simp [State.dirTouch]

@[simp] theorem State.dirAdd_ledgerRegs (s : State) (e : DirEntry) : (s.dirAdd e).1.ldg.regs = s.ldg.regs := by
  unfold State.dirAdd
  dsimp only
  repeat' split
  all_goals simp

@[simp] theorem State.dirErase_ledgerRegs (s : State) (t : DirTable) (node : BitVec 64) (set : DirTable → State → State)
    (hset : ∀ t s, (set t s).ldg.regs = s.ldg.regs) :
    (s.dirErase t node set).ldg.regs = s.ldg.regs := by
  unfold State.dirErase
  split
  · rfl
  · dsimp only
    split <;> simp [hset]

@[simp] theorem State.dirRemove_ledgerRegs (s : State) (node : BitVec 64) : (s.dirRemove node).ldg.regs = s.ldg.regs := by
  have herase (s : State) (t : DirTable) (f : DirTable → PlcState → PlcState) :
      (s.dirErase t node (fun t s => s.modPlc (f t))).ldg.regs = s.ldg.regs := State.dirErase_ledgerRegs _ _ _ _ (fun _ _ => rfl)
  unfold State.dirRemove
  extract_lets both t u
  have ht : t.ldg.regs = s.ldg.regs := by
    simp only [t]
    split
    · exact herase s _ (fun t p => { p with dir := some t })
    · rfl
  have hu : u.ldg.regs = s.ldg.regs := by
    simp only [u]
    split
    · exact (herase t _ (fun t p => { p with newDir := some t })).trans ht
    · exact ht
  simp [hu]

@[simp] theorem State.dirZero_ledgerRegs (s : State) (t : DirTable) : (s.dirZero t).ldg.regs = s.ldg.regs := by simp [State.dirZero]

@[simp] theorem State.wrDirctl_ledgerRegs (w : WriteBy) (v : BitVec 32) (s : State) :
    (s.wrDirctl w v).ldg.regs = s.ldg.regs := by simp [State.wrDirctl]

@[simp] theorem State.initDone_ledgerRegs (s : State) : s.initDone.ldg.regs = s.ldg.regs := by
  unfold State.initDone
  split <;> simp

@[simp] theorem State.rehashOne_ledgerRegs (s : State) (e : DirEntry) : (s.rehashOne e).ldg.regs = s.ldg.regs := by
  unfold State.rehashOne
  dsimp only
  repeat' split
  all_goals simp

@[simp] theorem State.rehashBucket_ledgerRegs (s : State) : s.rehashBucket.ldg.regs = s.ldg.regs := by
  unfold State.rehashBucket
  dsimp only
  repeat' split
  all_goals simp

@[simp] theorem State.lookupLost_ledgerRegs (s : State) :
    s.lookupLost.ldg.regs = s.ldg.regs := (frame_lookupLost ..).ledgerRegs (by simp)

@[simp] theorem State.lookupServed_ledgerRegs (s : State) :
    s.lookupServed.ldg.regs = s.ldg.regs := (frame_lookupServed ..).ledgerRegs (by simp)

@[simp] theorem State.netTake_ledgerRegs (s : State) (op : Nat) (d : Desc8) (f : State → BitVec 32 → State)
    (hf : ∀ s i, (f s i).ldg.regs = s.ldg.regs) :
    (s.netTake op d f).ldg.regs = s.ldg.regs := by
  unfold State.netTake
  split
  · split
    · simp [hf]
    · rfl
  · rfl

@[simp] theorem State.netDone_ledgerRegs (s : State) (i : BitVec 32) (status result : Nat) :
    (s.netDone i status result).ldg.regs = s.ldg.regs := by simp [State.netDone]

@[simp] theorem State.netBuf_ledgerRegs (s : State) (i : BitVec 32) (buf : Fetch (List (BitVec 8))) (f : List (BitVec 8) → State)
    (hf : ∀ l, (f l).ldg.regs = s.ldg.regs) :
    (s.netBuf i buf f).ldg.regs = s.ldg.regs := by
  unfold State.netBuf
  split
  · exact hf _
  · simp

@[simp] theorem State.opDirAdd_ledgerRegs (s : State) (d : Desc8) (buf : Fetch (List (BitVec 8))) (i : BitVec 32) :
    (s.opDirAdd d buf i).ldg.regs = s.ldg.regs := by simp [State.opDirAdd]

@[simp] theorem State.opDirSet_ledgerRegs (s : State) (d : Desc8) (buf : Fetch (List (BitVec 8))) (i : BitVec 32) :
    (s.opDirSet d buf i).ldg.regs = s.ldg.regs := by simp [State.opDirSet]

@[simp] theorem State.opDirRemove_ledgerRegs (s : State) (d : Desc8) (i : BitVec 32) :
    (s.opDirRemove d i).ldg.regs = s.ldg.regs := by simp [State.opDirRemove]

@[simp] theorem State.opDirRead_ledgerRegs (s : State) (d : Desc8) (i : BitVec 32) : (s.opDirRead d i).ldg.regs = s.ldg.regs := by
  unfold State.opDirRead
  repeat' split
  all_goals simp

/-! Neighbour contexts (R304 to R306, R322, R323) -/

@[simp] theorem State.modCtx_ledgerRegs (s : State) (i : Nat) (f : NeighCtx → NeighCtx) :
    (s.modCtx i f).ldg.regs = s.ldg.regs := (frame_modCtx ..).ledgerRegs (by simp)

@[simp] theorem State.invalidateMaps_ledgerRegs (s : State) (i cause fsn : Nat) :
    (s.invalidateMaps i cause fsn).ldg.regs = s.ldg.regs := by simp [State.invalidateMaps]

@[simp] theorem State.remetric_ledgerRegs (s : State) (i : Nat) : (s.remetric i).ldg.regs = s.ldg.regs := by simp [State.remetric]

@[simp] theorem State.readKey_ledgerRegs (s : State) (i : Nat) (key : Fetch (BitVec 128)) :
    (s.readKey i key).ldg.regs = s.ldg.regs := by
  unfold State.readKey
  split
  · rfl
  · split <;> simp

@[simp] theorem State.ctxAlloc_ledgerRegs (s : State) (eui : BitVec 64) (laddr : BitVec 24) (keyIdx : BitVec 16)
    (key : Fetch (BitVec 128)) :
    (s.ctxAlloc eui laddr keyIdx key).1.ldg.regs = s.ldg.regs := by
  unfold State.ctxAlloc
  dsimp only
  repeat' split
  all_goals simp

@[simp] theorem State.ctxFor_ledgerRegs (s : State) (laddr : BitVec 24) (key : Fetch (BitVec 128)) :
    (s.ctxFor laddr key).1.ldg.regs = s.ldg.regs := by
  unfold State.ctxFor
  split
  · rfl
  · split <;> simp

@[simp] theorem State.sentSegs_ledgerRegs (s : State) (i : Nat) (l : List Bool) :
    (s.sentSegs i l).ldg.regs = s.ldg.regs := by simp [State.sentSegs]

@[simp] theorem State.negStart_ledgerRegs (s : State) (i : Nat) : (s.negStart i).ldg.regs = s.ldg.regs := by simp [State.negStart]

@[simp] theorem State.negFail_ledgerRegs (s : State) (i : Nat) : (s.negFail i).ldg.regs = s.ldg.regs := by
  unfold State.negFail
  split <;> simp

@[simp] theorem State.mapsInUse_ledgerRegs (s : State) (i : Nat) (maps : List ToneMap) :
    (s.mapsInUse i maps).ldg.regs = s.ldg.regs := by simp [State.mapsInUse]

@[simp] theorem State.negFinal_ledgerRegs (s : State) (i : Nat) : (s.negFinal i).ldg.regs = s.ldg.regs := by
  unfold State.negFinal
  split <;> simp

@[simp] theorem State.ctxImage_ledgerRegs (s : State) (i arg : Nat) (l : List (BitVec 8)) :
    (s.ctxImage i arg l).ldg.regs = s.ldg.regs := by simp [State.ctxImage]

@[simp] theorem State.opCtxRead_ledgerRegs (s : State) (d : Desc8) (r : BitVec 32) :
    (s.opCtxRead d r).ldg.regs = s.ldg.regs := by simp [State.opCtxRead]

@[simp] theorem State.opCtxWrite_ledgerRegs (s : State) (d : Desc8) (buf : Fetch (List (BitVec 8))) (r : BitVec 32) :
    (s.opCtxWrite d buf r).ldg.regs = s.ldg.regs := by simp [State.opCtxWrite]

@[simp] theorem State.opCtxRekey_ledgerRegs (s : State) (d : Desc8) (buf : Fetch (List (BitVec 8))) (key : Fetch (BitVec 128))
    (r : BitVec 32) :
    (s.opCtxRekey d buf key r).ldg.regs = s.ldg.regs := by
  unfold State.opCtxRekey
  dsimp only
  repeat' split
  all_goals simp

@[simp] theorem State.opCtxFree_ledgerRegs (s : State) (d : Desc8) (r : BitVec 32) :
    (s.opCtxFree d r).ldg.regs = s.ldg.regs := by simp [State.opCtxFree]

@[simp] theorem State.opReneg_ledgerRegs (s : State) (d : Desc8) (r : BitVec 32) :
    (s.opReneg d r).ldg.regs = s.ldg.regs := by simp [State.opReneg]

/-! The sending side of the powerline MAC (R302 to R334) -/

@[simp] theorem State.enqueue_ledgerRegs (s : State) (m : MacTx) :
    (s.enqueue m).ldg.regs = s.ldg.regs := (frame_enqueue ..).ledgerRegs (by simp)

@[simp] theorem State.modFrame_ledgerRegs (s : State) (id : Nat) (f : MacTx → MacTx) :
    (s.modFrame id f).ldg.regs = s.ldg.regs := (frame_modFrame ..).ledgerRegs (by simp)

@[simp] theorem State.frameEnd_ledgerRegs (s : State) (m : MacTx) (status : Nat) :
    (s.frameEnd m status).ldg.regs = s.ldg.regs := (frame_frameEnd ..).ledgerRegs (by simp)

@[simp] theorem State.frameFail_ledgerRegs (s : State) (m : MacTx) :
    (s.frameFail m).ldg.regs = s.ldg.regs := by simp [State.frameFail]

@[simp] theorem State.frameSent_ledgerRegs (s : State) (m : MacTx) :
    (s.frameSent m).ldg.regs = s.ldg.regs := by simp [State.frameSent]

@[simp] theorem State.framesAbort_ledgerRegs (s : State) (r : Nat) :
    (s.framesAbort r).ldg.regs = s.ldg.regs := (frame_framesAbort ..).ledgerRegs (by simp)

@[simp] theorem State.airStart_ledgerRegs (s : State) (f : Fc) (info : List (BitVec 8)) (maps : List ToneMap) (t : TxNow) :
    (s.airStart f info maps t).ldg.regs = s.ldg.regs := by simp [State.airStart]

@[simp] theorem State.lineCut_ledgerRegs (s : State) : s.lineCut.ldg.regs = s.ldg.regs := (frame_lineCut ..).ledgerRegs (by simp)

@[simp] theorem State.protect_ledgerRegs (s : State) (m : MacTx) (i : Nat) : (s.protect m i).1.ldg.regs = s.ldg.regs := by
  unfold State.protect
  dsimp only
  repeat' split
  all_goals simp

@[simp] theorem State.dropRouteless_ledgerRegs (s : State) : s.dropRouteless.ldg.regs = s.ldg.regs := by simp [State.dropRouteless]

@[simp] theorem State.sendData_ledgerRegs (s : State) (dest : Option Nat) (frames : List MacTx) (limit : Nat) :
    (s.sendData dest frames limit).ldg.regs = s.ldg.regs := by
  unfold State.sendData
  extract_lets ack frames
  split
  next t framed heq =>
  have ht : t.ldg.regs = s.ldg.regs := by
    rw [fst_ledgerRegs heq]
    refine foldl_fst_ledgerRegs _ _ (s, []) (fun a m => ?_)
    split
    · simp
    · rfl
  extract_lets segs base n go u ids v
  have hu : u.ldg.regs = s.ldg.regs := (foldl_ledgerRegs _ _ _ (fun _ _ => State.modFrame_ledgerRegs ..)).trans ht
  have hv : v.ldg.regs = s.ldg.regs := (foldl_ledgerRegs _ _ _ (fun s id => by simp)).trans hu
  exact State.ledgerRegs_ite hu (by simp [hv])

@[simp] theorem State.sendReport_ledgerRegs (s : State) (i : Nat) (maps : List ToneMap) (ack : Bool) :
    (s.sendReport i maps ack).ldg.regs = s.ldg.regs := by simp [State.sendReport]

@[simp] theorem State.negSend_ledgerRegs (s : State) (i limit : Nat) : (s.negSend i limit).1.ldg.regs = s.ldg.regs := by
  unfold State.negSend
  dsimp only
  repeat' split
  all_goals simp

@[simp] theorem State.serve_ledgerRegs (s : State) (peer : Option (BitVec 24)) (limit : Nat) (data : Bool) :
    (s.serve peer limit data).ldg.regs = s.ldg.regs := by
  unfold State.serve
  extract_lets t allowed negs
  split
  next u sent heq =>
  have hu : u.ldg.regs = s.ldg.regs := by
    rw [fst_ledgerRegs heq, foldl_fst_ledgerRegs _ _ (t, false) (fun a i => ?_)]
    · exact State.dropRouteless_ledgerRegs s
    · split <;> simp
  refine State.ledgerRegs_ite hu ?_
  extract_lets dest
  split <;> simp [hu]

@[simp] theorem State.segsDone_ledgerRegs (s : State) (l : List (Nat × Nat)) :
    (s.segsDone l).ldg.regs = s.ldg.regs := by simp [State.segsDone]

@[simp] theorem State.segsFailed_ledgerRegs (s : State) (l : List (Nat × Nat)) :
    (s.segsFailed l).ldg.regs = s.ldg.regs := by simp [State.segsFailed]

@[simp] theorem State.txEnd_ledgerRegs (s : State) (clipped : Nat) (limitUs : Option Nat) :
    (s.txEnd clipped limitUs).ldg.regs = s.ldg.regs := by
  unfold State.txEnd
  dsimp only
  repeat' split
  all_goals simp

@[simp] theorem State.sackExpire_ledgerRegs (s : State) : s.sackExpire.ldg.regs = s.ldg.regs := by
  unfold State.sackExpire
  dsimp only
  repeat' split
  all_goals simp

@[simp] theorem State.beaconStart_ledgerRegs (s : State) : s.beaconStart.ldg.regs = s.ldg.regs := by simp [State.beaconStart]

@[simp] theorem State.enqueueTo_ledgerRegs (s : State) (m : MacTx) (e : Option DirEntry) (key : Fetch (BitVec 128)) :
    (s.enqueueTo m e key).ldg.regs = s.ldg.regs := by
  unfold State.enqueueTo
  split <;> simp

@[simp] theorem State.plcTx_ledgerRegs (s : State) (d : Desc8) (payload : Fetch (List (BitVec 8))) (key : Fetch (BitVec 128)) :
    (s.plcTx d payload key).ldg.regs = s.ldg.regs := by
  unfold State.plcTx
  dsimp only
  repeat' split
  all_goals simp

@[simp] theorem State.lookupDone_ledgerRegs (s : State) (served : Fetch Unit) (key : Fetch (BitVec 128)) :
    (s.lookupDone served key).ldg.regs = s.ldg.regs := by
  unfold State.lookupDone
  dsimp only
  repeat' split
  all_goals simp

@[simp] theorem State.opRouteSet_ledgerRegs (s : State) (d : Desc8) (buf : Fetch (List (BitVec 8))) (i : BitVec 32) :
    (s.opRouteSet d buf i).ldg.regs = s.ldg.regs := by
  unfold State.opRouteSet
  dsimp only
  repeat' split
  all_goals simp

/-! Rings, DMA reads, deadlines and the loss of the function (R380 to R411) -/

@[simp] theorem State.dropReads_ledgerRegs (s : State) (src : CmdSrc) :
    (s.dropReads src).ldg.regs = s.ldg.regs := (frame_dropReads ..).ledgerRegs (by simp)

@[simp] theorem State.withdraw_ledgerRegs (s : State) (t : Taken) : (s.withdraw t).ldg.regs = s.ldg.regs := by
  unfold State.withdraw
  split <;> simp

@[simp] theorem State.expireCommand_ledgerRegs (s : State) (src : CmdSrc) : (s.expireCommand src).ldg.regs = s.ldg.regs := by
  unfold State.expireCommand
  dsimp only
  repeat' split
  all_goals simp

@[simp] theorem State.ringStart_ledgerRegs (s : State) (r : Nat) : (s.ringStart r).ldg.regs = s.ldg.regs := by
  rw [State.ringStart, (State.statusRing_keeps _ _).2.2.2.1]
  exact (((((frame_wr s _ _).seq (frame_wr _ _ _)).seq (frame_put _ _ _)).seq (frame_setFlag _ _ _)).seq
    (frame_modRing _ _ _)).ledgerRegs (by simp)

@[simp] theorem State.ringStop_ledgerRegs (s : State) (r : Nat) : (s.ringStop r).ldg.regs = s.ldg.regs := by simp [State.ringStop]

@[simp] theorem State.wrRcfg_ledgerRegs (w : WriteBy) (r : Nat) (v : BitVec 32) (s : State) :
    (s.wrRcfg w r v).ldg.regs = s.ldg.regs := by simp [State.wrRcfg]

@[simp] theorem State.doorbell_ledgerRegs (s : State) : s.doorbell.ldg.regs = s.ldg.regs := by simp [State.doorbell]

@[simp] theorem State.moderationEnd_ledgerRegs (s : State) (r : Nat) : (s.moderationEnd r).ldg.regs = s.ldg.regs := by
  unfold State.moderationEnd
  split <;> simp

@[simp] theorem State.readDone_ledgerRegs (s : State) (id : Nat) (data : Fetch (List (BitVec 64))) :
    (s.readDone id data).ldg.regs = s.ldg.regs := by
  unfold State.readDone
  dsimp only
  repeat' split
  all_goals simp

@[simp] theorem State.settleRing_ledgerRegs (s : State) : s.settleRing.ldg.regs = s.ldg.regs := by simp [State.settleRing]

@[simp] theorem State.readsLost_ledgerRegs (s : State) : s.readsLost.ldg.regs = s.ldg.regs := by
  refine foldl_ledgerRegs _ _ _ (fun s r => ?_)
  repeat' split
  all_goals simp

@[simp] theorem State.dropMany_ledgerRegs (s : State) (r n : Nat) :
    (s.dropMany r n).ldg.regs = s.ldg.regs := (frame_dropMany ..).ledgerRegs (by simp)

@[simp] theorem State.hifLost_ledgerRegs (s : State) : s.hifLost.ldg.regs = s.ldg.regs := by simp [State.hifLost]

@[simp] theorem State.linkUp_ledgerRegs (s : State) (speed width : Nat) :
    (s.linkUp speed width).ldg.regs = s.ldg.regs := by simp [State.linkUp]

/-! The receiving side of the powerline (R289 to R319) -/

@[simp] theorem State.rxRequest_ledgerRegs (s : State) (detected : Bool) :
    (s.rxRequest detected).ldg.regs = s.ldg.regs := by simp [State.rxRequest]

@[simp] theorem State.rxRelease_ledgerRegs (s : State) :
    s.rxRelease.ldg.regs = s.ldg.regs := (frame_rxRelease ..).ledgerRegs (by simp)

@[simp] theorem State.rxHead_ledgerRegs (s : State) (r : RxIn) : (s.rxHead r).1.ldg.regs = s.ldg.regs := by
  unfold State.rxHead
  dsimp only
  repeat' split
  all_goals simp

@[simp] theorem State.rxFrom_ledgerRegs (s : State) (r : RxIn) (f : Fc) : (s.rxFrom r f).1.ldg.regs = s.ldg.regs := by
  unfold State.rxFrom
  split <;> next heq => simp [fst_ledgerRegs heq]

@[simp] theorem State.rxPayload_ledgerRegs (s : State) (r : RxIn) (f : Fc) (i : Nat) :
    (s.rxPayload r f i).1.ldg.regs = s.ldg.regs := by simp [State.rxPayload]

@[simp] theorem State.assemble_ledgerRegs (s : State) (i : Nat) (safelight : Bool) (ts : BitVec 64)
    (x : BitVec 64 × List (BitVec 8)) :
    (s.assemble i safelight ts x).ldg.regs = s.ldg.regs := (frame_assemble ..).ledgerRegs (by simp)

@[simp] theorem State.rxSegs_ledgerRegs (s : State) (i q : Nat) (mapped : Bool) (l : List Bool) :
    (s.rxSegs i q mapped l).ldg.regs = s.ldg.regs := by simp [State.rxSegs]

@[simp] theorem State.rxData_ledgerRegs (s : State) (r : RxIn) (f : Fc) : (s.rxData r f).ldg.regs = s.ldg.regs := by
  unfold State.rxData
  split
  · next heq => simp [fst_ledgerRegs heq]
  · next t i heq =>
    extract_lets c mapped mismatch
    split
    next u segs heq' =>
    have hu : u.ldg.regs = s.ldg.regs := by
      rw [fst_ledgerRegs heq']
      split <;> simp [fst_ledgerRegs heq]
    extract_lets failed v w inv
    have hv : v.ldg.regs = s.ldg.regs := by
      refine (foldl_ledgerRegs _ _ _ (fun s x => ?_)).trans hu
      split <;> simp
    have hw : w.ldg.regs = s.ldg.regs := (State.rxSegs_ledgerRegs ..).trans hv
    exact State.ledgerRegs_ite hw hw

@[simp] theorem State.sendSack_ledgerRegs (s : State) : s.sendSack.ldg.regs = s.ldg.regs := by
  unfold State.sendSack
  dsimp only
  repeat' split
  all_goals simp

@[simp] theorem State.rxSack_ledgerRegs (s : State) (r : RxIn) (f : Fc) : (s.rxSack r f).ldg.regs = s.ldg.regs := by
  unfold State.rxSack
  split
  · next heq => simp [fst_ledgerRegs heq]
  · next t i heq =>
    split
    next u segs heq' =>
    have hu : u.ldg.regs = s.ldg.regs := by simp [fst_ledgerRegs heq', fst_ledgerRegs heq]
    split
    · refine State.ledgerRegs_ite ?_ hu
      extract_lets v w failed x y ok z
      have hx : x.ldg.regs = s.ldg.regs := State.ledgerRegs_ite (by simp [w, v, hu]) hu
      have hy : y.ldg.regs = s.ldg.regs := (State.sentSegs_ledgerRegs ..).trans hx
      refine State.ledgerRegs_ite ?_ (by simp [z, hy])
      split
      · exact State.ledgerRegs_ite (by simp [hy]) hy
      · exact hy
    · exact hu

@[simp] theorem State.rxSounding_ledgerRegs (s : State) (r : RxIn) (m : SoundIn) (f : Fc) :
    (s.rxSounding r m f).ldg.regs = s.ldg.regs := by
  unfold State.rxSounding
  split
  · next heq => simp [fst_ledgerRegs heq]
  · next t i heq =>
    extract_lets u q put eui
    have hu : u.ldg.regs = s.ldg.regs := by simp [u, fst_ledgerRegs heq]
    have hput (n : Negotiation) : (put n).ldg.regs = s.ldg.regs := by simp [put, hu]
    repeat' split
    all_goals simp [hu, hput]

@[simp] theorem State.rxReport_ledgerRegs (s : State) (r : RxIn) (f : Fc) : (s.rxReport r f).ldg.regs = s.ldg.regs := by
  unfold State.rxReport
  split
  · next heq => simp [fst_ledgerRegs heq]
  · next t i heq =>
    split
    next u segs heq' =>
    extract_lets failed b maps v d
    have hu : u.ldg.regs = s.ldg.regs := by simp [fst_ledgerRegs heq', fst_ledgerRegs heq]
    have hv : v.ldg.regs = s.ldg.regs := by
      refine State.ledgerRegs_ite ?_ hu
      split
      · exact State.ledgerRegs_ite ((State.negFinal_ledgerRegs ..).trans hu) hu
      · exact hu
    exact State.ledgerRegs_ite hv hv

@[simp] theorem State.timeFrom_ledgerRegs (s : State) (r : RxIn) (f : Fc) : (s.timeFrom r f).ldg.regs = s.ldg.regs := by
  have hlock (x : Int) (g : PlcState → PlcState) (b : Bool) :
      s.SameLedger (((s.putI NET_TDOFF_TDOFF x).modPlc g).setFlag NET_STAT_TDLOCK b) := by simp [State.SameLedger]
  change s.SameLedger _
  exact .ite (.refl s) (.ite ((State.stepBy_ledgerRegs ..).trans (hlock ..)) ((State.slewTo_ledgerRegs ..).trans (hlock ..)))

@[simp] theorem State.associate_ledgerRegs (s : State) :
    s.associate.ldg.regs = s.ldg.regs := (frame_associate ..).ledgerRegs (by simp)

@[simp] theorem State.rxBeacon_ledgerRegs (s : State) (r : RxIn) (f : Fc) :
    (s.rxBeacon r f).ldg.regs = s.ldg.regs := by simp [State.rxBeacon]

@[simp] theorem State.beaconMiss_ledgerRegs (s : State) : s.beaconMiss.ldg.regs = s.ldg.regs := by
  unfold State.beaconMiss
  split <;> simp

@[simp] theorem State.answerAssoc_ledgerRegs (s : State) (seq : BitVec 16) (body : List (BitVec 8)) :
    (s.answerAssoc seq body).ldg.regs = s.ldg.regs := by
  unfold State.answerAssoc
  dsimp only
  repeat' split
  all_goals simp

@[simp] theorem State.takeAssoc_ledgerRegs (s : State) (nb : Nat) (rseq : BitVec 16) (ts : BitVec 64) (body : List (BitVec 8))
    (key : Fetch (BitVec 128)) :
    (s.takeAssoc nb rseq ts body key).ldg.regs = s.ldg.regs := by
  unfold State.takeAssoc
  split <;> simp

@[simp] theorem State.secDiscard_ledgerRegs (s : State) (i kind ctr : Nat) :
    (s.secDiscard i kind ctr).ldg.regs = s.ldg.regs := by simp [State.secDiscard]

@[simp] theorem State.openFrame_ledgerRegs (s : State) (i : Nat) (frame : List (BitVec 8)) :
    (s.openFrame i frame).1.ldg.regs = s.ldg.regs := by
  unfold State.openFrame
  dsimp only
  repeat' split
  all_goals simp

@[simp] theorem State.rxRecord_ledgerRegs (s : State) (a : Assembly) (h : Nat) (body : List (BitVec 8)) :
    (s.rxRecord a h body).ldg.regs = s.ldg.regs := by simp [State.rxRecord]

@[simp] theorem State.takeResponse_ledgerRegs (s : State) (orig rseq : Nat) (ts : BitVec 64) :
    (s.takeResponse orig rseq ts).ldg.regs = s.ldg.regs := by
  unfold State.takeResponse
  dsimp only
  repeat' split
  all_goals simp

@[simp] theorem State.forward_ledgerRegs (s : State) (h : Nat) (body : List (BitVec 8)) :
    (s.forward h body).ldg.regs = s.ldg.regs := by simp [State.forward]

@[simp] theorem State.routeEntry_ledgerRegs (s : State) (keys : List (Fetch (BitVec 128))) (l : List (BitVec 8)) :
    (s.routeEntry keys l).ldg.regs = s.ldg.regs := by
  unfold State.routeEntry
  extract_lets slot node cands
  split
  next t nh heq =>
  extract_lets n
  have ht : t.ldg.regs = s.ldg.regs := by
    rw [fst_ledgerRegs heq]
    refine foldl_fst_ledgerRegs _ _ (s, 0) (fun a c => ?_)
    split
    · split <;> next heq' => simp [fst_ledgerRegs heq']
    · rfl
  split
  · simp [ht]
  · split
    next heq' =>
    split <;> simp [fst_ledgerRegs heq', ht]

@[simp] theorem State.routeEntries_ledgerRegs (keys : List (Fetch (BitVec 128))) (n : Nat) (l : List (BitVec 8)) (s : State) :
    (s.routeEntries keys n l).ldg.regs = s.ldg.regs := by
  induction n generalizing l s with
  | zero => rfl
  | succ n ih => exact State.ledgerRegs_ite rfl ((ih _ _).trans (State.routeEntry_ledgerRegs _ _ _))

@[simp] theorem State.macFrame_ledgerRegs (s : State) (a : Assembly) (keys : List (Fetch (BitVec 128))) :
    (s.macFrame a keys).ldg.regs = s.ldg.regs := by
  unfold State.macFrame
  extract_lets frame h mtype orig final
  split
  · next heq => simp [fst_ledgerRegs heq]
  · next t body heq =>
    extract_lets u v
    have hu : u.ldg.regs = s.ldg.regs := by
      simp only [u]
      split <;> simp [fst_ledgerRegs heq]
    have hv : v.ldg.regs = s.ldg.regs := State.ledgerRegs_ite (by simp [hu]) hu
    repeat' split
    all_goals simp [hu, hv]

@[simp] theorem State.macNext_ledgerRegs (s : State) (keys : List (Fetch (BitVec 128))) : (s.macNext keys).ldg.regs = s.ldg.regs := by
  unfold State.macNext
  split <;> simp

@[simp] theorem State.macAll_ledgerRegs (keys : List (Fetch (BitVec 128))) (n : Nat) (s : State) :
    (s.macAll keys n).ldg.regs = s.ldg.regs := by
  induction n generalizing s with
  | zero => rfl
  | succ n ih => exact (ih _).trans (State.macNext_ledgerRegs _ _)

@[simp] theorem State.rxTake_ledgerRegs (s : State) (r : RxIn) (ftype : Nat) (f : State → Fc → State)
    (hf : ∀ s c, (f s c).ldg.regs = s.ldg.regs) :
    (s.rxTake r ftype f).ldg.regs = s.ldg.regs := by
  unfold State.rxTake
  split
  · next heq => exact State.ledgerRegs_ite ((hf _ _).trans (by simp [fst_ledgerRegs heq])) (by simp [fst_ledgerRegs heq])
  · next heq => simp [fst_ledgerRegs heq]

@[simp] theorem State.rxNow_ledgerRegs (s : State) (r : RxIn) : (s.rxNow r).ldg.regs = s.ldg.regs := by simp [State.rxNow]

end Sys2Proof.Machine
end

section
/-!
SUPPORT. The operations of safety, of the Tozar Link, of power and of register access that leave the ledger and withheld registers.
-/

namespace Sys2Proof.Machine

/-! The safety monitor and FN_REINIT SAFETY (R416 to R420, R429) -/

@[simp] theorem State.monUpdate_ledgerRegs (s : State) :
    s.monUpdate.ldg.regs = s.ldg.regs := (frame_monUpdate ..).ledgerRegs (by simp)

@[simp] theorem State.lastNumber_ledgerRegs (s : State) : s.lastNumber.1.ldg.regs = s.ldg.regs := by
  unfold State.lastNumber
  split <;> simp

@[simp] theorem State.reinitDone_ledgerRegs (s : State) (t : Taken) (target : Nat) (n : BitVec 72) :
    (s.reinitDone t target n).ldg.regs = s.ldg.regs := by simp [State.reinitDone]

@[simp] theorem State.safetyBegin_ledgerRegs (s : State) : s.safetyBegin.ldg.regs = s.ldg.regs := by simp [State.safetyBegin]

@[simp] theorem State.safetyEnd_ledgerRegs (s : State) (n : BitVec 72) :
    (s.safetyEnd n).ldg.regs = s.ldg.regs := by simp [State.safetyEnd]

@[simp] theorem State.safetyIdle_ledgerRegs (s : State) : s.safetyIdle.ldg.regs = s.ldg.regs := by
  unfold State.safetyIdle
  split <;> simp

@[simp] theorem State.cmdReinitSafety_ledgerRegs (s : State) (h : CmdHdr) :
    (s.cmdReinitSafety h).ldg.regs = s.ldg.regs := by simp [State.cmdReinitSafety]

@[simp] theorem State.kavRun_ledgerRegs (s : State) (ok : Bool) : (s.kavRun ok).ldg.regs = s.ldg.regs := by
  unfold State.kavRun
  split <;> simp

@[simp] theorem State.clockRun_ledgerRegs (s : State) (fclkOk filtOk hfOk : Bool) :
    (s.clockRun fclkOk filtOk hfOk).ldg.regs = s.ldg.regs := by
  unfold State.clockRun
  dsimp only
  repeat' split
  all_goals simp

/-! The Tozar Link (R432 to R449) -/

@[simp] theorem State.tzSend_ledgerRegs (s : State) (x : TzOut) : (s.tzSend x).ldg.regs = s.ldg.regs := by simp [State.tzSend]

@[simp] theorem State.mirRelease_ledgerRegs (s : State) :
    s.mirRelease.ldg.regs = s.ldg.regs := (frame_mirRelease ..).ledgerRegs (by simp)

@[simp] theorem State.tzlModeTake_ledgerRegs (s : State) :
    s.tzlModeTake.ldg.regs = s.ldg.regs := (frame_tzlModeTake ..).ledgerRegs (by simp)

@[simp] theorem State.becomeActive_ledgerRegs (s : State) : s.becomeActive.ldg.regs = s.ldg.regs := by simp [State.becomeActive]

@[simp] theorem State.portUp_ledgerRegs (s : State) (p : TzPort) : (s.portUp p).ldg.regs = s.ldg.regs := by simp [State.portUp]

@[simp] theorem State.becomeIsland_ledgerRegs (s : State) : s.becomeIsland.ldg.regs = s.ldg.regs := by simp [State.becomeIsland]

@[simp] theorem State.portDown_ledgerRegs (s : State) (p : TzPort) (cause : TzLoss) :
    (s.portDown p cause).ldg.regs = s.ldg.regs := by simp [State.portDown]

@[simp] theorem State.crcFailed_ledgerRegs (s : State) (bad : Nat) :
    (s.crcFailed bad).ldg.regs = s.ldg.regs := by simp [State.crcFailed]

@[simp] theorem State.enumerate_ledgerRegs (s : State) (pos ndev : Nat) :
    (s.enumerate pos ndev).ldg.regs = s.ldg.regs := by simp [State.enumerate]

@[simp] theorem State.cascadeStart_ledgerRegs (s : State) (first : BitVec 72) :
    (s.cascadeStart first).ldg.regs = s.ldg.regs := by simp [State.cascadeStart]

@[simp] theorem State.recordMissing_ledgerRegs (s : State) (pos : Nat) : (s.recordMissing pos).ldg.regs = s.ldg.regs := by
  unfold State.recordMissing
  split <;> simp

@[simp] theorem State.wrRaddr_ledgerRegs (w : WriteBy) (v : BitVec 32) (s : State) :
    (s.wrRaddr w v).ldg.regs = s.ldg.regs := by simp [State.wrRaddr]

@[simp] theorem State.wrRdata_ledgerRegs (w : WriteBy) (v : BitVec 32) (s : State) :
    (s.wrRdata w v).ldg.regs = s.ldg.regs := by simp [State.wrRdata]

@[simp] theorem State.remoteDone_ledgerRegs (s : State) (data : Option (BitVec 32)) : (s.remoteDone data).ldg.regs = s.ldg.regs := by
  unfold State.remoteDone
  dsimp only
  repeat' split
  all_goals simp

@[simp] theorem State.cmdReinitTzl_ledgerRegs (s : State) (h : CmdHdr) :
    (s.cmdReinitTzl h).ldg.regs = s.ldg.regs := by simp [State.cmdReinitTzl]

@[simp] theorem State.reinitTzlLate_ledgerRegs (s : State) (lowest : Nat) :
    (s.reinitTzlLate lowest).ldg.regs = s.ldg.regs := by simp [State.reinitTzlLate]

@[simp] theorem State.mirDeadline_ledgerRegs (s : State) : s.mirDeadline.ldg.regs = s.ldg.regs := by simp [State.mirDeadline]

@[simp] theorem State.yieldActive_ledgerRegs (s : State) : s.yieldActive.ldg.regs = s.ldg.regs := by simp [State.yieldActive]

@[simp] theorem State.wrMirctl_ledgerRegs (w : WriteBy) (v : BitVec 32) (s : State) :
    (s.wrMirctl w v).ldg.regs = s.ldg.regs := by simp [State.wrMirctl]

@[simp] theorem State.wrEvpopTzl_ledgerRegs (s : State) : s.wrEvpopTzl.ldg.regs = s.ldg.regs := by simp [State.wrEvpopTzl]

/-! SYNC requests (R137, R138) -/

@[simp] theorem State.syncRequest_ledgerRegs (s : State) (src : BitVec 3) :
    (s.syncRequest src).ldg.regs = s.ldg.regs := (frame_syncRequest ..).ledgerRegs (by simp)

@[simp] theorem State.cmdSync_ledgerRegs (s : State) (h : CmdHdr) : (s.cmdSync h).ldg.regs = s.ldg.regs := by simp [State.cmdSync]

@[simp] theorem State.syncBall_ledgerRegs (s : State) : s.syncBall.ldg.regs = s.ldg.regs := by simp [State.syncBall]

/-! Supply monitors, start-up rows, device states, power fail and wake sources (R68 to R90) -/

@[simp] theorem State.resetBackup_ledgerRegs (s : State) (osfCause : Nat) :
    (s.resetBackup osfCause).ldg.regs = s.ldg.regs := by simp [State.resetBackup]

@[simp] theorem State.ldrvUpdate_ledgerRegs (s : State) : s.ldrvUpdate.ldg.regs = s.ldg.regs :=
  ((frame_ldrvUpdate s).ledgerRegs (by simp)).trans ((frame_ldrvSet s).ledgerRegs (by simp))

@[simp] theorem State.stopFcvPlc_ledgerRegs (s : State) : s.stopFcvPlc.ldg.regs = s.ldg.regs := by simp [State.stopFcvPlc]

@[simp] theorem State.offFcvPlc_ledgerRegs (s : State) : s.offFcvPlc.ldg.regs = s.ldg.regs := by simp [State.offFcvPlc]

@[simp] theorem State.coreUp_ledgerRegs (s : State) : s.coreUp.ldg.regs = s.ldg.regs := by simp [State.coreUp]

@[simp] theorem State.phaseNext_ledgerRegs (s : State) (p : Phase) :
    (s.phaseNext p).ldg.regs = s.ldg.regs := (frame_phaseNext ..).ledgerRegs (by simp)

@[simp] theorem State.release_ledgerRegs (s : State) (mstr autostart : Bool) :
    (s.release mstr autostart).ldg.regs = s.ldg.regs := by simp [State.release]

@[simp] theorem State.startRow_ledgerRegs (s : State) (p : List Phase) (f : State → State) (hf : ∀ s, (f s).ldg.regs = s.ldg.regs) :
    (s.startRow p f).ldg.regs = s.ldg.regs := State.ledgerRegs_ite (hf s) rfl

@[simp] theorem State.diagDone_ledgerRegs (s : State) (failed : Option (Nat × BitVec 64)) :
    (s.diagDone failed).ldg.regs = s.ldg.regs := by
  unfold State.diagDone
  split <;> simp

@[simp] theorem State.changeTo_ledgerRegs (s : State) (c : Change) : (s.changeTo c).ldg.regs = s.ldg.regs := by simp [State.changeTo]

@[simp] theorem State.takeTarget_ledgerRegs (s : State) (t : Nat) :
    (s.takeTarget t).ldg.regs = s.ldg.regs := by simp [State.takeTarget]

@[simp] theorem State.wakeUp_ledgerRegs (s : State) : s.wakeUp.ldg.regs = s.ldg.regs := by simp [State.wakeUp]

@[simp] theorem State.wrPwrCtl_ledgerRegs (w : WriteBy) (v : BitVec 32) (s : State) :
    (s.wrPwrCtl w v).ldg.regs = s.ldg.regs := by simp [State.wrPwrCtl]

@[simp] theorem State.emergencyStart_ledgerRegs (s : State) : s.emergencyStart.ldg.regs = s.ldg.regs := by simp [State.emergencyStart]

@[simp] theorem State.ledgerAbort_ledgerRegs (s : State) : s.ledgerAbort.ldg.regs = s.ldg.regs := by
  have hqueues (t : State) : t.queuesEnded.ldg.regs = t.ldg.regs := by
    rw [State.queuesEnded, (frame_busyFlag _).ledgerRegs (by simp), State.modLdg_ldg]
    exact ((frame_jobsDropped _).ledgerRegs (by simp)).trans ((frame_auditShown t _).ledgerRegs (by simp))
  rw [State.ledgerAbort_eq, hqueues, (frame_cycleEnded _ _).ledgerRegs (by simp), (frame_doneAll _ _ _ _).ledgerRegs (by simp)]

@[simp] theorem State.scansAbort_ledgerRegs (s : State) :
    s.scansAbort.ldg.regs = s.ldg.regs := (frame_scansAbort ..).ledgerRegs (by simp)

@[simp] theorem State.pfStart_ledgerRegs (s : State) : s.pfStart.ldg.regs = s.ldg.regs := by
  have hwork (t : State) : t.pfWorkEnded.ldg.regs = t.ldg.regs :=
    State.ledgerRegs_ite (((frame_pinsEnd _).ledgerRegs (by simp)).trans
      ((State.ledgerAbort_ledgerRegs _).trans ((frame_scansAbort t).ledgerRegs (by simp)))) rfl
  by_cases hgo : s.flag PWR_STAT_PFAIL = false ∧ s.pd1On = true
  · have hbegun : s.pfNoted.pfWorkEnded.offFcvPlc.ldg.regs = s.ldg.regs := by
      rw [State.offFcvPlc_ledgerRegs, hwork, (frame_pfNoted s).ledgerRegs (by simp)]
    rw [State.pfStart_eq hgo.1 hgo.2, (frame_pfShown _).ledgerRegs (by simp)]
    exact State.ledgerRegs_ite ((State.emergencyStart_ledgerRegs _).trans hbegun)
      (((frame_meteringStopped _).ledgerRegs (by simp)).trans hbegun)
  · rw [State.pfStart, if_pos (by simpa [-not_and, Classical.not_and_iff_not_or_not] using hgo)]

@[simp] theorem State.ovStrike_ledgerRegs (s : State) (i : Nat) :
    (s.ovStrike i).ldg.regs = s.ldg.regs := (frame_ovStrike ..).ledgerRegs (by simp)

@[simp] theorem State.bankFail_ledgerRegs (s : State) (k : Nat) : (s.bankFail k).ldg.regs = s.ldg.regs := by simp [State.bankFail]

@[simp] theorem State.bankCross_ledgerRegs (s : State) (k : Nat) (v33 beyond : Bool) :
    (s.bankCross k v33 beyond).ldg.regs = s.ldg.regs := by simp [State.bankCross]

@[simp] theorem State.monitorCross_ledgerRegs (s : State) (m : Monitor) (beyond : Bool) :
    (s.monitorCross m beyond).ldg.regs = s.ldg.regs := by
  unfold State.monitorCross
  dsimp only
  repeat' split
  all_goals simp

@[simp] theorem State.powerFail_ledgerRegs (s : State) (src : PfSource) : (s.powerFail src).ldg.regs = s.ldg.regs := by
  unfold State.powerFail
  dsimp only
  repeat' split
  all_goals simp

@[simp] theorem State.clockWake_ledgerRegs (s : State) (enabled on : Bool) :
    (s.clockWake enabled on).ldg.regs = s.ldg.regs := by simp [State.clockWake]

@[simp] theorem State.alarm_ledgerRegs (s : State) : s.alarm.ldg.regs = s.ldg.regs := by simp [State.alarm]

@[simp] theorem State.periodic_ledgerRegs (s : State) : s.periodic.ldg.regs = s.ldg.regs := by simp [State.periodic]

/-! Register reads and writes of their own effect (R8 to R12, R407) -/

@[simp] theorem State.wrEvtpop_ledgerRegs (s : State) : s.wrEvtpop.ldg.regs = s.ldg.regs := by
  unfold State.wrEvtpop
  split <;> simp

@[simp] theorem State.latch_ledgerRegs (s : State) (p : Port) (l : List (Nat × BitVec 32)) : (s.latch p l).ldg.regs = s.ldg.regs := by
  unfold State.latch
  split <;> simp

@[simp] theorem State.readClear_ledgerRegs (s : State) (off : Nat) : (s.readClear off).ldg.regs = s.ldg.regs := by
  unfold State.readClear
  split <;> simp

@[simp] theorem State.readReg_ledgerRegs (s : State) (p : Port) (off : Nat) : (s.readReg p off).1.ldg.regs = s.ldg.regs := by
  unfold State.readReg
  dsimp only
  repeat' split
  all_goals simp

@[simp] theorem State.portAnswer_ledgerRegs (r : State × BitVec 32) (p : Port) :
    (State.portAnswer r p).ldg.regs = r.1.ldg.regs := by cases p <;> rfl

@[simp] theorem State.readWidth_ledgerRegs (s : State) (p : Port) (width : Nat) (read : State → State × BitVec 32)
    (hread : ∀ s, (read s).1.ldg.regs = s.ldg.regs) :
    (s.readWidth p width read).ldg.regs = s.ldg.regs := by
  unfold State.readWidth
  rw [State.portAnswer_ledgerRegs]
  split
  · exact hread s
  · rfl

@[simp] theorem State.hspiRead_ledgerRegs (n off : Nat) (s : State) (acc : List (BitVec 8)) :
    (s.hspiRead n off acc).1.ldg.regs = s.ldg.regs := by
  induction n generalizing off s acc with
  | zero => rfl
  | succ n ih => exact (ih _ _ _).trans (State.readReg_ledgerRegs _ _ _)

/-! Edges of LFCLK (R337 to R354) -/

@[simp] theorem State.captureEdge_ledgerRegs (s : State) : s.captureEdge.ldg.regs = s.ldg.regs := by simp [State.captureEdge]

@[simp] theorem State.edgeTime_ledgerRegs (s : State) : s.edgeTime.ldg.regs = s.ldg.regs := by simp [State.edgeTime]

@[simp] theorem State.edgeDue_ledgerRegs (s : State) : s.edgeDue.ldg.regs = s.ldg.regs := by simp [State.edgeDue]

@[simp] theorem State.lfclkEdge_ledgerRegs (s : State) : s.lfclkEdge.ldg.regs = s.ldg.regs := by simp [State.lfclkEdge]

@[simp] theorem State.beforeTick_ledgerRegs (s : State) : s.beforeTick.ldg.regs = s.ldg.regs := by simp [State.beforeTick]

end Sys2Proof.Machine
end

section
/-!
SUPPORT. The commands that leave the ledger and withheld registers (R189 to R193).
-/

namespace Sys2Proof.Machine

/-- A write of GLB_IRQEN stores its field or does nothing. -/
@[simp] theorem State.writeReg_irqen_ledgerRegs (s : State) (p : Port) (v : BitVec 32) :
    (s.writeReg (.port p) GLB_IRQEN v).ldg.regs = s.ldg.regs := by
  cases hw : s.writable (.port p) GLB_IRQEN
  · have hnone : s.writeReg (.port p) GLB_IRQEN v = s := by
      unfold State.writeReg
      split
      · rfl
      · rw [if_neg (by decide), hw]; rfl
    rw [hnone]
  · rw [State.writeReg_irqen v hw, (frame_storeWrite_plain s _ _ _ (by decide)).ledgerRegs (by simp)]

/-- A command outside `mayChangeLedger` is the settling of an operation, and each such operation leaves the ledger and withheld
registers. Reduced to its head, the command shows that operation; the commands named one by one choose by a `match`. -/
theorem exec_sameLedger {c : Instr} {s t : State} (hc : mayChangeLedger c = false) (hexec : exec c s = .next t) : s.SameLedger t := by
  cases c
  case withheldRelease | fnReinit | doorbellReadDone | mbxGo | softrst | lowestWordWrite | registerWrite | hspiWriteFrame |
      exposureBoundary | developmentDone | fixerComparison | replayDone | latentDeadline | syncEdge | completionWrite |
      emergencyProofComplete | powerFailRecovery | powerOn | vddcVddaReset | resetN | backupDomainReset | restore |
      autostartImageRead | internalSync | boundaryMarker | resolutionFrame | mirrorFrame | takeover | scanPassDone |
      watchdogExpiry | domainSwitchComplete =>
    exact nomatch hc
  all_goals
    conv_lhs at hexec => whnf
    cases hexec
    refine State.SameLedger.settle ?_ _
  case refreshInterval => exact .ite (State.negStart_ledgerRegs ..) (.refl s)
  case plcRxRecordWrite =>
    dsimp only
    split
    · exact .refl s
    · split <;> next heq =>
      have hskipped := fst_ledgerRegs heq
      repeat' split
      all_goals simp [State.SameLedger, hskipped]
  case standbyWake | rcRegisterRead | zeroCrossing | frequencyRangeTimeout | macFreeRun | windowWrite | eventRecordWrite |
      cfSlot | mintripExpiry | momentarySourceExpiry | proofWriteDone | journalWrite | calWindowEnd | transmissionStart |
      backoffExpiry | nodeLost | negotiationStepTimeout | overvoltageRepeat | vbkupLow | pwronLow | void |
      associationResponseTimeout | plcTxDeadlineExpiry =>
    dsimp only
    repeat' split
    all_goals simp [State.SameLedger]
  all_goals simp [State.SameLedger]

end Sys2Proof.Machine

open Sys2Proof.Machine in
/-- Settles O8, by cases on the commands: each of the others is built of operations that leave the ledger and withheld registers. -/
theorem ledgerChangesOnlyByItsCommands : Obligations.LedgerChangesOnlyByItsCommands := by
  unfold Obligations.LedgerChangesOnlyByItsCommands
  exact fun c s t hc hexec => State.ledgerReg_of_ldg (exec_sameLedger hc hexec)

end

section
/-!
Settles O4 (R8, R219, R220, R241).  A step executes a command, whose end settles the state, or lets one HFREF cycle pass.
-/

namespace Sys2Proof.Machine

/-- The end of a command meets the invariant, whatever the state before it. -/
theorem exec_inv {c : Instr} {s t : State} (hexec : exec c s = .next t) : t.Inv := by
  obtain ⟨u, b, hsettled⟩ := exec_settled c s
  cases hsettled.symm.trans hexec
  exact State.settle_inv u b

end Sys2Proof.Machine

open Sys2Proof.Machine in
/-- Settles O4: a command's end meets the invariant by itself; on an empty queue only the time moves, which the invariant does not name. -/
theorem stepKeepsInvariant : Obligations.StepKeepsInvariant := by
  unfold Obligations.StepKeepsInvariant
  intro s t hinv hstep
  unfold step at hstep
  split at hstep
  · cases hstep
    exact hinv
  · exact exec_inv hstep

end

section
/-!
SUPPORT. Steps of the window engine that change one voltage group (R203 to R215): what the group becomes, and the frame of the step.
-/

namespace Sys2Proof.Machine

/-- From `s` to `t` group `g` becomes `r`, every other group stays, and beside the window engine only the registers `os` may change. -/
def State.GroupStep (s t : State) (g : Nat) (os : List Nat) (r : GroupState) : Prop :=
  s.Frame t [.windows] os ∧ t.evt.groups = s.evt.groups.set g r

theorem State.grp_of_groups {s t : State} (h : t.evt.groups = s.evt.groups) (g : Nat) : t.grp g = s.grp g := by
  unfold State.grp; rw [h]

/-- What leaves the window engine leaves the groups. -/
theorem State.Frame.groups {s t : State} {ps : List Part} {os : List Nat} (h : s.Frame t ps os) (hp : Part.windows ∉ ps) :
    t.evt.groups = s.evt.groups := (h.part hp).1

/-- The end of a command leaves the groups. -/
theorem State.settle_groups (s : State) (b : Nat) : (s.settle b).evt.groups = s.evt.groups :=
  ((State.Frame.refl s [] []).settle b).groups (by simp)

theorem set_grp_self (s : State) (g : Nat) : s.evt.groups.set g (s.grp g) = s.evt.groups := by
  refine List.ext_getElem (by simp) (fun i hi hi' => ?_)
  rw [List.getElem_set]
  split
  · next h => subst h; simp [State.grp, List.getD_eq_getElem?_getD, hi']
  · rfl

theorem State.modGrp_groups (s : State) (g : Nat) (f : GroupState → GroupState) :
    (s.modGrp g f).evt.groups = s.evt.groups.set g (f (s.grp g)) := by
  refine List.ext_getElem (by simp [State.modGrp]) (fun i hi hi' => ?_)
  have hlen : i < s.evt.groups.length := by simpa using hi'
  simp only [State.modGrp, State.modEvt_evt, List.getElem_modify, List.getElem_set]
  split
  · next h => subst h; simp [State.grp, List.getD_eq_getElem?_getD, hlen]
  · rfl

theorem frame_modEvt (s : State) (f : EvtState → EvtState) : s.Frame (s.modEvt f) [.windows] [] :=
  ⟨fun p hp => by cases p <;> simp [Part.Same, State.framByte] at *, fun _ _ _ => rfl, rfl⟩

theorem frame_modGrp (s : State) (g : Nat) (f : GroupState → GroupState) : s.Frame (s.modGrp g f) [.windows] [] := frame_modEvt s _

section
variable {s t u : State} {g : Nat} {os : List Nat} {r r' : GroupState}

theorem State.GroupStep.frame (h : s.GroupStep t g os r) : s.Frame t [.windows] os := h.1

/-- The group reads as what it became. -/
theorem State.GroupStep.grp (h : s.GroupStep t g os r) (hlen : g < s.evt.groups.length) : t.grp g = r := by
  unfold State.grp; rw [h.2]; simp [List.getD_eq_getElem?_getD, hlen]

theorem State.GroupStep.length (h : s.GroupStep t g os r) : t.evt.groups.length = s.evt.groups.length := by
  rw [h.2, List.length_set]

theorem State.GroupStep.mono {os' : List Nat} (h : s.GroupStep t g os r) (hos : os ⊆ os') : s.GroupStep t g os' r :=
  ⟨h.1.mono (List.Subset.refl _) hos, h.2⟩

theorem State.GroupStep.trans {rs : List Nat} (h : s.GroupStep t g os r) (k : t.GroupStep u g rs r') : s.GroupStep u g (os ++ rs) r' :=
  ⟨(h.1.seq k.1).mono (by simp) (List.Subset.refl _), by rw [k.2, h.2, List.set_set]⟩

/-- What changes registers alone leaves the group as it became. -/
theorem State.GroupStep.seq {rs : List Nat} (h : s.GroupStep t g os r) (k : t.Frame u [] rs) : s.GroupStep u g (os ++ rs) r :=
  ⟨(h.1.seq k).mono (by simp) (List.Subset.refl _), (k.groups (by simp)).trans h.2⟩

/-- The group changes once more. -/
theorem State.GroupStep.modGrp (h : s.GroupStep t g os r) (hlen : g < s.evt.groups.length) (f : GroupState → GroupState) :
    s.GroupStep (t.modGrp g f) g os (f r) := by
  refine ⟨(h.1.seq (frame_modGrp t g f)).mono (by simp) (by simp), ?_⟩
  rw [State.modGrp_groups, h.grp hlen, h.2, List.set_set]

theorem groupStep_refl (s : State) (g : Nat) (os : List Nat) : s.GroupStep s g os (s.grp g) :=
  ⟨State.Frame.refl s _ _, (set_grp_self s g).symm⟩

theorem groupStep_modGrp (s : State) (g : Nat) (f : GroupState → GroupState) : s.GroupStep (s.modGrp g f) g [] (f (s.grp g)) :=
  ⟨frame_modGrp s g f, State.modGrp_groups s g f⟩

/-- The window engine's state beside the groups changes. -/
theorem State.GroupStep.modEvt (h : s.GroupStep t g os r) (f : EvtState → EvtState) (hf : ∀ e, (f e).groups = e.groups) :
    s.GroupStep (t.modEvt f) g os r :=
  ⟨(h.1.seq (frame_modEvt t f)).mono (by simp) (by simp), (hf t.evt).trans h.2⟩

theorem State.GroupStep.settle (h : s.GroupStep t g os r) (b : Nat) : s.GroupStep (t.settle b) g os r :=
  ⟨h.1.settle b, (State.settle_groups t b).trans h.2⟩

end

/-- The status of a voltage group is no register that the end of a command may change. -/
theorem endReg_vgstat {g : Nat} (hg : g < 8) : endReg (EVT_VGSTAT g) = false := endReg_low (by unfold EVT_VGSTAT; omega)

/-! The frequency-range event and the windows (R204, R206) -/

theorem groupStep_abandonWindow (s : State) (g : Nat) : s.GroupStep (s.abandonWindow g) g [EVT_WINABT] { s.grp g with win := none } := by
  unfold State.abandonWindow
  split
  · exact (groupStep_modGrp s g (fun r => { r with win := none })).seq (frame_bump _ EVT_WINABT_WINABT 1)
  · next hopen =>
    have hnone : ({ s.grp g with win := none } : GroupState) = s.grp g := by
      rw [← Option.not_isSome_iff_eq_none.mp hopen]
    rw [hnone]
    exact groupStep_refl s g _

/-- The window engine takes no time. -/
theorem ts_of_windows {s t : State} {os : List Nat} (h : s.Frame t [.windows] os) (hrtc : RTC_STAT ∉ os) (hpwr : PWR_STAT ∉ os) :
    t.ts = s.ts := by
  have hexp : t.exp = s.exp := h.part (p := .exposure) (by simp)
  have hlink : ({ t.tzl with fwd := [] } : TzlState) = { s.tzl with fwd := [] } := h.part (p := .link) (by simp)
  exact State.ts_of_same (congrArg TzlState.masterTs hlink :) (h.flag RTC_STAT_OSF hrtc (by decide)) (h.flag PWR_STAT_HFOK hpwr (by decide))
    (h.part (p := .clock) (by simp)) (by rw [hexp]) (by rw [hexp])

/-- The frequency-range event of a group that has none starts: the window in progress is abandoned, and LOCK and FRANGE show it. -/
theorem groupStep_rangeStart {s : State} {g : Nat} (hg : g < 8) (hlen : g < s.evt.groups.length) (hnone : (s.grp g).frange = none) :
    s.GroupStep (s.rangeStart g) g [EVT_VGSTAT g, EVT_WINABT] { s.grp g with win := none, frange := some s.ts } := by
  have hcleared := (groupStep_abandonWindow s g).seq (frame_setFlag _ (EVT_VGSTAT_LOCK g) false)
  have hts : ((s.abandonWindow g).setFlag (EVT_VGSTAT_LOCK g) false).ts = s.ts :=
    ts_of_windows hcleared.frame (by simp [RTC_STAT, EVT_WINABT, EVT_VGSTAT_LOCK, EVT_VGSTAT]; omega)
      (by simp [PWR_STAT, EVT_WINABT, EVT_VGSTAT_LOCK, EVT_VGSTAT]; omega)
  have h := ((hcleared.modGrp hlen (fun r => { r with frange := some s.ts })).seq (frame_setFlag _ (EVT_VGSTAT_FRANGE g) true)).seq
    (frame_event _ 0x0305 g .start 0 0 0)
  unfold State.rangeStart
  rw [hnone, if_neg (by simp)]
  dsimp only
  rw [hts]
  exact h.mono (by simp [EVT_VGSTAT_LOCK, EVT_VGSTAT_FRANGE])

/-- FRANGE shows that the event runs, LOCK that no crossing holds. -/
theorem rangeStart_shown {s : State} {g : Nat} (hnone : (s.grp g).frange = none) :
    (s.rangeStart g).flag (EVT_VGSTAT_FRANGE g) = true ∧ (s.rangeStart g).flag (EVT_VGSTAT_LOCK g) = false := by
  unfold State.rangeStart
  rw [hnone, if_neg (by simp)]
  dsimp only
  rw [State.event_flag, State.event_flag]
  constructor
  · exact State.flag_setFlag_self _ (EVT_VGSTAT_FRANGE g) true (by simp [EVT_VGSTAT_FRANGE]) (by simp [EVT_VGSTAT_FRANGE])
  · rw [State.flag_setFlag_other _ _ _ _ (by simp [EVT_VGSTAT_FRANGE]) (by simp [EVT_VGSTAT_FRANGE, EVT_VGSTAT_LOCK])]
    exact State.flag_setFlag_self _ (EVT_VGSTAT_LOCK g) false (by simp [EVT_VGSTAT_LOCK]) (by simp [EVT_VGSTAT_LOCK])

/-- A crossing advances, ends and starts windows, and changes nothing else of its group (R206). -/
theorem groupStep_windowCross {s : State} {g : Nat} (hlen : g < s.evt.groups.length) (t f : Nat) :
    ∃ w q d, s.GroupStep (s.windowCross g t f) g [EVT_FREQ g] { s.grp g with win := w, winSeq := q, done := d } := by
  unfold State.windowCross
  split
  · exact ⟨none, (s.grp g).winSeq, (s.grp g).done, (groupStep_modGrp s g _).mono (by simp)⟩
  · split
    · exact ⟨_, _, (s.grp g).done, (groupStep_modGrp s g _).mono (by simp)⟩
    · dsimp only
      split
      · exact ⟨_, _, _, ((groupStep_modGrp s g (fun r => { r with done := r.done ++ [_] })).seq
          (frame_put _ (EVT_FREQ_FWIN g) _)).modGrp hlen _⟩
      · exact ⟨_, (s.grp g).winSeq, (s.grp g).done, (groupStep_modGrp s g _).mono (by simp)⟩

end Sys2Proof.Machine
end

section
/-!
SUPPORT. An event that a command decides alone, and that neither trips nor triggers, is queued: it takes the next sequence number and
waits on chip (R219, R220).
-/

namespace Sys2Proof.Machine

/-! The order of decided events and their numbers (R220) -/

theorem insertEvent_perm (e : Event) : (l : List Event) → (insertEvent e l).Perm (e :: l)
  | [] => .refl _
  | x :: t => by
    unfold insertEvent
    split
    · exact ((insertEvent_perm e t).cons x).trans (.swap e x t)
    · exact .refl _

theorem sortEvents_perm (l : List Event) : (sortEvents l).Perm l := by
  have h : ∀ (l acc : List Event), (l.foldl (fun acc e => insertEvent e acc) acc).Perm (l ++ acc) := by
    intro l
    induction l with
    | nil => exact fun acc => .refl acc
    | cons e t ih =>
      intro acc
      exact (ih _).trans (((insertEvent_perm e acc).append_left t).trans List.perm_middle)
  exact (h l []).trans (by rw [List.append_nil])

theorem numberEvents_length : (n : BitVec 64) → (l : List Event) → (numberEvents n l).length = l.length
  | _, [] => rfl
  | n, _ :: t => congrArg (· + 1) (numberEvents_length (n + 1) t)

/-- Numbering changes the sequence number alone. -/
theorem zip_numberEvents {p : Event × Event} : (n : BitVec 64) → (l : List Event) → p ∈ l.zip (numberEvents n l) →
    p.1 ∈ l ∧ ∃ q, p.2 = { p.1 with seq := q }
  | _, [] => fun hp => by simp at hp
  | n, e :: t => fun hp => by
    rcases List.mem_cons.mp hp with rfl | hp
    · exact ⟨List.mem_cons_self, n, rfl⟩
    · obtain ⟨hmem, hq⟩ := zip_numberEvents (n + 1) t hp
      exact ⟨List.mem_cons_of_mem e hmem, hq⟩

theorem exists_numbered {e : Event} : (n : BitVec 64) → (l : List Event) → e ∈ l → ∃ q, { e with seq := q } ∈ numberEvents n l
  | _, [] => fun he => by simp at he
  | n, x :: t => fun he => by
    rcases List.mem_cons.mp he with rfl | he
    · exact ⟨n, List.mem_cons_self⟩
    · obtain ⟨q, hq⟩ := exists_numbered (n + 1) t he
      exact ⟨q, List.mem_cons_of_mem _ hq⟩

/-! One decided event -/

/-- The events of one instant that are numbered again are waiting ones, each once. -/
theorem State.sameInstant_length {s : State} (hlast : s.evt.last.Nodup) : s.sameInstant.length ≤ s.evt.queue.length := by
  have hheld : (s.evt.last.filter (fun e => s.evt.queue.contains e)).length ≤ s.evt.queue.length := by
    refine (List.Nodup.subperm (hlast.filter _) (fun e he => ?_)).length_le
    simpa using (List.mem_filter.mp he).2
  unfold State.sameInstant
  dsimp only
  split
  · split
    · exact hheld
    · exact Nat.zero_le _
  · exact Nat.zero_le _

section
variable {s : State} {e : Event} (hnow : s.evt.now = [e])
include hnow

/-- An event that no trigger slot selects triggers nothing (R280). -/
theorem State.queueEvents_trigQ (hslot : s.sheetSlot e = none) : s.queueEvents.fcv.trigQ = [] := by
  unfold State.queueEvents
  extract_lets held sorted fresh pairs renum new all trig old f s1 slave t s2 lost v s3
  have htrig : trig = [] := by
    refine List.filterMap_eq_nil_iff.mpr (fun x hx => ?_)
    obtain ⟨p, hp, rfl⟩ := List.mem_map.mp hx
    obtain ⟨hpair, hfresh⟩ := List.mem_filter.mp hp
    obtain ⟨hsorted, q, hq⟩ := zip_numberEvents _ _ hpair
    have hmem : p.1 = e := by
      have h := (sortEvents_perm _).mem_iff.mp hsorted
      rw [hnow] at h
      simpa [show p.1 ∉ held from by simpa using hfresh] using h
    rw [hq, hmem]
    exact Option.map_eq_none_iff.mpr hslot
  have h3 : s3.fcv.trigQ = trig := by simp only [s3, s2]; split <;> rfl
  split
  · exact h3.trans htrig
  · simp only [State.bump_keeps]
    exact h3.trans htrig

theorem State.queueEvents_one (hroom : s.evt.queue.length < 256) (hlast : s.evt.last.Nodup) :
    s.queueEvents.evt.now = [] ∧ s.queueEvents.evt.seq = s.evt.seq + 1 ∧ s.queueEvents.evt.queue.length ≤ 256 ∧
      ∃ q, { e with seq := q } ∈ s.queueEvents.evt.queue := by
  unfold State.queueEvents
  extract_lets held sorted fresh pairs renum new all trig old f s1 slave t s2 lost v s3
  have hsorted : sorted.length = held.length + 1 := by rw [(sortEvents_perm _).length_eq]; simp [hnow]
  have hfresh : fresh.length = held.length + 1 := (numberEvents_length _ _).trans hsorted
  have hheld : held.length ≤ s.evt.queue.length := State.sameInstant_length hlast
  have hall : all.length ≤ eventRoom := by
    simp only [all, List.length_append, List.length_take, hfresh, eventRoom]
    omega
  have hlost : lost = 0 := Nat.sub_eq_zero_of_le hall
  obtain ⟨q, hq⟩ : ∃ q, { e with seq := q } ∈ fresh :=
    exists_numbered _ _ ((sortEvents_perm _).mem_iff.mpr (by simp [hnow]))
  have hqueue : s3.evt.queue = all := List.take_of_length_le hall
  have hseq : s3.evt.seq = s2.evt.seq + BitVec.ofNat 64 s2.evt.now.length := rfl
  have h2 : s2.evt = s.evt := by simp only [s2]; split <;> rfl
  rw [if_pos hlost]
  refine ⟨rfl, by rw [hseq, h2, hnow]; rfl, by rw [hqueue]; exact hall, q, ?_⟩
  rw [hqueue]
  exact List.mem_append_right _ hq

/-- An event decided alone that is no trip source and that no trigger slot selects is queued with the next number. -/
theorem State.settle_one (hroom : s.evt.queue.length < 256) (hlast : s.evt.last.Nodup)
    (htrip : tripCodes.contains e.code.toNat = false) (hslot : s.sheetSlot e = none) (b : Nat) :
    (s.settle b).evt.seq = s.evt.seq + 1 ∧ ∃ q, { e with seq := q } ∈ (s.settle b).evt.queue := by
  have htripNow : s.tripNow = s := by
    have hdecision : ¬ (e.code == 0x0201 || e.code == 0x0202) = true := by
      intro h
      rcases Bool.or_eq_true_iff.mp h with h | h <;> rw [eq_of_beq h] at htrip <;> exact absurd htrip (by decide)
    unfold State.tripNow
    rw [hnow, if_neg (by simpa using hdecision), if_neg (by simpa using htrip)]
  obtain ⟨hempty, hseq, hlen, hmem⟩ := State.queueEvents_one hnow hroom hlast
  have hsheet : s.queueEvents.sheetNow.evt = s.queueEvents.evt := by
    unfold State.sheetNow
    rw [State.queueEvents_trigQ hnow hslot, List.foldl_nil, State.modFcv_evt]
  obtain ⟨hquiet, -⟩ := State.queueEvents_quiet (s := s.queueEvents.sheetNow) (by rw [hsheet]; exact hempty) (by rw [hsheet]; exact hlen)
  have hevt : (s.settle b).evt = s.queueEvents.evt := by
    unfold State.settle
    simp only [State.signalRise_keeps]
    rw [htripNow, hquiet, hsheet]
  rw [hevt]
  exact ⟨hseq, hmem⟩

end

/-! What the record shows (R219, R280) -/

/-- The event that a command decides at this instant. -/
def State.decided (s : State) (code index : Nat) (edge : EvEdge) (p0 p1 p2 : Nat) : Event :=
  { code := BitVec.ofNat 16 code, index := BitVec.ofNat 8 index, edge := edge, seq := 0, expno := s.evt.newest, ts := s.ts,
    p0 := BitVec.ofNat 64 p0, p1 := BitVec.ofNat 64 p1, p2 := BitVec.ofNat 64 p2 }

/-- An event of a code that is no trip source joins the decided ones and does nothing else. -/
theorem State.event_evt {s : State} {code : Nat} (index : Nat) (edge : EvEdge) (p0 p1 p2 : Nat) (hon : s.pdOn 5 = true)
    (htrip : tripCodes.contains code = false) :
    (s.event code index edge p0 p1 p2).evt = { s.evt with now := s.evt.now ++ [s.decided code index edge p0 p1 p2] } := by
  unfold State.event State.eventT State.eventX State.trackSource
  rw [if_pos hon]
  dsimp only
  rw [htrip]
  rfl

/-- A trigger slot selects codes that may trigger, so an event of another code is selected by none. -/
theorem State.CanLog.sheetSlot {s : State} (h : s.CanLog) {e : Event} (hsheet : sheetCodes.contains e.code.toNat = false) :
    s.sheetSlot e = none := by
  obtain ⟨-, -, -, -, hslots⟩ := h
  refine List.find?_eq_none.mpr (fun k hk hselects => ?_)
  simp only [Bool.and_eq_true, beq_iff_eq] at hselects
  obtain ⟨⟨⟨-, hen⟩, hcode⟩, -⟩ := hselects
  have hcontains := hslots k (List.mem_range.mp hk) hen
  rw [hcode, hsheet] at hcontains
  exact Bool.noConfusion hcontains

/-- An event is logged by a command that decides it alone, in a state whose queue and registers are those before the command. -/
theorem State.CanLog.logs {s u : State} (h : s.CanLog) (hregs : u.regs = s.regs) (hnow : u.evt.now = s.evt.now)
    (hseq : u.evt.seq = s.evt.seq) (hqueue : u.evt.queue = s.evt.queue) (hlast : u.evt.last = s.evt.last) {code : Nat} (index : Nat)
    (edge : EvEdge) (p0 p1 p2 b : Nat) (htrip : tripCodes.contains code = false) (hcode : code < 2 ^ 16)
    (hsheet : sheetCodes.contains code = false) : s.Logs ((u.event code index edge p0 p1 p2).settle b) code index edge p0 p1 p2 := by
  have hnum : (u.decided code index edge p0 p1 p2).code.toNat = code := by
    simp only [State.decided, BitVec.toNat_ofNat]; exact Nat.mod_eq_of_lt hcode
  have hslot : (u.event code index edge p0 p1 p2).sheetSlot (u.decided code index edge p0 p1 p2) = none := by
    have hsame : (u.event code index edge p0 p1 p2).sheetSlot (u.decided code index edge p0 p1 p2) =
        s.sheetSlot (u.decided code index edge p0 p1 p2) := by
      have hget (f : Fld) : u.get f = s.get f := State.get_of_regs hregs f
      simp only [State.sheetSlot, State.pdOn, State.flag, State.event_get, hget]
    rw [hsame]
    exact h.sheetSlot (by rw [hnum]; exact hsheet)
  obtain ⟨hon, hempty, hroom, hnodup, -⟩ := h
  have hdecided := State.event_evt (s := u) index edge p0 p1 p2 (by simpa only [State.pdOn, State.get_of_regs hregs] using hon) htrip
  obtain ⟨hsettled, q, hq⟩ := State.settle_one (s := u.event code index edge p0 p1 p2) (e := u.decided code index edge p0 p1 p2)
    (by rw [hdecided, hnow, hempty]; rfl) (by rw [hdecided, hqueue]; exact hroom) (by rw [hdecided, hlast]; exact hnodup)
    (by rw [hnum]; exact htrip) hslot b
  exact ⟨by rw [hsettled, hdecided, hseq], _, hq, rfl, rfl, rfl, rfl, rfl, rfl⟩

end Sys2Proof.Machine
end

section
/-!
Settles O40 (R43, R201, R203 to R206).  A recognised crossing is noted and, not too close to the one before, accepted, stage by stage; without
one the frequency-range event of the group starts and the powerline MAC runs free.
-/

namespace Sys2Proof.Machine

/-! An accepted rising crossing, stage by stage -/

/-- A rising crossing comes within 1/45 s of the accepted one before it, unconfirmed samples not counted (R201, R204). -/
def State.riseInTime (s : State) (g t : Nat) : Bool :=
  match (s.grp g).lastRise with
  | some l => decide ((t - l) * 45 ≤ secAt + s.heldAfter ((groupChans s.exp.eff g).headD 0) l * 45)
  | none => false

/-- The frequency of the cycle that a rising crossing ends, UQ8.24 Hz; 0 where none was accepted before (R205). -/
def cycleFreq (last : Option Nat) (t : Nat) : Nat :=
  match last with
  | some l => freqOf 1 (t - l)
  | none => 0

/-- A crossing that comes late starts the frequency-range event; LOCK shows whether it came in time. -/
def State.riseLocked (s : State) (g t : Nat) : State :=
  (if (s.grp g).lastRise.isSome && !s.riseInTime g t then s.rangeStart g else s).setFlag (EVT_VGSTAT_LOCK g) (s.riseInTime g t)

/-- The cycle between two accepted rising crossings gives the frequency (R205). -/
def State.riseTimed (s : State) (g f : Nat) (after : Bool) : State :=
  if after then s.modGrp g (fun r => { r with fcyc := f, fcycAt := some s.exp.now }) else s

/-- The frequency-range event of a group ends. -/
def State.rangeEnd (s : State) (g : Nat) : State :=
  match (s.grp g).frange with
  | some t0 => ((s.modGrp g (fun r => { r with frange := none })).setFlag (EVT_VGSTAT_FRANGE g) false).event 0x0305 g
      .stop (tsDiff s.ts t0) 0 0
  | none => s

/-- A rising crossing of VG0 gives the powerline MAC the mains period, where it came in time, and its timing (R43). -/
def State.mainsTimed (s : State) (g t : Nat) (last : Option Nat) (valid : Bool) : State :=
  if g = 0 then
    (if valid then s.modEvt (fun e => { e with mainsNs := some ((t - last.getD 0) * 1000000000 / secAt) }) else s).macResync
  else s

theorem State.acceptRise_eq (s : State) (g t : Nat) :
    s.acceptRise g t =
      (((((s.riseLocked g t).riseTimed g (cycleFreq (s.grp g).lastRise t) (s.grp g).lastRise.isSome).rangeEnd g).windowCross g t
        (cycleFreq (s.grp g).lastRise t)).mainsTimed g t (s.grp g).lastRise (s.riseInTime g t)).modGrp g
          (fun r => { r with lastRise := some t }) := rfl

theorem groupStep_riseLocked {s : State} {g : Nat} (hg : g < 8) (hlen : g < s.evt.groups.length) (t : Nat) :
    ∃ w r, s.GroupStep (s.riseLocked g t) g [EVT_VGSTAT g, EVT_WINABT] { s.grp g with win := w, frange := r } := by
  have hlate : ∃ w r, s.GroupStep (if (s.grp g).lastRise.isSome && !s.riseInTime g t then s.rangeStart g else s) g
      [EVT_VGSTAT g, EVT_WINABT] { s.grp g with win := w, frange := r } := by
    split
    · cases hrange : (s.grp g).frange with
      | none => exact ⟨_, _, groupStep_rangeStart hg hlen hrange⟩
      | some t0 =>
        have hactive : s.rangeStart g = s := if_pos (by simp [hrange])
        rw [hactive]
        exact ⟨(s.grp g).win, (s.grp g).frange, groupStep_refl s g _⟩
    · exact ⟨(s.grp g).win, (s.grp g).frange, groupStep_refl s g _⟩
  obtain ⟨w, r, hstep⟩ := hlate
  exact ⟨w, r, (hstep.seq (frame_setFlag _ (EVT_VGSTAT_LOCK g) _)).mono (by simp [EVT_VGSTAT_LOCK])⟩

theorem riseLocked_lock (s : State) (g t : Nat) : (s.riseLocked g t).flag (EVT_VGSTAT_LOCK g) = s.riseInTime g t :=
  State.flag_setFlag_self _ (EVT_VGSTAT_LOCK g) _ (by simp [EVT_VGSTAT_LOCK]) (by simp [EVT_VGSTAT_LOCK])

theorem groupStep_riseTimed (s : State) (g f : Nat) (after : Bool) :
    ∃ x a, s.GroupStep (s.riseTimed g f after) g [] { s.grp g with fcyc := x, fcycAt := a } ∧ (after = true → x = f) := by
  unfold State.riseTimed
  split
  · exact ⟨f, _, groupStep_modGrp s g _, fun _ => rfl⟩
  · next hfirst => exact ⟨(s.grp g).fcyc, (s.grp g).fcycAt, groupStep_refl s g [], fun hafter => absurd hafter hfirst⟩

theorem groupStep_rangeEnd (s : State) (g : Nat) : s.GroupStep (s.rangeEnd g) g [EVT_VGSTAT g] { s.grp g with frange := none } := by
  unfold State.rangeEnd
  split
  · exact ((groupStep_modGrp s g (fun r => { r with frange := none })).seq (frame_setFlag _ (EVT_VGSTAT_FRANGE g) false)).seq
      (frame_event _ 0x0305 g .stop _ 0 0)
  · next hnone =>
    have hsame : ({ s.grp g with frange := none } : GroupState) = s.grp g := by rw [← hnone]
    rw [hsame]
    exact groupStep_refl s g _

theorem rangeEnd_lock (s : State) (g : Nat) : (s.rangeEnd g).flag (EVT_VGSTAT_LOCK g) = s.flag (EVT_VGSTAT_LOCK g) := by
  unfold State.rangeEnd
  split
  · rw [State.event_flag, State.flag_setFlag_other _ _ _ _ (by simp [EVT_VGSTAT_FRANGE])
      (by simp [EVT_VGSTAT_FRANGE, EVT_VGSTAT_LOCK])]
    rfl
  · rfl

theorem groupStep_mainsTimed (s : State) (g t : Nat) (last : Option Nat) (valid : Bool) :
    s.GroupStep (s.mainsTimed g t last valid) g [] (s.grp g) := by
  have hresync {u : State} (h : s.GroupStep u g [] (s.grp g)) : s.GroupStep u.macResync g [] (s.grp g) := by
    unfold State.macResync
    split
    · exact (h.modEvt (fun e => { e with macFree := false }) (fun _ => rfl)).seq (frame_event _ 0x0306 0 .stop _ 0 0)
    · exact h
  unfold State.mainsTimed
  split
  · refine hresync ?_
    split
    · exact (groupStep_refl s g []).modEvt (fun e => { e with mainsNs := _ }) (fun _ => rfl)
    · exact groupStep_refl s g []
  · exact groupStep_refl s g []

/-- What an accepted rising crossing makes of its group, and LOCK (R204 to R206). -/
theorem groupStep_acceptRise {s : State} {g : Nat} (hg : g < 8) (hlen : g < s.evt.groups.length) (t : Nat) :
    ∃ r, s.GroupStep (s.acceptRise g t) g [EVT_VGSTAT g, EVT_FREQ g, EVT_WINABT] r ∧
      (s.acceptRise g t).flag (EVT_VGSTAT_LOCK g) = s.riseInTime g t ∧ r.lastRise = some t ∧ r.seenRise = (s.grp g).seenRise ∧
      r.frange = none ∧ ∀ l, (s.grp g).lastRise = some l → r.fcyc = freqOf 1 (t - l) := by
  rw [State.acceptRise_eq]
  obtain ⟨w, x, hlocked⟩ := groupStep_riseLocked hg hlen t
  have hlock := riseLocked_lock s g t
  generalize s.riseLocked g t = locked at hlocked hlock ⊢
  obtain ⟨y, a, htimed, hafter⟩ := groupStep_riseTimed locked g (cycleFreq (s.grp g).lastRise t) (s.grp g).lastRise.isSome
  rw [hlocked.grp hlen] at htimed
  have hlock' := htimed.frame.flag (EVT_VGSTAT_LOCK g) (by simp) (endReg_vgstat hg)
  replace htimed := hlocked.trans htimed
  generalize locked.riseTimed g (cycleFreq (s.grp g).lastRise t) (s.grp g).lastRise.isSome = timed at htimed hlock' ⊢
  have hended := groupStep_rangeEnd timed g
  rw [htimed.grp hlen] at hended
  have hlock'' := rangeEnd_lock timed g
  replace hended := htimed.trans hended
  generalize timed.rangeEnd g = ended at hended hlock'' ⊢
  obtain ⟨w', q, d, hcrossed⟩ := groupStep_windowCross (hended.length ▸ hlen) t (cycleFreq (s.grp g).lastRise t)
  have hrest := (hcrossed.trans (groupStep_mainsTimed _ g t (s.grp g).lastRise (s.riseInTime g t))).modGrp (hended.length ▸ hlen)
    (fun r => { r with lastRise := some t })
  have hlast := hrest.frame.flag (EVT_VGSTAT_LOCK g) (by simp [EVT_VGSTAT_LOCK, EVT_VGSTAT, EVT_FREQ]) (endReg_vgstat hg)
  refine ⟨_, (hended.trans hrest).mono (by simp), by rw [hlast, hlock'', hlock', hlock], rfl, ?_, ?_, fun l hl => ?_⟩
  · rw [hcrossed.grp (hended.length ▸ hlen), hended.grp hlen]
  · rw [hcrossed.grp (hended.length ▸ hlen), hended.grp hlen]
  · rw [hcrossed.grp (hended.length ▸ hlen), hended.grp hlen]
    rw [hl] at hafter
    exact hafter rfl

/-! ZERO_CROSSING (R201, R203 to R206) -/

/-- The accepted crossing before: rising or falling. -/
def State.lastCross (s : State) (g : Nat) (rising : Bool) : Option Nat := if rising then (s.grp g).lastRise else (s.grp g).lastFall

/-- A crossing comes closer than 1/65 s to the accepted one before it. -/
def tooClose (last : Option Nat) (x : Nat) : Bool :=
  match last with
  | some l => decide ((x - l) * 65 < secAt)
  | none => false

/-- The recognising sample of a crossing is noted. -/
def GroupState.noted (r : GroupState) (rising : Bool) (seen : Nat) : GroupState :=
  if rising then { r with seenRise := seen } else { r with seenFall := seen }

def State.crossSeen (s : State) (g : Nat) (rising : Bool) (seen : Nat) : State := s.modGrp g (fun r => r.noted rising seen)

/-- The half cycle that an accepted crossing ends waits for its decision (R212). -/
def State.halfCycleOpened (s : State) (g x : Nat) (last : Option Nat) (e : BitVec 72) : State :=
  s.modGrp g (fun r => { r with uhalf := r.uhalf ++ (if last.isSome then [{ at_ := x, from_ := last, ts := s.tsAt x, exp := e }] else []) })

/-- A crossing is recognised, and accepted where it is not too close to the one before. -/
def State.crossed (s : State) (g : Nat) (rising : Bool) (x seen : Nat) (e : BitVec 72) : State :=
  if tooClose (s.lastCross g rising) x then s.crossSeen g rising seen
  else if rising then ((s.crossSeen g rising seen).halfCycleOpened g x (s.lastCross g rising) e).acceptRise g x
  else ((s.crossSeen g rising seen).halfCycleOpened g x (s.lastCross g rising) e).modGrp g (fun r => { r with lastFall := some x })

theorem exec_zeroCrossing_crossed {s : State} {g x seen : Nat} {e : BitVec 72} {rising : Bool} (hg : g < 8) (hon : s.pdOn 5 = true)
    (hcross : s.nextCross g rising = some (x, seen, e)) :
    exec (.zeroCrossing g rising) s = .next ((s.crossed g rising x seen e).settle s.irqLive) := by
  change Host.Outcome.next ((if 8 ≤ g ∨ ¬ s.pdOn 5 then s else match s.nextCross g rising with
    | none => s
    | some (t, seen, e) => s.crossed g rising t seen e).settle s.irqLive) = _
  rw [if_neg (by simp [hon]; omega), hcross]

theorem tooClose_eq_false {last : Option Nat} {x : Nat} (hfar : ∀ l, last = some l → secAt ≤ (x - l) * 65) : tooClose last x = false := by
  cases last with
  | none => rfl
  | some l => exact decide_eq_false (Nat.not_lt.mpr (hfar l rfl))

theorem groupStep_halfCycleOpened {s : State} {g : Nat} (hlen : g < s.evt.groups.length) (rising : Bool) (seen x : Nat) (last : Option Nat)
    (e : BitVec 72) : ∃ u, s.GroupStep ((s.crossSeen g rising seen).halfCycleOpened g x last e) g []
      { (s.grp g).noted rising seen with uhalf := u } :=
  ⟨_, (groupStep_modGrp s g (fun r => r.noted rising seen)).modGrp hlen _⟩

/-- The time a crossing has rests on the samples, the exposures and the group's last accepted crossing. -/
theorem State.GroupStep.riseInTime {s t : State} {g : Nat} {os : List Nat} {r : GroupState} (h : s.GroupStep t g os r)
    (hsamples : t.evt.samples = s.evt.samples) (hunconf : t.evt.unconf = s.evt.unconf) (hlen : g < s.evt.groups.length)
    (hlast : r.lastRise = (s.grp g).lastRise) (x : Nat) : t.riseInTime g x = s.riseInTime g x := by
  have hexp : t.exp = s.exp := h.frame.part (p := .exposure) (by simp)
  unfold State.riseInTime State.heldAfter State.resolvedSamples State.kept
  rw [h.grp hlen, hlast, hsamples, hunconf, hexp]

section
variable {s : State} {g x seen : Nat} {e : BitVec 72} (hs : s.Sizes) (hg : g < 8) (hon : s.pdOn 5 = true)
include hs hg hon

theorem exec_zeroCrossing_rise_accepted (hcross : s.nextCross g true = some (x, seen, e))
    (hfar : ∀ l, (s.grp g).lastRise = some l → secAt ≤ (x - l) * 65) :
    ∃ t, exec (.zeroCrossing g true) s = .next t ∧ (t.grp g).lastRise = some x ∧ (t.grp g).seenRise = seen ∧
      (t.grp g).frange = none ∧ t.flag (EVT_VGSTAT_LOCK g) = s.riseInTime g x ∧
      (∀ l, (s.grp g).lastRise = some l → (t.grp g).fcyc = freqOf 1 (x - l)) ∧
      s.Frame t [.windows] [EVT_VGSTAT g, EVT_FREQ g, EVT_WINABT] := by
  obtain ⟨-, -, hgroups, -⟩ := hs
  have hlen : g < s.evt.groups.length := hgroups ▸ hg
  obtain ⟨u, hopened⟩ := groupStep_halfCycleOpened hlen true seen x (s.lastCross g true) e
  obtain ⟨r, haccepted, hlock, hlast, hseen, hfrange, hfcyc⟩ := groupStep_acceptRise hg (hopened.length ▸ hlen) x
  rw [hopened.riseInTime rfl rfl hlen rfl] at hlock
  rw [hopened.grp hlen] at hseen hfcyc
  have hstep := (hopened.trans haccepted).settle s.irqLive
  have hclose : tooClose (s.lastCross g true) x = false := tooClose_eq_false hfar
  rw [exec_zeroCrossing_crossed hg hon hcross, State.crossed, if_neg (by simp [hclose]), if_pos rfl]
  refine ⟨_, rfl, ?_⟩
  rw [hstep.grp hlen, State.settle_flag (endReg_vgstat hg) _ _ _ rfl]
  exact ⟨hlast, hseen, hfrange, hlock, hfcyc, hstep.frame⟩

theorem exec_zeroCrossing_rise_close {l : Nat} (hcross : s.nextCross g true = some (x, seen, e)) (hlast : (s.grp g).lastRise = some l)
    (hclose : (x - l) * 65 < secAt) :
    ∃ t, exec (.zeroCrossing g true) s = .next t ∧ (t.grp g).lastRise = some l ∧ (t.grp g).seenRise = seen ∧ s.Frame t [.windows] [] := by
  obtain ⟨-, -, hgroups, -⟩ := hs
  have hlen : g < s.evt.groups.length := hgroups ▸ hg
  have hstep := (groupStep_modGrp s g (fun r => r.noted true seen)).settle s.irqLive
  rw [exec_zeroCrossing_crossed hg hon hcross, State.crossed, if_pos (by simp [State.lastCross, hlast, tooClose, hclose])]
  refine ⟨_, rfl, ?_, ?_, hstep.frame⟩
  · exact (congrArg GroupState.lastRise (hstep.grp hlen)).trans hlast
  · exact congrArg GroupState.seenRise (hstep.grp hlen)

theorem exec_zeroCrossing_fall_accepted (hcross : s.nextCross g false = some (x, seen, e))
    (hfar : ∀ l, (s.grp g).lastFall = some l → secAt ≤ (x - l) * 65) :
    ∃ t, exec (.zeroCrossing g false) s = .next t ∧ (t.grp g).lastFall = some x ∧ (t.grp g).seenFall = seen ∧
      s.Frame t [.windows] [] := by
  obtain ⟨-, -, hgroups, -⟩ := hs
  have hlen : g < s.evt.groups.length := hgroups ▸ hg
  obtain ⟨u, hopened⟩ := groupStep_halfCycleOpened hlen false seen x (s.lastCross g false) e
  have hstep := (hopened.modGrp hlen (fun r => { r with lastFall := some x })).settle s.irqLive
  have hclose : tooClose (s.lastCross g false) x = false := tooClose_eq_false hfar
  rw [exec_zeroCrossing_crossed hg hon hcross, State.crossed, if_neg (by simp [hclose]), if_neg (by simp)]
  refine ⟨_, rfl, ?_, ?_, hstep.frame⟩
  · exact congrArg GroupState.lastFall (hstep.grp hlen)
  · exact congrArg GroupState.seenFall (hstep.grp hlen)

end

/-! FREQUENCY_RANGE_TIMEOUT (R201, R204) -/

section
variable {s : State} {g v l due : Nat} {rest : List Nat}

theorem exec_frequencyRangeTimeout_starts (hg : g < 8) (hon : s.pdOn 5 = true) (hchans : groupChans s.exp.eff g = v :: rest)
    (hlast : (s.grp g).lastRise = some l) (hdue : due = l + s.heldAfter v l + secAt / 45 + 1) (hknown : s.samplesKnown v due = true)
    (hno : s.riseBy g l due 64 (s.grp g).seenRise = false) :
    exec (.frequencyRangeTimeout g) s = .next (((s.reach (due / 65536 + 1)).rangeStart g).settle s.irqLive) := by
  change execFrequencyRangeTimeout g s = _
  unfold execFrequencyRangeTimeout finish
  beta_reduce
  rw [if_neg (by simp [hon, hchans]; omega), hlast]
  dsimp only
  rw [hchans, List.headD_cons, ← hdue, hknown, hno, if_neg (by decide)]

theorem exec_frequencyRangeTimeout_shown (hs : s.Sizes) (hg : g < 8) (hon : s.pdOn 5 = true)
    (hchans : groupChans s.exp.eff g = v :: rest) (hlast : (s.grp g).lastRise = some l)
    (hdue : due = l + s.heldAfter v l + secAt / 45 + 1) (hknown : s.samplesKnown v due = true)
    (hno : s.riseBy g l due 64 (s.grp g).seenRise = false) (hnone : (s.grp g).frange = none) {s' : State}
    (hs' : s' = s.reach (due / 65536 + 1)) :
    ∃ t, exec (.frequencyRangeTimeout g) s = .next t ∧ (t.grp g).frange = some s'.ts ∧ t.flag (EVT_VGSTAT_FRANGE g) = true ∧
      t.flag (EVT_VGSTAT_LOCK g) = false ∧ (t.grp g).win = none ∧ s'.Frame t [.windows] [EVT_VGSTAT g, EVT_WINABT] := by
  obtain ⟨-, -, hgroups, -⟩ := hs
  have hlen : g < s'.evt.groups.length := by rw [hs']; exact hgroups ▸ hg
  have hquiet : (s'.grp g).frange = none := by rw [hs']; exact hnone
  have hstep := (groupStep_rangeStart hg hlen hquiet).settle s.irqLive
  obtain ⟨hfrange, hlock⟩ := rangeStart_shown hquiet
  rw [exec_frequencyRangeTimeout_starts hg hon hchans hlast hdue hknown hno, ← hs']
  refine ⟨_, rfl, ?_, ?_, ?_, ?_, hstep.frame⟩
  · rw [hstep.grp hlen]
  · rw [State.settle_flag (endReg_vgstat hg) _ _ _ rfl, hfrange]
  · rw [State.settle_flag (endReg_vgstat hg) _ _ _ rfl, hlock]
  · rw [hstep.grp hlen]

end

/-! MAC_FREE_RUN (R43) -/

/-- The powerline MAC runs free, with its event. -/
def State.macFreed (s : State) : State :=
  (s.modEvt (fun e => { e with macFree := true })).event 0x0306 0 .start (s.evt.mainsNs.getD 20000000) 0 0

/-- What the powerline MAC's free run shows, from a state that differs from `s` in the time at most. -/
theorem State.CanLog.macFreed {s u : State} (h : s.CanLog) (hregs : u.regs = s.regs) (hevt : u.evt = s.evt) (b : Nat) :
    (u.macFreed.settle b).evt.macFree = true ∧
      s.Logs (u.macFreed.settle b) 0x0306 0 .start (s.evt.mainsNs.getD 20000000) 0 0 ∧
      u.Frame (u.macFreed.settle b) [.windows] [] := by
  refine ⟨?_, ?_, (((frame_modEvt u _).seq (frame_event _ _ _ _ _ _ _)).mono (by simp) (by simp)).settle b⟩
  · obtain ⟨-, -, -, -, -, -, hsettled, -⟩ := State.settle_same u.macFreed b .windows
    obtain ⟨-, -, -, -, -, -, hevent, -⟩ := (frame_event (u.modEvt (fun e => { e with macFree := true })) 0x0306 0 .start
      (u.evt.mainsNs.getD 20000000) 0 0).part (p := .windows) (by simp)
    exact hsettled.trans hevent
  · unfold State.macFreed
    rw [hevt]
    exact h.logs (u := u.modEvt (fun e => { e with macFree := true })) hregs (by simp [hevt]) (by simp [hevt])
      (by simp [hevt]) (by simp [hevt]) 0 .start _ 0 0 b (by decide) (by decide) (by decide)

section
variable {s : State} (hfree : s.evt.macFree = false) (hon : s.pdOn 7 = true)
include hfree hon

theorem exec_macFreeRun_none (hnone : groupChans s.exp.eff 0 = [] ∨ ((s.grp 0).lastRise = none ∧ s.nextCross 0 true = none)) :
    exec .macFreeRun s = .next (s.macFreed.settle s.irqLive) := by
  change execMacFreeRun s = _
  unfold execMacFreeRun finish
  beta_reduce
  rw [if_neg (by simp [hfree, hon])]
  dsimp only
  split
  · rfl
  · next v rest hchans =>
    obtain ⟨hlast, hcross⟩ := hnone.resolve_left (by simp [hchans])
    rw [hlast, hcross]
    rfl

theorem exec_macFreeRun_lost {v l : Nat} {rest : List Nat} (hchans : groupChans s.exp.eff 0 = v :: rest)
    (hlast : (s.grp 0).lastRise = some l) (hknown : s.samplesKnown v (l + msCycles 50 * 65536) = true)
    (hno : s.riseBy 0 l (l + msCycles 50 * 65536) 64 (s.grp 0).seenRise = false) :
    exec .macFreeRun s = .next ((s.reach ((l + msCycles 50 * 65536) / 65536)).macFreed.settle s.irqLive) := by
  change execMacFreeRun s = _
  unfold execMacFreeRun finish
  beta_reduce
  rw [if_neg (by simp [hfree, hon]), hchans, hlast]
  dsimp only
  rw [hknown, hno, if_neg (by decide)]
  rfl

end

end Sys2Proof.Machine

open Sys2Proof.Machine in
/-- Settles O40: what a recognised crossing makes of its group, and what its absence starts. -/
theorem zeroCrossings : Obligations.ZeroCrossings := by
  unfold Obligations.ZeroCrossings
  refine ⟨fun s g x seen e hs hg hon => ⟨fun hcross => ⟨fun hfar => ?_, fun l hlast hclose => ?_⟩, fun hcross hfar => ?_⟩,
    fun s => ⟨fun g v rest l due hg hs hon hchans hlast hdue hknown hno hnone s' hs' => ?_,
      fun hfree hon hcan => ⟨fun hnone => ?_, fun v rest l hchans hlast hknown hno s' hs' => ?_⟩⟩⟩
  · obtain ⟨t, hexec, hrise, hseen, hfrange, hlock, hfcyc, hframe⟩ := exec_zeroCrossing_rise_accepted hs hg hon hcross hfar
    exact ⟨t, hexec, hrise, hseen, hfrange, hlock, hfcyc, hframe⟩
  · exact exec_zeroCrossing_rise_close hs hg hon hcross hlast hclose
  · exact exec_zeroCrossing_fall_accepted hs hg hon hcross hfar
  · exact exec_frequencyRangeTimeout_shown hs hg hon hchans hlast hdue hknown hno hnone hs'
  · obtain ⟨hfreed, hlogs, hframe⟩ := hcan.macFreed rfl rfl s.irqLive
    exact ⟨_, exec_macFreeRun_none hfree hon hnone, hfreed, hlogs, hframe⟩
  · obtain ⟨hfreed, hlogs, hframe⟩ := hcan.macFreed (u := s') (by rw [hs']; rfl) (by rw [hs']; rfl) s.irqLive
    exact ⟨_, hs' ▸ exec_macFreeRun_lost hfree hon hchans hlast hknown hno, hfreed, hlogs, hframe⟩

end

section
/-!
SUPPORT. A record written to a device ring that has a descriptor large enough for it (R385, R397, R398): what becomes of the ring.
-/

namespace Sys2Proof.Machine

/-- From `s` to `t` the rings stay as many, DMA is as possible as before, and ring `r` has the posted buffers `l`. -/
def State.RingStep (s t : State) (r : Nat) (l : List BufDesc) : Prop :=
  t.hif.dmaStopped = s.hif.dmaStopped ∧ t.hif.rings.length = s.hif.rings.length ∧ (t.ring r).posted = l

section
variable {s t u : State} {r : Nat} {l : List BufDesc}

theorem ringStep_refl (s : State) (r : Nat) : s.RingStep s r (s.ring r).posted := ⟨rfl, rfl, rfl⟩

theorem State.RingStep.posted (h : s.RingStep t r l) : (t.ring r).posted = l := h.2.2

/-- What leaves the host interface but for its writes leaves the rings. -/
theorem State.RingStep.seq {ps : List Part} {os : List Nat} (h : s.RingStep t r l) (k : t.Frame u ps os) (hhost : Part.host ∉ ps) :
    s.RingStep u r l := by
  obtain ⟨hdma, hlen, hposted⟩ := h
  have hsame : ({ u.hif with out := [] } : HifState) = { t.hif with out := [] } := k.part (p := .host) hhost
  have hrings : u.hif.rings = t.hif.rings := (congrArg HifState.rings hsame :)
  have hstopped : u.hif.dmaStopped = t.hif.dmaStopped := (congrArg HifState.dmaStopped hsame :)
  exact ⟨hstopped.trans hdma, by rw [hrings, hlen], by rw [State.ring, hrings]; exact hposted⟩

theorem State.RingStep.modRing (h : s.RingStep t r l) (hr : r < s.hif.rings.length) (f : RingAux → RingAux) {l' : List BufDesc}
    (hf : (f (t.ring r)).posted = l') : s.RingStep (t.modRing r f) r l' := by
  obtain ⟨hdma, hlen, -⟩ := h
  refine ⟨hdma, (List.length_modify ..).trans hlen, ?_⟩
  rw [State.ring_modRing_self t f (by rw [hlen]; exact hr)]
  exact hf

theorem State.RingStep.moderate (h : s.RingStep t r l) (hr : r < s.hif.rings.length) (n : Nat) : s.RingStep (t.moderate r n) r l := by
  unfold State.moderate
  dsimp only
  repeat' split
  · exact (h.modRing hr _ h.posted).seq (frame_signal _ _) (by simp)
  · exact h.modRing hr _ h.posted
  · exact h

theorem State.RingStep.returnDescs (h : s.RingStep t r l) (hr : r < s.hif.rings.length) (n : Nat) : s.RingStep (t.returnDescs r n) r l :=
  (((h.seq (frame_wr _ _ _) (by simp)).seq (frame_hostWrite _ _) (by simp)).seq (frame_hostWrite _ _) (by simp)).moderate hr n

/-- Returning a buffer takes it from the posted ones. -/
theorem State.RingStep.returnBuf (h : s.RingStep t r l) (hr : r < s.hif.rings.length) (written wstat kind : Nat) (expno : BitVec 72)
    (ts : BitVec 64) : s.RingStep (t.returnBuf r written wstat kind expno ts) r l.tail := by
  have hwritten := h.seq
    (frame_hostWrite t (.mem (t.descAddr r (t.ringC r) + 0x10) (writeback written wstat kind (t.ring r).dropped expno ts))) (by simp)
  exact (hwritten.modRing hr (fun a => { a with posted := a.posted.tail, dropped := false })
    (congrArg List.tail hwritten.posted)).returnDescs hr 1

end

theorem frame_returnBuf (s : State) (r written wstat kind : Nat) (expno : BitVec 72) (ts : BitVec 64) :
    s.Frame (s.returnBuf r written wstat kind expno ts) [.host] [HIF_RCIDX r] :=
  ((frame_hostWrite _ _).seq ((frame_modRing _ _ _).seq (frame_returnDescs _ _ _))).mono (by simp) (by simp)

theorem State.ringC_returnBuf (s : State) {r : Nat} (he : endReg (HIF_RCIDX r) = false) (written wstat kind : Nat) (expno : BitVec 72)
    (ts : BitVec 64) : (s.returnBuf r written wstat kind expno ts).ringC r = s.ringC r + 1 := by
  unfold State.returnBuf
  dsimp only
  rw [State.ringC_returnDescs _ _ he]
  unfold State.ringC
  rw [(frame_modRing _ _ _).rd (by simp) he, (frame_hostWrite _ _).rd (by simp) he]
  rfl

/-- A ring runs and has at least `n` buffers posted, each of at least `size` bytes, to which DMA writes. -/
def State.RingRoom (s : State) (r size n : Nat) : Prop :=
  s.ringRun r = true ∧ s.dmaOn = true ∧ r < s.hif.rings.length ∧ n ≤ (s.ring r).posted.length ∧
    ∀ b ∈ (s.ring r).posted, size ≤ b.size.toNat

theorem State.RingRoom.lt {s : State} {r size n : Nat} (h : s.RingRoom r size n) : r < s.hif.rings.length := h.2.2.1

theorem State.RingRoom.posted {s : State} {r size n : Nat} (h : s.RingRoom r size n) : n ≤ (s.ring r).posted.length := h.2.2.2.1

/-- A record that fits goes into the next buffer. -/
theorem State.RingRoom.deliver {s : State} {r size n : Nat} (h : s.RingRoom r size (n + 1)) {need : Nat} (hneed : need ≤ size)
    (kind : Nat) (data : List (BitVec 64)) (expno : BitVec 72) (ts : BitVec 64) :
    ∃ w, s.deliver r need kind data expno ts = ((s.hostWrite w).returnBuf r (8 * data.length) 0 kind expno ts, some (s.ringC r)) := by
  obtain ⟨hrun, hdma, -, hposted, hsize⟩ := h
  cases hbufs : (s.ring r).posted with
  | nil => simp [hbufs] at hposted
  | cons b bs =>
    have hfits : ¬ b.size.toNat < need := Nat.not_lt.mpr (hneed.trans (hsize b (by simp [hbufs])))
    have hskip : s.skipShort r need kind expno ts ((s.ring r).posted.length + 1) = (s, true) := by
      simp [State.skipShort, hrun, hdma, hbufs, hfits]
    unfold State.deliver
    rw [hskip]
    simp only [if_true, hbufs]
    exact ⟨_, rfl⟩

/-- A ring keeps its room for as many records as it has buffers left, while the registers of the ring and of the link stay. -/
theorem State.RingRoom.step {s t : State} {r size n m : Nat} {ps : List Part} {os : List Nat} (h : s.RingRoom r size n)
    (hframe : s.Frame t ps os) (hregs : HIF_RSTAT r ∉ os ∧ HIF_STAT ∉ os ∧ PWR_STAT ∉ os) (he : endReg (HIF_RSTAT r) = false)
    {l : List BufDesc} (hring : s.RingStep t r l) (hlen : m ≤ l.length) (hl : l ⊆ (s.ring r).posted) : t.RingRoom r size m := by
  obtain ⟨hrun, hdma, hr, -, hsize⟩ := h
  obtain ⟨hstopped, hrings, hposted⟩ := hring
  obtain ⟨hrstat, hstat, hpwr⟩ := hregs
  refine ⟨?_, ?_, by rw [hrings]; exact hr, by rw [hposted]; exact hlen, fun b hb => hsize b (hl (hposted ▸ hb))⟩
  · exact (hframe.flag (HIF_RSTAT_RUN r) hrstat he).trans hrun
  · rw [← hdma]
    unfold State.dmaOn
    rw [hframe.pdOn hpwr, hframe.flag HIF_STAT_LINKUP hstat (by decide), hframe.flag HIF_STAT_BME hstat (by decide),
      hframe.get HIF_STAT_DSTATE hstat (by decide), hstopped]

end Sys2Proof.Machine
end

section
/-!
Settles O41 (R207 to R215, R398).  A half cycle that waits is decided once its exposures are resolved; a complete window leaves its
group and goes to the HRM ring, record by record.
-/

namespace Sys2Proof.Machine

/-! HALF_CYCLE_DECISION (R212 to R214) -/

/-- The tests of one power-quality event log at most its event. -/
theorem frame_pqStep (s : State) (g : Nat) (ts : BitVec 64) (vals : List (Nat × Nat)) (a : Option PqActive) (q : PqTest) :
    s.Frame (s.pqStep g ts vals a q).1 [] [] := by
  unfold State.pqStep
  split
  · split
    · split
      · exact frame_eventT _ _ _ _ _ _ _ _
      · exact State.Frame.refl _ _ _
    · exact State.Frame.refl _ _ _
  · dsimp only
    split
    · exact frame_eventT _ _ _ _ _ _ _ _
    · exact State.Frame.refl _ _ _

/-- The newest values of a group's voltage channels after a half cycle: its own where they are valid (R213). -/
def State.newestAt (s : State) (g : Nat) (u : UHalf) : List (Option Nat) :=
  (List.range 3).map (fun i =>
    match ((groupChans s.exp.eff g).map (fun n => s.uhalfOf n (u.from_.getD u.at_) u.at_)).getD i none with
    | some v => some v
    | none => (s.grp g).newest.getD i none)

theorem State.newestAt_valid {s : State} {g i n v : Nat} {u : UHalf} (hi : i < 3) (hn : (groupChans s.exp.eff g)[i]? = some n)
    (hv : s.uhalfOf n (u.from_.getD u.at_) u.at_ = some v) : (s.newestAt g u).getD i none = some v := by
  simp [State.newestAt, List.getD_eq_getElem?_getD, hi, hn, hv]

/-- The tests of the three events are applied in turn, and their activity is kept and shown (R213). -/
def State.pqTested (s : State) (g : Nat) (ts : BitVec 64) (vals : List (Nat × Nat)) (gr : GroupState) (sag swell intr : PqTest) : State :=
  let a := s.pqStep g ts vals gr.sag sag
  let b := a.1.pqStep g ts vals gr.swell swell
  let c := b.1.pqStep g ts vals gr.intr intr
  (((c.1.modGrp g (fun r => { r with sag := a.2, swell := b.2, intr := c.2 })).setFlag (EVT_VGSTAT_SAGACT g) a.2.isSome).setFlag
    (EVT_VGSTAT_SWLACT g) b.2.isSome).setFlag (EVT_VGSTAT_INTACT g) c.2.isSome

theorem State.GroupStep.pqTested {s t : State} {g : Nat} {os : List Nat} {r : GroupState} (h : s.GroupStep t g os r)
    (hlen : g < s.evt.groups.length) (hos : EVT_VGSTAT g ∈ os) (ts : BitVec 64) (vals : List (Nat × Nat)) (gr : GroupState)
    (sag swell intr : PqTest) :
    ∃ a b c, s.GroupStep (t.pqTested g ts vals gr sag swell intr) g os { r with sag := a, swell := b, intr := c } := by
  have htests := ((h.seq (frame_pqStep t g ts vals gr.sag sag)).seq (frame_pqStep _ g ts vals gr.swell swell)).seq
    (frame_pqStep _ g ts vals gr.intr intr)
  exact ⟨_, _, _, ((((htests.modGrp hlen _).seq (frame_setFlag _ (EVT_VGSTAT_SAGACT g) _)).seq
    (frame_setFlag _ (EVT_VGSTAT_SWLACT g) _)).seq (frame_setFlag _ (EVT_VGSTAT_INTACT g) _)).mono
      (by simp [EVT_VGSTAT_SAGACT, EVT_VGSTAT_SWLACT, EVT_VGSTAT_INTACT, hos])⟩

/-- What acting on a half cycle makes of its group: the values, the events' activity, the marks of the windows. -/
theorem groupStep_uhalfDecide {s : State} {g : Nat} (hlen : g < s.evt.groups.length) (u : UHalf) :
    ∃ r, s.GroupStep (s.uhalfDecide g u) g [EVT_STAT, EVT_VGSTAT g] r ∧ r.uhalf = (s.grp g).uhalf ∧ r.newest = s.newestAt g u := by
  unfold State.uhalfDecide
  extract_lets chs vals s1 gr newest fresh known all d sag swell intr hyst before s2 s3 after
  have h2 : s.GroupStep s2 g [EVT_STAT, EVT_VGSTAT g] { s.grp g with newest := newest } :=
    (((groupStep_refl s g []).seq (frame_bump s EVT_STAT_UNCONFCNT _)).modGrp hlen (fun r => { r with newest := newest })).mono
      (by simp [EVT_STAT_UNCONFCNT])
  have h3 : ∃ a b c, s.GroupStep s3 g [EVT_STAT, EVT_VGSTAT g] { s.grp g with newest := newest, sag := a, swell := b, intr := c } := by
    simp only [s3]
    split
    · exact ⟨_, _, _, h2⟩
    · exact h2.pqTested hlen (by simp) u.ts fresh gr _ _ _
  obtain ⟨a, b, c, h3⟩ := h3
  exact ⟨_, h3.modGrp hlen _, rfl, rfl⟩

section
variable {s : State} {g : Nat} {u : UHalf} {rest : List UHalf} (hg : g < 8) (hon : s.pdOn 5 = true)
  (hopen : (s.grp g).uhalf = u :: rest)
include hg hon hopen

theorem exec_halfCycleDecision_eq : exec (.halfCycleDecision g) s =
    .next ((if s.resolvedTo u.exp && (groupChans s.exp.eff g).all (fun n => s.samplesKnown n u.at_) then
      (s.modGrp g (fun r => { r with uhalf := rest })).uhalfDecide g u else s).settle s.irqLive) := by
  change execHalfCycleDecision g s = _
  unfold execHalfCycleDecision finish State.uhalfNext
  beta_reduce
  rw [if_pos ⟨hg, hon⟩, hopen]

/-- Once every exposure with a sample it uses is resolved, the half cycle is acted on. -/
theorem exec_halfCycleDecision_decides (hs : s.Sizes) (hresolved : s.resolvedTo u.exp = true)
    (hknown : ∀ n ∈ groupChans s.exp.eff g, s.samplesKnown n u.at_ = true) :
    ∃ t, exec (.halfCycleDecision g) s = .next t ∧ (t.grp g).uhalf = rest ∧
      (∀ i n v, i < 3 → (groupChans s.exp.eff g)[i]? = some n → s.uhalfOf n (u.from_.getD u.at_) u.at_ = some v →
        (t.grp g).newest.getD i none = some v) ∧ s.Frame t [.windows] [EVT_STAT, EVT_VGSTAT g] := by
  obtain ⟨-, -, hgroups, -⟩ := hs
  have hlen : g < s.evt.groups.length := hgroups ▸ hg
  have htaken := groupStep_modGrp s g (fun r => { r with uhalf := rest })
  obtain ⟨r, hdecided, huhalf, hnewest⟩ := groupStep_uhalfDecide (htaken.length ▸ hlen) u
  have hstep := (htaken.trans hdecided).settle s.irqLive
  rw [htaken.grp hlen] at huhalf
  rw [exec_halfCycleDecision_eq hg hon hopen, if_pos (by simpa [hresolved] using hknown)]
  refine ⟨_, rfl, ?_, fun i n v hi hn hv => ?_, hstep.frame⟩
  · rw [hstep.grp hlen, huhalf]
  · rw [hstep.grp hlen, hnewest]
    exact State.newestAt_valid hi hn hv

/-- Until then it waits. -/
theorem exec_halfCycleDecision_waits
    (hwaits : s.resolvedTo u.exp = false ∨ ∃ n ∈ groupChans s.exp.eff g, s.samplesKnown n u.at_ = false) :
    ∃ t, exec (.halfCycleDecision g) s = .next t ∧ (t.grp g).uhalf = u :: rest ∧ s.Frame t [] [] := by
  have hnot : ¬ (s.resolvedTo u.exp && (groupChans s.exp.eff g).all (fun n => s.samplesKnown n u.at_)) = true := by
    intro hready
    obtain ⟨hresolved, hknown⟩ := Bool.and_eq_true_iff.mp hready
    rcases hwaits with hfalse | ⟨n, hn, hfalse⟩
    · exact absurd hresolved (by simp [hfalse])
    · exact absurd (List.all_eq_true.mp hknown n hn) (by simp [hfalse])
  rw [exec_halfCycleDecision_eq hg hon hopen, if_neg hnot]
  refine ⟨_, rfl, ?_, (State.Frame.refl s [] []).settle _⟩
  rw [State.grp_of_groups (State.settle_groups s _), hopen]

end

/-! WINDOW_WRITE (R207 to R211) -/

/-- Computing the channels of a window uses open values and changes nothing else. -/
theorem mapState_hrmChan (w : Window) : (chs : List Nat) → (s : State) →
    ∃ k, (mapState (fun (s : State) n => s.hrmChan w n) s chs).1 = { s with free := k } ∧
      (mapState (fun (s : State) n => s.hrmChan w n) s chs).2.length = chs.length
  | [], s => ⟨s.free, rfl, rfl⟩
  | n :: t, s => by
    obtain ⟨k, hstate, hlen⟩ := mapState_hrmChan w t (s.hrmChan w n).1
    exact ⟨k, hstate, congrArg (· + 1) hlen⟩

theorem hrmHead_length (kind g ch : Nat) (w : Window) (first : BitVec 72) (flags : BitVec 64) :
    (hrmHead kind g ch w first flags).length = 7 := rfl

theorem hrmGroup_length (g ch : Nat) (w : Window) (first : BitVec 72) (cs : List HrmChan) (fwin pseq : Nat) (dropped : Bool) :
    (hrmGroup g ch w first cs fwin pseq dropped).length = 32 := by
  simp [hrmGroup, hrmHead_length]

theorem State.hrmRecord_length (s : State) (g : Nat) (w : Window) (first : BitVec 72) (fwin : Nat) (volt : Bool) (ref c : HrmChan)
    (dropped : Bool) : (s.hrmRecord g w first fwin volt ref c dropped).length = 272 := by
  simp [State.hrmRecord, hrmHead_length]

/-- From `s` to `t` the HRM ring returns `k` buffers and has room for `n` records more; no group changes. -/
def State.HrmStep (s t : State) (k n : Nat) : Prop :=
  t.RingRoom 8 2176 n ∧ t.ringC 8 = s.ringC 8 + BitVec.ofNat 32 k ∧ t.evt.groups = s.evt.groups ∧
    s.Frame t [.windows, .host] [HIF_RCIDX 8]

theorem State.HrmStep.trans {s t u : State} {k k' n n' : Nat} (h : s.HrmStep t k n) (h' : t.HrmStep u k' n') :
    s.HrmStep u (k + k') n' := by
  obtain ⟨-, hc, hgroups, hframe⟩ := h
  obtain ⟨hroom, hc', hgroups', hframe'⟩ := h'
  exact ⟨hroom, by rw [hc', hc, BitVec.ofNat_add, BitVec.add_assoc], hgroups'.trans hgroups, hframe.trans hframe'⟩

/-- A record that fits is delivered (R211, R397). -/
theorem State.RingRoom.hrmPut {s : State} {n : Nat} (h : s.RingRoom 8 2176 (n + 1)) (kind : Nat) (first : BitVec 72) (ts : BitVec 64)
    (rec : Bool → List (BitVec 64)) (hrec : ∀ d, (rec d).length ≤ 272) : s.HrmStep (s.hrmPut kind first ts rec) 1 n := by
  obtain ⟨w, hput⟩ := h.deliver (need := 8 * (rec s.evt.hrmDropped).length) (Nat.mul_le_mul_left 8 (hrec _)) kind
    (rec s.evt.hrmDropped) first ts
  have hevt : (s.deliver 8 (8 * (rec s.evt.hrmDropped).length) kind (rec s.evt.hrmDropped) first ts).1.evt = s.evt := by simp
  have hput' : s.hrmPut kind first ts rec = ((s.hostWrite w).returnBuf 8 (8 * (rec s.evt.hrmDropped).length) 0 kind first ts).modEvt
      (fun e => { e with hrmDropped := false }) := by
    unfold State.hrmPut
    dsimp only
    rw [hput]
  rw [hput] at hevt
  have hring := ((((ringStep_refl s 8).seq (frame_hostWrite s w) (by simp)).returnBuf h.lt
    (8 * (rec s.evt.hrmDropped).length) 0 kind first ts).seq (frame_modEvt _ (fun e => { e with hrmDropped := false })) (by simp))
  have hframe : s.Frame (((s.hostWrite w).returnBuf 8 (8 * (rec s.evt.hrmDropped).length) 0 kind first ts).modEvt
      (fun e => { e with hrmDropped := false })) [.windows, .host] [HIF_RCIDX 8] :=
    ((frame_hostWrite s w).seq ((frame_returnBuf _ 8 _ 0 kind first ts).seq (frame_modEvt _ _))).mono (by simp) (by simp)
  rw [hput']
  refine ⟨h.step hframe (by decide) (by decide) hring ?_ (List.tail_subset _), ?_, (congrArg EvtState.groups hevt :), hframe⟩
  · have hposted := h.posted
    rw [List.length_tail]
    omega
  · exact (State.ringC_returnBuf _ (by decide) ..).trans (congrArg (· + 1) ((frame_hostWrite s w).rd (by simp) (by decide)))

/-- Channel records, one after another. -/
theorem State.RingRoom.hrmPuts (kind : Nat) (first : BitVec 72) (ts : BitVec 64) (rec : State → HrmChan → Bool → List (BitVec 64))
    (hrec : ∀ s c d, (rec s c d).length ≤ 272) : (cs : List HrmChan) → {s : State} → {n : Nat} → s.RingRoom 8 2176 (n + cs.length) →
    s.HrmStep (cs.foldl (fun s c => s.hrmPut kind first ts (rec s c)) s) cs.length n
  | [], s, n, h => ⟨h, by simp, rfl, State.Frame.refl _ _ _⟩
  | c :: cs, s, n, h => by
    have hput := State.RingRoom.hrmPut (n := n + cs.length) h kind first ts (rec s c) (hrec s c)
    have hrest := State.RingRoom.hrmPuts kind first ts rec hrec cs hput.1
    rw [List.length_cons, Nat.add_comm]
    exact hput.trans hrest

/-- The phase sequence is shown, and logged where it changed; a window with unconfirmed samples is counted (R210, R215). -/
def State.phaseShown (s : State) (g : Nat) (unconfirmed : Bool) (code : Nat) : State :=
  let old := s.get (EVT_VGSTAT_PSEQ g)
  let s := if unconfirmed then s.bump EVT_STAT_UNCONFCNT 1 else s.put (EVT_VGSTAT_PSEQ g) code
  if code = old then s else s.event 0x0304 g .momentary code old 0

theorem frame_phaseShown (s : State) (g : Nat) (unconfirmed : Bool) (code : Nat) :
    s.Frame (s.phaseShown g unconfirmed code) [] [EVT_STAT, EVT_VGSTAT g] := by
  have hshown : s.Frame (if unconfirmed then s.bump EVT_STAT_UNCONFCNT 1 else s.put (EVT_VGSTAT_PSEQ g) code) []
      [EVT_STAT, EVT_VGSTAT g] :=
    State.Frame.ite (fun _ => (frame_bump s EVT_STAT_UNCONFCNT 1).mono (by simp) (by simp [EVT_STAT_UNCONFCNT]))
      (fun _ => (frame_put s (EVT_VGSTAT_PSEQ g) code).mono (by simp) (by simp [EVT_VGSTAT_PSEQ]))
  exact State.Frame.ite (fun _ => hshown) (fun _ => (hshown.seq (frame_event _ _ _ _ _ _ _)).mono (by simp) (by simp))

/-- The count of open values is no part of the state. -/
theorem frame_free (s : State) (k : Nat) : s.Frame { s with free := k } [] [] :=
  ⟨fun p _ => by cases p <;> simp [Part.Same, State.framByte], fun _ _ _ => rfl, rfl⟩

/-- What writing a window changes when the HRM ring takes its records (R211, R215). -/
theorem State.RingRoom.writeWindow {s : State} {g : Nat} (hg : g < 8) (w : Window)
    (hroom : s.RingRoom 8 2176 (1 + (s.windowChans g).length)) :
    (s.writeWindow g w).ringC 8 = s.ringC 8 + BitVec.ofNat 32 (1 + (s.windowChans g).length) ∧
      (s.writeWindow g w).evt.groups = s.evt.groups ∧
      s.Frame (s.writeWindow g w) [.windows, .host] [EVT_STAT, EVT_VGSTAT g, HIF_RCIDX 8] := by
  obtain ⟨k, hstate, hlen⟩ := mapState_hrmChan w (s.windowChans g) s
  unfold State.writeWindow
  extract_lets chs volt blank v0 fwin
  split
  next s0 cs heq =>
  rw [heq] at hstate hlen
  extract_lets of_ ref firsts first old bad code s1 s2 s3
  have hcomputed : s.Frame s0 [] [] := by
    rw [show s0 = _ from hstate]
    exact frame_free s k
  have hshown : s.Frame s2 [] [EVT_STAT, EVT_VGSTAT g] := hcomputed.seq (frame_phaseShown s0 g bad code)
  have hroom2 : s2.RingRoom 8 2176 (cs.length + 1) := by
    refine hroom.step hshown ?_ (by decide) ((ringStep_refl s 8).seq hshown (by simp)) ?_ (List.Subset.refl _)
    · simp only [List.mem_cons, List.not_mem_nil, or_false, HIF_RSTAT, HIF_STAT, PWR_STAT, EVT_STAT, EVT_VGSTAT]
      omega
    · exact (Nat.le_of_eq (by rw [show cs.length = _ from hlen, Nat.add_comm])).trans hroom.posted
  have hgroup := hroom2.hrmPut 1 first w.tsStart (hrmGroup g v0 w first cs fwin code) (fun d => by rw [hrmGroup_length]; omega)
  obtain ⟨-, hc, hgroups, hframe⟩ := hgroup.trans (State.RingRoom.hrmPuts (n := 0) 2 first w.tsStart
    (fun s c => s.hrmRecord g w first fwin (volt.contains c.ch) ref c) (fun s c d => (s.hrmRecord_length ..).le) cs
      (by rw [Nat.zero_add]; exact hgroup.1))
  refine ⟨?_, hgroups.trans (hshown.groups (by simp)), (hshown.seq hframe).mono (by simp) (by simp)⟩
  rw [hc, show cs.length = _ from hlen]
  congr 1
  refine hshown.rd ?_ (by decide)
  simp only [List.mem_cons, List.not_mem_nil, or_false, HIF_RCIDX, EVT_STAT, EVT_VGSTAT]
  omega

section
variable {s : State} {g : Nat} {w : Window} {rest : List Window} (hg : g < 8) (hon : s.pdOn 5 = true)
  (hdone : (s.grp g).done = w :: rest) (hnone : (s.grp g).uhalf = [])
include hg hon hdone hnone

theorem exec_windowWrite_eq (hready : ∀ n ∈ s.windowChans g, s.windowReady w n = true) :
    exec (.windowWrite g) s =
      .next (((s.modGrp g (fun r => { r with done := rest })).writeWindow g w).settle s.irqLive) := by
  change execWindowWrite g s = _
  unfold execWindowWrite finish
  beta_reduce
  rw [if_neg (by simp [hon]; omega), hdone]
  dsimp only
  rw [if_neg (by simpa using hready), hnone]
  dsimp only [List.filter_nil, List.length_nil, State.each, List.range_zero, List.foldl_nil]
  rw [hdone]

/-- The oldest complete window leaves its group and goes to the HRM ring. -/
theorem exec_windowWrite_written (hs : s.Sizes) (hready : ∀ n ∈ s.windowChans g, s.windowReady w n = true) (hrun : s.ringRun 8 = true)
    (hdma : s.dmaOn = true) (hroom : (s.windowChans g).length < (s.ring 8).posted.length)
    (hsize : ∀ b ∈ (s.ring 8).posted, 2176 ≤ b.size.toNat) :
    ∃ t, exec (.windowWrite g) s = .next t ∧ (t.grp g).done = rest ∧
      t.ringC 8 = s.ringC 8 + BitVec.ofNat 32 (1 + (s.windowChans g).length) ∧
      s.Frame t [.windows, .host] [EVT_STAT, EVT_VGSTAT g, HIF_RCIDX 8] := by
  obtain ⟨-, -, hgroups, -, -, -, -, -, -, -, hrings, -⟩ := hs
  have htaken := groupStep_modGrp s g (fun r => { r with done := rest })
  have hroom' : (s.modGrp g (fun r => { r with done := rest })).RingRoom 8 2176 (1 + (s.windowChans g).length) :=
    ⟨hrun, hdma, by rw [State.modGrp, State.modEvt_hif, hrings]; decide, by rw [Nat.add_comm]; exact hroom, hsize⟩
  obtain ⟨hc, hkept, hframe⟩ := hroom'.writeWindow hg w
  rw [exec_windowWrite_eq hg hon hdone hnone hready]
  refine ⟨_, rfl, ?_, ?_, ((htaken.frame.seq hframe).mono (by simp) (by simp)).settle _⟩
  · rw [State.grp_of_groups ((State.settle_groups _ _).trans hkept), htaken.grp (hgroups ▸ hg)]
  · exact (State.settle_rd (by decide) _ _).trans hc

end

end Sys2Proof.Machine

open Sys2Proof.Machine in
/-- Settles O41: the oldest half cycle is acted on or waits, and the oldest complete window is written where its ring takes it. -/
theorem windowsAndHalfCycles : Obligations.WindowsAndHalfCycles := by
  unfold Obligations.WindowsAndHalfCycles
  refine fun s g hg hon hs => ⟨fun u rest hopen => ⟨fun hresolved hknown => ?_, fun hwaits => ?_⟩,
    fun w rest hdone hnone hready hrun hdma hroom hsize => ?_⟩
  · exact exec_halfCycleDecision_decides hg hon hopen hs hresolved hknown
  · exact exec_halfCycleDecision_waits hg hon hopen hwaits
  · exact exec_windowWrite_written hg hon hdone hnone hs hready hrun hdma hroom hsize

end

section
/-!
SUPPORT. Pulse outputs (R223 to R226): what an output's amounts, slots and edges make of it.
-/

namespace Sys2Proof.Machine

theorem State.cf_of_part {s t : State} (h : t.pio.cf = s.pio.cf) (n : Nat) : t.cf n = s.cf n := by unfold State.cf; rw [h]

theorem State.cf_modCf_self (s : State) {n : Nat} (f : CfState → CfState) (hn : n < s.pio.cf.length) :
    (s.modCf n f).cf n = f (s.cf n) := by
  simp [State.cf, State.modCf, List.getD_eq_getElem?_getD, hn]

theorem State.modCf_length (s : State) (n : Nat) (f : CfState → CfState) : (s.modCf n f).pio.cf.length = s.pio.cf.length :=
  List.length_modify ..

@[simp] theorem State.reach_flag (s : State) (t : Nat) (f : Fld) : (s.reach t).flag f = s.flag f := rfl

/-- The end of a command leaves the pulse outputs. -/
theorem State.settle_cf (s : State) (b n : Nat) : (s.settle b).cf n = s.cf n := State.cf_of_part (State.settle_same s b .pulses) n

/-- The status and the count of a pulse output are no registers that the end of a command may change. -/
theorem endReg_cf : ∀ n < 16, endReg (PIO_CFSTAT n) = false ∧ endReg (PIO_CFCNT n) = false := by decide

/-- Pulse constants hold as the boundary took them (R222). -/
theorem State.cfK_of_exp {s t : State} (h : t.exp = s.exp) (n : Nat) : t.cfK n = s.cfK n := by
  unfold State.cfK State.effGet; rw [h]

/-- The amount an output holds: its accumulator and the pulses not yet risen (R223, R224). -/
def State.cfAmount (s : State) (n : Nat) : Int := (s.cf n).acc + ((s.cfK n * (s.cf n).sched.length : Nat) : Int)

theorem cfSchedule_length (t k : Nat) (half : Bool) (width : Nat) (high : Option (Nat × Nat)) :
    (cfSchedule t k half width high).length = k := by simp [cfSchedule]

section
variable {s : State} {n : Nat} (hn : n < s.pio.cf.length)
include hn

theorem State.cfAdd_cf (d : Int) : (s.cfAdd n d).cf n = { s.cf n with acc := (s.cf n).acc + d } := by
  rw [← s.cf_modCf_self (fun c => { c with acc := c.acc + d }) hn]
  simp [State.cfAdd, State.cf]

theorem State.cfAdd_debt (d : Int) : (s.cfAdd n d).flag (PIO_CFSTAT_DEBT n) = decide (((s.cfAdd n d).cf n).acc < 0) := by
  rw [State.cfAdd_cf hn, State.cfAdd, s.cf_modCf_self _ hn]
  exact State.flag_setFlag_self _ (PIO_CFSTAT_DEBT n) _ (by simp [PIO_CFSTAT_DEBT]) (by simp [PIO_CFSTAT_DEBT])

omit hn in
theorem State.cfAdd_length (d : Int) : (s.cfAdd n d).pio.cf.length = s.pio.cf.length := by
  simp [State.cfAdd, State.modCf_length]

omit hn in
theorem State.cfCancel_length : (s.cfCancel n).pio.cf.length = s.pio.cf.length := by
  unfold State.cfCancel
  dsimp only
  split
  · rfl
  · rw [State.cfAdd_length, State.modCf_length]

/-- Each cancelled pulse gives its constant back to the accumulator. -/
theorem State.cfCancel_cf :
    (s.cfCancel n).cf n = { s.cf n with sched := [], acc := s.cfAmount n } := by
  unfold State.cfCancel State.cfAmount
  dsimp only
  split
  · next hnone =>
    generalize s.cf n = c at hnone ⊢
    cases c
    simp_all
  · rw [State.cfAdd_cf (by rwa [State.modCf_length]), s.cf_modCf_self _ hn, Nat.mul_comm]

end

/-! The slot of an output (R224, R225) -/

/-- A slot takes `k` pulses out of the accumulator. -/
def State.slotTaken (s : State) (n t k : Nat) (half : Bool) (width : Nat) : State :=
  (s.modCf n (fun c => { c with slotEnd := t + 32768, sched := cfSchedule t k half width c.high })).cfAdd n
    (-((k * s.cfK n : Nat) : Int))

/-- BACKLOG and its event follow whether a slot leaves whole pulses, `k` of `d`, in the accumulator (R225). -/
def State.backlogShown (s : State) (n k d : Nat) : State :=
  if k < d then
    (if s.flag (PIO_CFSTAT_BACKLOG n) then s else (s.setFlag (PIO_CFSTAT_BACKLOG n) true).event 0x0A01 n .start d k 0)
  else if s.flag (PIO_CFSTAT_BACKLOG n) then (s.setFlag (PIO_CFSTAT_BACKLOG n) false).event 0x0A01 n .stop 0 0 0
  else s

theorem State.cfSlotAt_eq (s : State) (n t : Nat) : ∃ k half width d,
    s.cfSlotAt n t = ((s.cfCancel n).slotTaken n t k half width).backlogShown n k d := ⟨_, _, _, _, rfl⟩

theorem frame_slotTaken (s : State) (n t k : Nat) (half : Bool) (width : Nat) :
    s.Frame (s.slotTaken n t k half width) [.pulses] [PIO_CFSTAT n] :=
  ((frame_modCf s n _).seq (frame_cfAdd _ n _)).mono (by simp) (by simp)

theorem State.slotTaken_cf {s : State} {n : Nat} (hn : n < s.pio.cf.length) (t k : Nat) (half : Bool) (width : Nat) :
    (s.slotTaken n t k half width).cf n =
      { s.cf n with
        slotEnd := t + 32768, sched := cfSchedule t k half width (s.cf n).high, acc := (s.cf n).acc - ((k * s.cfK n : Nat) : Int) } := by
  rw [State.slotTaken, State.cfAdd_cf (by rwa [State.modCf_length]), s.cf_modCf_self _ hn, Int.sub_eq_add_neg]

/-- What shows the backlog is BACKLOG itself, set or cleared with its event. -/
theorem State.backlogShown_cases (s : State) (n k d : Nat) :
    s.backlogShown n k d = s ∨ ∃ on g x y, s.backlogShown n k d = (s.setFlag (PIO_CFSTAT_BACKLOG n) on).event 0x0A01 n g x y 0 := by
  unfold State.backlogShown
  split <;> split
  · exact .inl rfl
  · exact .inr ⟨_, _, _, _, rfl⟩
  · exact .inr ⟨_, _, _, _, rfl⟩
  · exact .inl rfl

theorem frame_backlogShown (s : State) (n k d : Nat) : s.Frame (s.backlogShown n k d) [] [PIO_CFSTAT n] := by
  rcases s.backlogShown_cases n k d with heq | ⟨on, g, x, y, heq⟩ <;> rw [heq]
  · exact State.Frame.refl _ _ _
  · exact ((frame_setFlag s (PIO_CFSTAT_BACKLOG n) on).seq (frame_event _ _ _ _ _ _ _)).mono (by simp) (by simp [PIO_CFSTAT_BACKLOG])

theorem State.backlogShown_debt (s : State) (n k d : Nat) :
    (s.backlogShown n k d).flag (PIO_CFSTAT_DEBT n) = s.flag (PIO_CFSTAT_DEBT n) := by
  rcases s.backlogShown_cases n k d with heq | ⟨on, g, x, y, heq⟩ <;> rw [heq]
  rw [State.event_flag]
  exact State.flag_setFlag_other _ _ _ _ (by simp [PIO_CFSTAT_BACKLOG]) (by simp [PIO_CFSTAT_BACKLOG, PIO_CFSTAT_DEBT])

theorem frame_cfSlotAt (s : State) (n t : Nat) : s.Frame (s.cfSlotAt n t) [.pulses] [PIO_CFSTAT n] := by
  obtain ⟨k, half, width, d, heq⟩ := s.cfSlotAt_eq n t
  rw [heq]
  exact (((frame_cfCancel s n).seq (frame_slotTaken _ n t k half width)).seq (frame_backlogShown _ n k d)).mono (by simp) (by simp)

/-- A slot turns whole pulse constants of the accumulator into pulses: the output keeps its amount, and DEBT follows. -/
theorem State.cfSlotAt_shown {s : State} {n : Nat} (hn : n < s.pio.cf.length) (t : Nat) :
    ((s.cfSlotAt n t).cf n).due = (s.cf n).due ∧ ((s.cfSlotAt n t).cf n).slotEnd = t + 32768 ∧
      ((s.cfSlotAt n t).cf n).acc + ((s.cfK n * ((s.cfSlotAt n t).cf n).sched.length : Nat) : Int) = s.cfAmount n ∧
      (s.cfSlotAt n t).flag (PIO_CFSTAT_DEBT n) = decide (((s.cfSlotAt n t).cf n).acc < 0) := by
  obtain ⟨k, half, width, d, heq⟩ := s.cfSlotAt_eq n t
  have hcancel := (State.cfCancel_length (s := s) (n := n)).symm ▸ hn
  have hK : (s.cfCancel n).cfK n = s.cfK n := State.cfK_of_exp ((frame_cfCancel s n).part (p := .exposure) (by simp)) n
  have hcf : (s.cfSlotAt n t).cf n = ((s.cfCancel n).slotTaken n t k half width).cf n := by
    rw [heq]; exact State.cf_of_part ((frame_backlogShown _ n k d).part (p := .pulses) (by simp)) n
  refine ⟨?_, ?_, ?_, ?_⟩
  · rw [hcf, State.slotTaken_cf hcancel, State.cfCancel_cf hn]
  · rw [hcf, State.slotTaken_cf hcancel]
  · rw [hcf, State.slotTaken_cf hcancel, State.cfCancel_cf hn, hK, cfSchedule_length, Nat.mul_comm k]
    exact Int.sub_add_cancel _ _
  · rw [hcf, heq, State.backlogShown_debt, State.slotTaken, State.cfAdd_debt (by rwa [State.modCf_length])]

end Sys2Proof.Machine
end

section
/-!
Settles O42 (R223 to R226).  A slot that is due starts or passes, and an edge of a pulse falls or rises.
-/

namespace Sys2Proof.Machine

section
variable {s : State} {n x h : Nat}

/-! CF_SLOT (R224 to R226) -/

/-- A due slot leaves the list of those due. -/
def State.slotReached (s : State) (n x : Nat) (rest : List Nat) : State := (s.reach x).modCf n (fun c => { c with due := rest })

/-- Before a slot starts the ball takes the level of the pulse that is high, or stays released on a standby (R446). -/
def State.slotBall (s : State) (n : Nat) : State :=
  s.modCf n (fun c => { c with ball := if s.mirStandby then none else some c.high.isSome })

theorem exec_cfSlot_starts {rest : List Nat} (hdue : (s.cf n).due = x :: rest) (hrun : s.flag (PIO_CFSTAT_RUN n) = true)
    (hsafe : s.inSafe = false) :
    exec (.cfSlot n) s = .next ((((s.slotReached n x rest).slotBall n).cfSlotAt n x).settle s.irqLive) := by
  change execCfSlot n s = _
  unfold execCfSlot finish
  beta_reduce
  rw [hdue]
  dsimp only
  rw [if_neg (by simpa [State.inSafe] using ⟨hrun, hsafe⟩)]
  rfl

theorem exec_cfSlot_passes {rest : List Nat} (hdue : (s.cf n).due = x :: rest)
    (hno : s.flag (PIO_CFSTAT_RUN n) = false ∨ s.inSafe = true) :
    exec (.cfSlot n) s = .next ((s.slotReached n x rest).settle s.irqLive) := by
  change execCfSlot n s = _
  unfold execCfSlot finish
  beta_reduce
  rw [hdue]
  dsimp only
  rw [if_pos (by simpa [State.inSafe] using hno)]
  rfl

theorem frame_slotReached (rest : List Nat) : (s.reach x).Frame (s.slotReached n x rest) [.pulses] [] := frame_modCf _ _ _

theorem State.slotReached_cf (hn : n < s.pio.cf.length) (rest : List Nat) :
    (s.slotReached n x rest).cf n = { s.cf n with due := rest } := State.cf_modCf_self (s.reach x) _ hn

theorem exec_cfSlot_shown (hs : s.Sizes) (hn : n < 16) {rest : List Nat} (hdue : (s.cf n).due = x :: rest)
    (hrun : s.flag (PIO_CFSTAT_RUN n) = true) (hsafe : s.inSafe = false) :
    ∃ t, exec (.cfSlot n) s = .next t ∧ (t.cf n).due = rest ∧ (t.cf n).slotEnd = x + 32768 ∧
      (t.cf n).acc + ((s.cfK n * (t.cf n).sched.length : Nat) : Int) = s.cfAmount n ∧
      t.flag (PIO_CFSTAT_DEBT n) = decide ((t.cf n).acc < 0) ∧ (s.reach x).Frame t [.pulses] [PIO_CFSTAT n] := by
  obtain ⟨-, -, -, hlen, -⟩ := hs
  have hlen' : n < ((s.slotReached n x rest).slotBall n).pio.cf.length := by
    rw [State.slotBall, State.modCf_length, State.slotReached, State.modCf_length]; exact hlen ▸ hn
  have hcf : ((s.slotReached n x rest).slotBall n).cf n =
      { s.cf n with due := rest, ball := if (s.slotReached n x rest).mirStandby then none else some (s.cf n).high.isSome } := by
    rw [State.slotBall, State.cf_modCf_self _ _ (by rw [State.slotReached, State.modCf_length]; exact hlen ▸ hn),
      State.slotReached_cf (hlen ▸ hn)]
  obtain ⟨hrest, hend, hamount, hdebt⟩ := State.cfSlotAt_shown hlen' x
  rw [State.cfAmount, hcf] at hamount
  rw [hcf] at hrest
  rw [exec_cfSlot_starts hdue hrun hsafe]
  refine ⟨_, rfl, ?_, ?_, ?_, ?_, (((frame_slotReached rest).seq ((frame_modCf _ _ _).seq (frame_cfSlotAt _ n x))).mono (by simp)
    (by simp)).settle _⟩
  · rw [State.settle_cf, hrest]
  · rw [State.settle_cf, hend]
  · rw [State.settle_cf]; exact hamount
  · rw [State.settle_cf, State.settle_flag (endReg_cf n hn).1 _ _ _ rfl, hdebt]

theorem exec_cfSlot_skipped (hs : s.Sizes) (hn : n < 16) {rest : List Nat} (hdue : (s.cf n).due = x :: rest)
    (hno : s.flag (PIO_CFSTAT_RUN n) = false ∨ s.inSafe = true) :
    ∃ t, exec (.cfSlot n) s = .next t ∧ (t.cf n).due = rest ∧ (t.cf n).sched = (s.cf n).sched ∧ (t.cf n).acc = (s.cf n).acc ∧
      (s.reach x).Frame t [.pulses] [] := by
  obtain ⟨-, -, -, hlen, -⟩ := hs
  rw [exec_cfSlot_passes hdue hno]
  refine ⟨_, rfl, ?_, ?_, ?_, (frame_slotReached rest).settle _⟩ <;> rw [State.settle_cf, State.slotReached_cf (hlen ▸ hn)]

/-! CF_PULSE_EDGE (R224, R226) -/

/-- An output whose high pulse falls. -/
def CfState.fallen (c : CfState) : CfState :=
  { c with high := none, stopping := false, ball := if c.stopping ∨ c.ball.isNone then none else some false }

/-- An output whose next pulse rises at `x`, for `h`. -/
def CfState.risen (c : CfState) (x h : Nat) (rest : List (Nat × Nat)) (ball : Option Bool) : CfState :=
  { c with high := some (x + h, h), sched := rest, lastRise := some x, ball := ball }

/-- The pulse that is high falls. -/
def State.pulseFallen (s : State) (n : Nat) : State := (s.modCf n CfState.fallen).setFlag (PIO_CFSTAT_HIGH n) false

/-- The next pulse rises and is counted. -/
def State.pulseRisen (s : State) (n x h : Nat) (rest : List (Nat × Nat)) : State :=
  ((s.modCf n (fun c => c.risen x h rest (if s.mirStandby then none else some true))).setFlag (PIO_CFSTAT_HIGH n) true).wr
    (PIO_CFCNT n) (s.rd (PIO_CFCNT n) + 1)

theorem exec_cfPulseEdge_falls (hhigh : (s.cf n).high = some (x, h)) :
    exec (.cfPulseEdge n) s = .next (((s.reach x).pulseFallen n).settle s.irqLive) := by
  change Host.Outcome.next ((s.cfEdge n).settle s.irqLive) = _
  unfold State.cfEdge
  dsimp only
  rw [hhigh]
  rfl

theorem exec_cfPulseEdge_rises {rest : List (Nat × Nat)} (hlow : (s.cf n).high = none) (hsched : (s.cf n).sched = (x, h) :: rest) :
    exec (.cfPulseEdge n) s = .next (((s.reach x).pulseRisen n x h rest).settle s.irqLive) := by
  change Host.Outcome.next ((s.cfEdge n).settle s.irqLive) = _
  unfold State.cfEdge
  dsimp only
  rw [hlow, hsched]
  rfl

theorem frame_pulseFallen (s : State) (n : Nat) : s.Frame (s.pulseFallen n) [.pulses] [PIO_CFSTAT n] :=
  ((frame_modCf s n _).seq (frame_setFlag _ (PIO_CFSTAT_HIGH n) false)).mono (by simp) (by simp [PIO_CFSTAT_HIGH])

theorem frame_pulseRisen (s : State) (n x h : Nat) (rest : List (Nat × Nat)) :
    s.Frame (s.pulseRisen n x h rest) [.pulses] [PIO_CFSTAT n, PIO_CFCNT n] :=
  (((frame_modCf s n _).seq (frame_setFlag _ (PIO_CFSTAT_HIGH n) true)).seq (frame_wr _ (PIO_CFCNT n) _)).mono (by simp)
    (by simp [PIO_CFSTAT_HIGH])

theorem exec_cfPulseEdge_fallen (hs : s.Sizes) (hn : n < 16) (hhigh : (s.cf n).high = some (x, h)) :
    ∃ t, exec (.cfPulseEdge n) s = .next t ∧ (t.cf n).high = none ∧ t.flag (PIO_CFSTAT_HIGH n) = false ∧
      t.rd (PIO_CFCNT n) = s.rd (PIO_CFCNT n) ∧ (s.reach x).Frame t [.pulses] [PIO_CFSTAT n] := by
  obtain ⟨-, -, -, hlen, -⟩ := hs
  obtain ⟨hstat, hcnt⟩ := endReg_cf n hn
  have hframe := (frame_pulseFallen (s.reach x) n).settle s.irqLive
  have hcf : ((s.reach x).pulseFallen n).cf n = (s.cf n).fallen :=
    (State.cf_of_part (by simp [State.pulseFallen]) n).trans (State.cf_modCf_self (s.reach x) _ (hlen ▸ hn))
  rw [exec_cfPulseEdge_falls hhigh]
  refine ⟨_, rfl, ?_, ?_, hframe.rd (by simp [PIO_CFCNT, PIO_CFSTAT]) hcnt, hframe⟩
  · rw [State.settle_cf, hcf]; rfl
  · rw [State.settle_flag hstat _ _ _ rfl]
    exact State.flag_setFlag_self _ (PIO_CFSTAT_HIGH n) false (by simp [PIO_CFSTAT_HIGH]) (by simp [PIO_CFSTAT_HIGH])

theorem exec_cfPulseEdge_risen (hs : s.Sizes) (hn : n < 16) {rest : List (Nat × Nat)} (hlow : (s.cf n).high = none)
    (hsched : (s.cf n).sched = (x, h) :: rest) :
    ∃ t, exec (.cfPulseEdge n) s = .next t ∧ (t.cf n).high = some (x + h, h) ∧ (t.cf n).sched = rest ∧
      (t.cf n).lastRise = some x ∧ t.flag (PIO_CFSTAT_HIGH n) = true ∧ t.rd (PIO_CFCNT n) = s.rd (PIO_CFCNT n) + 1 ∧
      (s.reach x).Frame t [.pulses] [PIO_CFSTAT n, PIO_CFCNT n] := by
  obtain ⟨-, -, -, hlen, -⟩ := hs
  obtain ⟨hstat, hcnt⟩ := endReg_cf n hn
  have hcf : ((s.reach x).pulseRisen n x h rest).cf n = (s.cf n).risen x h rest (if (s.reach x).mirStandby then none else some true) :=
    (State.cf_of_part (by simp [State.pulseRisen]) n).trans
      (State.cf_modCf_self (s.reach x) (fun c => c.risen x h rest (if (s.reach x).mirStandby then none else some true)) (hlen ▸ hn))
  rw [exec_cfPulseEdge_rises hlow hsched]
  refine ⟨_, rfl, ?_, ?_, ?_, ?_, ?_, (frame_pulseRisen (s.reach x) n x h rest).settle _⟩
  · rw [State.settle_cf, hcf]; rfl
  · rw [State.settle_cf, hcf]; rfl
  · rw [State.settle_cf, hcf]; rfl
  · rw [State.settle_flag hstat _ _ _ rfl, State.pulseRisen, State.flag, State.get, State.rd_wr,
      if_neg (by simp [PIO_CFCNT, PIO_CFSTAT_HIGH, PIO_CFSTAT])]
    exact State.flag_setFlag_self _ (PIO_CFSTAT_HIGH n) true (by simp [PIO_CFSTAT_HIGH]) (by simp [PIO_CFSTAT_HIGH])
  · rw [State.settle_rd hcnt, State.pulseRisen, State.rd_wr, if_pos rfl]
    rfl

end

end Sys2Proof.Machine

open Sys2Proof.Machine in
/-- Settles O42: a slot moves whole pulse constants between the accumulator and the pulses not yet risen, and an edge falls or rises. -/
theorem calibrationPulsesKeepTheirAmount : Obligations.CalibrationPulsesKeepTheirAmount := by
  unfold Obligations.CalibrationPulsesKeepTheirAmount
  refine fun s n hn hs => ⟨fun x rest hdue => ⟨?_, ?_⟩, ?_, ?_⟩
  · rintro hrun hsafe _ rfl
    exact exec_cfSlot_shown hs hn hdue hrun hsafe
  · rintro hno _ rfl
    exact exec_cfSlot_skipped hs hn hdue hno
  · rintro fall h hhigh _ rfl
    exact exec_cfPulseEdge_fallen hs hn hhigh
  · rintro x h rest hlow hsched _ rfl
    exact exec_cfPulseEdge_risen hs hn hlow hsched

end

section
/-!
SUPPORT. Trip outputs (R228 to R232): what the operations on one output change of it, and that they leave the others.
-/

namespace Sys2Proof.Machine

/-! One field of a register -/

/-- A one-bit field of a register's value, as `State.flag` reads it. -/
def flagIn (v : BitVec 32) (f : Fld) : Bool := fieldOf v f != 0

theorem State.flag_eq_flagIn (s : State) (f : Fld) : s.flag f = flagIn (s.rd f.off) f := rfl

theorem State.flag_of_rd {s t : State} {f : Fld} (h : t.rd f.off = s.rd f.off) : t.flag f = s.flag f := by
  rw [State.flag_eq_flagIn, h, State.flag_eq_flagIn]

/-- A field of one bit is that bit. -/
theorem flagIn_eq_bitAt (v : BitVec 32) (off lsb : Nat) : flagIn v ⟨off, lsb, 1⟩ = bitAt v.toNat lsb := by
  have hbit := Nat.mod_two_eq_zero_or_one (v.toNat / 2 ^ lsb)
  unfold flagIn fieldOf bitAt
  rcases hbit with h | h <;> simp [h]

/-- A bit within a field that starts at bit 0 is that bit of the register. -/
theorem bitAt_fieldOf_zero (v : BitVec 32) (off : Nat) {width i : Nat} (hi : i < width) :
    bitAt (fieldOf v ⟨off, 0, width⟩) i = bitAt v.toNat i := by
  simp [bitAt_eq_testBit, fieldOf, Nat.testBit_mod_two_pow, hi]

/-! Repetition over the outputs -/

theorem State.each_succ (k : Nat) (f : Nat → State → State) (s : State) : State.each (k + 1) f s = f k (State.each k f s) := by
  simp [State.each, List.range_succ]

theorem State.each_keeps {N : Nat} {f : Nat → State → State} {P : State → Prop} {s : State} (h : P s)
    (hstep : ∀ i, i < N → ∀ u, P u → P (f i u)) : P (State.each N f s) :=
  List.foldlRecOn (List.range N) _ h (fun u hu i hi => hstep i (List.mem_range.mp hi) u hu)

/-- A repetition that comes to `n` with `A n` leaves it with `B`, which the rest keeps. -/
theorem State.each_through {N n : Nat} (hn : n < N) {f : Nat → State → State} {A : Nat → State → Prop} {B : State → Prop}
    {s : State} (h : A 0 s) (hbefore : ∀ i, i < n → ∀ u, A i u → A (i + 1) (f i u)) (hat : ∀ u, A n u → B (f n u))
    (hafter : ∀ i, n < i → i < N → ∀ u, B u → B (f i u)) : B (State.each N f s) := by
  have hall : ∀ k, k ≤ N → (k ≤ n → A k (State.each k f s)) ∧ (n < k → B (State.each k f s)) := by
    intro k
    induction k with
    | zero => exact fun _ => ⟨fun _ => h, fun hk => by omega⟩
    | succ k ih =>
      intro hk
      obtain ⟨ihA, ihB⟩ := ih (by omega)
      rw [State.each_succ]
      refine ⟨fun hkn => hbefore k hkn _ (ihA (by omega)), fun hnk => ?_⟩
      rcases Nat.lt_or_eq_of_le (Nat.le_of_lt_succ hnk) with hlt | rfl
      · exact hafter k hlt hk _ (ihB hlt)
      · exact hat _ (ihA le_rfl)
  exact (hall N le_rfl).2 hn

/-! Steps that change trip outputs alone -/

/-- Trip outputs and events that are no trip sources are all that differs: what trips an output, its settings and the time are the
same. -/
structure State.TripsOnly (s t : State) : Prop where
  frame : s.Frame t [] []
  active : t.evt.active = s.evt.active
  pulses : t.evt.pulses = s.evt.pulses
  length : t.pio.trip.length = s.pio.trip.length

/-- Trip output `m` alone may differ; each other one has its state and its status. -/
structure State.TripStep (s t : State) (m : Nat) : Prop where
  only : s.TripsOnly t
  other : ∀ i, i ≠ m → t.trip i = s.trip i ∧ t.rd (PIO_TRSTAT i) = s.rd (PIO_TRSTAT i)

/-- The settings of a trip output and the sources' selections are no registers that the end of a command may change. -/
theorem endReg_trip : ∀ n < 8, endReg (PIO_TRCFG n) = false ∧ ∀ i < 4, endReg (PIO_TRSRC n i) = false := by decide

section
variable {s t u : State} {m n : Nat}

theorem State.TripsOnly.refl (s : State) : s.TripsOnly s := ⟨State.Frame.refl s _ _, rfl, rfl, rfl⟩

theorem State.TripsOnly.trans (h : s.TripsOnly t) (k : t.TripsOnly u) : s.TripsOnly u :=
  ⟨h.frame.trans k.frame, k.active.trans h.active, k.pulses.trans h.pulses, k.length.trans h.length⟩

theorem State.TripsOnly.exp (h : s.TripsOnly t) : t.exp = s.exp := h.frame.part (p := .exposure) (by simp)

theorem State.TripsOnly.flag (h : s.TripsOnly t) (f : Fld) (he : endReg f.off = false) : t.flag f = s.flag f :=
  h.frame.flag f (by simp) he

theorem State.TripsOnly.sources (h : s.TripsOnly t) (hn : n < 8) : t.tripSources n = s.tripSources n := by
  obtain ⟨hframe, hactive, hpulses, -⟩ := h
  obtain ⟨-, hsrc⟩ := endReg_trip n hn
  refine List.foldl_ext _ _ _ (fun acc i hi => ?_)
  have hreg := hsrc i (List.mem_range.mp hi)
  rw [hframe.flag (PIO_TRSRC_SEN n i) (by simp) hreg, hframe.get (PIO_TRSRC_CODE n i) (by simp) hreg,
    hframe.get (PIO_TRSRC_INDEX n i) (by simp) hreg, hframe.flag (PIO_TRSRC_ANYIDX n i) (by simp) hreg,
    State.sourceActive, State.sourceActive, hactive, hpulses]

/-- Whether the outputs are off is up to the safe state and the link (R232, R446). -/
theorem State.Frame.outputsOff {ps : List Part} {os : List Nat} (h : s.Frame t ps os) (hlink : Part.link ∉ ps)
    (hregs : SAF_STAT ∉ os ∧ TZL_STAT ∉ os) : t.outputsOff = s.outputsOff := by
  have htzl : ({ t.tzl with fwd := [] } : TzlState) = { s.tzl with fwd := [] } := h.part (p := .link) hlink
  have hmode : t.tzl.mode = s.tzl.mode := (congrArg TzlState.mode htzl :)
  rw [State.outputsOff, State.outputsOff, State.inSafe, State.inSafe, State.mirStandby, State.mirStandby, hmode,
    h.flag SAF_STAT_SAFE hregs.1 (by decide), h.flag TZL_STAT_ACTIVE hregs.2 (by decide)]

theorem State.TripsOnly.outputsOff (h : s.TripsOnly t) : t.outputsOff = s.outputsOff := h.frame.outputsOff (by simp) (by simp)

theorem State.TripStep.refl (s : State) (m : Nat) : s.TripStep s m := ⟨State.TripsOnly.refl s, fun _ _ => ⟨rfl, rfl⟩⟩

theorem State.TripStep.trans (h : s.TripStep t m) (k : t.TripStep u m) : s.TripStep u m := by
  refine ⟨h.only.trans k.only, fun i hi => ?_⟩
  obtain ⟨htrip, hstat⟩ := h.other i hi
  obtain ⟨ktrip, kstat⟩ := k.other i hi
  exact ⟨ktrip.trans htrip, kstat.trans hstat⟩

end

/-! The state of an output, its registers, and events -/

theorem State.trip_of_part {s t : State} (h : t.pio.trip = s.pio.trip) (n : Nat) : t.trip n = s.trip n := by unfold State.trip; rw [h]

@[simp] theorem State.setFlag_trip (s : State) (f : Fld) (b : Bool) (n : Nat) : (s.setFlag f b).trip n = s.trip n := rfl

@[simp] theorem State.bump_trip (s : State) (f : Fld) (k n : Nat) : (s.bump f k).trip n = s.trip n := rfl

@[simp] theorem State.event_trip (s : State) (c i : Nat) (g : EvEdge) (p0 p1 p2 n : Nat) : (s.event c i g p0 p1 p2).trip n = s.trip n :=
  State.trip_of_part (by simp) n

theorem State.modTrip_length (s : State) (m : Nat) (f : TripState → TripState) : (s.modTrip m f).pio.trip.length = s.pio.trip.length :=
  List.length_modify ..

theorem State.trip_modTrip_self (s : State) {n : Nat} (f : TripState → TripState) (hn : n < s.pio.trip.length) :
    (s.modTrip n f).trip n = f (s.trip n) := by
  simp [State.trip, State.modTrip, List.getD_eq_getElem?_getD, hn]

theorem State.trip_modTrip_ne (s : State) {m i : Nat} (f : TripState → TripState) (hi : i ≠ m) : (s.modTrip m f).trip i = s.trip i := by
  simp [State.trip, State.modTrip, List.getD_eq_getElem?_getD, hi.symm]

theorem tripStep_modTrip (s : State) (m : Nat) (f : TripState → TripState) : s.TripStep (s.modTrip m f) m :=
  ⟨⟨frame_modTrip s m f, rfl, rfl, s.modTrip_length m f⟩, fun _ hi => ⟨s.trip_modTrip_ne f hi, rfl⟩⟩

/-- A write of an output's status or count. -/
theorem tripStep_wr (s : State) {m off : Nat} (v : BitVec 32) (hm : m < 8) (hoff : off = PIO_TRSTAT m ∨ off = PIO_TRCNT m) :
    s.TripStep (s.wr off v) m := by
  have hend : endReg off = true := by
    rcases hoff with rfl | rfl
    · exact endReg_trstat hm
    · exact endReg_trcnt hm
  refine ⟨⟨frame_wr_endReg s off v hend, rfl, rfl, rfl⟩, fun i hi => ⟨rfl, ?_⟩⟩
  rw [State.rd_wr, if_neg]
  unfold PIO_TRSTAT PIO_TRCNT at *
  omega

theorem tripStep_setFlag (s : State) {m : Nat} (hm : m < 8) (f : Fld) (b : Bool) (hf : f.off = PIO_TRSTAT m) :
    s.TripStep (s.setFlag f b) m := tripStep_wr s _ hm (.inl hf)

/-- An event that is no trip source leaves the sources. -/
theorem State.event_sources (s : State) {c : Nat} (hc : tripCodes.contains c = false) (i : Nat) (g : EvEdge) (p0 p1 p2 : Nat) :
    (s.event c i g p0 p1 p2).evt.active = s.evt.active ∧ (s.event c i g p0 p1 p2).evt.pulses = s.evt.pulses := by
  unfold State.event State.eventT State.eventX State.trackSource
  dsimp only
  rw [hc]
  split <;> exact ⟨rfl, rfl⟩

theorem tripStep_event (s : State) {c : Nat} (hc : tripCodes.contains c = false) (m i : Nat) (g : EvEdge) (p0 p1 p2 : Nat) :
    s.TripStep (s.event c i g p0 p1 p2) m := by
  obtain ⟨hactive, hpulses⟩ := s.event_sources hc i g p0 p1 p2
  exact ⟨⟨frame_event s c i g p0 p1 p2, hactive, hpulses, by simp⟩,
    fun _ _ => ⟨State.trip_of_part (by simp) _, State.event_rd ..⟩⟩

/-! The tripped condition (R228, R230) -/

/-- An output has a cause: its host bit or an active source. -/
def State.tripCause (s : State) (n : Nat) : Bool := bitAt (s.get PIO_TRHOST_HOST) n || s.tripSources n != 0

/-- A cause undoes an acknowledge and LATCHED. -/
def State.tripHeld (s : State) (n : Nat) : State :=
  (s.modTrip n (fun t => { t with acked := false })).setFlag (PIO_TRSTAT_LATCHED n) false

/-- An output is tripped until `u` at least. -/
def State.tripStarted (s : State) (n u p : Nat) : State :=
  ((((s.tripHeld n).modTrip n (fun t => { t with tripped := true, minUntil := some u })).setFlag (PIO_TRSTAT_TRIPPED n) true).bump
    (PIO_TRCNT_TRCNT n) 1).event 0x0A03 n .start p 0 0

/-- A trip ends. -/
def State.tripEnded (s : State) (n : Nat) : State :=
  (((s.modTrip n (fun t => { t with tripped := false, acked := false, minUntil := none })).setFlag (PIO_TRSTAT_TRIPPED n) false).setFlag
    (PIO_TRSTAT_LATCHED n) false).event 0x0A03 n .stop 0 0 0

section
variable {s : State} {n : Nat}

theorem State.tripState_disabled (hen : s.flag (PIO_TRCFG_EN n) = false) : s.tripState n = s := by
  unfold State.tripState; rw [if_pos (by simp [hen])]

theorem State.tripState_of_cause (hen : s.flag (PIO_TRCFG_EN n) = true) (hcause : s.tripCause n = true) :
    ∃ u p, s.tripState n = if (s.trip n).tripped then s.tripHeld n else s.tripStarted n u p := by
  unfold State.tripState
  dsimp only
  rw [if_neg (by simp [hen]), if_pos (by rwa [State.tripCause] at hcause)]
  exact ⟨_, _, rfl⟩

theorem State.tripState_idle (hcause : s.tripCause n = false) (hopen : (s.trip n).tripped = false) : s.tripState n = s := by
  unfold State.tripState
  dsimp only
  split
  · rfl
  · rw [if_neg (by rw [← State.tripCause, hcause]; decide), if_pos (by simp [hopen])]

/-- Without a cause a trip ends after its minimum time, unless LATCH holds it for an acknowledge. -/
theorem State.tripState_released (hen : s.flag (PIO_TRCFG_EN n) = true) (hcause : s.tripCause n = false)
    (htripped : (s.trip n).tripped = true) (hmin : ∀ u, (s.trip n).minUntil = some u → u ≤ s.exp.now) :
    s.tripState n =
      if s.flag (PIO_TRCFG_LATCH n) && !(s.trip n).acked then s.setFlag (PIO_TRSTAT_LATCHED n) true else s.tripEnded n := by
  unfold State.tripState
  dsimp only
  rw [if_neg (by simp [hen]), if_neg (by rw [← State.tripCause, hcause]; decide), if_neg (by simp [htripped]), if_neg]
  · rfl
  · split
    · next u hu => simpa using hmin u hu
    · decide

theorem State.tripState_waiting {u : Nat} (hcause : s.tripCause n = false) (hmin : (s.trip n).minUntil = some u) (hwait : s.exp.now < u) :
    s.tripState n = s := by
  unfold State.tripState
  dsimp only
  split
  · rfl
  rw [if_neg (by rw [← State.tripCause, hcause]; decide)]
  split
  · rfl
  · rw [if_pos (by rw [hmin]; exact decide_eq_true hwait)]

theorem State.tripState_cases (s : State) (n : Nat) :
    s.tripState n = s ∨ s.tripState n = s.tripHeld n ∨ (∃ u p, s.tripState n = s.tripStarted n u p) ∨
      s.tripState n = s.setFlag (PIO_TRSTAT_LATCHED n) true ∨ s.tripState n = s.tripEnded n := by
  by_cases hen : s.flag (PIO_TRCFG_EN n) = true
  swap
  · exact .inl (State.tripState_disabled (eq_false_of_ne_true hen))
  by_cases hcause : s.tripCause n = true
  · obtain ⟨u, p, heq⟩ := State.tripState_of_cause hen hcause
    rcases ite_eq_or_eq ((s.trip n).tripped = true) (s.tripHeld n) (s.tripStarted n u p) with h | h
    · exact .inr (.inl (heq.trans h))
    · exact .inr (.inr (.inl ⟨u, p, heq.trans h⟩))
  replace hcause := eq_false_of_ne_true hcause
  by_cases htripped : (s.trip n).tripped = true
  swap
  · exact .inl (State.tripState_idle hcause (eq_false_of_ne_true htripped))
  by_cases hmin : ∀ u, (s.trip n).minUntil = some u → u ≤ s.exp.now
  · have heq := State.tripState_released hen hcause htripped hmin
    rcases ite_eq_or_eq ((s.flag (PIO_TRCFG_LATCH n) && !(s.trip n).acked) = true) (s.setFlag (PIO_TRSTAT_LATCHED n) true)
      (s.tripEnded n) with h | h
    · exact .inr (.inr (.inr (.inl (heq.trans h))))
    · exact .inr (.inr (.inr (.inr (heq.trans h))))
  · push Not at hmin
    obtain ⟨u, hu, hwait⟩ := hmin
    exact .inl (State.tripState_waiting hcause hu hwait)

end

theorem tripStep_tripHeld (s : State) {m : Nat} (hm : m < 8) : s.TripStep (s.tripHeld m) m :=
  (tripStep_modTrip s m _).trans (tripStep_setFlag _ hm _ _ rfl)

theorem tripStep_tripState (s : State) {m : Nat} (hm : m < 8) : s.TripStep (s.tripState m) m := by
  rcases s.tripState_cases m with heq | heq | ⟨u, p, heq⟩ | heq | heq <;> rw [heq]
  · exact State.TripStep.refl s m
  · exact tripStep_tripHeld s hm
  · exact ((((tripStep_tripHeld s hm).trans (tripStep_modTrip _ m _)).trans (tripStep_setFlag _ hm _ _ rfl)).trans
      (tripStep_wr _ _ hm (.inr rfl))).trans (tripStep_event _ (by decide) m _ _ _ _ _)
  · exact tripStep_setFlag s hm _ _ rfl
  · exact (((tripStep_modTrip s m _).trans (tripStep_setFlag _ hm _ _ rfl)).trans (tripStep_setFlag _ hm _ _ rfl)).trans
      (tripStep_event _ (by decide) m _ _ _ _ _)

/-- A status field beside TRIPPED and LATCHED reads the same after the tripped condition has followed. -/
theorem State.tripState_flag (s : State) {n : Nat} {f : Fld} (hoff : f.off = PIO_TRSTAT n) (hlow : 1 ≤ f.lsb)
    (hhigh : f.lsb + f.width ≤ 4) : (s.tripState n).flag f = s.flag f := by
  have htripped (u : State) (b : Bool) : (u.setFlag (PIO_TRSTAT_TRIPPED n) b).flag f = u.flag f :=
    State.flag_setFlag_other _ _ _ _ (by simp [PIO_TRSTAT_TRIPPED]) (.inr (.inr (by simpa [PIO_TRSTAT_TRIPPED] using hlow)))
  have hlatched (u : State) (b : Bool) : (u.setFlag (PIO_TRSTAT_LATCHED n) b).flag f = u.flag f :=
    State.flag_setFlag_other _ _ _ _ (by simp [PIO_TRSTAT_LATCHED]) (.inr (.inl (by simpa [PIO_TRSTAT_LATCHED] using hhigh)))
  have hcounted (u : State) (k : Nat) : (u.bump (PIO_TRCNT_TRCNT n) k).flag f = u.flag f :=
    State.flag_of_rd (State.rd_bump_ne _ _ _ (by simp [hoff, PIO_TRCNT_TRCNT, PIO_TRCNT, PIO_TRSTAT]))
  rcases s.tripState_cases n with heq | heq | ⟨u, p, heq⟩ | heq | heq <;> rw [heq]
  · rw [State.tripHeld, hlatched]; rfl
  · rw [State.tripStarted, State.event_flag, hcounted, htripped, State.modTrip_flag, State.tripHeld, hlatched]; rfl
  · exact hlatched _ _
  · rw [State.tripEnded, State.event_flag, hlatched, htripped]; rfl

section
variable {s : State} {n : Nat} (hn : n < s.pio.trip.length)
include hn

/-- A cause trips an output. -/
theorem State.tripState_tripped (hen : s.flag (PIO_TRCFG_EN n) = true) (hcause : s.tripCause n = true) :
    ((s.tripState n).trip n).tripped = true := by
  obtain ⟨u, p, heq⟩ := State.tripState_of_cause hen hcause
  have hheld : (s.tripHeld n).trip n = { s.trip n with acked := false } := by
    rw [State.tripHeld, State.setFlag_trip, s.trip_modTrip_self _ hn]
  rw [heq]
  split
  · next htripped => rw [hheld]; exact htripped
  · rw [State.tripStarted, State.event_trip, State.bump_trip, State.setFlag_trip,
      State.trip_modTrip_self _ _ (by simpa [State.tripHeld, State.modTrip_length] using hn)]

theorem State.tripEnded_trip : (s.tripEnded n).trip n = { s.trip n with tripped := false, acked := false, minUntil := none } := by
  rw [State.tripEnded, State.event_trip, State.setFlag_trip, State.setFlag_trip, s.trip_modTrip_self _ hn]

omit hn in
theorem State.tripEnded_shown : (s.tripEnded n).flag (PIO_TRSTAT_TRIPPED n) = false := by
  rw [State.tripEnded, State.event_flag, State.flag_setFlag_other _ _ _ _ (by simp [PIO_TRSTAT_LATCHED])
    (by simp [PIO_TRSTAT_LATCHED, PIO_TRSTAT_TRIPPED])]
  exact State.flag_setFlag_self _ (PIO_TRSTAT_TRIPPED n) false (by simp [PIO_TRSTAT_TRIPPED]) (by simp [PIO_TRSTAT_TRIPPED])

end

/-- LATCH holds a trip that is not acknowledged. -/
theorem State.tripState_latched {s : State} {n : Nat} (hcause : s.tripCause n = false) (htripped : (s.trip n).tripped = true)
    (hlatch : s.flag (PIO_TRCFG_LATCH n) = true) (hacked : (s.trip n).acked = false) : (s.tripState n).trip n = s.trip n := by
  by_cases hen : s.flag (PIO_TRCFG_EN n) = true
  swap
  · rw [State.tripState_disabled (eq_false_of_ne_true hen)]
  by_cases hmin : ∀ u, (s.trip n).minUntil = some u → u ≤ s.exp.now
  · rw [State.tripState_released hen hcause htripped hmin, if_pos (by simp [hlatch, hacked])]
    exact State.setFlag_trip ..
  · push Not at hmin
    obtain ⟨u, hu, hwait⟩ := hmin
    rw [State.tripState_waiting hcause hu hwait]

/-! The ball (R229, R232) -/

section
variable {s : State} {n : Nat}

theorem tripStep_tripBall (s : State) {m : Nat} (hm : m < 8) (low : Bool) : s.TripStep (s.tripBall m low) m := by
  unfold State.tripBall
  split
  · exact State.TripStep.refl s m
  · exact (tripStep_setFlag s hm _ _ rfl).trans (tripStep_modTrip _ m _)

theorem State.tripBall_drive (s : State) (n : Nat) (low : Bool) : (s.tripBall n low).flag (PIO_TRSTAT_DRIVE n) = low := by
  unfold State.tripBall
  split
  · assumption
  · exact State.flag_setFlag_self s (PIO_TRSTAT_DRIVE n) low (by simp [PIO_TRSTAT_DRIVE]) (by simp [PIO_TRSTAT_DRIVE])

/-- A status field beside DRIVE, of this output or another, reads the same after the ball has moved. -/
theorem State.tripBall_flag (s : State) (m : Nat) (low : Bool) {f : Fld}
    (hf : PIO_TRSTAT m ≠ f.off ∨ f.lsb + f.width ≤ 1 ∨ 2 ≤ f.lsb) : (s.tripBall m low).flag f = s.flag f := by
  unfold State.tripBall
  split
  · rfl
  · rw [State.modTrip_flag]
    exact State.flag_setFlag_other _ _ _ _ (by simp [PIO_TRSTAT_DRIVE]) (by simpa [PIO_TRSTAT_DRIVE] using hf)

/-- The ball's move leaves whether the output is tripped and acknowledged. -/
theorem State.tripBall_trip (s : State) (n : Nat) (low : Bool) :
    ((s.tripBall n low).trip n).tripped = (s.trip n).tripped ∧ ((s.tripBall n low).trip n).acked = (s.trip n).acked := by
  unfold State.tripBall
  split
  · exact ⟨rfl, rfl⟩
  · by_cases hn : n < s.pio.trip.length
    · rw [State.trip_modTrip_self _ _ (by simpa using hn)]
      exact ⟨rfl, rfl⟩
    · simp [State.trip, State.modTrip, List.getD_eq_getElem?_getD, Nat.not_lt.mp hn]

end

/-! The drive (R229) -/

/-- A drive of the ball is a move of it, after the output is marked as driven, or nothing while the outputs are off. -/
theorem State.tripDrive_cases (s : State) (n : Nat) :
    s.tripDrive n = s ∨ (∃ low, s.tripDrive n = s.tripBall n low) ∨
      ∃ low, s.tripDrive n = (s.modTrip n (fun t => { t with driven := true })).tripBall n low := by
  unfold State.tripDrive
  dsimp only
  split
  · exact .inr (.inl ⟨_, rfl⟩)
  split
  · exact .inl rfl
  · exact .inr (.inr ⟨_, rfl⟩)

theorem tripStep_tripDrive (s : State) {m : Nat} (hm : m < 8) : s.TripStep (s.tripDrive m) m := by
  rcases s.tripDrive_cases m with heq | ⟨low, heq⟩ | ⟨low, heq⟩ <;> rw [heq]
  · exact State.TripStep.refl s m
  · exact tripStep_tripBall s hm low
  · exact (tripStep_modTrip s m _).trans (tripStep_tripBall _ hm low)

theorem State.tripDrive_flag (s : State) {n : Nat} {f : Fld} (hf : f.lsb + f.width ≤ 1 ∨ 2 ≤ f.lsb) :
    (s.tripDrive n).flag f = s.flag f := by
  rcases s.tripDrive_cases n with heq | ⟨low, heq⟩ | ⟨low, heq⟩ <;> rw [heq]
  · exact s.tripBall_flag n low (.inr hf)
  · rw [State.tripBall_flag _ n low (.inr hf), State.modTrip_flag]

section
variable {s : State} {n : Nat}

theorem State.tripDrive_disabled (hen : s.flag (PIO_TRCFG_EN n) = false) : s.tripDrive n = s.tripBall n false := by
  unfold State.tripDrive; rw [if_pos (by simp [hen])]

variable (hn : n < s.pio.trip.length)
include hn

theorem State.tripDrive_trip :
    ((s.tripDrive n).trip n).tripped = (s.trip n).tripped ∧ ((s.tripDrive n).trip n).acked = (s.trip n).acked := by
  rcases s.tripDrive_cases n with heq | ⟨low, heq⟩ | ⟨low, heq⟩ <;> rw [heq]
  · exact ⟨rfl, rfl⟩
  · exact s.tripBall_trip n low
  · obtain ⟨htripped, hacked⟩ := (s.modTrip n (fun t => { t with driven := true })).tripBall_trip n low
    rw [htripped, hacked, s.trip_modTrip_self _ hn]
    exact ⟨rfl, rfl⟩

/-- The ball goes to the level of the tripped condition, by MODE. -/
theorem State.tripDrive_drive (hen : s.flag (PIO_TRCFG_EN n) = true) (hoff : s.outputsOff = false) :
    (s.tripDrive n).flag (PIO_TRSTAT_DRIVE n) = ((s.trip n).tripped != s.flag (PIO_TRCFG_MODE n)) := by
  unfold State.tripDrive
  dsimp only
  rw [if_neg (by simp [hen]), if_neg (by simp [hoff]), State.tripBall_drive, s.trip_modTrip_self _ hn]
  rfl

end

/-! The end of a command -/

/-- The outputs beside their registers, the momentary sources and the status of every trip output are the same in two states. -/
structure State.TripsKept (s t : State) : Prop where
  pio : t.pio = s.pio
  pulses : t.evt.pulses = s.evt.pulses
  stat : ∀ n, n < 8 → t.rd (PIO_TRSTAT n) = s.rd (PIO_TRSTAT n)

theorem State.TripsKept.trans {s t u : State} (h : s.TripsKept t) (k : t.TripsKept u) : s.TripsKept u :=
  ⟨k.pio.trans h.pio, k.pulses.trans h.pulses, fun n hn => (k.stat n hn).trans (h.stat n hn)⟩

/-- The registers beside the trip outputs' that the end of a command may change are no status of a trip output. -/
theorem trstat_ne : ∀ n < 8, EVT_DROPCNT ≠ PIO_TRSTAT n ∧ FCV_STAT ≠ PIO_TRSTAT n ∧ FCV_CSMISS ≠ PIO_TRSTAT n ∧
    MBX_IRQPEND ≠ PIO_TRSTAT n ∧ MSIX_PBA ≠ PIO_TRSTAT n := by decide

theorem State.queueEvents_tripsKept (s : State) : s.TripsKept s.queueEvents := by
  refine ⟨by simp, ?_, fun n hn => ?_⟩
  · unfold State.queueEvents
    dsimp only
    split <;> split <;> simp
  · obtain ⟨hdrop, -⟩ := trstat_ne n hn
    rcases s.queueEvents_regs with heq | ⟨k, heq⟩ <;> rw [State.rd_of_regs heq]
    exact State.rd_bump_ne _ _ _ hdrop

theorem State.sheetTrigger_tripsKept (s : State) (k x : Nat) (c : BitVec 16) (i : BitVec 8) (q : BitVec 64) (a : Nat) :
    s.TripsKept (s.sheetTrigger k x c i q a) := by
  refine ⟨by simp, ?_, fun n hn => ?_⟩
  · unfold State.sheetTrigger
    split
    · rfl
    · simp
    · rw [(State.event_sources _ (by decide) _ _ _ _ _).2]
      simp
  · obtain ⟨-, hstat, hmiss, -⟩ := trstat_ne n hn
    unfold State.sheetTrigger
    split
    · rfl
    · exact (State.rd_setFlag_ne _ _ _ hstat).trans ((State.rd_setFlag_ne _ _ _ hstat).trans ((State.rd_setFlag_ne _ _ _ hstat).trans
        ((State.rd_setFlag_ne _ _ _ hstat).trans (State.rd_put_ne _ _ _ hstat))))
    · rw [State.event_rd]
      exact State.rd_bump_ne _ _ _ hmiss

theorem State.sheetNow_tripsKept (s : State) : s.TripsKept s.sheetNow :=
  List.foldlRecOn (motive := fun t => s.TripsKept t) s.fcv.trigQ _ ⟨rfl, rfl, fun _ _ => rfl⟩
    (fun t ht _ _ => ht.trans (State.sheetTrigger_tripsKept t ..))

theorem State.signalRise_tripsKept (s : State) (b : Nat) : s.TripsKept (s.signalRise b) := by
  refine ⟨by simp, by simp, fun n hn => ?_⟩
  obtain ⟨-, -, -, hpend, hpba⟩ := trstat_ne n hn
  unfold State.signalRise State.signal
  dsimp only
  repeat' split
  all_goals simp [hpend, hpba]

/-- After the events of a command have acted on the trip outputs its end leaves them. -/
theorem State.settle_tripNow (s : State) (b : Nat) : s.tripNow.TripsKept (s.settle b) := by
  have hend : s.tripNow.TripsKept (s.tripNow.queueEvents.sheetNow.queueEvents.signalRise b) :=
    (((State.queueEvents_tripsKept _).trans (State.sheetNow_tripsKept _)).trans (State.queueEvents_tripsKept _)).trans
      (State.signalRise_tripsKept _ b)
  refine hend.trans ⟨rfl, rfl, fun n _ => ?_⟩
  rw [State.rd_eq, State.rd_eq]
  exact storeGet_canon regReset _ _

theorem State.TripsKept.trip {s t : State} (h : s.TripsKept t) (n : Nat) : t.trip n = s.trip n :=
  State.trip_of_part (congrArg PioState.trip h.pio) n

theorem tripStep_tripFollow (s : State) {m : Nat} (hm : m < 8) : s.TripStep (s.tripFollow m) m := by
  have hstate := tripStep_tripState s hm
  unfold State.tripFollow
  dsimp only
  split
  · exact hstate.trans (tripStep_tripDrive _ hm)
  · exact hstate

/-- The decisions of a command change trip outputs alone. -/
theorem State.tripNow_tripsOnly (s : State) : s.TripsOnly s.tripNow := by
  unfold State.tripNow
  split
  · exact State.each_keeps (P := s.TripsOnly) (State.TripsOnly.refl s) (fun m hm u hu => hu.trans (tripStep_tripFollow u hm).only)
  split
  · exact State.each_keeps (P := s.TripsOnly) (State.TripsOnly.refl s) (fun m hm u hu => hu.trans (tripStep_tripState u hm).only)
  · exact State.TripsOnly.refl s

/-- The end of a command leaves the momentary sources. -/
theorem State.settle_pulses (s : State) (b : Nat) : (s.settle b).evt.pulses = s.evt.pulses :=
  (s.settle_tripNow b).pulses.trans s.tripNow_tripsOnly.pulses

section
variable {s : State} {n : Nat} {Q : TripState → BitVec 32 → Prop}

/-- What an output and its status register show at the end of a command: what they showed before it, where the tripped condition and
the drive keep that. -/
theorem State.settle_trip (hn : n < 8) (h : Q (s.trip n) (s.rd (PIO_TRSTAT n)))
    (hstate : ∀ u, s.TripsOnly u → Q (u.trip n) (u.rd (PIO_TRSTAT n)) →
      Q ((u.tripState n).trip n) ((u.tripState n).rd (PIO_TRSTAT n)))
    (hdrive : ∀ u, s.TripsOnly u → Q (u.trip n) (u.rd (PIO_TRSTAT n)) →
      Q ((u.tripDrive n).trip n) ((u.tripDrive n).rd (PIO_TRSTAT n)))
    (b : Nat) : Q ((s.settle b).trip n) ((s.settle b).rd (PIO_TRSTAT n)) := by
  have hkeep {f : Nat → State → State} (hother : ∀ m, m < 8 → ∀ u : State, u.TripStep (f m u) m)
      (hself : ∀ u, s.TripsOnly u → Q (u.trip n) (u.rd (PIO_TRSTAT n)) → Q ((f n u).trip n) ((f n u).rd (PIO_TRSTAT n))) :
      Q ((State.each 8 f s).trip n) ((State.each 8 f s).rd (PIO_TRSTAT n)) := by
    refine (State.each_keeps (P := fun u => s.TripsOnly u ∧ Q (u.trip n) (u.rd (PIO_TRSTAT n))) ⟨State.TripsOnly.refl s, h⟩
      (fun m hm u ⟨hu, hQ⟩ => ⟨hu.trans (hother m hm u).only, ?_⟩)).2
    by_cases hmn : m = n
    · rw [hmn]; exact hself u hu hQ
    · obtain ⟨htrip, hstat⟩ := (hother m hm u).other n (Ne.symm hmn)
      rw [htrip, hstat]; exact hQ
  have hend := s.settle_tripNow b
  rw [hend.trip n, hend.stat n hn]
  unfold State.tripNow
  split
  · refine hkeep (fun m hm u => tripStep_tripFollow u hm) (fun u hu hQ => ?_)
    have hshown := hstate u hu hQ
    unfold State.tripFollow
    dsimp only
    split
    · exact hdrive _ (hu.trans (tripStep_tripState u hn).only) hshown
    · exact hshown
  split
  · exact hkeep (fun m hm u => tripStep_tripState u hm) hstate
  · exact h

end

end Sys2Proof.Machine
end

section
/-!
SUPPORT. The readback of a trip ball (R231): a reading, and the strike of one that is wrong twice, leave what other balls' readbacks show.
-/

namespace Sys2Proof.Machine

/-! What a strike leaves of a readback -/

/-- PINLVL and RBFLT of output `n` show the same in two states. -/
def State.SameReadback (s t : State) (n : Nat) : Prop :=
  t.flag (PIO_TRSTAT_PINLVL n) = s.flag (PIO_TRSTAT_PINLVL n) ∧ t.flag (PIO_TRSTAT_RBFLT n) = s.flag (PIO_TRSTAT_RBFLT n)

section
variable {s t u : State} {n : Nat}

theorem State.SameReadback.refl (s : State) (n : Nat) : s.SameReadback s n := ⟨rfl, rfl⟩

theorem State.SameReadback.pinlvl (h : s.SameReadback t n) : t.flag (PIO_TRSTAT_PINLVL n) = s.flag (PIO_TRSTAT_PINLVL n) := h.1

theorem State.SameReadback.rbflt (h : s.SameReadback t n) : t.flag (PIO_TRSTAT_RBFLT n) = s.flag (PIO_TRSTAT_RBFLT n) := h.2

theorem State.SameReadback.trans (h : s.SameReadback t n) (k : t.SameReadback u n) : s.SameReadback u n :=
  ⟨k.pinlvl.trans h.pinlvl, k.rbflt.trans h.rbflt⟩

theorem State.SameReadback.of_rd (h : t.rd (PIO_TRSTAT n) = s.rd (PIO_TRSTAT n)) : s.SameReadback t n :=
  ⟨State.flag_of_rd h, State.flag_of_rd h⟩

theorem sameReadback_wr (s : State) {n off : Nat} (v : BitVec 32) (hoff : off ≠ PIO_TRSTAT n) : s.SameReadback (s.wr off v) n :=
  .of_rd (by rw [State.rd_wr, if_neg hoff])

end

theorem sameReadback_tripBall (s : State) (m n : Nat) (low : Bool) : s.SameReadback (s.tripBall m low) n :=
  ⟨s.tripBall_flag m low (.inr (.inr (by simp [PIO_TRSTAT_PINLVL]))), s.tripBall_flag m low (.inr (.inr (by simp [PIO_TRSTAT_RBFLT])))⟩

/-- The status of a trip output lies below the mailbox, above the pulse outputs, and apart from the safety monitor. -/
theorem trstat_apart : ∀ n < 8, PIO_TRSTAT n < MBX_CPL 0 ∧ MBX_STAT ≠ PIO_TRSTAT n ∧ SAF_STAT ≠ PIO_TRSTAT n ∧
    SAF_REINIT ≠ PIO_TRSTAT n ∧ SAF_LASTING ≠ PIO_TRSTAT n ∧ SAF_SSEXP ≠ PIO_TRSTAT n ∧
    (∀ d < 14, SAF_STRK d ≠ PIO_TRSTAT n) ∧ ∀ m < 16, PIO_CFSTAT m ≠ PIO_TRSTAT n := by decide

theorem State.putSlots_rd_below {k : Nat} : (l : List (BitVec 64)) → (s : State) → (off : Nat) → k < off →
    (s.putSlots off l).rd k = s.rd k
  | [], _, _, _ => rfl
  | x :: l, s, off, hk => by
    rw [State.putSlots, State.putSlots_rd_below l _ _ (by omega), State.rd_wr, if_neg (by omega), State.rd_wr, if_neg (by omega)]

section
variable {n : Nat} (hn : n < 8)
include hn

theorem sameReadback_done (s : State) (x : Taken) (st p0 p1 p2 : Nat) : s.SameReadback (s.done x st p0 p1 p2) n := by
  obtain ⟨hbelow, hstat, -⟩ := trstat_apart n hn
  have hcomplete (s : State) : s.SameReadback (s.complete x.op x.hdr st p0 p1 p2) n := by
    refine .of_rd ?_
    unfold State.complete
    dsimp only
    split
    · rfl
    · exact (State.rd_setFlag_ne _ _ _ hstat).trans ((State.rd_setFlag_ne _ _ _ hstat).trans (State.putSlots_rd_below _ _ _ hbelow))
    · rfl
  unfold State.done
  split
  · exact .refl s n
  split
  · exact .refl s n
  · exact hcomplete (s.untake x)

theorem sameReadback_safetyFail (s : State) (d : Nat) : s.SameReadback (s.safetyFail d) n := by
  obtain ⟨-, -, hstat, hreinit, -⟩ := trstat_apart n hn
  have hshow (s : State) (a b : Nat) : s.SameReadback (s.reinitShow a b) n := by
    unfold State.reinitShow
    split
    · exact (sameReadback_wr s _ hreinit).trans (sameReadback_wr _ _ hreinit)
    · exact .refl s n
  unfold State.safetyFail
  split
  · exact .refl s n
  · exact List.foldlRecOn (motive := fun t => s.SameReadback t n) _ _
      ((sameReadback_wr (s.modSaf (fun f => { f with reinit := none })) _ hstat).trans (hshow _ _ _))
      (fun u hu x _ => hu.trans (sameReadback_done hn u x _ _ _ _))

/-- Outputs that are let go leave every readback (R423, R444). -/
theorem sameReadback_mirRelease (s : State) : s.SameReadback s.mirRelease n := by
  obtain ⟨-, -, -, -, -, -, -, hcf⟩ := trstat_apart n hn
  have hcancel (s : State) {m : Nat} (hm : m < 16) : s.SameReadback (s.cfCancel m) n := by
    unfold State.cfCancel
    dsimp only
    split
    · exact .refl s n
    · exact sameReadback_wr _ _ (hcf m hm)
  have hpulses : s.SameReadback (State.each 16 (fun m u => u.cfRelease m) s) n :=
    State.each_keeps (P := fun u => s.SameReadback u n) (.refl s n)
      (fun m hm u hu => hu.trans ((hcancel u hm).trans (sameReadback_wr _ _ (hcf m hm))))
  exact State.each_keeps (P := fun u => s.SameReadback u n) hpulses (fun m _ u hu => hu.trans (sameReadback_tripBall u m n false))

theorem sameReadback_enterSafe (s : State) (d : Nat) : s.SameReadback (s.enterSafe d) n := by
  obtain ⟨-, -, hstat, -, -, hssexp, -⟩ := trstat_apart n hn
  have hshown : s.SameReadback (s.safeShown d) n :=
    ((sameReadback_wr s _ hstat).trans (sameReadback_wr _ _ hstat)).trans (sameReadback_wr _ _ hssexp)
  unfold State.enterSafe
  split
  · exact .refl s n
  · exact (hshown.trans (sameReadback_mirRelease hn _)).trans (.of_rd (State.event_rd ..))

/-- A strike leaves every readback, the safe state it may enter included. -/
theorem sameReadback_strike (s : State) {d : Nat} (hd : d < 14) (x : Nat) : s.SameReadback (s.strike d x) n := by
  obtain ⟨-, -, -, -, hlasting, -, hstrk, -⟩ := trstat_apart n hn
  have hmake (s : State) : s.SameReadback (s.makeLasting d) n := by
    have hfail := (sameReadback_wr s (withField (s.rd SAF_LASTING) SAF_LASTING_LASTING (s.get SAF_LASTING_LASTING + 2 ^ d)) hlasting).trans
      (sameReadback_safetyFail hn _ d)
    unfold State.makeLasting
    dsimp only
    split
    · exact .refl s n
    split
    · exact hfail.trans (sameReadback_enterSafe hn _ d)
    · exact hfail
  have hcounted (f : SafState → SafState) (p q : Nat) :
      s.SameReadback (((s.modSaf f).bump (SAF_STRK_STRK d) 1).eventT s.ts 0x0601 d .momentary p q x) n :=
    .of_rd ((State.eventT_rd _ _ _ _ _ _ _ _ _).trans (State.rd_bump_ne _ _ _ (hstrk d hd)))
  by_cases hon : s.pdOn 5 = true
  · obtain ⟨f, p, q, heq⟩ : ∃ f p q,
        s.strike d x = (((s.modSaf f).bump (SAF_STRK_STRK d) 1).eventT s.ts 0x0601 d .momentary p q x).makeLasting d ∨
          s.strike d x = ((s.modSaf f).bump (SAF_STRK_STRK d) 1).eventT s.ts 0x0601 d .momentary p q x := by
      unfold State.strike State.strikeT State.strikeG
      rw [if_neg (by simp [hon])]
      exact ⟨_, _, _, ite_eq_or_eq _ _ _⟩
    rcases heq with heq | heq <;> rw [heq]
    · exact (hcounted f p q).trans (hmake _)
    · exact hcounted f p q
  · rw [State.strike, State.strikeT, State.strikeG, if_pos (by simp [hon])]
    exact .refl s n

end

/-! A reading -/

/-- A reading that is wrong a second time: the fault is shown, reported and strikes. -/
def State.readbackFailed (s : State) (n : Nat) (low level : Bool) : State :=
  (((s.modTrip n (fun t => { t with mismatch := 0 })).setFlag (PIO_TRSTAT_RBFLT n) true).event 0x0A02 n .momentary low.toNat level.toNat
    0).strike dTripRb n

/-- The level that was read is shown. -/
def State.levelShown (s : State) (n : Nat) (level : Bool) : State := s.setFlag (PIO_TRSTAT_PINLVL n) level

theorem State.tripRead_cases (s : State) (n : Nat) (level : Bool) :
    (s.flag (PIO_TRCFG_EN n) = false ∧ s.tripRead n level = s) ∨ s.tripRead n level = s.levelShown n level ∨
      (∃ k, s.tripRead n level = (s.levelShown n level).modTrip n (fun t => { t with mismatch := k })) ∨
      ((s.trip n).mismatch ≠ 0 ∧ ∃ low, s.tripRead n level = (s.levelShown n level).readbackFailed n low level) := by
  unfold State.tripRead
  split
  · next hen => exact .inl ⟨by simpa using hen, rfl⟩
  dsimp only
  split
  · exact .inr (.inl rfl)
  split
  · exact .inr (.inr (.inl ⟨0, rfl⟩))
  split
  · exact .inr (.inl rfl)
  split
  · exact .inr (.inr (.inl ⟨1, rfl⟩))
  · next hwrong => exact .inr (.inr (.inr ⟨hwrong, _, rfl⟩))

/-- A ball that reads as driven low where it should not, or the reverse, for the second time. -/
theorem State.tripRead_failed {s : State} {n : Nat} {level : Bool} (hen : s.flag (PIO_TRCFG_EN n) = true)
    (hsteady : (s.trip n).changedAt + usCycles 100 ≤ s.exp.now) (hrben : s.flag (PIO_TRCFG_RBEN n) = true)
    (hlevel : level = s.flag (PIO_TRSTAT_DRIVE n)) (hwrong : (s.trip n).mismatch ≠ 0) :
    ∃ low, s.tripRead n level = (s.levelShown n level).readbackFailed n low level := by
  have hlow : (s.setFlag (PIO_TRSTAT_PINLVL n) level).flag (PIO_TRSTAT_DRIVE n) = level :=
    (State.flag_setFlag_other _ _ _ _ (by simp [PIO_TRSTAT_PINLVL]) (by simp [PIO_TRSTAT_PINLVL, PIO_TRSTAT_DRIVE])).trans hlevel.symm
  have hrben' : (s.setFlag (PIO_TRSTAT_PINLVL n) level).flag (PIO_TRCFG_RBEN n) = true :=
    (State.flag_setFlag_other _ _ _ _ (by simp [PIO_TRSTAT_PINLVL])
      (.inl (by simp [PIO_TRSTAT_PINLVL, PIO_TRSTAT, PIO_TRCFG_RBEN, PIO_TRCFG]))).trans hrben
  have hnow : ¬ (s.setFlag (PIO_TRSTAT_PINLVL n) level).exp.now <
      ((s.setFlag (PIO_TRSTAT_PINLVL n) level).trip n).changedAt + usCycles 100 := Nat.not_lt.mpr hsteady
  have hwrong' : ((s.setFlag (PIO_TRSTAT_PINLVL n) level).trip n).mismatch ≠ 0 := hwrong
  unfold State.tripRead
  dsimp only
  rw [if_neg (by simp [hen]), if_neg hnow, hlow, if_neg (by simp), if_neg (by simp [hrben']), if_neg hwrong']
  exact ⟨_, rfl⟩

/-- Registers and parts that a reading may change, with the strike it may bring. -/
theorem frame_tripRead (s : State) {n : Nat} (hn : n < 8) (level : Bool) :
    s.Frame (s.tripRead n level) [.pulses, .safety, .taken, .host, .writer] strikeRegs := by
  have hshown : s.Frame (s.levelShown n level) [.pulses, .safety, .taken, .host, .writer] strikeRegs :=
    (tripStep_setFlag s hn (PIO_TRSTAT_PINLVL n) level rfl).only.frame.mono (by simp) (by simp)
  rcases s.tripRead_cases n level with ⟨-, heq⟩ | heq | ⟨k, heq⟩ | ⟨-, low, heq⟩ <;> rw [heq]
  · exact State.Frame.refl _ _ _
  · exact hshown
  · exact hshown.trans ((frame_modTrip _ n _).mono (by simp) (by simp))
  · have hfault := ((tripStep_modTrip (s.levelShown n level) n (fun t => { t with mismatch := 0 })).trans
      (tripStep_setFlag _ hn (PIO_TRSTAT_RBFLT n) true rfl)).only.frame
    exact hshown.trans (((hfault.seq (frame_event _ _ _ _ _ _ _)).seq (frame_strike _ (d := dTripRb) (by decide) n)).mono (by simp)
      (by simp))

/-- A reading that is not wrong a second time changes no other output. -/
theorem tripStep_tripRead {s : State} {m : Nat} (hm : m < 8) (hfirst : (s.trip m).mismatch = 0) (level : Bool) :
    s.TripStep (s.tripRead m level) m := by
  have hshown : s.TripStep (s.levelShown m level) m := tripStep_setFlag s hm (PIO_TRSTAT_PINLVL m) level rfl
  rcases s.tripRead_cases m level with ⟨-, heq⟩ | heq | ⟨k, heq⟩ | ⟨hwrong, -⟩
  · rw [heq]; exact State.TripStep.refl s m
  · rw [heq]; exact hshown
  · rw [heq]; exact hshown.trans (tripStep_modTrip _ m _)
  · exact absurd hfirst hwrong

/-- Another ball's reading leaves this one's. -/
theorem sameReadback_tripRead (s : State) {m n : Nat} (hm : m < 8) (hn : n < 8) (hne : n ≠ m) (level : Bool) :
    s.SameReadback (s.tripRead m level) n := by
  have hstep {u v : State} (h : u.TripStep v m) : u.SameReadback v n := .of_rd (h.other n hne).2
  have hshown : s.SameReadback (s.levelShown m level) n := hstep (tripStep_setFlag s hm (PIO_TRSTAT_PINLVL m) level rfl)
  rcases s.tripRead_cases m level with ⟨-, heq⟩ | heq | ⟨k, heq⟩ | ⟨-, low, heq⟩ <;> rw [heq]
  · exact .refl s n
  · exact hshown
  · exact hshown.trans (hstep (tripStep_modTrip _ m _))
  · exact (hshown.trans (hstep (((tripStep_modTrip _ m _).trans (tripStep_setFlag _ hm (PIO_TRSTAT_RBFLT m) true rfl)).trans
      (tripStep_event _ (by decide) m _ _ _ _ _)))).trans (sameReadback_strike hn _ (by decide) m)

section
variable {s : State} {n : Nat} (hn : n < 8) (level : Bool)
include hn

theorem State.readbackFailed_rbflt (low : Bool) : (s.readbackFailed n low level).flag (PIO_TRSTAT_RBFLT n) = true := by
  rw [State.readbackFailed, (sameReadback_strike hn _ (by decide) n).rbflt, State.event_flag]
  exact State.flag_setFlag_self _ (PIO_TRSTAT_RBFLT n) true (by simp [PIO_TRSTAT_RBFLT]) (by simp [PIO_TRSTAT_RBFLT])

theorem State.readbackFailed_pinlvl (low : Bool) :
    (s.readbackFailed n low level).flag (PIO_TRSTAT_PINLVL n) = s.flag (PIO_TRSTAT_PINLVL n) := by
  rw [State.readbackFailed, (sameReadback_strike hn _ (by decide) n).pinlvl, State.event_flag]
  exact State.flag_setFlag_other _ _ _ _ (by simp [PIO_TRSTAT_RBFLT]) (by simp [PIO_TRSTAT_RBFLT, PIO_TRSTAT_PINLVL])

/-- A reading shows the level it read. -/
theorem State.tripRead_pinlvl (hen : s.flag (PIO_TRCFG_EN n) = true) : (s.tripRead n level).flag (PIO_TRSTAT_PINLVL n) = level := by
  have hshown : (s.levelShown n level).flag (PIO_TRSTAT_PINLVL n) = level :=
    State.flag_setFlag_self s (PIO_TRSTAT_PINLVL n) level (by simp [PIO_TRSTAT_PINLVL]) (by simp [PIO_TRSTAT_PINLVL])
  rcases s.tripRead_cases n level with ⟨hoff, -⟩ | heq | ⟨k, heq⟩ | ⟨-, low, heq⟩
  · rw [hen] at hoff; cases hoff
  · rw [heq, hshown]
  · rw [heq, State.modTrip_flag, hshown]
  · rw [heq, State.readbackFailed_pinlvl hn, hshown]

end

end Sys2Proof.Machine
end

section
/-!
Settles O43 (R228 to R232).  What a command makes of an output holds through the end of the command, where the tripped condition and the
drive may be decided once more.
-/

namespace Sys2Proof.Machine

section
variable {s s' t u : State} {n : Nat}

/-- What a decision about output `n` looks at is the same after a change of trip outputs alone. -/
theorem State.TripsOnly.cause (h : s.TripsOnly t) (hn : n < 8) : t.tripCause n = s.tripCause n := by
  rw [State.tripCause, State.tripCause, h.sources hn, h.frame.get PIO_TRHOST_HOST (by simp) (by decide)]

theorem State.TripsOnly.cfg (h : s.TripsOnly t) (hn : n < 8) (f : Fld) (hf : f.off = PIO_TRCFG n) : t.flag f = s.flag f :=
  h.flag f (by rw [hf]; exact (endReg_trip n hn).1)

theorem State.tripCause_of_quiet (hsrc : s.tripSources n = 0) (hhost : bitAt (s.get PIO_TRHOST_HOST) n = false) :
    s.tripCause n = false := by
  rw [State.tripCause, hsrc, hhost]; rfl

/-- An output that is not tripped stays so while it has no cause, whatever its ball does. -/
theorem State.settle_untripped (hn : n < 8) (hlen : n < s.pio.trip.length) (hcause : s.tripCause n = false)
    (hopen : (s.trip n).tripped = false) (hshown : s.flag (PIO_TRSTAT_TRIPPED n) = false) (b : Nat) :
    ((s.settle b).trip n).tripped = false ∧ (s.settle b).flag (PIO_TRSTAT_TRIPPED n) = false := by
  refine State.settle_trip (Q := fun x v => x.tripped = false ∧ flagIn v (PIO_TRSTAT_TRIPPED n) = false) hn ⟨hopen, hshown⟩
    (fun u hu hQ => ?_) (fun u hu hQ => ?_) b
  · rw [State.tripState_idle ((hu.cause hn).trans hcause) hQ.1]
    exact hQ
  · exact ⟨(State.tripDrive_trip (hu.length ▸ hlen)).1.trans hQ.1,
      (u.tripDrive_flag (f := PIO_TRSTAT_TRIPPED n) (by simp [PIO_TRSTAT_TRIPPED])).trans hQ.2⟩

end

/-! HOST_TRIP (R229) -/

section
variable {s : State} {n : Nat} {p : Port} {v : BitVec 32}

/-- What a write of PIO_TRHOST does to one output. -/
def State.hostFollow (s : State) (n : Nat) : State :=
  if ((s.tripState n).trip n).driven || (((s.tripState n).trip n).tripped && bitAt ((s.tripState n).rd PIO_TRHOST).toNat n) then
    (s.tripState n).tripDrive n
  else s.tripState n

theorem exec_hostTrip_eq (s : State) (p : Port) (v : BitVec 32) :
    exec (.hostTrip p v) s =
      .next ((State.each 8 (fun n s => s.hostFollow n) (s.storeWrite (.port p) PIO_TRHOST v)).settle s.irqLive) := rfl

theorem tripStep_hostFollow (s : State) {m : Nat} (hm : m < 8) : s.TripStep (s.hostFollow m) m := by
  have hstate := tripStep_tripState s hm
  unfold State.hostFollow
  split
  · exact hstate.trans (tripStep_tripDrive _ hm)
  · exact hstate

theorem State.tripCause_of_host (hn : n < 8) (hhost : bitAt (s.rd PIO_TRHOST).toNat n = true) : s.tripCause n = true := by
  rw [State.tripCause, State.get, PIO_TRHOST_HOST, bitAt_fieldOf_zero _ _ hn, hhost]; rfl

/-- The output is tripped, and its ball driven unless the outputs are off: `mode` and `off` are MODE and whether they are off. -/
def HostTripped (n : Nat) (mode off : Bool) (x : TripState) (v : BitVec 32) : Prop :=
  x.tripped = true ∧ (off = false → flagIn v (PIO_TRSTAT_DRIVE n) = !mode)

theorem State.tripState_hostTripped (hlen : n < s.pio.trip.length) (hen : s.flag (PIO_TRCFG_EN n) = true)
    (hcause : s.tripCause n = true) {mode off : Bool} (h : HostTripped n mode off (s.trip n) (s.rd (PIO_TRSTAT n))) :
    HostTripped n mode off ((s.tripState n).trip n) ((s.tripState n).rd (PIO_TRSTAT n)) :=
  ⟨State.tripState_tripped hlen hen hcause, fun hoff =>
    (s.tripState_flag (f := PIO_TRSTAT_DRIVE n) rfl (by simp [PIO_TRSTAT_DRIVE]) (by simp [PIO_TRSTAT_DRIVE])).trans (h.2 hoff)⟩

theorem State.tripDrive_hostTripped (hlen : n < s.pio.trip.length) (hen : s.flag (PIO_TRCFG_EN n) = true)
    (htripped : (s.trip n).tripped = true) :
    HostTripped n (s.flag (PIO_TRCFG_MODE n)) s.outputsOff ((s.tripDrive n).trip n) ((s.tripDrive n).rd (PIO_TRSTAT n)) :=
  ⟨(State.tripDrive_trip hlen).1.trans htripped, fun hoff => (State.tripDrive_drive hlen hen hoff).trans
    (by rw [htripped, Bool.true_bne])⟩

theorem State.hostFollow_hostTripped (hn : n < 8) (hlen : n < s.pio.trip.length) (hen : s.flag (PIO_TRCFG_EN n) = true)
    (hhost : bitAt (s.rd PIO_TRHOST).toNat n = true) :
    HostTripped n (s.flag (PIO_TRCFG_MODE n)) s.outputsOff ((s.hostFollow n).trip n) ((s.hostFollow n).rd (PIO_TRSTAT n)) := by
  have hstep := (tripStep_tripState s hn).only
  have htripped := State.tripState_tripped hlen hen (State.tripCause_of_host hn hhost)
  have hhost' : bitAt ((s.tripState n).rd PIO_TRHOST).toNat n = true := by
    rw [hstep.frame.rd (by simp) (by decide)]; exact hhost
  unfold State.hostFollow
  rw [if_pos (by rw [htripped, hhost']; simp), ← hstep.cfg hn (PIO_TRCFG_MODE n) rfl, ← hstep.outputsOff]
  exact State.tripDrive_hostTripped (hstep.length ▸ hlen) ((hstep.cfg hn (PIO_TRCFG_EN n) rfl).trans hen) htripped

/-- With its host bit set an output is tripped and driven when the write has gone through all outputs, and at the end of the command. -/
theorem State.hostFollow_settled (hn : n < 8) (hlen : n < s.pio.trip.length) (hen : s.flag (PIO_TRCFG_EN n) = true)
    (hhost : bitAt (s.rd PIO_TRHOST).toNat n = true) (b : Nat) :
    HostTripped n (s.flag (PIO_TRCFG_MODE n)) s.outputsOff (((State.each 8 (fun n s => s.hostFollow n) s).settle b).trip n)
      (((State.each 8 (fun n s => s.hostFollow n) s).settle b).rd (PIO_TRSTAT n)) := by
  have hsame (w : State) (hw : s.TripsOnly w) : n < w.pio.trip.length ∧ w.flag (PIO_TRCFG_EN n) = true ∧
      bitAt (w.rd PIO_TRHOST).toNat n = true ∧ s.flag (PIO_TRCFG_MODE n) = w.flag (PIO_TRCFG_MODE n) ∧ s.outputsOff = w.outputsOff :=
    ⟨hw.length ▸ hlen, (hw.cfg hn (PIO_TRCFG_EN n) rfl).trans hen, by rw [hw.frame.rd (by simp) (by decide)]; exact hhost,
      (hw.cfg hn (PIO_TRCFG_MODE n) rfl).symm, hw.outputsOff.symm⟩
  have honly : s.TripsOnly (State.each 8 (fun n s => s.hostFollow n) s) :=
    State.each_keeps (P := s.TripsOnly) (State.TripsOnly.refl s) (fun m hm w hw => hw.trans (tripStep_hostFollow w hm).only)
  refine State.settle_trip hn (State.each_through hn (A := fun _ => s.TripsOnly)
    (B := fun w => HostTripped n (s.flag (PIO_TRCFG_MODE n)) s.outputsOff (w.trip n) (w.rd (PIO_TRSTAT n)))
    (State.TripsOnly.refl s) (fun m hm w hw => hw.trans (tripStep_hostFollow w (by omega)).only) (fun w hw => ?_)
    (fun m hnm hm w hw => ?_)) (fun w hw hQ => ?_) (fun w hw hQ => ?_) b
  · obtain ⟨wlen, wen, whost, hmode, hoff⟩ := hsame w hw
    rw [hmode, hoff]
    exact State.hostFollow_hostTripped hn wlen wen whost
  · obtain ⟨htrip, hstat⟩ := (tripStep_hostFollow w hm).other n (by omega)
    rw [htrip, hstat]
    exact hw
  · obtain ⟨wlen, wen, whost, -⟩ := hsame w (honly.trans hw)
    exact State.tripState_hostTripped wlen wen (State.tripCause_of_host hn whost) hQ
  · obtain ⟨wlen, wen, -, hmode, hoff⟩ := hsame w (honly.trans hw)
    rw [hmode, hoff]
    exact State.tripDrive_hostTripped wlen wen hQ.1

theorem exec_hostTrip_trips (hs : s.Sizes) (hn : n < 8) (hwrite : s.writable (.port p) PIO_TRHOST = true)
    (hbit : bitAt (fieldOf (s.stored PIO_TRHOST v) PIO_TRHOST_HOST) n = true) (hen : s.flag (PIO_TRCFG_EN n) = true) :
    ∃ t, exec (.hostTrip p v) s = .next t ∧ t.rd PIO_TRHOST = s.stored PIO_TRHOST v ∧ (t.trip n).tripped = true ∧
      (s.outputsOff = false → t.flag (PIO_TRSTAT_DRIVE n) = !s.flag (PIO_TRCFG_MODE n)) ∧ s.Frame t [.checks] [PIO_TRHOST] := by
  obtain ⟨-, -, -, -, htrips, -⟩ := hs
  have hstore := frame_storeWrite s (.port p) PIO_TRHOST v
  have hstored := State.rd_storeWrite_port v hwrite
  have hlen : n < (s.storeWrite (.port p) PIO_TRHOST v).pio.trip.length := by simpa [htrips] using hn
  rw [exec_hostTrip_eq]
  generalize s.storeWrite (.port p) PIO_TRHOST v = u at hstore hstored hlen
  have hcfg (f : Fld) (hf : f.off = PIO_TRCFG n) : u.flag f = s.flag f :=
    hstore.flag f (by rw [hf]; simp [PIO_TRCFG, PIO_TRHOST]; omega) (by rw [hf]; exact (endReg_trip n hn).1)
  have honly : u.TripsOnly (State.each 8 (fun n s => s.hostFollow n) u) :=
    State.each_keeps (P := u.TripsOnly) (State.TripsOnly.refl u) (fun m hm w hw => hw.trans (tripStep_hostFollow w hm).only)
  obtain ⟨htripped, hdrive⟩ := State.hostFollow_settled hn hlen ((hcfg (PIO_TRCFG_EN n) rfl).trans hen)
    (by rwa [hstored, ← bitAt_fieldOf_zero _ PIO_TRHOST hn]) s.irqLive
  rw [hcfg (PIO_TRCFG_MODE n) rfl, hstore.outputsOff (by simp) (by decide)] at hdrive
  exact ⟨_, rfl, by rw [State.settle_rd (by decide), honly.frame.rd (by simp) (by decide), hstored], htripped, hdrive,
    ((hstore.seq honly.frame).mono (by simp) (by simp)).settle _⟩

end

/-! TRIP_DISABLE (R229) -/

section
variable {s : State} {n : Nat} {p : Port} {v : BitVec 32}

/-- The trip of an output that is no longer enabled ends, with its latch and minimum time, and its ball is released. -/
def State.tripDropped (s : State) (n : Nat) : State :=
  (((s.modTrip n (fun x => { TripState.reset with changedAt := x.changedAt })).setFlag (PIO_TRSTAT_TRIPPED n) false).setFlag
    (PIO_TRSTAT_LATCHED n) false).tripBall n false

theorem exec_tripDisable_eq (hn : n < 8) (hen : s.flag (PIO_TRCFG_EN n) = true)
    (hoff : (s.storeWrite (.port p) (PIO_TRCFG n) v).flag (PIO_TRCFG_EN n) = false) :
    ∃ w, exec (.tripDisable p n v) s = .next (w.settle s.irqLive) ∧
      (w = (s.storeWrite (.port p) (PIO_TRCFG n) v).tripDropped n ∨
        w = ((s.storeWrite (.port p) (PIO_TRCFG n) v).tripDropped n).event 0x0A03 n .stop 0 0 0) := by
  have hexec : exec (.tripDisable p n v) s = .next ((State.wrTrcfg (.port p) n v s).settle s.irqLive) := by
    change execTripDisable p n v s = _
    unfold execTripDisable finish
    dsimp only
    rw [if_pos hn]
  refine ⟨_, hexec, ?_⟩
  unfold State.wrTrcfg
  dsimp only
  rw [hen, hoff, if_pos (by decide)]
  exact (ite_eq_or_eq _ _ _).symm

theorem tripStep_tripDropped (s : State) {m : Nat} (hm : m < 8) : s.TripStep (s.tripDropped m) m :=
  (((tripStep_modTrip s m _).trans (tripStep_setFlag _ hm (PIO_TRSTAT_TRIPPED m) false rfl)).trans
    (tripStep_setFlag _ hm (PIO_TRSTAT_LATCHED m) false rfl)).trans (tripStep_tripBall _ hm false)

/-- The output is not tripped, and TRIPPED, LATCHED and DRIVE are 0. -/
def TripDropped (n : Nat) (x : TripState) (v : BitVec 32) : Prop :=
  x.tripped = false ∧ flagIn v (PIO_TRSTAT_TRIPPED n) = false ∧ flagIn v (PIO_TRSTAT_LATCHED n) = false ∧
    flagIn v (PIO_TRSTAT_DRIVE n) = false

theorem State.tripBall_dropped (h : (s.trip n).tripped = false) (htripped : s.flag (PIO_TRSTAT_TRIPPED n) = false)
    (hlatched : s.flag (PIO_TRSTAT_LATCHED n) = false) :
    TripDropped n ((s.tripBall n false).trip n) ((s.tripBall n false).rd (PIO_TRSTAT n)) :=
  ⟨(s.tripBall_trip n false).1.trans h,
    (s.tripBall_flag n false (f := PIO_TRSTAT_TRIPPED n) (by simp [PIO_TRSTAT_TRIPPED])).trans htripped,
    (s.tripBall_flag n false (f := PIO_TRSTAT_LATCHED n) (by simp [PIO_TRSTAT_LATCHED])).trans hlatched, s.tripBall_drive n false⟩

theorem State.tripDropped_dropped (hlen : n < s.pio.trip.length) :
    TripDropped n ((s.tripDropped n).trip n) ((s.tripDropped n).rd (PIO_TRSTAT n)) := by
  refine State.tripBall_dropped ?_ ?_ ?_
  · rw [State.setFlag_trip, State.setFlag_trip, s.trip_modTrip_self _ hlen]; rfl
  · rw [State.flag_setFlag_other _ _ _ _ (by simp [PIO_TRSTAT_LATCHED]) (by simp [PIO_TRSTAT_LATCHED, PIO_TRSTAT_TRIPPED])]
    exact State.flag_setFlag_self _ (PIO_TRSTAT_TRIPPED n) false (by simp [PIO_TRSTAT_TRIPPED]) (by simp [PIO_TRSTAT_TRIPPED])
  · exact State.flag_setFlag_self _ (PIO_TRSTAT_LATCHED n) false (by simp [PIO_TRSTAT_LATCHED]) (by simp [PIO_TRSTAT_LATCHED])

/-- A disabled output stays as dropped through the end of a command. -/
theorem State.settle_dropped (hn : n < 8) (hen : s.flag (PIO_TRCFG_EN n) = false) (h : TripDropped n (s.trip n) (s.rd (PIO_TRSTAT n)))
    (b : Nat) : TripDropped n ((s.settle b).trip n) ((s.settle b).rd (PIO_TRSTAT n)) := by
  refine State.settle_trip hn h (fun u hu hQ => ?_) (fun u hu hQ => ?_) b
  · rw [State.tripState_disabled ((hu.cfg hn (PIO_TRCFG_EN n) rfl).trans hen)]
    exact hQ
  · obtain ⟨hopen, htripped, hlatched, -⟩ := hQ
    rw [State.tripDrive_disabled ((hu.cfg hn (PIO_TRCFG_EN n) rfl).trans hen)]
    exact State.tripBall_dropped hopen htripped hlatched

theorem exec_tripDisable_drops (hs : s.Sizes) (hn : n < 8) (hwrite : s.writable (.port p) (PIO_TRCFG n) = true)
    (hbit : bitAt (s.stored (PIO_TRCFG n) v).toNat 31 = false) (hen : s.flag (PIO_TRCFG_EN n) = true) :
    ∃ t, exec (.tripDisable p n v) s = .next t ∧ t.rd (PIO_TRCFG n) = s.stored (PIO_TRCFG n) v ∧ (t.trip n).tripped = false ∧
      t.flag (PIO_TRSTAT_TRIPPED n) = false ∧ t.flag (PIO_TRSTAT_LATCHED n) = false ∧ t.flag (PIO_TRSTAT_DRIVE n) = false ∧
      s.Frame t [.checks] [PIO_TRCFG n] := by
  obtain ⟨-, -, -, -, htrips, -⟩ := hs
  have hstored := State.rd_storeWrite_port v hwrite
  have hoff : (s.storeWrite (.port p) (PIO_TRCFG n) v).flag (PIO_TRCFG_EN n) = false := by
    rw [State.flag_eq_flagIn, PIO_TRCFG_EN, flagIn_eq_bitAt, hstored, hbit]
  obtain ⟨w, hexec, hw⟩ := exec_tripDisable_eq hn hen hoff
  have hstore := frame_storeWrite s (.port p) (PIO_TRCFG n) v
  have hlen : n < (s.storeWrite (.port p) (PIO_TRCFG n) v).pio.trip.length := by simpa [htrips] using hn
  generalize s.storeWrite (.port p) (PIO_TRCFG n) v = u at *
  have hdropped := State.tripDropped_dropped hlen
  have hshown : u.TripsOnly w ∧ TripDropped n (w.trip n) (w.rd (PIO_TRSTAT n)) := by
    rcases hw with rfl | rfl
    · exact ⟨(tripStep_tripDropped u hn).only, hdropped⟩
    · rw [State.event_trip, State.event_rd]
      exact ⟨((tripStep_tripDropped u hn).trans (tripStep_event _ (by decide) n _ _ _ _ _)).only, hdropped⟩
  obtain ⟨honly, hshown⟩ := hshown
  have hcfg := (endReg_trip n hn).1
  obtain ⟨hopen, htripped, hlatched, hdrive⟩ :=
    State.settle_dropped hn ((honly.cfg hn (PIO_TRCFG_EN n) rfl).trans hoff) hshown s.irqLive
  exact ⟨_, hexec, by rw [State.settle_rd hcfg, honly.frame.rd (by simp) hcfg, hstored], hopen, htripped, hlatched, hdrive,
    ((hstore.seq honly.frame).mono (by simp) (by simp)).settle _⟩

end

/-! ACK (R230) -/

section
variable {s : State} {n : Nat} {p : Port} {v : BitVec 32}

/-- What a write of PIO_TRACK does to one output. -/
def State.ackTrip (s : State) (v : BitVec 32) (n : Nat) : State :=
  if bitAt v.toNat n ∧ s.tripSources n = 0 ∧ ¬ bitAt (s.get PIO_TRHOST_HOST) n then
    (s.modTrip n (fun t => { t with acked := true })).tripState n
  else s

theorem exec_ack_eq (hwrite : s.writable (.port .pcie) PIO_TRACK = true) :
    exec (.ack p v) s = .next ((State.each 8 (fun n s => s.ackTrip v n) s).settle s.irqLive) := by
  change execAck p v s = _
  unfold execAck finish State.wrTrack
  rw [if_neg (by simp [hwrite])]
  rfl

theorem tripStep_ackTrip (s : State) (v : BitVec 32) {m : Nat} (hm : m < 8) : s.TripStep (s.ackTrip v m) m := by
  unfold State.ackTrip
  split
  · exact (tripStep_modTrip s m _).trans (tripStep_tripState _ hm)
  · exact State.TripStep.refl s m

/-- An acknowledge ends a trip without cause whose minimum time is over. -/
theorem State.ackTrip_ended (hlen : n < s.pio.trip.length) (hbit : bitAt v.toNat n = true) (hsrc : s.tripSources n = 0)
    (hhost : bitAt (s.get PIO_TRHOST_HOST) n = false) (hen : s.flag (PIO_TRCFG_EN n) = true) (htripped : (s.trip n).tripped = true)
    (hmin : ∀ u, (s.trip n).minUntil = some u → u ≤ s.exp.now) :
    s.ackTrip v n = (s.modTrip n (fun t => { t with acked := true })).tripEnded n := by
  unfold State.ackTrip
  rw [if_pos ⟨hbit, hsrc, by simp [hhost]⟩]
  generalize hu : s.modTrip n (fun t => { t with acked := true }) = u
  have hacked : u.trip n = { s.trip n with acked := true } := by rw [← hu]; exact s.trip_modTrip_self _ hlen
  rw [State.tripState_released (s := u) (by rw [← hu]; exact hen) (by rw [← hu]; exact State.tripCause_of_quiet hsrc hhost)
    (by rw [hacked]; exact htripped) (by rw [hacked, ← hu]; exact hmin), hacked, if_neg (by simp)]

theorem exec_ack_releases (hs : s.Sizes) (hn : n < 8) (hwrite : s.writable (.port .pcie) PIO_TRACK = true)
    (hbit : bitAt v.toNat n = true) (hsrc : s.tripSources n = 0) (hhost : bitAt (s.get PIO_TRHOST_HOST) n = false)
    (hen : s.flag (PIO_TRCFG_EN n) = true) (htripped : (s.trip n).tripped = true)
    (hmin : ∀ u, (s.trip n).minUntil = some u → u ≤ s.exp.now) :
    ∃ t, exec (.ack p v) s = .next t ∧ (t.trip n).tripped = false ∧ t.flag (PIO_TRSTAT_TRIPPED n) = false ∧ s.Frame t [] [] := by
  obtain ⟨-, -, -, -, htrips, -⟩ := hs
  have hlen : n < s.pio.trip.length := htrips ▸ hn
  have honly : s.TripsOnly (State.each 8 (fun n s => s.ackTrip v n) s) :=
    State.each_keeps (P := s.TripsOnly) (State.TripsOnly.refl s) (fun m hm w hw => hw.trans (tripStep_ackTrip w v hm).only)
  have hended : ((State.each 8 (fun n s => s.ackTrip v n) s).trip n).tripped = false ∧
      (State.each 8 (fun n s => s.ackTrip v n) s).flag (PIO_TRSTAT_TRIPPED n) = false := by
    refine State.each_through hn (A := fun _ w => s.TripsOnly w ∧ w.trip n = s.trip n)
      (B := fun w => (w.trip n).tripped = false ∧ w.flag (PIO_TRSTAT_TRIPPED n) = false)
      ⟨State.TripsOnly.refl s, rfl⟩ (fun m hm w ⟨hw, hsame⟩ => ?_) (fun w ⟨hw, hsame⟩ => ?_) (fun m hnm hm w hw => ?_)
    · have hstep := tripStep_ackTrip w v (m := m) (by omega)
      exact ⟨hw.trans hstep.only, (hstep.other n (by omega)).1.trans hsame⟩
    · have hlen' : n < w.pio.trip.length := hw.length ▸ hlen
      rw [State.ackTrip_ended hlen' hbit ((hw.sources hn).trans hsrc)
        (by rw [hw.frame.get PIO_TRHOST_HOST (by simp) (by decide)]; exact hhost) ((hw.cfg hn (PIO_TRCFG_EN n) rfl).trans hen)
        (by rw [hsame]; exact htripped) (by rw [hsame, hw.exp]; exact hmin)]
      exact ⟨by rw [State.tripEnded_trip (by rwa [State.modTrip_length])], State.tripEnded_shown⟩
    · obtain ⟨htrip, hstat⟩ := (tripStep_ackTrip w v hm).other n (by omega)
      rw [htrip, State.flag_of_rd (f := PIO_TRSTAT_TRIPPED n) hstat]
      exact hw
  obtain ⟨hopen, hshown⟩ := State.settle_untripped hn (honly.length ▸ hlen)
    ((honly.cause hn).trans (State.tripCause_of_quiet hsrc hhost)) hended.1 hended.2 s.irqLive
  exact ⟨_, exec_ack_eq hwrite, hopen, hshown, honly.frame.settle _⟩

end

/-! MINTRIP_EXPIRY (R230) -/

section
variable {s : State} {n u : Nat}

/-- The minimum time of a trip is over. -/
def State.minTimeOver (s : State) (n : Nat) : State := (s.modTrip n (fun t => { t with minUntil := none })).tripState n

theorem exec_mintripExpiry_eq (hmin : (s.trip n).minUntil = some u) :
    exec (.mintripExpiry n) s = .next (((s.reach u).minTimeOver n).settle s.irqLive) := by
  change execMintripExpiry n s = _
  unfold execMintripExpiry finish
  dsimp only
  rw [hmin]
  rfl

/-- At the end of its minimum time a trip without cause ends, or LATCH holds it. -/
theorem State.minTimeOver_trip (hlen : n < s.pio.trip.length) (hcause : s.tripCause n = false) (hen : s.flag (PIO_TRCFG_EN n) = true)
    (htripped : (s.trip n).tripped = true) :
    ((s.minTimeOver n).trip n).tripped = (s.flag (PIO_TRCFG_LATCH n) && !(s.trip n).acked) ∧
      ((s.flag (PIO_TRCFG_LATCH n) && !(s.trip n).acked) = true → ((s.minTimeOver n).trip n).acked = false) := by
  unfold State.minTimeOver
  generalize hu : s.modTrip n (fun t => { t with minUntil := none }) = u
  have hfree : u.trip n = { s.trip n with minUntil := none } := by rw [← hu]; exact s.trip_modTrip_self _ hlen
  have hlen' : n < u.pio.trip.length := by rw [← hu, State.modTrip_length]; exact hlen
  have hlatch : u.flag (PIO_TRCFG_LATCH n) = s.flag (PIO_TRCFG_LATCH n) := by rw [← hu]; rfl
  rw [State.tripState_released (s := u) (by rw [← hu]; exact hen) (by rw [← hu]; exact hcause) (by rw [hfree]; exact htripped)
    (by simp [hfree]), hfree, hlatch]
  by_cases hheld : (s.flag (PIO_TRCFG_LATCH n) && !(s.trip n).acked) = true
  · rw [if_pos hheld, State.setFlag_trip, hfree, hheld]
    simp only [Bool.and_eq_true, Bool.not_eq_true'] at hheld
    exact ⟨htripped, fun _ => hheld.2⟩
  · rw [if_neg hheld, State.tripEnded_trip hlen']
    exact ⟨(eq_false_of_ne_true hheld).symm, fun h => absurd h hheld⟩

theorem exec_mintripExpiry_released (hs : s.Sizes) (hn : n < 8) (hmin : (s.trip n).minUntil = some u) (hsrc : s.tripSources n = 0)
    (hhost : bitAt (s.get PIO_TRHOST_HOST) n = false) (hen : s.flag (PIO_TRCFG_EN n) = true) (htripped : (s.trip n).tripped = true) :
    ∃ t, exec (.mintripExpiry n) s = .next t ∧ (t.trip n).tripped = (s.flag (PIO_TRCFG_LATCH n) && !(s.trip n).acked) ∧
      (s.reach u).Frame t [] [] := by
  obtain ⟨-, -, -, -, htrips, -⟩ := hs
  have hlen : n < (s.reach u).pio.trip.length := htrips ▸ hn
  have hcause : (s.reach u).tripCause n = false := State.tripCause_of_quiet hsrc hhost
  have honly : (s.reach u).TripsOnly ((s.reach u).minTimeOver n) := ((tripStep_modTrip _ n _).trans (tripStep_tripState _ hn)).only
  have hended := State.settle_trip (s := (s.reach u).minTimeOver n)
    (Q := fun x _ => x.tripped = (s.flag (PIO_TRCFG_LATCH n) && !(s.trip n).acked) ∧
      ((s.flag (PIO_TRCFG_LATCH n) && !(s.trip n).acked) = true → x.acked = false)) hn
    (State.minTimeOver_trip hlen hcause hen htripped) (fun w hw hQ => ?_) (fun w hw hQ => ?_) s.irqLive
  · exact ⟨_, exec_mintripExpiry_eq hmin, hended.1, honly.frame.settle _⟩
  · have hw' := honly.trans hw
    have hquiet := (hw'.cause hn).trans hcause
    by_cases hheld : (s.flag (PIO_TRCFG_LATCH n) && !(s.trip n).acked) = true
    · have hlatch : s.flag (PIO_TRCFG_LATCH n) = true := (Bool.and_eq_true_iff.mp hheld).1
      rw [State.tripState_latched hquiet (hQ.1.trans hheld) ((hw'.cfg hn (PIO_TRCFG_LATCH n) rfl).trans hlatch) (hQ.2 hheld)]
      exact hQ
    · rw [State.tripState_idle hquiet (hQ.1.trans (eq_false_of_ne_true hheld))]
      exact hQ
  · obtain ⟨hsame, hacked⟩ := State.tripDrive_trip (s := w) (n := n) ((honly.trans hw).length ▸ hlen)
    rw [hsame, hacked]
    exact hQ

end

/-! MOMENTARY_SOURCE_EXPIRY (R228) -/

/-- A momentary source ends, its 10 ms over at `q`. -/
def State.sourceEnded (s : State) (code : BitVec 16) (index : BitVec 8) (q : Nat) : State :=
  (s.modEvt (fun e => { e with pulses := e.pulses.filter (fun x => !(x.1 == code && x.2.1 == index)) })).reach q

theorem frame_sourceEnded (s : State) (code : BitVec 16) (index : BitVec 8) (q : Nat) :
    s.Frame (s.sourceEnded code index q) [.exposure] [] :=
  ⟨fun p hp => by cases p <;> simp [Part.Same, State.framByte, State.sourceEnded, State.reach] at *, fun _ _ _ => rfl, rfl⟩

theorem exec_momentarySourceExpiry_ends (s : State) {p : BitVec 16 × BitVec 8 × Nat} (hp : p ∈ s.evt.pulses) :
    ∃ t, exec (.momentarySourceExpiry p.1 p.2.1) s = .next t ∧
      t.evt.pulses = s.evt.pulses.filter (fun q => !(q.1 == p.1 && q.2.1 == p.2.1)) ∧ s.Frame t [.exposure] [] := by
  obtain ⟨q, hq⟩ : ∃ q, s.evt.pulses.find? (fun x => x.1 == p.1 && x.2.1 == p.2.1) = some q :=
    Option.isSome_iff_exists.mp (List.find?_isSome.mpr ⟨p, hp, by simp⟩)
  have hexec : exec (.momentarySourceExpiry p.1 p.2.1) s =
      .next ((State.each 8 (fun n s => s.tripState n) (s.sourceEnded p.1 p.2.1 q.2.2)).settle s.irqLive) := by
    change execMomentarySourceExpiry p.1 p.2.1 s = _
    unfold execMomentarySourceExpiry finish
    dsimp only
    rw [hq]
    rfl
  have honly : (s.sourceEnded p.1 p.2.1 q.2.2).TripsOnly
      (State.each 8 (fun n s => s.tripState n) (s.sourceEnded p.1 p.2.1 q.2.2)) :=
    State.each_keeps (P := State.TripsOnly _) (State.TripsOnly.refl _) (fun m hm w hw => hw.trans (tripStep_tripState w hm).only)
  obtain ⟨hframe, -, hpulses, -⟩ := honly
  exact ⟨_, hexec, by rw [State.settle_pulses, hpulses]; rfl,
    (((frame_sourceEnded s _ _ _).seq hframe).mono (by simp) (by simp)).settle _⟩

/-! TRIP_READBACK (R231) -/

section
variable {s : State} {n : Nat} {levels : BitVec 8}

/-- The balls are next read from now on, after the last reading. -/
def State.readFrom (s : State) : Nat :=
  match s.pio.readAt with
  | some r => max s.exp.now (r + 1)
  | none => s.exp.now

/-- The first instant from `from_` on of the grid of 16,384 HFREF cycles on which the boundaries lie. -/
def State.readInstant (s : State) (from_ : Nat) : Nat := s.exp.startAt + (from_ - s.exp.startAt + 16383) / 16384 * 16384

/-- A reading of the balls begins at `at_`. -/
def State.readAt (s : State) (at_ : Nat) : State := { s.reach at_ with pio := { s.pio with readAt := some at_ } }

theorem exec_tripReadback_eq (s : State) (levels : BitVec 8) :
    exec (.tripReadback levels) s = .next
      ((State.each 8 (fun n s => s.tripRead n (bitAt levels.toNat n)) (s.readAt (s.readInstant s.readFrom))).settle s.irqLive) := rfl

theorem frame_readAt (s : State) (at_ : Nat) : (s.reach at_).Frame (s.readAt at_) [] [] :=
  ⟨fun p _ => by cases p <;> simp [Part.Same, State.framByte, State.readAt, State.reach], fun _ _ _ => rfl, rfl⟩

/-- The output shows what was read, and the fault where `fault` says that there is one. -/
def ReadbackShown (n : Nat) (level : Bool) (fault : Prop) (v : BitVec 32) : Prop :=
  flagIn v (PIO_TRSTAT_PINLVL n) = level ∧ (fault → flagIn v (PIO_TRSTAT_RBFLT n) = true)

/-- The second wrong reading in a row of a ball whose drive is old enough (R231). -/
def State.readbackFault (s : State) (n : Nat) (level : Bool) : Prop :=
  (s.trip n).changedAt + usCycles 100 ≤ s.exp.now ∧ s.flag (PIO_TRCFG_RBEN n) = true ∧ level = s.flag (PIO_TRSTAT_DRIVE n) ∧
    (s.trip n).mismatch ≠ 0

theorem State.tripRead_shown (hn : n < 8) {level : Bool} (hen : s.flag (PIO_TRCFG_EN n) = true) :
    ReadbackShown n level (s.readbackFault n level) ((s.tripRead n level).rd (PIO_TRSTAT n)) := by
  refine ⟨State.tripRead_pinlvl hn level hen, fun ⟨hsteady, hrben, hlevel, hwrong⟩ => ?_⟩
  obtain ⟨low, heq⟩ := State.tripRead_failed hen hsteady hrben hlevel hwrong
  rw [heq]
  exact State.readbackFailed_rbflt hn level low

/-- All balls are read: output `n` shows its reading, where no other before it strikes. -/
theorem State.readback_shown (hn : n < 8) (hen : s.flag (PIO_TRCFG_EN n) = true) (hbefore : ∀ m, m < n → (s.trip m).mismatch = 0)
    (l : Nat → Bool) :
    ReadbackShown n (l n) (s.readbackFault n (l n)) ((State.each 8 (fun m s => s.tripRead m (l m)) s).rd (PIO_TRSTAT n)) := by
  refine State.each_through hn
    (A := fun i w => s.TripsOnly w ∧ ∀ m, i ≤ m → w.trip m = s.trip m ∧ w.rd (PIO_TRSTAT m) = s.rd (PIO_TRSTAT m))
    (B := fun w => ReadbackShown n (l n) (s.readbackFault n (l n)) (w.rd (PIO_TRSTAT n)))
    ⟨State.TripsOnly.refl s, fun _ _ => ⟨rfl, rfl⟩⟩ (fun i hi w ⟨hw, hrest⟩ => ?_) (fun w ⟨hw, hrest⟩ => ?_)
    (fun m hnm hm w ⟨hread, hfault⟩ => ?_)
  · have hstep := tripStep_tripRead (s := w) (m := i) (by omega) (by rw [(hrest i le_rfl).1]; exact hbefore i hi) (l i)
    refine ⟨hw.trans hstep.only, fun m hm => ?_⟩
    obtain ⟨htrip, hstat⟩ := hstep.other m (by omega)
    exact ⟨htrip.trans (hrest m (by omega)).1, hstat.trans (hrest m (by omega)).2⟩
  · obtain ⟨htrip, hstat⟩ := hrest n le_rfl
    have hfault : w.readbackFault n (l n) = s.readbackFault n (l n) := by
      rw [State.readbackFault, State.readbackFault, htrip, hw.exp, hw.cfg hn (PIO_TRCFG_RBEN n) rfl,
        State.flag_of_rd (f := PIO_TRSTAT_DRIVE n) hstat]
    rw [← hfault]
    exact State.tripRead_shown hn ((hw.cfg hn (PIO_TRCFG_EN n) rfl).trans hen)
  · obtain ⟨hlevel, hrbflt⟩ := sameReadback_tripRead w hm hn (by omega) (l m)
    exact ⟨hlevel.trans hread, fun h => hrbflt.trans (hfault h)⟩

/-- What was read stays shown through the end of a command. -/
theorem State.settle_readback (hn : n < 8) {level : Bool} {fault : Prop} (h : ReadbackShown n level fault (s.rd (PIO_TRSTAT n)))
    (b : Nat) : ReadbackShown n level fault ((s.settle b).rd (PIO_TRSTAT n)) := by
  refine State.settle_trip (Q := fun _ v => ReadbackShown n level fault v) hn h (fun u _ hQ => ?_) (fun u _ hQ => ?_) b
  · exact ⟨(u.tripState_flag (f := PIO_TRSTAT_PINLVL n) rfl (by simp [PIO_TRSTAT_PINLVL]) (by simp [PIO_TRSTAT_PINLVL])).trans hQ.1,
      fun hfault => (u.tripState_flag (f := PIO_TRSTAT_RBFLT n) rfl (by simp [PIO_TRSTAT_RBFLT]) (by simp [PIO_TRSTAT_RBFLT])).trans
        (hQ.2 hfault)⟩
  · exact ⟨(u.tripDrive_flag (f := PIO_TRSTAT_PINLVL n) (by simp [PIO_TRSTAT_PINLVL])).trans hQ.1,
      fun hfault => (u.tripDrive_flag (f := PIO_TRSTAT_RBFLT n) (by simp [PIO_TRSTAT_RBFLT])).trans (hQ.2 hfault)⟩

theorem exec_tripReadback_shown (hn : n < 8) (hen : s.flag (PIO_TRCFG_EN n) = true) (hbefore : ∀ m, m < n → (s.trip m).mismatch = 0) :
    ∃ t, exec (.tripReadback levels) s = .next t ∧ t.flag (PIO_TRSTAT_PINLVL n) = bitAt levels.toNat n ∧
      ((s.readAt (s.readInstant s.readFrom)).readbackFault n (bitAt levels.toNat n) → t.flag (PIO_TRSTAT_RBFLT n) = true) ∧
      (s.reach (s.readInstant s.readFrom)).Frame t [.pulses, .safety, .taken, .host, .writer] strikeRegs := by
  obtain ⟨hlevel, hfault⟩ := State.settle_readback hn
    (State.readback_shown (s := s.readAt (s.readInstant s.readFrom)) hn hen hbefore (fun m => bitAt levels.toNat m)) s.irqLive
  exact ⟨_, exec_tripReadback_eq s levels, hlevel, hfault, (((frame_readAt s _).seq
    (frame_each 8 _ _ (fun m hm w => frame_tripRead w hm _))).mono (by simp) (by simp)).settle _⟩

end

end Sys2Proof.Machine

open Sys2Proof.Machine in
/-- Settles O43: a host trip, a disable, an acknowledge, an expiry and a reading do as stated, and the end of the command keeps it. -/
theorem tripOutputs : Obligations.TripOutputs := by
  unfold Obligations.TripOutputs
  refine fun s n hn hs => ⟨fun p v hwrite hbit hen => ?_, fun p v hwrite hbit hen => ?_,
    fun p v hwrite hbit hsrc hhost hen htripped hmin => ?_, ?_, fun p hp => ?_, ?_⟩
  · exact exec_hostTrip_trips hs hn hwrite hbit hen
  · exact exec_tripDisable_drops hs hn hwrite hbit hen
  · exact exec_ack_releases hs hn hwrite hbit hsrc hhost hen htripped hmin
  · rintro u hmin hsrc hhost hen htripped _ rfl
    exact exec_mintripExpiry_released hs hn hmin hsrc hhost hen htripped
  · exact exec_momentarySourceExpiry_ends s hp
  · intro levels from_ hen hbefore hfrom s' hs'
    obtain rfl : from_ = s.readFrom := hfrom
    obtain rfl : s' = s.reach (s.readInstant s.readFrom) := hs'
    obtain ⟨t, hexec, hlevel, hfault, hframe⟩ := exec_tripReadback_shown (levels := levels) hn hen hbefore
    exact ⟨t, hexec, hlevel, fun hsteady hrben hread hwrong => hfault ⟨hsteady, hrben, hread, hwrong⟩, hframe⟩

end

section
/-!
SUPPORT. Pulse inputs (R233 to R238): what an accepted level, a counting edge and a count make of an input.
-/

namespace Sys2Proof.Machine

theorem frame_modPin (s : State) (j : Nat) (f : PinState → PinState) : s.Frame (s.modPin j f) [.inputs] [] :=
  ⟨fun p hp => by cases p <;> simp [Part.Same, State.modPin, State.framByte] at *, fun _ _ _ => rfl, rfl⟩

theorem frame_pinQuantity (s : State) (j c : Nat) : s.Frame (s.pinQuantity j c) [.inputs] [] :=
  ⟨fun p hp => by cases p <;> simp [Part.Same, State.pinQuantity, State.framByte] at *, fun _ _ _ => rfl, rfl⟩

theorem State.pin_of_part {s t : State} (h : t.pio.pin = s.pio.pin) (j : Nat) : t.pin j = s.pin j := by unfold State.pin; rw [h]

/-- The end of a command leaves the pulse inputs and their quantity registers. -/
theorem State.settle_pin (s : State) (b j : Nat) : (s.settle b).pin j = s.pin j := State.pin_of_part (State.settle_same s b .inputs).1 j

theorem State.settle_pinq (s : State) (b : Nat) : (s.settle b).pio.pinq = s.pio.pinq := (State.settle_same s b .inputs).2

theorem State.modPin_length (s : State) (j : Nat) (f : PinState → PinState) : (s.modPin j f).pio.pin.length = s.pio.pin.length :=
  List.length_modify ..

theorem State.modPin_pinq (s : State) (j : Nat) (f : PinState → PinState) : (s.modPin j f).pio.pinq = s.pio.pinq := rfl

theorem State.pin_modPin (s : State) {j : Nat} (f : PinState → PinState) (hj : j < s.pio.pin.length) (i : Nat) :
    (s.modPin j f).pin i = if i = j then f (s.pin j) else s.pin i := by
  unfold State.pin State.modPin
  by_cases hi : i = j
  · subst hi; simp [List.getD_eq_getElem?_getD, hj]
  · simp [List.getD_eq_getElem?_getD, hi, Ne.symm hi]

/-- The status and the count of a pulse input are no registers that the end of a command may change. -/
theorem endReg_pin : ∀ j < 16, endReg (PIO_PINSTAT j) = false ∧ endReg (PIO_PINCNT j) = false := by decide

/-! The debounced level (R233) -/

theorem frame_pinLevel (s : State) (j : Nat) (level : Bool) (at_ : Nat) : s.Frame (s.pinLevel j level at_) [.inputs] [PIO_PINSTAT j] :=
  ((frame_modPin s j _).seq (frame_setFlag _ (PIO_PINSTAT_LEVEL j) level)).mono (by simp) (by simp [PIO_PINSTAT_LEVEL])

theorem State.pinLevel_pin (s : State) {j : Nat} (hj : j < s.pio.pin.length) (level : Bool) (at_ i : Nat) :
    (s.pinLevel j level at_).pin i = if i = j then { s.pin j with level := level, changedAt := some at_ } else s.pin i := by
  rw [← s.pin_modPin (fun p => { p with level := level, changedAt := some at_ }) hj i]
  exact State.pin_of_part (by simp [State.pinLevel]) i

theorem State.pinLevel_pinq (s : State) (j : Nat) (level : Bool) (at_ : Nat) : (s.pinLevel j level at_).pio.pinq = s.pio.pinq := by
  simp [State.pinLevel, State.modPin_pinq]

theorem State.pinLevel_length (s : State) (j : Nat) (level : Bool) (at_ : Nat) :
    (s.pinLevel j level at_).pio.pin.length = s.pio.pin.length := by
  simp [State.pinLevel, State.modPin_length]

theorem State.pinLevel_shown (s : State) (j : Nat) (level : Bool) (at_ : Nat) :
    (s.pinLevel j level at_).flag (PIO_PINSTAT_LEVEL j) = level :=
  State.flag_setFlag_self _ (PIO_PINSTAT_LEVEL j) level (by simp [PIO_PINSTAT_LEVEL]) (by simp [PIO_PINSTAT_LEVEL])

/-- RUN of any input stays as shown when a level is accepted. -/
theorem State.pinLevel_run (s : State) (j : Nat) (level : Bool) (at_ i : Nat) :
    (s.pinLevel j level at_).flag (PIO_PINSTAT_RUN i) = s.flag (PIO_PINSTAT_RUN i) :=
  State.flag_setFlag_other _ _ _ _ (by simp [PIO_PINSTAT_LEVEL]) (.inr (.inl (by simp [PIO_PINSTAT_LEVEL, PIO_PINSTAT_RUN])))

/-! A counting edge (R237, R238) -/

/-- An edge is noted in the input's own state, level and count left, and ends a missing-pulse event. -/
theorem State.pinEdge_cases (s : State) (j at_ : Nat) : ∃ f : PinState → PinState,
    (∀ p, (f p).level = p.level ∧ (f p).count = p.count) ∧ (s.pinEdge j at_ = s.modPin j f ∨
      ∃ x, s.pinEdge j at_ = ((s.modPin j f).setFlag (PIO_PINSTAT_MISSING j) false).event 0x0A04 j .stop x 0 0) := by
  unfold State.pinEdge
  extract_lets u
  obtain ⟨f, hf, hu⟩ : ∃ f : PinState → PinState, (∀ p, (f p).level = p.level ∧ (f p).count = p.count) ∧ u = s.modPin j f :=
    ⟨_, fun p => by dsimp only; split <;> exact ⟨rfl, rfl⟩, rfl⟩
  split
  · next t0 _ =>
    refine ⟨(fun p : PinState => { p with missing := none }) ∘ f, hf, .inr ⟨tsSpan t0 u.ts, ?_⟩⟩
    rw [hu, State.modPin, State.modPin, State.modPin, ← List.modify_modify_eq]
  · exact ⟨f, hf, .inl hu⟩

theorem frame_pinEdge (s : State) (j at_ : Nat) : s.Frame (s.pinEdge j at_) [.inputs] [PIO_PINSTAT j] := by
  obtain ⟨f, -, heq | ⟨x, heq⟩⟩ := s.pinEdge_cases j at_ <;> rw [heq]
  · exact (frame_modPin s j f).mono (by simp) (by simp)
  · exact (((frame_modPin s j f).seq (frame_setFlag _ (PIO_PINSTAT_MISSING j) false)).seq (frame_event _ _ _ _ _ _ _)).mono (by simp)
      (by simp [PIO_PINSTAT_MISSING])

/-- An edge leaves the levels, the counts and the quantity registers of all inputs. -/
theorem State.pinEdge_kept (s : State) {j : Nat} (hj : j < s.pio.pin.length) (at_ : Nat) :
    (∀ i, ((s.pinEdge j at_).pin i).level = (s.pin i).level ∧ ((s.pinEdge j at_).pin i).count = (s.pin i).count) ∧
      (s.pinEdge j at_).pio.pinq = s.pio.pinq ∧ (s.pinEdge j at_).pio.pin.length = s.pio.pin.length := by
  obtain ⟨f, hf, hcase⟩ := s.pinEdge_cases j at_
  have hpio : (s.pinEdge j at_).pio = (s.modPin j f).pio := by
    rcases hcase with heq | ⟨x, heq⟩ <;> rw [heq]
    simp
  refine ⟨fun i => ?_, by rw [hpio]; rfl, by rw [hpio, State.modPin_length]⟩
  rw [State.pin_of_part (congrArg PioState.pin hpio), s.pin_modPin f hj]
  split
  · next hi => rw [hi]; exact hf _
  · exact ⟨rfl, rfl⟩

/-- An edge shows nothing but the end of a missing pulse. -/
theorem State.pinEdge_shown (s : State) (j at_ : Nat) (f : Fld)
    (hf : PIO_PINSTAT j ≠ f.off ∨ f.lsb + f.width ≤ 2 ∨ 3 ≤ f.lsb) : (s.pinEdge j at_).flag f = s.flag f := by
  obtain ⟨g, -, heq | ⟨x, heq⟩⟩ := s.pinEdge_cases j at_ <;> rw [heq]
  · rfl
  · rw [State.event_flag, State.flag_setFlag_other _ _ _ _ (by simp [PIO_PINSTAT_MISSING]) (by simpa [PIO_PINSTAT_MISSING] using hf)]
    rfl

/-! A count (R235) -/

/-- A count of the exposure in progress. -/
theorem State.pinCount_open {s : State} {at_ : Nat} (hopen : s.exp.running = false ∨ s.exp.startAt ≤ at_) (j : Nat) :
    s.pinCount j at_ = s.modPin j (fun p => { p with count := p.count + 1 }) := by
  rw [State.pinCount, if_neg]
  rintro ⟨hrun, hlate⟩
  rcases hopen with hstopped | hin
  · simp [hrun] at hstopped
  · omega

/-- A count of an exposure that has ended goes to the registers (log 131). -/
theorem State.pinCount_late {s : State} {at_ : Nat} (hrun : s.exp.running = true) (hlate : at_ < s.exp.startAt) (j : Nat) :
    s.pinCount j at_ = (s.modPin j (fun p => { p with late := p.late + 1 })).pinAdd j 1 := if_pos ⟨hrun, hlate⟩

theorem frame_pinAdd (s : State) (j c : Nat) : s.Frame (s.pinAdd j c) [.inputs] [PIO_PINCNT j] :=
  State.Frame.seq (ps := [.inputs]) (os := []) (State.Frame.ite (fun _ => State.Frame.refl _ _ _) (fun _ => frame_pinQuantity s j c))
    (frame_wr _ (PIO_PINCNT j) _)

theorem frame_pinCount (s : State) (j at_ : Nat) : s.Frame (s.pinCount j at_) [.inputs] [PIO_PINCNT j] :=
  State.Frame.ite (fun _ => ((frame_modPin s j _).seq (frame_pinAdd _ j 1)).mono (by simp) (by simp))
    (fun _ => (frame_modPin s j _).mono (by simp) (by simp))

/-- The counts of an input that have been added leave its own state. -/
theorem State.pinAdd_pin (s : State) (j c i : Nat) : (s.pinAdd j c).pin i = s.pin i :=
  State.pin_of_part (by unfold State.pinAdd State.pinQuantity; dsimp only; split <;> rfl) i

theorem State.pinAdd_rd (s : State) (j c : Nat) :
    (s.pinAdd j c).rd (PIO_PINCNT j) = s.rd (PIO_PINCNT j) + BitVec.ofNat 32 c := by
  unfold State.pinAdd
  rw [State.rd_wr, if_pos rfl]
  split <;> rfl

theorem State.pinAdd_pinq {s : State} {j : Nat} (hmir : s.mirInput j = false) (c : Nat) :
    (s.pinAdd j c).pio.pinq = s.pio.pinq.modify j (fun q => q + BitVec.ofNat 108 (c * s.pinK j)) := by
  unfold State.pinAdd
  rw [hmir]
  rfl

theorem State.pinCount_length (s : State) (j at_ : Nat) : (s.pinCount j at_).pio.pin.length = s.pio.pin.length := by
  unfold State.pinCount State.pinAdd State.pinQuantity
  dsimp only
  repeat' split
  all_goals simp [State.modPin_length]

theorem State.pinCount_level (s : State) {j : Nat} (hj : j < s.pio.pin.length) (at_ i : Nat) :
    ((s.pinCount j at_).pin i).level = (s.pin i).level := by
  unfold State.pinCount
  split
  · rw [State.pinAdd_pin, s.pin_modPin _ hj]
    split <;> simp_all
  · rw [s.pin_modPin _ hj]
    split <;> simp_all

end Sys2Proof.Machine
end

section
/-!
Settles O44 (R233 to R235, R238).  A level held long enough is accepted; the edge it makes is counted by the input or its pair.
-/

namespace Sys2Proof.Machine

/-! PIN_CHANGE_ACCEPTED (R233) -/

/-- The other member of an input's pair (R234). -/
def pairOther (j : Nat) : Nat := j - j % 2 + (1 - j % 2)

section
variable {s : State} {j at_ : Nat} {level both : Bool}

theorem exec_pinChangeAccepted_accepts (hon : s.pdOn 5 = true) (hj : j < 16) (hlevel : (s.pin j).level ≠ level)
    (hstable : ∀ c, (s.pin j).changedAt = some c → c + s.debounce j ≤ at_)
    (hother : both = true → ∀ c, (s.pin (pairOther j)).changedAt = some c → c + s.debounce j ≤ at_) :
    exec (.pinChangeAccepted j level at_ both) s =
      .next (((s.reach (at_ + s.debounce j)).pinChange j level at_ both).settle s.irqLive) := by
  change execPinChangeAccepted j level at_ both s = _
  unfold execPinChangeAccepted finish
  dsimp only
  rw [if_pos]
  refine ⟨hon, hj, hlevel, ?_, ?_⟩
  · split
    · next c hc => exact decide_eq_true (hstable c hc)
    · rfl
  · by_cases hboth : both = true
    · refine .inr ?_
      split
      · next c hc => exact decide_eq_true (hother hboth c hc)
      · rfl
    · exact .inl hboth

/-- A level that the change before it followed too soon is not accepted. -/
theorem exec_pinChangeAccepted_ignored (hshort : ∀ c, (s.pin j).changedAt = some c → at_ < c + s.debounce j)
    (hchanged : (s.pin j).changedAt ≠ none) :
    exec (.pinChangeAccepted j level at_ both) s = .next (s.settle s.irqLive) := by
  obtain ⟨c, hc⟩ := Option.ne_none_iff_exists'.mp hchanged
  change execPinChangeAccepted j level at_ both s = _
  unfold execPinChangeAccepted finish
  dsimp only
  rw [if_neg]
  rintro ⟨-, -, -, hstable, -⟩
  rw [hc] at hstable
  have := of_decide_eq_true hstable
  have := hshort c hc
  omega

end

/-! An input by itself (R235) -/

/-- A running input outside a pair counts its counting edge. -/
theorem State.pinChange_single {s : State} {j : Nat} (hquad : s.pinQuad j = false) (hrun : s.flag (PIO_PINSTAT_RUN j) = true)
    (level : Bool) (at_ : Nat) (both : Bool) :
    s.pinChange j level at_ both =
      if level = s.flag (PIO_PINCFG_EDGE j) then s.pinLevel j level at_
      else ((s.pinLevel j level at_).pinCount j at_).pinEdge j at_ := by
  have hquad' : (s.pinLevel j level at_).pinQuad j = false := hquad
  have hedge : (s.pinLevel j level at_).flag (PIO_PINCFG_EDGE j) = s.flag (PIO_PINCFG_EDGE j) :=
    State.flag_setFlag_other _ _ _ _ (by simp [PIO_PINSTAT_LEVEL])
      (.inl (by simp [PIO_PINSTAT_LEVEL, PIO_PINSTAT, PIO_PINCFG_EDGE, PIO_PINCFG]))
  unfold State.pinChange
  dsimp only
  rw [hquad', Bool.false_and, if_neg (by decide), State.pinLevel_run, hrun, hedge, Bool.true_and]
  by_cases h : level = s.flag (PIO_PINCFG_EDGE j)
  · rw [if_pos h, if_neg (by simp [h])]
  · rw [if_neg h, if_pos (by simpa using h)]

section
variable {s : State} {j : Nat} (hj : j < s.pio.pin.length) (level : Bool) (at_ : Nat)
include hj

/-- The counting edge of an input leaves its level as accepted, and its own counts as the count left them. -/
theorem State.pinCounted_kept :
    ((((s.pinLevel j level at_).pinCount j at_).pinEdge j at_).pin j).level = level ∧
      ((((s.pinLevel j level at_).pinCount j at_).pinEdge j at_).pin j).count = (((s.pinLevel j level at_).pinCount j at_).pin j).count ∧
      (((s.pinLevel j level at_).pinCount j at_).pinEdge j at_).pio.pinq = ((s.pinLevel j level at_).pinCount j at_).pio.pinq := by
  have hlen : j < (s.pinLevel j level at_).pio.pin.length := by rwa [State.pinLevel_length]
  obtain ⟨hkept, hpinq, -⟩ := ((s.pinLevel j level at_).pinCount j at_).pinEdge_kept (by rwa [State.pinCount_length]) at_ (j := j)
  obtain ⟨hlevel, hcount⟩ := hkept j
  refine ⟨?_, hcount, hpinq⟩
  rw [hlevel, State.pinCount_level _ hlen, State.pinLevel_pin s hj, if_pos rfl]

theorem State.pinCounted_open (hopen : s.exp.running = false ∨ s.exp.startAt ≤ at_) :
    ((((s.pinLevel j level at_).pinCount j at_).pinEdge j at_).pin j).count = (s.pin j).count + 1 ∧
      (((s.pinLevel j level at_).pinCount j at_).pinEdge j at_).pio.pinq = s.pio.pinq := by
  have hlen : j < (s.pinLevel j level at_).pio.pin.length := by rwa [State.pinLevel_length]
  have hexp : (s.pinLevel j level at_).exp = s.exp := (frame_pinLevel s j level at_).part (p := .exposure) (by simp)
  obtain ⟨-, hcount, hpinq⟩ := State.pinCounted_kept hj level at_
  have hcounted := State.pinCount_open (s := s.pinLevel j level at_) (at_ := at_) (by rwa [hexp]) j
  refine ⟨?_, ?_⟩
  · rw [hcount, hcounted, State.pin_modPin _ _ hlen, if_pos rfl, State.pinLevel_pin s hj, if_pos rfl]
  · rw [hpinq, hcounted, State.modPin_pinq, State.pinLevel_pinq]

theorem State.pinCounted_late (hj16 : j < 16) (hrun : s.exp.running = true) (hlate : at_ < s.exp.startAt) :
    ((((s.pinLevel j level at_).pinCount j at_).pinEdge j at_).pin j).count = (s.pin j).count ∧
      (((s.pinLevel j level at_).pinCount j at_).pinEdge j at_).rd (PIO_PINCNT j) = s.rd (PIO_PINCNT j) + 1 ∧
      (s.mirInput j = false → (((s.pinLevel j level at_).pinCount j at_).pinEdge j at_).pio.pinq =
        s.pio.pinq.modify j (fun q => q + BitVec.ofNat 108 (s.pinK j))) := by
  have hlen : j < (s.pinLevel j level at_).pio.pin.length := by rwa [State.pinLevel_length]
  have hframe := frame_pinLevel s j level at_
  have hexp : (s.pinLevel j level at_).exp = s.exp := hframe.part (p := .exposure) (by simp)
  obtain ⟨-, hcount, hpinq⟩ := State.pinCounted_kept hj level at_
  have hcounted := State.pinCount_late (s := s.pinLevel j level at_) (at_ := at_) (by rwa [hexp]) (by rwa [hexp]) j
  have hapart : PIO_PINCNT j ∉ [PIO_PINSTAT j] := by simp [PIO_PINCNT, PIO_PINSTAT]
  refine ⟨?_, ?_, fun hmir => ?_⟩
  · rw [hcount, hcounted, State.pinAdd_pin, State.pin_modPin _ _ hlen, if_pos rfl, State.pinLevel_pin s hj, if_pos rfl]
  · rw [(frame_pinEdge _ j at_).rd hapart (endReg_pin j hj16).2, hcounted, State.pinAdd_rd, State.modPin_rd,
      hframe.rd hapart (endReg_pin j hj16).2]
    rfl
  · have hmir' : ((s.pinLevel j level at_).modPin j (fun p => { p with late := p.late + 1 })).mirInput j = false := by
      have hactive : (s.pinLevel j level at_).flag TZL_STAT_ACTIVE = s.flag TZL_STAT_ACTIVE :=
        hframe.flag _ (by simp [TZL_STAT_ACTIVE, TZL_STAT, PIO_PINSTAT]; omega) (by decide)
      rw [← hmir, State.mirInput, State.mirInput, State.mirStandby, State.mirStandby, State.modPin_flag, hactive]
      rfl
    rw [hpinq, hcounted, State.pinAdd_pinq hmir', State.modPin_pinq, State.pinLevel_pinq, Nat.one_mul]
    rfl

end

section
variable {s s' : State} {j at_ : Nat} {level : Bool}

theorem exec_pinChangeAccepted_single (hs : s.Sizes) (hon : s.pdOn 5 = true) (hj : j < 16) (hlevel : (s.pin j).level ≠ level)
    (hstable : ∀ c, (s.pin j).changedAt = some c → c + s.debounce j ≤ at_) (hquad : s.pinQuad j = false)
    (hrun : s.flag (PIO_PINSTAT_RUN j) = true) (hs' : s' = s.reach (at_ + s.debounce j)) :
    ∃ t, exec (.pinChangeAccepted j level at_ false) s = .next t ∧ (t.pin j).level = level ∧ t.flag (PIO_PINSTAT_LEVEL j) = level ∧
      (level = s.flag (PIO_PINCFG_EDGE j) → (t.pin j).count = (s.pin j).count ∧ t.pio.pinq = s.pio.pinq) ∧
      (level ≠ s.flag (PIO_PINCFG_EDGE j) → s.exp.running = false ∨ s.exp.startAt ≤ at_ →
        (t.pin j).count = (s.pin j).count + 1 ∧ t.pio.pinq = s.pio.pinq) ∧
      (level ≠ s.flag (PIO_PINCFG_EDGE j) → s.exp.running = true → at_ < s.exp.startAt →
        (t.pin j).count = (s.pin j).count ∧ t.rd (PIO_PINCNT j) = s.rd (PIO_PINCNT j) + 1 ∧
        (s.mirInput j = false → t.pio.pinq = s.pio.pinq.modify j (fun q => q + BitVec.ofNat 108 (s.pinK j)))) ∧
      s'.Frame t [.inputs] [PIO_PINSTAT j, PIO_PINCNT j] := by
  obtain ⟨-, -, -, -, -, hpins, -⟩ := hs
  have hlen : j < s'.pio.pin.length := by rw [hs']; exact hpins ▸ hj
  obtain ⟨hstat, hcnt⟩ := endReg_pin j hj
  have hsingle := State.pinChange_single (s := s') (j := j) (by rw [hs']; exact hquad) (by rw [hs']; exact hrun) level at_ false
  rw [exec_pinChangeAccepted_accepts hon hj hlevel hstable (by simp), ← hs', hsingle]
  have hedge : s'.flag (PIO_PINCFG_EDGE j) = s.flag (PIO_PINCFG_EDGE j) := by rw [hs']; rfl
  rw [hedge]
  by_cases heq : level = s.flag (PIO_PINCFG_EDGE j)
  · rw [if_pos heq]
    have hpin := State.pinLevel_pin s' hlen level at_ j
    rw [if_pos rfl] at hpin
    refine ⟨_, rfl, ?_, ?_, fun _ => ⟨?_, ?_⟩, fun hne => absurd heq hne, fun hne => absurd heq hne,
      ((frame_pinLevel s' j level at_).mono (by simp) (by simp)).settle _⟩
    · rw [State.settle_pin, hpin]
    · rw [State.settle_flag hstat _ _ _ rfl, State.pinLevel_shown]
    · rw [State.settle_pin, hpin, hs']; rfl
    · rw [State.settle_pinq, State.pinLevel_pinq, hs']; rfl
  · rw [if_neg heq]
    obtain ⟨hkept, -, -⟩ := State.pinCounted_kept hlen level at_
    refine ⟨_, rfl, ?_, ?_, fun h => absurd h heq, fun _ hopen => ?_, fun _ hrunning hlate => ?_,
      ((((frame_pinLevel s' j level at_).seq (frame_pinCount _ j at_)).seq (frame_pinEdge _ j at_)).mono (by simp) (by simp)).settle _⟩
    · rw [State.settle_pin, hkept]
    · rw [State.settle_flag hstat _ _ _ rfl, State.pinEdge_shown _ _ _ _ (.inr (.inl (by simp [PIO_PINSTAT_LEVEL]))),
        (frame_pinCount _ j at_).flag _ (by simp [PIO_PINSTAT_LEVEL, PIO_PINSTAT, PIO_PINCNT]) hstat, State.pinLevel_shown]
    · rw [State.settle_pin, State.settle_pinq]
      have hcounted := State.pinCounted_open hlen level at_ (by rw [hs']; exact hopen)
      rw [hs'] at hcounted ⊢
      exact hcounted
    · rw [State.settle_pin, State.settle_pinq, State.settle_rd hcnt]
      have hcounted := State.pinCounted_late hlen level at_ hj (by rw [hs']; exact hrunning) (by rw [hs']; exact hlate)
      rw [hs'] at hcounted ⊢
      exact hcounted

end

/-! A quadrature pair (R234) -/

/-- A level of a pair's member is accepted; a rise is an edge of it. -/
def State.pinTurned (s : State) (j : Nat) (level : Bool) (at_ : Nat) : State :=
  if level then (s.pinLevel j level at_).pinEdge j at_ else s.pinLevel j level at_

/-- The change that an input has just made counts forward, by the levels of its pair. -/
def State.pairForward (s : State) (j : Nat) : Bool :=
  if j = j - j % 2 then (s.pin (j - j % 2)).level != (s.pin (j - j % 2 + 1)).level
  else (s.pin (j - j % 2)).level == (s.pin (j - j % 2 + 1)).level

theorem frame_pinTurned (s : State) (j : Nat) (level : Bool) (at_ : Nat) : s.Frame (s.pinTurned j level at_) [.inputs] [PIO_PINSTAT j] :=
  State.Frame.ite (fun _ => (frame_pinLevel s j level at_).trans (frame_pinEdge _ j at_)) (fun _ => frame_pinLevel s j level at_)

theorem State.pinTurned_length {s : State} {j : Nat} (hj : j < s.pio.pin.length) (level : Bool) (at_ : Nat) :
    (s.pinTurned j level at_).pio.pin.length = s.pio.pin.length := by
  unfold State.pinTurned
  split
  · rw [((s.pinLevel j level at_).pinEdge_kept (by rwa [State.pinLevel_length]) at_).2.2, State.pinLevel_length]
  · exact State.pinLevel_length ..

/-- Of all levels and counts only the accepted level changes. -/
theorem State.pinTurned_pin {s : State} {j : Nat} (hj : j < s.pio.pin.length) (level : Bool) (at_ i : Nat) :
    ((s.pinTurned j level at_).pin i).level = (if i = j then level else (s.pin i).level) ∧
      ((s.pinTurned j level at_).pin i).count = (s.pin i).count := by
  have hlevel : ((s.pinLevel j level at_).pin i).level = (if i = j then level else (s.pin i).level) ∧
      ((s.pinLevel j level at_).pin i).count = (s.pin i).count := by
    rw [State.pinLevel_pin s hj]
    split
    · next hi => exact ⟨rfl, by rw [hi]⟩
    · exact ⟨rfl, rfl⟩
  unfold State.pinTurned
  split
  · obtain ⟨hkept, -, -⟩ := (s.pinLevel j level at_).pinEdge_kept (by rwa [State.pinLevel_length]) at_ (j := j)
    exact ⟨(hkept i).1.trans hlevel.1, (hkept i).2.trans hlevel.2⟩
  · exact hlevel

section
variable {s : State} {j : Nat} (hquad : s.pinQuad j = true) (hrun : s.flag (PIO_PINSTAT_RUN (j - j % 2)) = true) (level : Bool) (at_ : Nat)
include hquad hrun

theorem State.pinChange_pair :
    s.pinChange j level at_ false = (s.pinTurned j level at_).pinCount
      (if (s.pinTurned j level at_).pairForward j then j - j % 2 else j - j % 2 + 1) at_ := by
  have hquad' : (s.pinLevel j level at_).pinQuad j = true := hquad
  unfold State.pinChange
  dsimp only
  rw [hquad', State.pinLevel_run, hrun, if_pos (by decide), if_neg (by decide)]
  rfl

/-- Both members change in one cycle: neither direction is counted. -/
theorem State.pinChange_both :
    s.pinChange j level at_ true =
      (((s.pinTurned j level at_).pinTurned (pairOther j) (!((s.pinTurned j level at_).pin (pairOther j)).level) at_).setFlag
        (PIO_PINSTAT_QERR (j - j % 2)) true).event 0x0A05 ((j - j % 2) / 2) .momentary 0 0 0 := by
  have hquad' : (s.pinLevel j level at_).pinQuad j = true := hquad
  unfold State.pinChange
  dsimp only
  rw [hquad', State.pinLevel_run, hrun, if_pos (by decide), if_pos rfl]
  rfl

end

section
variable {s s' : State} {j at_ : Nat} {level : Bool}

theorem exec_pinChangeAccepted_pair (hs : s.Sizes) (hon : s.pdOn 5 = true) (hj : j < 16) (hlevel : (s.pin j).level ≠ level)
    (hstable : ∀ c, (s.pin j).changedAt = some c → c + s.debounce j ≤ at_) (hquad : s.pinQuad j = true)
    (hrun : s.flag (PIO_PINSTAT_RUN (j - j % 2)) = true) (hopen : s.exp.running = false ∨ s.exp.startAt ≤ at_)
    (hs' : s' = s.reach (at_ + s.debounce j)) :
    ∃ t, exec (.pinChangeAccepted j level at_ false) s = .next t ∧ (t.pin j).level = level ∧
      (t.pin (j - j % 2)).count = (s.pin (j - j % 2)).count + (if t.pairForward j then 1 else 0) ∧
      (t.pin (j - j % 2 + 1)).count = (s.pin (j - j % 2 + 1)).count + (if t.pairForward j then 0 else 1) ∧
      s'.Frame t [.inputs] [PIO_PINSTAT j] := by
  obtain ⟨-, -, -, -, -, hpins, -⟩ := hs
  have hlen : j < s'.pio.pin.length := by rw [hs']; exact hpins ▸ hj
  have hpin (i : Nat) : s'.pin i = s.pin i := by rw [hs']; rfl
  have hframe := frame_pinTurned s' j level at_
  have hturned := State.pinTurned_pin hlen level at_
  rw [exec_pinChangeAccepted_accepts hon hj hlevel hstable (by simp), ← hs',
    State.pinChange_pair (by rw [hs']; exact hquad) (by rw [hs']; exact hrun)]
  have hexp : (s'.pinTurned j level at_).exp = s'.exp := hframe.part (p := .exposure) (by simp)
  rw [State.pinCount_open (by rw [hexp, hs']; exact hopen)]
  generalize hu : s'.pinTurned j level at_ = u at hframe hturned
  generalize hk : (if u.pairForward j then j - j % 2 else j - j % 2 + 1) = k
  have hk' : k < u.pio.pin.length := by
    rw [← hu, State.pinTurned_length hlen, hs']
    have : k < 16 := by rw [← hk]; split <;> omega
    exact hpins ▸ this
  have hcounted (b i : Nat) : (((u.modPin k (fun p => { p with count := p.count + 1 })).settle b).pin i).level = (u.pin i).level ∧
      (((u.modPin k (fun p => { p with count := p.count + 1 })).settle b).pin i).count = (s.pin i).count + (if i = k then 1 else 0) := by
    rw [State.settle_pin, State.pin_modPin _ _ hk', ← hpin, ← (hturned i).2]
    split
    · next hi => rw [hi]; exact ⟨rfl, rfl⟩
    · exact ⟨rfl, rfl⟩
  have hforward (b : Nat) : ((u.modPin k (fun p => { p with count := p.count + 1 })).settle b).pairForward j = u.pairForward j := by
    unfold State.pairForward; rw [(hcounted b _).1, (hcounted b _).1]
  refine ⟨_, rfl, ?_, ?_, ?_, ((hframe.seq (frame_modPin u k _)).mono (by simp) (by simp)).settle _⟩
  · rw [(hcounted _ _).1, (hturned j).1, if_pos rfl]
  · rw [(hcounted _ _).2, hforward, ← hk]
    split <;> simp
  · rw [(hcounted _ _).2, hforward, ← hk]
    split <;> simp

theorem exec_pinChangeAccepted_both (hs : s.Sizes) (hon : s.pdOn 5 = true) (hj : j < 16) (hlevel : (s.pin j).level ≠ level)
    (hstable : ∀ c, (s.pin j).changedAt = some c → c + s.debounce j ≤ at_)
    (hother : ∀ c, (s.pin (pairOther j)).changedAt = some c → c + s.debounce j ≤ at_) (hquad : s.pinQuad j = true)
    (hrun : s.flag (PIO_PINSTAT_RUN (j - j % 2)) = true) (hs' : s' = s.reach (at_ + s.debounce j)) :
    ∃ t, exec (.pinChangeAccepted j level at_ true) s = .next t ∧ (t.pin j).level = level ∧
      (t.pin (pairOther j)).level = !(s.pin (pairOther j)).level ∧ t.flag (PIO_PINSTAT_QERR (j - j % 2)) = true ∧
      (t.pin j).count = (s.pin j).count ∧ s'.Frame t [.inputs] [PIO_PINSTAT (j - j % 2), PIO_PINSTAT (j - j % 2 + 1)] := by
  obtain ⟨-, -, -, -, -, hpins, -⟩ := hs
  have hlen : j < s'.pio.pin.length := by rw [hs']; exact hpins ▸ hj
  have hpin (i : Nat) : s'.pin i = s.pin i := by rw [hs']; rfl
  have hmembers : (j = j - j % 2 ∧ pairOther j = j - j % 2 + 1) ∨ (j = j - j % 2 + 1 ∧ pairOther j = j - j % 2) := by
    unfold pairOther; omega
  have hne : pairOther j ≠ j := by omega
  have hturned := State.pinTurned_pin hlen level at_
  rw [exec_pinChangeAccepted_accepts hon hj hlevel hstable (fun _ => hother), ← hs',
    State.pinChange_both (by rw [hs']; exact hquad) (by rw [hs']; exact hrun)]
  have hlen' : pairOther j < (s'.pinTurned j level at_).pio.pin.length := by
    rw [State.pinTurned_length hlen, hs']
    have : pairOther j < 16 := by omega
    exact hpins ▸ this
  have hframe := (frame_pinTurned s' j level at_).seq
    (frame_pinTurned (s'.pinTurned j level at_) (pairOther j) (!((s'.pinTurned j level at_).pin (pairOther j)).level) at_)
  have htwice := State.pinTurned_pin hlen' (!((s'.pinTurned j level at_).pin (pairOther j)).level) at_
  rw [(hturned (pairOther j)).1, if_neg hne, hpin] at hframe htwice ⊢
  generalize (s'.pinTurned j level at_).pinTurned (pairOther j) (!(s.pin (pairOther j)).level) at_ = u at hframe htwice
  have hlast (b i x : Nat) :
      (((u.setFlag (PIO_PINSTAT_QERR (j - j % 2)) true).event 0x0A05 x .momentary 0 0 0).settle b).pin i = u.pin i := by
    rw [State.settle_pin]; exact State.pin_of_part (by simp) i
  refine ⟨_, rfl, ?_, ?_, ?_, ?_, ?_⟩
  · rw [hlast, (htwice j).1, if_neg hne.symm, (hturned j).1, if_pos rfl]
  · rw [hlast, (htwice _).1, if_pos rfl]
  · rw [State.settle_flag (endReg_pin _ (by omega)).1 _ _ _ rfl, State.event_flag]
    exact State.flag_setFlag_self _ (PIO_PINSTAT_QERR _) true (by simp [PIO_PINSTAT_QERR]) (by simp [PIO_PINSTAT_QERR])
  · rw [hlast, (htwice j).2, (hturned j).2, hpin]
  · have hshown := (hframe.seq (frame_setFlag u (PIO_PINSTAT_QERR (j - j % 2)) true)).seq
      (frame_event _ 0x0A05 ((j - j % 2) / 2) .momentary 0 0 0)
    refine (hshown.mono (by simp) ?_).settle _
    have hself : PIO_PINSTAT j ∈ [PIO_PINSTAT (j - j % 2), PIO_PINSTAT (j - j % 2 + 1)] := by
      simp only [PIO_PINSTAT, List.mem_cons, List.not_mem_nil, or_false]; omega
    have hpair : PIO_PINSTAT (pairOther j) ∈ [PIO_PINSTAT (j - j % 2), PIO_PINSTAT (j - j % 2 + 1)] := by
      simp only [PIO_PINSTAT, List.mem_cons, List.not_mem_nil, or_false]; omega
    simp only [PIO_PINSTAT_QERR, List.cons_append, List.nil_append, List.cons_subset, List.nil_subset, and_true]
    exact ⟨hself, hpair, List.mem_cons_self⟩

end

/-! MISSING_PULSE (R238) -/

theorem exec_missingPulse_shown {s s' : State} {j : Nat} (hs : s.Sizes) (hj : j < 16) (hrun : s.flag (PIO_PINSTAT_RUN j) = true)
    (htimeout : s.effGet (PIO_PINWD_TIMEOUT j) ≠ 0) (hnone : (s.pin j).missing = none)
    (hs' : s' = s.reach (max (s.pin j).startedAt ((s.pin j).newest.headD 0) + s.effGet (PIO_PINWD_TIMEOUT j) * msCycles 20)) :
    ∃ t, exec (.missingPulse j) s = .next t ∧ (t.pin j).missing = some s'.ts ∧ t.flag (PIO_PINSTAT_MISSING j) = true ∧
      s'.Frame t [.inputs] [PIO_PINSTAT j] := by
  obtain ⟨-, -, -, -, -, hpins, -⟩ := hs
  have hlen : j < s'.pio.pin.length := by rw [hs']; exact hpins ▸ hj
  have hexec : exec (.missingPulse j) s = .next ((((s'.modPin j (fun p => { p with missing := some s'.ts })).setFlag
      (PIO_PINSTAT_MISSING j) true).event 0x0A04 j .start 0 0 0).settle s.irqLive) := by
    change execMissingPulse j s = _
    unfold execMissingPulse finish
    dsimp only
    rw [if_pos ⟨hrun, htimeout, hnone, hj⟩, ← hs']
  refine ⟨_, hexec, ?_, ?_, ((((frame_modPin s' j _).seq (frame_setFlag _ (PIO_PINSTAT_MISSING j) true)).seq
    (frame_event _ _ _ _ _ _ _)).mono (by simp) (by simp [PIO_PINSTAT_MISSING])).settle _⟩
  · rw [State.settle_pin, State.pin_of_part (t := ((s'.modPin j _).setFlag _ true).event 0x0A04 j .start 0 0 0)
      (s := s'.modPin j (fun p => { p with missing := some s'.ts })) (by simp), State.pin_modPin _ _ hlen, if_pos rfl]
  · rw [State.settle_flag (endReg_pin j hj).1 _ _ _ rfl, State.event_flag]
    exact State.flag_setFlag_self _ (PIO_PINSTAT_MISSING j) true (by simp [PIO_PINSTAT_MISSING]) (by simp [PIO_PINSTAT_MISSING])

end Sys2Proof.Machine

open Sys2Proof.Machine in
/-- Settles O44: a level held for DEB is accepted and counted by its input or pair, a shorter one is not, and a missing pulse is shown. -/
theorem pulseInputsCount : Obligations.PulseInputsCount := by
  unfold Obligations.PulseInputsCount
  refine fun s j at_ level hj hs hon => ⟨?_, ?_, ?_, ?_⟩
  · intro hlevel hstable hquad hrun s' hs'
    exact exec_pinChangeAccepted_single hs hon hj hlevel hstable hquad hrun hs'
  · intro _ hshort hchanged both
    exact ⟨_, exec_pinChangeAccepted_ignored hshort hchanged, (State.Frame.refl s [] []).settle _⟩
  · intro hlevel hstable hquad hrun hopen
    have hself : ∀ c, (s.pin j).changedAt = some c → c + s.debounce j ≤ at_ := hstable j (by simp; omega)
    have hother : ∀ c, (s.pin (pairOther j)).changedAt = some c → c + s.debounce j ≤ at_ :=
      hstable (pairOther j) (by unfold pairOther; simp; omega)
    refine ⟨fun s' hs' => ?_, fun s' hs' => exec_pinChangeAccepted_both hs hon hj hlevel hself hother hquad hrun hs'⟩
    obtain ⟨t, hexec, hshown, hfirst, hsecond, hframe⟩ :=
      exec_pinChangeAccepted_pair hs hon hj hlevel hself hquad hrun hopen hs'
    refine ⟨t, hexec, hshown, ?_, hframe⟩
    simp only [State.pairForward] at hfirst hsecond
    exact ⟨hfirst, hsecond⟩
  · intro hrun htimeout hnone s' hs'
    exact exec_missingPulse_shown hs hj hrun htimeout hnone hs'

end
